-- ==== Sys2Proof/Word.lean ====
section
/-! DEFINITION. The word types of the T9 (00_scope R3 to R6): a byte, a 64-bit register or doubleword,
and a 128-bit slot word. -/

namespace Sys2Proof

/-- One byte of memory. -/
abbrev Byte := BitVec 8

/-- A 64-bit register, scalar payload, tag or doubleword. -/
abbrev Word := BitVec 64

/-- A 128-bit slot word (R67). -/
abbrev SlotWord := BitVec 128

/-- A partial function as a list of entries with rising keys; keys not listed read as a default value. -/
abbrev Tbl (α : Type) := List (Nat × α)

/-- Bytes by address (Host.Cell), in the canonical form of `Tbl`. -/
abbrev Memory := Tbl Byte

end Sys2Proof
end

