-- ==== Sys2Proof/Machine/Bits.lean ====
section
/-! DEFINITION. Bit fields, sign extension and byte order (00_scope R3, R4), shared by the decoder and the machine. -/

namespace Sys2Proof.Machine

/-- Bits lo + len - 1 : lo of a bit vector. -/
def fld {n : Nat} (w : BitVec n) (lo len : Nat) : BitVec len := w.extractLsb' lo len

/-- Bits lo + len - 1 : lo of a bit vector, as a number. -/
def nfld {n : Nat} (w : BitVec n) (lo len : Nat) : Nat := w.toNat / 2 ^ lo % 2 ^ len

/-- One bit of a bit vector. -/
def bit {n : Nat} (w : BitVec n) (i : Nat) : Bool := w.getLsbD i

/-- A one-bit number. -/
def b2n (b : Bool) : Nat := if b then 1 else 0

/-- A number made of fields (low bit, width, value); values are cut to their widths. -/
def packNat : List (Nat × Nat × Nat) → Nat
  | [] => 0
  | (lo, len, v) :: fs => v % 2 ^ len * 2 ^ lo + packNat fs

/-- A bit vector made of non-overlapping fields (low bit, width, value). -/
def pack (n : Nat) (fs : List (Nat × Nat × Nat)) : BitVec n := BitVec.ofNat n (packNat fs)

/-- Replaces bits lo + len - 1 : lo. -/
def setFld {n : Nat} (w : BitVec n) (lo len v : Nat) : BitVec n :=
  BitVec.ofNat n (w.toNat - nfld w lo len * 2 ^ lo + v % 2 ^ len * 2 ^ lo)

/-- The signed value of a `w`-bit number. -/
def sval (w n : Nat) : Int := if n % 2 ^ w < 2 ^ (w - 1) then (n % 2 ^ w : Nat) else (n % 2 ^ w : Nat) - (2 ^ w : Nat)

/-- The low `w` bits of an integer, as a number (two's complement). -/
def wrapInt (w : Nat) (i : Int) : Nat := (i % (2 ^ w : Nat)).toNat

/-- Sign-extends the low `w` bits of a number to a 64-bit word. -/
def sextN (w n : Nat) : Word := BitVec.ofInt 64 (sval w n)

/-- Zero-extends the low `w` bits of a number to a 64-bit word. -/
def zextN (w n : Nat) : Word := BitVec.ofNat 64 (n % 2 ^ w)

/-- The bytes of a number, least significant first (R4). -/
def toBytes (v : Nat) : Nat → List Byte
  | 0 => []
  | n + 1 => BitVec.ofNat 8 v :: toBytes (v / 256) n

/-- The number whose bytes, least significant first, are given (R4). -/
def ofBytes : List Byte → Nat
  | [] => 0
  | b :: bs => b.toNat + 256 * ofBytes bs

/-- The bytes of a bit vector, least significant first. -/
def bvBytes {n : Nat} (w : BitVec n) (k : Nat) : List Byte := toBytes w.toNat k

/-- All ones. -/
def ones64 : Word := BitVec.allOnes 64

/-- The largest whole number at or above n / d. -/
def ceilDiv (n d : Nat) : Nat := (n + d - 1) / d

/-- The numbers from `a` upward, `n` of them. -/
def rangeFrom (a : Nat) : Nat → List Nat
  | 0 => []
  | n + 1 => a :: rangeFrom (a + 1) n

end Sys2Proof.Machine
end

