-- ==== Sys2Proof/Machine/Aes.lean ====
section
/-! DEFINITION. AES-256 and AES-CMAC (FIPS 197, SP 800-38B), by which the check field of a view handle is formed (14 R384). Bytes are
numbers below 256; a block is a list of 16. -/

namespace Sys2Proof.Machine

/-- The substitution box, 32 entries to a row, the first in the low byte. -/
def sboxRow (n : Nat) : Nat :=
  match n with
  | 0 => 0xC072A49CAFA2D4ADF04759FA7DC982CA76ABD7FE2B670130C56F6BF27B777C63
  | 1 => 0x75B227EBE28012079A059618C323C7041531D871F1E5A534CCF73F362693FDB7
  | 2 => 0xCF584C4A39BECB6A5BB1FC20ED00D153842FE329B3D63B52A05A6E1B1A2C8309
  | 3 => 0xD2F3FF1021DAB6BCF5389D928F40A351A89F3C507F02F94585334D43FBAAEFD0
  | 4 => 0xDB0B5EDE14B8EE4688902A22DC4F816073195D643D7EA7C41744975FEC130CCD
  | 5 => 0x08AE7A65EAF4566CA94ED58D6D37C8E779E4959162ACD3C25C2406490A3A32E0
  | 6 => 0x9E1DC186B95735610EF6034866B53E708A8BBD4B1F74DDE8C6B4A61C2E2578BA
  | _ => 0x16BB54B00F2D99416842E6BF0D89A18CDF2855CEE9871E9B948ED9691198F8E1
/-- The substitution of a byte. -/
def sbox (b : Nat) : Nat := sboxRow (b / 32) / 256 ^ (b % 32) % 256
/-- Exclusive or of two lists of bytes. -/
def xorBytes : List Nat → List Nat → List Nat
  | a :: as, b :: bs => Nat.xor a b :: xorBytes as bs
  | _, _ => []
/-- Doubles a byte in the field of 2^8 elements. -/
def xtime (b : Nat) : Nat := if b < 128 then 2 * b else Nat.xor (2 * b) 0x11B
/-- Element i of a list of bytes. -/
def at0 : List Nat → Nat → Nat
  | [], _ => 0
  | x :: _, 0 => x
  | _ :: l, n + 1 => at0 l n

/-! ### The key schedule -/

/-- The next four bytes of the schedule, whose last 32 bytes, newest word first, are given; `i` is the number of the word. -/
def keyWord (w : List (List Nat)) (i : Nat) : List (List Nat) :=
  let last := w.headD []
  let t :=
    if i % 8 = 0 then xorBytes [sbox (at0 last 1), sbox (at0 last 2), sbox (at0 last 3), sbox (at0 last 0)] [2 ^ (i / 8 - 1), 0, 0, 0]
    else if i % 8 = 4 then last.map sbox else last
  xorBytes ((w.drop 7).headD []) t :: w
/-- Four bytes at a time. -/
def fours : Nat → List Nat → List (List Nat)
  | 0, _ => []
  | n + 1, l => l.take 4 :: fours n (l.drop 4)
/-- The 240 bytes of the schedule of a 32-byte key. -/
def keySchedule (key : List Nat) : List Nat := ((rangeFrom 8 52).foldl keyWord (fours 8 key).reverse).reverse.flatten

/-! ### The cipher -/

/-- Rows shifted: byte r + 4c comes from column c + r. -/
def shiftRows (b : List Nat) : List Nat := (rangeFrom 0 16).map fun i => at0 b (i % 4 + 4 * ((i / 4 + i % 4) % 4))
/-- One column mixed. -/
def mixColumn (c : List Nat) : List Nat :=
  let a := at0 c
  (rangeFrom 0 4).map fun r =>
    Nat.xor (Nat.xor (xtime (a r)) (Nat.xor (xtime (a ((r + 1) % 4))) (a ((r + 1) % 4)))) (Nat.xor (a ((r + 2) % 4)) (a ((r + 3) % 4)))
/-- One round with its 16 bytes of the schedule; the last mixes no columns. -/
def aesRound (b ks : List Nat) (last : Bool) : List Nat :=
  let s := shiftRows (b.map sbox)
  xorBytes (if last then s else ((fours 4 s).map mixColumn).flatten) ks
/-- The rounds left, with what is left of the schedule. -/
def aesRounds : Nat → List Nat → List Nat → List Nat
  | 0, b, _ => b
  | n + 1, b, ks => aesRounds n (aesRound b (ks.take 16) (n == 0)) (ks.drop 16)
/-- AES-256 of a block under a key schedule. -/
def aesBlock (ks b : List Nat) : List Nat := aesRounds 14 (xorBytes b (ks.take 16)) (ks.drop 16)

/-! ### AES-CMAC (R384) -/

/-- A block as a number, first byte highest, and back. -/
def blockNat (b : List Nat) : Nat := b.foldl (fun n x => 256 * n + x) 0
def natBlock (n : Nat) : List Nat := (rangeFrom 0 16).map fun i => n / 256 ^ (15 - i) % 256
/-- Doubles a block in the field of 2^128 elements. -/
def doubleBlock (n : Nat) : Nat := if n < 2 ^ 127 then 2 * n else Nat.xor (2 * n % 2 ^ 128) 0x87
/-- AES-CMAC of a message shorter than a block. -/
def cmacShort (key msg : List Nat) : List Nat :=
  let ks := keySchedule key
  let k2 := doubleBlock (doubleBlock (blockNat (aesBlock ks (List.replicate 16 0))))
  aesBlock ks (xorBytes (msg ++ 0x80 :: List.replicate (15 - msg.length) 0) (natBlock k2))
/-- The bytes of a number, least significant first (R4). -/
def natBytes (v : Nat) (n : Nat) : List Nat := (rangeFrom 0 n).map fun i => v / 256 ^ i % 256
/-- The check field of a handle: the first two bytes of the MAC over bits 63:16 under the view key, whose bytes stand least significant first as
R4 has them (R384; DEDUCED, log entry 100). -/
@[irreducible] def cmac16 (key : BitVec 256) (h : BitVec 48) : BitVec 16 :=
  let m := cmacShort (natBytes key.toNat 32) (natBytes h.toNat 6)
  BitVec.ofNat 16 (at0 m 0 + 256 * at0 m 1)

end Sys2Proof.Machine
end

