-- ==== Sys2Proof/Config.lean ====
section
/-! DEFINITION. What one part or one run fixes and the spec leaves open: constants and functions WITHOUT a body.
Nothing in Lean can evaluate them, so a claim about them holds for every value (log entries 2, 5, 11, 14, 15). -/

namespace Sys2Proof.Config

/-- A value the spec leaves undefined; the argument is the counter `State.fresh` (log entry 2). -/
opaque freeValue : Nat → BitVec 64

/-- The byte at an address written under one key slot and read under another (AES-256-XTS, R451). -/
opaque xtsByte : BitVec 8 → BitVec 8 → Nat → Byte → Byte

/-- SHA-512 of a list of bytes, as the 512-bit number of R95 (R99, R477). -/
opaque sha512 : List Byte → BitVec 512

/-- Whether a P-521 signature over bytes verifies under a public key of a key store entry (R95, R480). -/
opaque ecdsaVerify : BitVec 1056 → List Byte → BitVec 1056 → Bool

/-- The attestation signature of the part over bytes (R467, R481). -/
opaque attestSign : List Byte → BitVec 1056

/-- The attestation public key of the part (R472). -/
opaque attestKey : BitVec 1056

/-- The fused vendor key of stage 1 (R475). -/
opaque fusedKey : BitVec 1056

/-- The vendor key that a stage 1 image names for a later stage (R475): the digest of what stage 1 measured and the stage to the public key. -/
opaque vendorKey : BitVec 512 → Nat → BitVec 1056

/-- The 60 bytes of the sealed section for a view key, a key slot and header bytes (R468). -/
opaque sealSection : BitVec 256 → BitVec 8 → List Byte → List Byte

/-- Opening a sealed section under a key slot and header bytes: the view key, or none (R472). -/
opaque openSection : List Byte → BitVec 8 → List Byte → Option (BitVec 256)

/-- Unwrapping a wrapped key of LOADKEY: whether the wrapping is good (R447). -/
opaque unwrapOk : List Byte → Bool

/-- The frames that the hypervisor firmware gives the frame pool of a partition when it creates it (R381). -/
opaque framePool : Nat → List Nat

/-- The device identity of the part (R448, R467). -/
opaque devId : BitVec 32

/-- The certificate chain of slot 0 (R481). -/
opaque certChain : List Byte

/-- The part's public share of a key exchange, by transport and session (R481). -/
opaque dheShare : Nat → Nat → List Byte

/-- The session key of a key exchange from the requester's share, by transport and session (R481). -/
opaque dheSecret : Nat → Nat → List Byte → BitVec 256

/-- The key that follows a session key at a KEY_UPDATE (R481). -/
opaque nextKey : BitVec 256 → BitVec 256

end Sys2Proof.Config
end

