-- ==== Sys2Proof/Machine/Table.lean ====
section
/-! DEFINITION. Tables: lists of (key, value) with strictly rising keys, in which no entry holds the value that an
unlisted key reads as. Equal tables are equal lists. Memory is a table of bytes. -/

namespace Sys2Proof.Machine

/-- The value at a key; `d` where the key is not listed. -/
def tget {α : Type} (d : α) : Tbl α → Nat → α
  | [], _ => d
  | (k, v) :: t, i => if k = i then v else tget d t i

/-- The table without a key. -/
def tdel {α : Type} (t : Tbl α) (i : Nat) : Tbl α := t.filter fun e => e.1 != i

/-- Writes a value at a key, keeping the canonical form: writing the default removes the entry. -/
def tset {α : Type} [DecidableEq α] (d : α) : Tbl α → Nat → α → Tbl α
  | [], i, v => if v = d then [] else [(i, v)]
  | (k, w) :: t, i, v =>
    if i < k then (if v = d then (k, w) :: tdel t i else (i, v) :: (k, w) :: t)
    else if k = i then (if v = d then tdel t i else (i, v) :: t)
    else (k, w) :: tset d t i v

/-- Applies a function to the value at a key. -/
def tmod {α : Type} [DecidableEq α] (d : α) (t : Tbl α) (i : Nat) (f : α → α) : Tbl α :=
  tset d t i (f (tget d t i))

/-- Every key of the table is at least `lo`, the keys rise strictly, and no value is the default. -/
def twfFrom {α : Type} [DecidableEq α] (d : α) : Nat → Tbl α → Bool
  | _, [] => true
  | lo, (k, v) :: t => decide (lo ≤ k) && decide (v ≠ d) && twfFrom d (k + 1) t

/-- The canonical form of a table. -/
def twf {α : Type} [DecidableEq α] (d : α) (t : Tbl α) : Bool := twfFrom d 0 t

/-- Removes the entries whose keys a test selects. -/
def tdrop {α : Type} (p : Nat → Bool) (t : Tbl α) : Tbl α := t.filter fun e => !p e.1

/-- The least key from `n` numbers starting at `i` that satisfies a test. -/
def firstKey (p : Nat → Bool) : Nat → Nat → Option Nat
  | _, 0 => none
  | i, n + 1 => if p i then some i else firstKey p (i + 1) n

/-- The byte an address reads as when nothing has written it (log entry 4). -/
def emptyByte : Byte := 0

/-- The canonical form of memory. -/
def Memory.wf (m : Memory) : Bool := twf emptyByte m

/-- One byte of memory. -/
def mget (m : Memory) (a : Nat) : Byte := tget emptyByte m a

/-- Writes one byte. -/
def mset (m : Memory) (a : Nat) (b : Byte) : Memory := tset emptyByte m a b

/-- `n` bytes from an address, lowest first. -/
def mgetN (m : Memory) (a : Nat) : Nat → List Byte
  | 0 => []
  | n + 1 => mget m a :: mgetN m (a + 1) n

/-- Writes bytes from an address upward. -/
def msetN (m : Memory) (a : Nat) : List Byte → Memory
  | [] => m
  | b :: bs => msetN (mset m a b) (a + 1) bs

/-- The `i`-th element of a list, or a default (structural). -/
def nth {α : Type} (d : α) : List α → Nat → α
  | [], _ => d
  | x :: _, 0 => x
  | _ :: xs, n + 1 => nth d xs n

/-- Replaces the `i`-th element of a list, if there is one. -/
def setNth {α : Type} : List α → Nat → α → List α
  | [], _, _ => []
  | _ :: xs, 0, y => y :: xs
  | x :: xs, n + 1, y => x :: setNth xs n y

/-- Removes the `i`-th element of a list, if there is one. -/
def dropNth {α : Type} : List α → Nat → List α
  | [], _ => []
  | _ :: xs, 0 => xs
  | x :: xs, n + 1 => x :: dropNth xs n

/-- The `i`-th element of a list, if there is one. -/
def nth? {α : Type} : List α → Nat → Option α
  | [], _ => none
  | x :: _, 0 => some x
  | _ :: xs, n + 1 => nth? xs n

/-- The index of the first element that satisfies a test. -/
def findIdx? {α : Type} (p : α → Bool) : List α → Nat → Option Nat
  | [], _ => none
  | x :: xs, i => if p x then some i else findIdx? p xs (i + 1)

end Sys2Proof.Machine
end

