-- ==== Sys2Proof/Syntax.lean ====
section
/-! DEFINITION. The operations of the T9: every slot-word instruction of Table 3.9 (with one constructor per variant that
spec/opcode_table.json lists), each with its operand fields, and, after them, every event of the device that the table lists. -/

namespace Sys2Proof

/-- Type codes (Table 3.6). -/
inductive Ty where
  | x64 | i32 | u32 | i64 | u64 | i16 | i8 | u8 | bf16 | f16 | f32 | q8 | q4 | pred | tile | view
  deriving DecidableEq, Repr, Inhabited

/-- Operand specifiers (Table 3.2). -/
inductive Opnd where
  /-- Token port p0 to p2. -/
  | port (n : BitVec 2)
  /-- Register kN in the fabric, wN on a steward. -/
  | reg (n : BitVec 10)
  /-- Signed 10-bit literal. -/
  | lit (v : BitVec 10)
  /-- Accumulator acc0 to acc15. -/
  | acc (n : BitVec 4)
  /-- Buffer b0 to b31. -/
  | buf (n : BitVec 5)
  /-- The IMM field (code 0x100). -/
  | imm
  /-- No operand (code 0x3FF). -/
  | none
  deriving DecidableEq, Repr, Inhabited

/-- The fields of a slot word other than OPC and FN (Table 3.1). The targets stay as their 24 bits, because the two
forms read them differently (R81). -/
structure Ops where
  /-- TY. -/
  ty : Ty
  /-- SA. -/
  a : Opnd
  /-- SB. -/
  b : Opnd
  /-- SC. -/
  c : Opnd
  /-- T0. -/
  t0 : BitVec 24
  /-- T1. -/
  t1 : BitVec 24
  /-- FL (Table 3.5). -/
  fl : BitVec 12
  /-- IMM. -/
  imm : BitVec 16
  deriving DecidableEq, Repr, Inhabited

/-- A fabric target (Tables 3.3 and 3.4). -/
inductive Target where
  /-- Kind 0b00: element-relative. -/
  | elem (dx dy : BitVec 6) (slot : BitVec 7) (port : BitVec 2)
  /-- Kind 0b11: same element. -/
  | here (slot : BitVec 7) (port : BitVec 2)
  /-- Kind 0b01: exit port. -/
  | exit (x : BitVec 4)
  /-- Kind 0b10: port element. -/
  | pelem (p : BitVec 7)
  deriving DecidableEq, Repr, Inhabited

/-- The two readings of a slot word (R81). -/
inductive Form where
  | fabric | steward
  deriving DecidableEq, Repr, Inhabited

/-- The rows of spec/opcode_table.json. A constructor with `Ops` is a slot-word instruction; every other is an event of
the device, whose operands name the place where it happens or carry what arrives from outside: e an element (48y + x),
t a steward thread, k an index into the list of pending work it acts on, p a partition, f a function (64 the physical
function), q a queue slot or queue, l a link port, d a die, r a region, x an SPDM transport (0 DOE, 1 side band). -/
inductive Instr where
  /-- On a steward, NOP changes only the program counter; in the fabric it never fires (R113). -/
  | nop (o : Ops)
  /-- Sends the p0 token unchanged to T0 and to T1 (R114). -/
  | copy (o : Ops)
  /-- Routes the data token to T0 or T1 according to the predicate (R117). -/
  | steer (o : Ops)
  /-- Forwards each token that arrives at p0 or p1 on its own, unpaired (R118). -/
  | merge (o : Ops)
  /-- Holds the p0 token until a token with an equal tag reaches p1, then sends the p0 payload (R115). -/
  | gate (o : Ops)
  /-- Consumes its token and sends nothing (R116). -/
  | sink (o : Ops)
  /-- Sends a token with the same tag, payload 0 and NL set (R119). -/
  | nullt (o : Ops)
  /-- Counts n tokens of one tag and then fires once with the sum of their payloads (R120). -/
  | joinn (o : Ops)
  /-- Takes a start token and begins a stream of n iterations, ending with a done token (R122). -/
  | iter (o : Ops)
  /-- Sends the p0 payload with ITER replaced by bits 23:0 of p1 (R126). -/
  | tagset (o : Ops)
  /-- Sends the p0 tag shifted right by 6 as a u64 scalar (R127). -/
  | tagget (o : Ops)
  /-- Sends the p0 payload with KEY replaced by bits 15:0 of p1 (R126). -/
  | keyset (o : Ops)
  /-- Sends the KEY of p0 as a u64 scalar (R127). -/
  | keyget (o : Ops)
  /-- Sends a token of the current entry generation to T0 and a stale token to T1 (R128). -/
  | genchk (o : Ops)
  /-- Sends the p0 token with ITER advanced by d (R125). -/
  | delay (o : Ops)
  /-- Delivers a token admitted at entry port n, with COL, CTX and GEN stamped (R129). -/
  | entry (o : Ops)
  /-- Consumes its token and writes a user event into the partition's event queue (R131). -/
  | emit (o : Ops)
  /-- Sends tokens in ascending iteration order against the NEXT value of each colour (R121). -/
  | bar (o : Ops)
  /-- Unconditional relative branch (R134). -/
  | br (o : Ops)
  /-- Branches when a equals b (R134). -/
  | brcEq (o : Ops)
  /-- Branches when a differs from b (R134). -/
  | brcNe (o : Ops)
  /-- Branches when a is less than b, compared as signed values (R134). -/
  | brcLt (o : Ops)
  /-- Branches when a is greater than or equal to b, compared as signed values (R134). -/
  | brcGe (o : Ops)
  /-- Branches when a is less than b, compared as unsigned values (R134). -/
  | brcLtu (o : Ops)
  /-- Branches when a is greater than or equal to b, compared as unsigned values (R134). -/
  | brcGeu (o : Ops)
  /-- Writes PC + 1 into wD and branches (R134). -/
  | call (o : Ops)
  /-- Sets PC to the value in wA (R134). -/
  | ret (o : Ops)
  /-- Offers one token to an entry port and writes the admission status (R135). -/
  | sendt (o : Ops)
  /-- Takes the oldest token from an exit port, or the oldest entry from the event port (R136). -/
  | waitt (o : Ops)
  /-- Stops the thread and writes a halt event (R137). -/
  | halt (o : Ops)
  /-- Steward load from a virtual address (R138). -/
  | ld (o : Ops)
  /-- Steward store to a virtual address (R138). -/
  | st (o : Ops)
  /-- Loads the immediate value (R140). -/
  | li (o : Ops)
  /-- Wrapping addition (R140). -/
  | add (o : Ops)
  /-- Wrapping subtraction (R140). -/
  | sub (o : Ops)
  /-- Addition clamped to the range of the type (R37). -/
  | adds (o : Ops)
  /-- Subtraction clamped to the range of the type (R37). -/
  | subs (o : Ops)
  /-- Wrapping negation (R140). -/
  | neg (o : Ops)
  /-- Signed absolute value, wrapping (R140). -/
  | abs (o : Ops)
  /-- Low w bits of the product (R140). -/
  | mul (o : Ops)
  /-- High w bits of the signed product (R140). -/
  | mulh (o : Ops)
  /-- High w bits of the unsigned product (R140). -/
  | mulhu (o : Ops)
  /-- Low w bits of a x b + c (R140). -/
  | mad (o : Ops)
  /-- Signed quotient, with defined results for the special cases (R37). -/
  | div (o : Ops)
  /-- Unsigned quotient (R37). -/
  | divu (o : Ops)
  /-- Signed remainder (R37). -/
  | rem (o : Ops)
  /-- Unsigned remainder (R37). -/
  | remu (o : Ops)
  /-- Signed minimum (R140). -/
  | min (o : Ops)
  /-- Signed maximum (R140). -/
  | max (o : Ops)
  /-- Unsigned minimum (R140). -/
  | minu (o : Ops)
  /-- Unsigned maximum (R140). -/
  | maxu (o : Ops)
  /-- Bitwise AND (R140). -/
  | and (o : Ops)
  /-- Bitwise OR (R140). -/
  | or (o : Ops)
  /-- Bitwise exclusive OR (R140). -/
  | xor (o : Ops)
  /-- a AND NOT b (R140). -/
  | andn (o : Ops)
  /-- Bitwise NOT (R140). -/
  | not (o : Ops)
  /-- Shift left by b mod w (R140). -/
  | shl (o : Ops)
  /-- Logical shift right (R140). -/
  | shr (o : Ops)
  /-- Arithmetic shift right (R140). -/
  | sar (o : Ops)
  /-- Rotate left (R140). -/
  | rol (o : Ops)
  /-- Counts leading zeros (R140). -/
  | clz (o : Ops)
  /-- Counts trailing zeros (R140). -/
  | ctz (o : Ops)
  /-- Counts the one bits (R140). -/
  | popc (o : Ops)
  /-- Reverses the byte order (R140). -/
  | bswap (o : Ops)
  /-- Extracts a bit field (R141). -/
  | bfx (o : Ops)
  /-- Inserts a bit field (R141). -/
  | bfi (o : Ops)
  /-- Sign-extends from bit n (R141). -/
  | sext (o : Ops)
  /-- Zero-extends from bit n (R141). -/
  | zext (o : Ops)
  /-- Integer compare for equality; yields a pred (R140). -/
  | cmpEq (o : Ops)
  /-- Integer compare for inequality; yields a pred (R140). -/
  | cmpNe (o : Ops)
  /-- Signed less-than compare (R140). -/
  | cmpLt (o : Ops)
  /-- Signed less-or-equal compare (R140). -/
  | cmpLe (o : Ops)
  /-- Signed greater-than compare (R140). -/
  | cmpGt (o : Ops)
  /-- Signed greater-or-equal compare (R140). -/
  | cmpGe (o : Ops)
  /-- Unsigned less-than compare (R140). -/
  | cmpLtu (o : Ops)
  /-- Unsigned less-or-equal compare (R140). -/
  | cmpLeu (o : Ops)
  /-- Unsigned greater-than compare (R140). -/
  | cmpGtu (o : Ops)
  /-- Unsigned greater-or-equal compare (R140). -/
  | cmpGeu (o : Ops)
  /-- Selects a or b by bit 0 of the predicate (R140). -/
  | sel (o : Ops)
  /-- Computes a + (b << c), wrapping (R140). -/
  | addx (o : Ops)
  /-- Advances a CRC-32C state over 1, 4 or 8 bytes (R142). -/
  | crc (o : Ops)
  /-- Applies one round of the noise mixer (R143). -/
  | mix (o : Ops)
  /-- Correctly rounded floating-point addition (R149). -/
  | fadd (o : Ops)
  /-- Correctly rounded floating-point subtraction (R149). -/
  | fsub (o : Ops)
  /-- Correctly rounded floating-point multiplication (R149). -/
  | fmul (o : Ops)
  /-- Fused multiply-add with one rounding (R149). -/
  | ffma (o : Ops)
  /-- Correctly rounded floating-point division (R149). -/
  | fdiv (o : Ops)
  /-- Square root (R149). -/
  | fsqrt (o : Ops)
  /-- Reciprocal square root (R149). -/
  | frsq (o : Ops)
  /-- Reciprocal (R149). -/
  | frcp (o : Ops)
  /-- Power of two (R149). -/
  | fexp2 (o : Ops)
  /-- Base-2 logarithm (R149). -/
  | flog2 (o : Ops)
  /-- Returns the lesser operand under R50 (R150). -/
  | fmin (o : Ops)
  /-- Returns the greater operand under R50 (R150). -/
  | fmax (o : Ops)
  /-- Clears the sign bit (R150). -/
  | fabs (o : Ops)
  /-- Inverts the sign bit (R150). -/
  | fneg (o : Ops)
  /-- Floating-point equality compare (R151). -/
  | fcmpEq (o : Ops)
  /-- Floating-point inequality compare; true for a NaN operand (R151). -/
  | fcmpNe (o : Ops)
  /-- Floating-point less-than compare (R151). -/
  | fcmpLt (o : Ops)
  /-- Floating-point less-or-equal compare (R151). -/
  | fcmpLe (o : Ops)
  /-- Floating-point greater-than compare (R151). -/
  | fcmpGt (o : Ops)
  /-- Floating-point greater-or-equal compare (R151). -/
  | fcmpGe (o : Ops)
  /-- Unordered test; true when either operand is a NaN (R151). -/
  | fcmpUn (o : Ops)
  /-- Classifies a floating-point value into one bit (R152). -/
  | fclass (o : Ops)
  /-- Converts from the source type to TY (R153). -/
  | fcvt (o : Ops)
  /-- Rounds to an integral value in the same format (R154). -/
  | fround (o : Ops)
  /-- Returns the higher-ranking of two value-index pairs (R156). -/
  | maxi (o : Ops)
  /-- Lane-wise addition into a buffer slot (R168). -/
  | vadd (o : Ops)
  /-- Lane-wise subtraction (R168). -/
  | vsub (o : Ops)
  /-- Lane-wise multiplication (R168). -/
  | vmul (o : Ops)
  /-- Lane-wise fused multiply-add (R168). -/
  | vfma (o : Ops)
  /-- Lane-wise minimum (R168). -/
  | vmin (o : Ops)
  /-- Lane-wise maximum (R168). -/
  | vmax (o : Ops)
  /-- Lane-wise absolute value (R168). -/
  | vabs (o : Ops)
  /-- Lane-wise power of two (R168). -/
  | vexp2 (o : Ops)
  /-- Lane-wise base-2 logarithm (R168). -/
  | vlog2 (o : Ops)
  /-- Lane-wise reciprocal (R168). -/
  | vrcp (o : Ops)
  /-- Lane-wise reciprocal square root (R168). -/
  | vrsq (o : Ops)
  /-- Lane-wise conversion from SRCT to TY (R168). -/
  | vcvt (o : Ops)
  /-- Quantises lanes to q8 or q4 (R55). -/
  | vqnt (o : Ops)
  /-- Dequantises q8 or q4 lanes (R54). -/
  | vdqnt (o : Ops)
  /-- Lane-wise equality compare into u8 lanes (R169). -/
  | vcmpEq (o : Ops)
  /-- Lane-wise inequality compare (R169). -/
  | vcmpNe (o : Ops)
  /-- Lane-wise less-than compare (R169). -/
  | vcmpLt (o : Ops)
  /-- Lane-wise less-or-equal compare (R169). -/
  | vcmpLe (o : Ops)
  /-- Lane-wise greater-than compare (R169). -/
  | vcmpGt (o : Ops)
  /-- Lane-wise greater-or-equal compare (R169). -/
  | vcmpGe (o : Ops)
  /-- Lane-wise unordered test on fp lanes (R169). -/
  | vcmpUn (o : Ops)
  /-- Lane-wise select by predicate lanes (R169). -/
  | vsel (o : Ops)
  /-- Reduces the lanes to their sum (R170). -/
  | vredSum (o : Ops)
  /-- Reduces the lanes to their minimum (R170). -/
  | vredMin (o : Ops)
  /-- Reduces the lanes to their maximum (R170). -/
  | vredMax (o : Ops)
  /-- Prefix sum, each lane rounded once (R171). -/
  | vscanSum (o : Ops)
  /-- Prefix minimum (R171). -/
  | vscanMin (o : Ops)
  /-- Prefix maximum (R171). -/
  | vscanMax (o : Ops)
  /-- Returns the value-index pair of the highest-ranking lane (R172). -/
  | vmaxi (o : Ops)
  /-- Adds Gumbel noise to each lane (R173). -/
  | vnoise (o : Ops)
  /-- Broadcasts a scalar to L lines of lanes (R174). -/
  | vbcast (o : Ops)
  /-- Permutes lanes by an index vector (R174). -/
  | vperm (o : Ops)
  /-- Multiplies two float or i8 tiles into an accumulator (R181). -/
  | tmma (o : Ops)
  /-- Multiplies two quantised tiles into an accumulator by groups (R182). -/
  | tmmq (o : Ops)
  /-- Clears an accumulator and takes its ownership (R180). -/
  | tclr (o : Ops)
  /-- Adds a tile into an accumulator (R183). -/
  | tacc (o : Ops)
  /-- Writes an accumulator out as a tile (R184). -/
  | tdrain (o : Ops)
  /-- Transposes a tile (R185). -/
  | ttrn (o : Ops)
  /-- Converts the elements of a tile (R185). -/
  | tcvt (o : Ops)
  /-- Rewrites a slot header in place (R186). -/
  | thdr (o : Ops)
  /-- Computes one step of a linear recurrence over tiles (R187). -/
  | trec (o : Ops)
  /-- Reduces a tile along one axis (R188). -/
  | tred (o : Ops)
  /-- Returns the indices of the k best bf16 lanes (R189). -/
  | race (o : Ops)
  /-- Sends a tile as a tile packet to each target (R190). -/
  | tsend (o : Ops)
  /-- A start token opens a streaming region of the address generator (R199). -/
  | agen (o : Ops)
  /-- Streaming load at the iteration's stream position (R204). -/
  | lds (o : Ops)
  /-- Streaming store into the round store buffer (R205). -/
  | sts (o : Ops)
  /-- Random load at index j (R204). -/
  | ldr (o : Ops)
  /-- Random store at index j (R205). -/
  | str (o : Ops)
  /-- Atomic add at the port (R206). -/
  | updAdd (o : Ops)
  /-- Atomic minimum (R206). -/
  | updMin (o : Ops)
  /-- Atomic maximum (R206). -/
  | updMax (o : Ops)
  /-- Atomic OR (R206). -/
  | updOr (o : Ops)
  /-- Atomic AND (R206). -/
  | updAnd (o : Ops)
  /-- Atomic exchange (R206). -/
  | updXchg (o : Ops)
  /-- Atomic compare and swap (R206). -/
  | updCas (o : Ops)
  /-- Acquire load at a scope (R207). -/
  | acqld (o : Ops)
  /-- Release store at a scope (R207). -/
  | relst (o : Ops)
  /-- Splits a chain into two (R208). -/
  | ofork (o : Ops)
  /-- Joins two chains into one (R208). -/
  | ojoin (o : Ops)
  /-- Translates a virtual address and sends a frame token (R209). -/
  | xlat (o : Ops)
  /-- Overwrites one field of an AGEN's working copy (R202). -/
  | param (o : Ops)
  /-- Allocates a buffer (R213). -/
  | bfal (o : Ops)
  /-- Frees a buffer (R214). -/
  | bffr (o : Ops)
  /-- Changes a buffer's LIFE and KEEP (R215). -/
  | bflife (o : Ops)
  /-- Writes an element into a buffer slot (R217). -/
  | bfwr (o : Ops)
  /-- Reads an element from a referenced slot (R218). -/
  | bfrd (o : Ops)
  /-- Returns the status word of a slot (R219). -/
  | bfqry (o : Ops)
  /-- Re-stamps named slots without changing their data (R220). -/
  | renew (o : Ops)
  /-- Makes a root view over a region (R222). -/
  | viewmk (o : Ops)
  /-- Makes a child view (R223). -/
  | viewdup (o : Ops)
  /-- Narrows a view's extent (R224). -/
  | narrow (o : Ops)
  /-- Returns a view's current extent (R225). -/
  | viewq (o : Ops)
  /-- Makes a view empty (R225). -/
  | viewdrop (o : Ops)
  /-- Sends a memory-to-memory copy request (R230). -/
  | xferM2m (o : Ops)
  /-- Sends a memory-to-buffer copy request (R230). -/
  | xferM2b (o : Ops)
  /-- Sends a buffer-to-memory copy request (R230). -/
  | xferB2m (o : Ops)
  /-- Sends a selection request to a Weir (R232). -/
  | weir (o : Ops)
  /-- Contributes a tile to a link collective (R234). -/
  | coll (o : Ops)
  /-- Sends a token across a link port (R235). -/
  | lsend (o : Ops)
  /-- Delivers a packet that arrives on a link channel (R235). -/
  | lrecv (o : Ops)
  /-- Removes every token of a colour (R241). -/
  | purgeCol (o : Ops)
  /-- Removes every token of a colour and generation (R241). -/
  | purgeGen (o : Ops)
  /-- Removes every token of a colour within an iteration range (R241). -/
  | purgeIter (o : Ops)
  /-- Withdraws the tokens of a colour and range to the basin (R244). -/
  | park (o : Ops)
  /-- Returns parked tokens to matching and resumes voided rounds (R245). -/
  | unpark (o : Ops)
  /-- Sets a colour's QUOTA and CAP (R246). -/
  | qset (o : Ops)
  /-- Sets the priority of a context slot (R247). -/
  | prio (o : Ops)
  /-- Sets a colour's WINDOW (R248). -/
  | winset (o : Ops)
  /-- Sets a colour's SENTLIM (R248). -/
  | sentl (o : Ops)
  /-- Writes one field of a colour table entry (R249). -/
  | colset (o : Ops)
  /-- Writes the PARTWD of an inactive context slot (R250). -/
  | partw (o : Ops)
  /-- Writes a slot word or a buffer descriptor (R251). -/
  | cfgw (o : Ops)
  /-- Reads a slot word or a buffer descriptor (R251). -/
  | cfgrd (o : Ops)
  /-- Checks and activates a load (R252). -/
  | raise (o : Ops)
  /-- Deactivates a load's context slot (R253). -/
  | drop (o : Ops)
  /-- Invalidates translations (R254). -/
  | tlbi (o : Ops)
  /-- Advances the entry generation (R255). -/
  | genret (o : Ops)
  /-- Starts the cut of the partition (R256). -/
  | quiesce (o : Ops)
  /-- Restores an image or unparks, and reopens the entry ports (R257). -/
  | resume (o : Ops)
  /-- Reads a fault record doubleword, and may release the record (R263). -/
  | fltrd (o : Ops)
  /-- Reads a control register (R261). -/
  | csrr (o : Ops)
  /-- Writes a control register (R261). -/
  | csrw (o : Ops)
  /-- Takes a trap with number n (R259). -/
  | trap (o : Ops)
  /-- Returns from a trap (R259). -/
  | rett (o : Ops)
  /-- A steward thread fetches an illegal word, or a word index outside its image, and traps as ILLEGAL (R85). -/
  | illegalWordFetch (t : Nat)
  /-- An active ITER stream issues its next iteration once the window and round conditions allow (R122). -/
  | iterIssue (k : Nat)
  /-- A waiting EMIT firing completes once space frees in the event queue (R131). -/
  | emitSpaceResume (e : Nat)
  /-- No token has come within IMM x 1,024 cycles, so WAITT writes 0 and all ones (R136). -/
  | waittTimeout (t : Nat)
  /-- An update held behind another colour's uncommitted line proceeds once that line is released (R206). -/
  | updLineReleased (k : Nat)
  /-- The hub firmware first starts a steward thread at word 0 (R258). -/
  | threadStart (t : Nat)
  /-- The hub firmware restarts a halted thread at a named word (R137). -/
  | threadRestart (t : Nat) (pc : Word)
  /-- A token reaching an element enters matching, or is spilled (R272). -/
  | tokenMatch (e : Nat)
  /-- Each cycle the element chooses and issues one ready firing (R274). -/
  | fireSelection (e : Nat)
  /-- A unit completes a firing and sends its result (R276). -/
  | unitCompletion (e : Nat)
  /-- A token's head flit reaches its destination router after its route latency (R268). -/
  | flitDelivery (k : Nat)
  /-- An entry port's arbiter takes an offer and decides it (R290). -/
  | entryOffer (k : Nat)
  /-- An offer that waited for a PURGE or for the window is admitted or refused (R290). -/
  | entryOfferReleased (k : Nat)
  /-- A token reaches the exit queues of the hub port element (R292). -/
  | exitQueueArrival (k : Nat)
  /-- A tile packet is written into its slot, or refused, and a reference enters matching (R35). -/
  | tilePacketArrival (e : Nat)
  /-- The basin engine takes one token from an element's spill queue (R299). -/
  | basinEngineTurn (e : Nat)
  /-- The engine sends a complete operand bundle back to an element (R302). -/
  | basinBundleReturn (e : Nat)
  /-- The engine returns spilled partners to a newly allocated entry (R302). -/
  | basinProbeReply (e : Nat)
  /-- The engine returns spilled tokens, oldest first, as entries free (R302). -/
  | basinRefill (e : Nat) (col : Nat)
  /-- The basin engine writes marked parked tokens into the basin (R437). -/
  | parkedTokenWriteback (k : Nat)
  /-- The colour's counter grants a credit request (R295). -/
  | creditGrant (e : Nat) (col : Nat)
  /-- An element returns unspent credit after 1,024 idle cycles (R296). -/
  | creditReturn (e : Nat) (col : Nat)
  /-- A sentinel count reaches SENTLIM and sends an ORPHAN event (R307). -/
  | sentinelExpiry (e : Nat) (col : Nat)
  /-- The retention counter rises at the end of a life unit (R311). -/
  | retcntTick (e : Nat)
  /-- RETCNT reaches a slot's STAMP while it holds data, and EXP is set (R315). -/
  | slotExpiry (e : Nat) (c : Nat) (b : Nat) (n : Nat)
  /-- The Lengthsman renews a register or accumulator line (R280). -/
  | bankWalkRenewal (e : Nat)
  /-- The Lengthsman renews a kept slot, stamping it now + 400 (R318). -/
  | keepWalkRenewal (e : Nat)
  /-- The round controller opens a round at its ports and Trimmers (R340). -/
  | roundOpen (k : Nat)
  /-- A port reports a round complete (R341). -/
  | roundCompleteReport (k : Nat) (pnum : Nat)
  /-- Ports retranslate the marked entries of a round before commit (R342). -/
  | roundPrepare (k : Nat)
  /-- The k-th port of the rounds writes its round's entries and acknowledges; after the last, O advances (R342). -/
  | roundCommit (k : Nat)
  /-- The release message starts phase 2 of a commit that holds a RELST, at the k-th port of the rounds (R353). -/
  | releasePhase (k : Nat)
  /-- A fault voids the round and the younger rounds, and parks their tokens (R344). -/
  | roundVoid (k : Nat)
  /-- The fault record and FAULT event are written once the park completes or a ring record frees (R345). -/
  | faultRecordWrite (k : Nat)
  /-- A port reads ahead for a streaming AGEN within the open round (R201). -/
  | readAhead (k : Nat)
  /-- A port performs an access and sends the chain-out token (R195). -/
  | portAccessPerformed (k : Nat)
  /-- A page walker completes a walk, yielding a frame or a failure (R333). -/
  | pageWalk (k : Nat)
  /-- A shoot-down reaches an XLAT, walker or port and invalidates entries (R210). -/
  | shootdownArrival (k : Nat)
  /-- An XLAT acknowledges once the accesses using invalidated entries are done (R210). -/
  | shootdownAck (k : Nat)
  /-- The reconfiguration token visits ports of earlier loads; the first round opens when all answer (R359). -/
  | reconfigurationToken (k : Nat)
  /-- A transfer unit completes a 4 KiB chunk (R231). -/
  | copyChunk (k : Nat)
  /-- A copy finishes and sends its completion (R230). -/
  | xferCompletion (k : Nat)
  /-- A Weir request reaches its port and is checked (R363). -/
  | weirRequestArrival (k : Nat)
  /-- A waiting request takes a free Weir context (R369). -/
  | weirContextTake (k : Nat)
  /-- The Weir completes a chunk of 1,024 candidates (R372). -/
  | weirChunk (k : Nat)
  /-- The Weir sends a qualifying value-index pair (R365). -/
  | weirResultSend (k : Nat)
  /-- The Weir sends the completion count after the last pair (R367). -/
  | weirCompletion (k : Nat)
  /-- A resumed request reloads its save record and restarts at CURSOR (R374). -/
  | weirResume (k : Nat)
  /-- The Trimmer performs a view instruction or region request (R389). -/
  | trimmerChange (d : Nat)
  /-- A pending page is freed once its epochs have drained (R389). -/
  | pageFree (r : Nat) (p : Nat)
  /-- A link port trains its lanes and negotiates a version (R452). -/
  | linkTraining (l : Nat) (v : Nat) (peer : BitVec 32)
  /-- A link packet arrives and is delivered in sequence order (R453). -/
  | linkPacketArrival (l : Nat) (seq : Nat) (head : BitVec 128) (payload : List Byte)
  /-- A link leaves the spray sets, and its unacknowledged packets are resent (R454). -/
  | linkLoss (l : Nat)
  /-- A peer's spray set has been empty for 100 µs, and its pending packets are dropped (R454). -/
  | spraySetTimeout (n : Nat)
  /-- A collective contribution arrives and is combined (R456). -/
  | collContribution (k : Nat) (n : Nat) (hdr : BitVec 256) (body : List Byte)
  /-- A member misses TMO and the collective fails with COLLFAIL (R456). -/
  | collTimeout (k : Nat)
  /-- A store to a binding entry in the partition control window (R288). -/
  | bindingStore (t : Nat) (i : Nat) (v : Word)
  /-- A write to a configuration-space register that has no row of its own (R326). -/
  | configRegisterWrite (t : Nat) (a : Nat) (v : Word)
  /-- A write sets WATCH and V of ELATCH and clears the rest (R283). -/
  | elatchWrite (e : Nat) (v : Word)
  /-- A write to RETCNT raises PROTECTION (R313). -/
  | retcntWrite (t : Nat) (e : Nat)
  /-- A write to a heat entry clears it (R347). -/
  | heatEntryClear (pnum : Nat) (i : Nat)
  /-- The hub firmware publishes a launch record and advances HEAD (R415). -/
  | recordPublish (q : Nat)
  /-- A thread advances TAKE and owns the launch (R419). -/
  | takeWrite (q : Nat) (v : Word)
  /-- Advancing ADONE makes the hub copy the answer to the completion ring (R415). -/
  | adoneWrite (q : Nat) (v : Word)
  /-- The hypervisor firmware makes a waiting virtual queue resident in a slot (R413). -/
  | queueResidency (q : Nat)
  /-- The steward firmware admits a launch record (R419). -/
  | launchAdmission (t : Nat) (q : Nat)
  /-- The steward firmware places a load into a context slot (R422). -/
  | loadPlacement (k : Nat)
  /-- The firmware decides a claim for an adapter residency slot (R403). -/
  | residencyClaim (p : Nat) (adp : Word) (tag : Word) (pin : Nat)
  /-- A fetched adapter becomes resident, and waiting rows may be offered (R403). -/
  | adapterResident (p : Nat) (n : Nat)
  /-- A row's claim is released (R404). -/
  | claimRelease (p : Nat) (n : Nat)
  /-- The owner answers an ORPHAN event by purging or passing it to the host (R421). -/
  | orphanAnswer (k : Nat)
  /-- The firmware replays a step under a new generation (R407). -/
  | replay (p : Nat) (col : Nat) (ctx : Nat)
  /-- The firmware drains a colour and then parks it (R436). -/
  | colourDrain (p : Nat) (col : Nat) (ctx : Nat)
  /-- The firmware evicts a context slot (R439). -/
  | eviction (p : Nat) (ctx : Nat) (load : Word)
  /-- The firmware restores an evicted load (R441). -/
  | evictedRestore (k : Nat) (ctx : Nat)
  /-- Mailbox request that writes an ASID root entry (R447). -/
  | setroot (f : Nat) (asid : Nat) (v : Word)
  /-- Mailbox request that reserves a region (R447). -/
  | resregion (f : Nat) (asid : Nat) (npage : Nat) (vbase : Word)
  /-- Mailbox request that destroys a region (R395). -/
  | destregion (f : Nat) (r : Nat)
  /-- Mailbox request that loads a key slot from a wrapped key (R447). -/
  | loadkey (f : Nat) (n : Nat) (wrapped : List Byte)
  /-- Mailbox request that writes a collective group entry (R456). -/
  | setgroup (f : Nat) (p : Nat) (g : Nat) (v : Word)
  /-- Mailbox request that writes a partition descriptor (R442). -/
  | setpart (f : Nat) (p : Nat) (v : BitVec 512)
  /-- Mailbox request that adds a key store entry (R480). -/
  | addkey (f : Nat) (v : BitVec 1152) (sig : BitVec 1056)
  /-- Mailbox request that revokes a key store entry (R480). -/
  | revkey (f : Nat) (keyid : BitVec 32) (sig : BitVec 1056)
  /-- Mailbox request that sets a colour's environment and OWNER (R286). -/
  | setcolour (f : Nat) (d1 : Word) (d2 : Word) (d3 : Word) (d4 : Word) (d5 : Word) (d6 : Word)
  /-- A write to a virtual queue doorbell sets its ring tail (R445). -/
  | doorbellWrite (f : Nat) (q : Nat) (v : Word)
  /-- A write to a virtual queue descriptor (R445). -/
  | queueDescriptorWrite (f : Nat) (q : Nat) (n : Nat) (v : Word)
  /-- A function level reset raises INCARN and frees the function's state (R450). -/
  | functionLevelReset (f : Nat)
  /-- A host page response arrives and is matched or dropped (R450). -/
  | pageResponse (f : Nat) (i : Nat) (ok : Bool)
  /-- A host ATS invalidation acts as TLBI kind 0b00 (R328). -/
  | atsInvalidation (pasid : Nat) (va : Word)
  /-- A partition is reset (R444). -/
  | partitionReset (p : Nat)
  /-- A hardware error is detected and contained by its class (R457). -/
  | errorDetected (c : Nat) (p : Nat) (a : Nat)
  /-- The hub firmware halts an element (R460). -/
  | debugHalt (e : Nat)
  /-- The hub firmware releases a halted element (R460). -/
  | debugRelease (e : Nat)
  /-- The cut's W x DEPTH bound expires, and uncommitted rounds are voided (R464). -/
  | cutDrainTimeout (p : Nat) (k : Nat)
  /-- Engine requests stop at their next chunk during a cut (R464). -/
  | cutEngineStop (k : Nat)
  /-- After the cut's PARK, the image is written and QDONE is sent (R467). -/
  | stateImageWrite (p : Nat)
  /-- The fabric clock is lowered one step on excess power or temperature (R485). -/
  | fclkStepDown (power : Nat) (temp : Nat)
  /-- The fabric clock is raised one step after 10 ms below both limits (R485). -/
  | fclkStepUp (power : Nat) (temp : Nat)
  /-- After 1 ms above 105 °C at step 3, every partition is reset (R485). -/
  | thermalReset (temp : Nat)
  /-- A write of the power cap (R484). -/
  | pcap (v : Word)
  /-- The management core runs a boot stage, verifying and measuring it (R475). -/
  | bootStage (ok : Bool) (image : List Byte) (sig : BitVec 1056) (reason : Nat)
  /-- Side-band command that writes the owner key once (R480). -/
  | setOwner (v : BitVec 1152)
  /-- Side-band command that clears the key store (R480). -/
  | erase
  /-- Vendor MCTP message that reads the telemetry window (R484). -/
  | telemetryRead (a : Nat)
  /-- SPDM request answered with 1.2 and 1.3 (R481). -/
  | getVersion (x : Nat)
  /-- SPDM capabilities request (R481). -/
  | getCapabilities (x : Nat) (v : Nat)
  /-- SPDM algorithm negotiation (R481). -/
  | negotiateAlgorithms (x : Nat) (ok : Bool)
  /-- SPDM request for certificate digests (R481). -/
  | getDigests (x : Nat)
  /-- SPDM request for the certificate of slot 0 (R481). -/
  | getCertificate (x : Nat) (n : Nat)
  /-- SPDM challenge, signed over the transcript and measurement summary (R481). -/
  | challenge (x : Nat) (nonce : List Byte)
  /-- SPDM measurement read of one or all slots (R478). -/
  | getMeasurements (x : Nat) (i : Nat)
  /-- SPDM session key exchange (R481). -/
  | keyExchange (x : Nat) (share : List Byte)
  /-- SPDM session finish (R481). -/
  | finish (x : Nat) (n : Nat)
  /-- SPDM session key update (R481). -/
  | keyUpdate (x : Nat) (n : Nat)
  /-- SPDM session heartbeat (R481). -/
  | heartbeat (x : Nat) (n : Nat)
  /-- SPDM end of session (R481). -/
  | endSession (x : Nat) (n : Nat)
  /-- A request not in Table 20.3 is answered UnsupportedRequest (R482). -/
  | spdmUnsupportedRequest (x : Nat) (code : Nat)
  /-- A towpath message of a system instruction (PURGE, PRIO, PARK, the raise wave) reaches an element at one cycle boundary, is applied and acknowledged, and the stalled thread completes once the last acknowledgement has come (R242). -/
  | towpathMessageArrival (k : Nat) (e : Nat)
  /-- The receiver's acknowledgement of a link packet reaches the sender, which frees the packet and may send the LSEND done token (R453). -/
  | linkAcknowledgement (l : Nat) (seq : Nat)
  /-- A virtual queue has been resident for its quantum, so its hardware queue slot may give it up to a waiting queue (R413). -/
  | queueQuantumExpiry (q : Nat)
  /-- The board's I3C controller assigns the side-band port its dynamic address, or fails to answer, and the port then falls back to SMBus (R484). -/
  | dynamicAddressAssignment (ok : Bool)
  deriving DecidableEq, Repr

end Sys2Proof
end

