-- ==== Sys2Proof/WellFormed.lean ====
section
/-! DEFINITION. Legality of a word (R83): for every slot-word instruction its encoding, its forms, its types, the modes of its
operands, the rule for IMM and the rule for its targets; and the check of a word against them. -/

namespace Sys2Proof

open Sys2Proof.Machine

/-- Sets of types that the instruction tables name. -/
inductive TySet where
  /-- 0x0 alone. -/
  | x64
  /-- Table 4.1, "pass". -/
  | pass
  /-- JOINN. -/
  | x64u64
  /-- ITER. -/
  | u32u64
  /-- 0x0-0xA, 0xD, 0xF. -/
  | port
  /-- 0x0-0x7. -/
  | int
  /-- LI. -/
  | li
  /-- ADDS and SUBS. -/
  | clamp
  /-- ABS. -/
  | signed
  /-- int and pred. -/
  | intPred
  /-- CRC. -/
  | crc
  /-- 0x8-0xA. -/
  | fp
  /-- FCVT. -/
  | scalar
  /-- Table 5.5, "lane". -/
  | lane
  /-- VABS. -/
  | fpSint
  /-- VQNT. -/
  | quant
  /-- VNOISE. -/
  | noise
  /-- 0xE. -/
  | tile
  /-- RACE. -/
  | bf16
  /-- 0x0-0xA. -/
  | mem
  /-- UPD add, min, max. -/
  | updArith
  /-- UPD or, and. -/
  | updBits
  /-- UPD xchg. -/
  | updXchg
  /-- UPD cas. -/
  | updCas
  /-- 0xF. -/
  | view
  deriving DecidableEq, Repr

/-- The code of a type (Table 3.6). -/
def tyCode : Ty → BitVec 4
  | .x64 => 0 | .i32 => 1 | .u32 => 2 | .i64 => 3 | .u64 => 4 | .i16 => 5 | .i8 => 6 | .u8 => 7
  | .bf16 => 8 | .f16 => 9 | .f32 => 10 | .q8 => 11 | .q4 => 12 | .pred => 13 | .tile => 14 | .view => 15

/-- The type of a code (Table 3.6). -/
def tyOf (c : BitVec 4) : Ty :=
  match c.toNat with
  | 0 => .x64 | 1 => .i32 | 2 => .u32 | 3 => .i64 | 4 => .u64 | 5 => .i16 | 6 => .i8 | 7 => .u8
  | 8 => .bf16 | 9 => .f16 | 10 => .f32 | 11 => .q8 | 12 => .q4 | 13 => .pred | 14 => .tile | _ => .view

/-- Whether a set of types holds a type. -/
def TySet.has (s : TySet) (t : Ty) : Bool :=
  let c := (tyCode t).toNat
  match s with
  | .x64 => c == 0
  | .pass => c ≤ 10 || c ≥ 13
  | .x64u64 => c == 0 || c == 4
  | .u32u64 => c == 2 || c == 4
  | .port => c ≤ 10 || c == 13 || c == 15
  | .int => c ≤ 7
  | .li => c ≤ 10 || c == 13
  | .clamp => 1 ≤ c && c ≤ 7
  | .signed => c == 1 || c == 3 || c == 5 || c == 6
  | .intPred => c ≤ 7 || c == 13
  | .crc => c == 2 || c == 4 || c == 7
  | .fp => 8 ≤ c && c ≤ 10
  | .scalar => 1 ≤ c && c ≤ 10
  | .lane => c == 1 || c == 2 || (5 ≤ c && c ≤ 10)
  | .fpSint => c == 1 || c == 5 || c == 6 || (8 ≤ c && c ≤ 10)
  | .quant => c == 11 || c == 12
  | .noise => c == 8 || c == 10
  | .tile => c == 14
  | .bf16 => c == 8
  | .mem => c ≤ 10
  | .updArith => (1 ≤ c && c ≤ 4) || c == 10
  | .updBits => c ≤ 4
  | .updXchg => c ≤ 4 || c == 10
  | .updCas => c == 1 || c == 2
  | .view => c == 15

/-- What an operand position accepts. -/
inductive OpRule where
  /-- Must be 0xFFF. -/
  | unused
  /-- Token port, register, literal or IMM (R106, R148). -/
  | data
  /-- As data, read as a pred: a literal is 0 or 1 (R69). -/
  | predData
  /-- Token port, register or literal. -/
  | plain
  /-- Token port. -/
  | port
  /-- Port p0. -/
  | p0
  /-- Port p1. -/
  | p1
  /-- Port p1, register, literal or IMM. -/
  | p1Data
  /-- LI: p0 in the fabric, 0xFFF on a steward. -/
  | trig
  /-- Register. -/
  | reg
  /-- Register or literal. -/
  | regLit
  /-- Accumulator. -/
  | acc
  /-- Port or 0xFFF. -/
  | portNone
  /-- Port p0 or 0xFFF. -/
  | p0None
  /-- Port or register (BFAL, BFLIFE). -/
  | portReg
  /-- p0 when SA is a register, else 0xFFF (Table 6.6). -/
  | bfTrig
  /-- Port when CH is 1, else 0xFFF (R193). -/
  | chain
  deriving DecidableEq, Repr

/-- What IMM must be. -/
inductive ImmRule where
  | any
  | zero
  /-- 0 unless an operand names code 0x100. -/
  | opImm
  | between (lo hi : Nat)
  /-- Only bits of the mask may be set. -/
  | mask (m : Nat)
  /-- As mask, and hold bits stand only on token ports (R166). -/
  | maskHold (m : Nat)
  /-- As mask, and bits 11:8 hold a format of Table 1.5. -/
  | fmt (m : Nat)
  /-- FCVT (Table 5.1, R153). -/
  | fcvt
  /-- Table 5.6 with a destination. -/
  | vec
  | vcvt | vqnt | vdqnt | vred | vmaxi | tred | race
  /-- Table 6.4 without and with SCOPE. -/
  | acc | accRel
  /-- CH alone. -/
  | chOnly
  | xlat | param | bfwr
  /-- XFER with its DIR. -/
  | xfer (dir : Nat)
  | weir | coll | lrecv
  deriving DecidableEq, Repr

/-- What the targets must be. -/
inductive TgtRule where
  /-- No result: both invalid. -/
  | none
  /-- T0 required in the fabric. -/
  | req
  /-- Fabric: any targets; steward: optional destination. -/
  | res
  /-- A reference result (R163), targets optional. -/
  | ref
  /-- A reference result (R163), T0 required. -/
  | ref1
  /-- Both required. -/
  | both
  /-- T0 a port element and T1 invalid (R196). -/
  | agen
  /-- XFER: T0 a MEM, LPD or even HUB port, T1 valid. -/
  | copy
  /-- As copy, with a reference completion. -/
  | copyRef
  /-- WEIR: T0 a MEM port, T1 under R367. -/
  | weir
  /-- COLL: T0 an LNK port, T1 a reference target. -/
  | coll
  /-- LSEND: T0 an LNK port, T1 optional. -/
  | lsend
  /-- TSEND: kinds 0b00 and 0b11 only (R190). -/
  | near
  /-- BFWR: a reference target (R163) when SETF is set, targets optional. -/
  | bfwr
  /-- LRECV: a reference target (R163) when TY is a tile, targets optional. -/
  | typed
  /-- Steward: a destination is required. -/
  | valid
  /-- Steward: a destination at most w62 is required. -/
  | pair
  deriving DecidableEq, Repr

/-- The row of an instruction in the instruction tables. -/
structure Sig where
  /-- The operand fields of the word. -/
  o : Ops
  opc : Nat
  fn : Nat
  /-- Legal in the fabric. -/
  fab : Bool
  /-- Legal on a steward. -/
  stew : Bool
  tys : TySet
  ra : OpRule
  rb : OpRule
  rc : OpRule
  imm : ImmRule
  tg : TgtRule
  deriving DecidableEq, Repr

/-- Tables 3.9, 4.1, 4.2, 4.5, 5.1, 5.5, 5.8, 6.3, 6.6, 6.8 and 7.1, and R228 to R235: the row of every slot-word
instruction; events have none. -/
def sig : Instr → Option Sig
  | .nop o => some ⟨o, 0x00, 0, true, true, .x64, .unused, .unused, .unused, .zero, .none⟩
  | .copy o => some ⟨o, 0x01, 0, true, false, .pass, .p0, .unused, .unused, .zero, .req⟩
  | .steer o => some ⟨o, 0x02, 0, true, false, .pass, .p0, .p1Data, .unused, .opImm, .req⟩
  | .merge o => some ⟨o, 0x03, 0, true, false, .pass, .p0, .p1, .unused, .zero, .req⟩
  | .gate o => some ⟨o, 0x04, 0, true, false, .pass, .p0, .p1, .unused, .zero, .req⟩
  | .sink o => some ⟨o, 0x05, 0, true, false, .pass, .p0, .unused, .unused, .zero, .none⟩
  | .nullt o => some ⟨o, 0x06, 0, true, false, .pass, .p0, .unused, .unused, .zero, .req⟩
  | .joinn o => some ⟨o, 0x07, 0, true, false, .x64u64, .p0, .unused, .unused, .between 1 65535, .req⟩
  | .iter o => some ⟨o, 0x08, 0, true, false, .u32u64, .p0, .unused, .unused, .zero, .req⟩
  | .tagset o => some ⟨o, 0x09, 0, true, false, .pass, .p0, .p1Data, .unused, .opImm, .req⟩
  | .tagget o => some ⟨o, 0x09, 1, true, false, .pass, .p0, .unused, .unused, .zero, .req⟩
  | .keyset o => some ⟨o, 0x0A, 0, true, false, .pass, .p0, .p1Data, .unused, .opImm, .req⟩
  | .keyget o => some ⟨o, 0x0A, 1, true, false, .pass, .p0, .unused, .unused, .zero, .req⟩
  | .genchk o => some ⟨o, 0x0B, 0, true, false, .pass, .p0, .unused, .unused, .zero, .req⟩
  | .delay o => some ⟨o, 0x0C, 0, true, false, .pass, .p0, .unused, .unused, .between 1 4096, .req⟩
  | .entry o => some ⟨o, 0x0D, 0, true, false, .port, .unused, .unused, .unused, .between 0 15, .req⟩
  | .emit o => some ⟨o, 0x0E, 0, true, false, .port, .p0, .unused, .unused, .any, .none⟩
  | .bar o => some ⟨o, 0x0F, 0, true, false, .pass, .p0, .unused, .unused, .zero, .req⟩
  | .br o => some ⟨o, 0x10, 0, false, true, .x64, .unused, .unused, .unused, .any, .none⟩
  | .brcEq o => some ⟨o, 0x11, 0, false, true, .int, .regLit, .regLit, .unused, .any, .none⟩
  | .brcNe o => some ⟨o, 0x11, 1, false, true, .int, .regLit, .regLit, .unused, .any, .none⟩
  | .brcLt o => some ⟨o, 0x11, 2, false, true, .int, .regLit, .regLit, .unused, .any, .none⟩
  | .brcGe o => some ⟨o, 0x11, 3, false, true, .int, .regLit, .regLit, .unused, .any, .none⟩
  | .brcLtu o => some ⟨o, 0x11, 4, false, true, .int, .regLit, .regLit, .unused, .any, .none⟩
  | .brcGeu o => some ⟨o, 0x11, 5, false, true, .int, .regLit, .regLit, .unused, .any, .none⟩
  | .call o => some ⟨o, 0x12, 0, false, true, .x64, .unused, .unused, .unused, .any, .valid⟩
  | .ret o => some ⟨o, 0x13, 0, false, true, .x64, .reg, .unused, .unused, .zero, .none⟩
  | .sendt o => some ⟨o, 0x14, 0, false, true, .port, .regLit, .reg, .unused, .zero, .res⟩
  | .waitt o => some ⟨o, 0x15, 0, false, true, .x64, .reg, .unused, .unused, .any, .pair⟩
  | .halt o => some ⟨o, 0x16, 0, false, true, .x64, .unused, .unused, .unused, .zero, .none⟩
  | .ld o => some ⟨o, 0xCE, 0, false, true, .mem, .reg, .unused, .unused, .any, .res⟩
  | .st o => some ⟨o, 0xCE, 1, false, true, .mem, .reg, .regLit, .unused, .any, .none⟩
  | .li o => some ⟨o, 0x20, 0, true, true, .li, .trig, .unused, .unused, .any, .res⟩
  | .add o => some ⟨o, 0x21, 0, true, true, .int, .data, .data, .unused, .any, .res⟩
  | .sub o => some ⟨o, 0x21, 1, true, true, .int, .data, .data, .unused, .any, .res⟩
  | .adds o => some ⟨o, 0x21, 2, true, true, .clamp, .data, .data, .unused, .any, .res⟩
  | .subs o => some ⟨o, 0x21, 3, true, true, .clamp, .data, .data, .unused, .any, .res⟩
  | .neg o => some ⟨o, 0x21, 4, true, true, .int, .data, .unused, .unused, .any, .res⟩
  | .abs o => some ⟨o, 0x21, 5, true, true, .signed, .data, .unused, .unused, .any, .res⟩
  | .mul o => some ⟨o, 0x22, 0, true, true, .int, .data, .data, .unused, .any, .res⟩
  | .mulh o => some ⟨o, 0x22, 1, true, true, .int, .data, .data, .unused, .any, .res⟩
  | .mulhu o => some ⟨o, 0x22, 2, true, true, .int, .data, .data, .unused, .any, .res⟩
  | .mad o => some ⟨o, 0x22, 3, true, true, .int, .data, .data, .data, .any, .res⟩
  | .div o => some ⟨o, 0x23, 0, true, true, .int, .data, .data, .unused, .any, .res⟩
  | .divu o => some ⟨o, 0x23, 1, true, true, .int, .data, .data, .unused, .any, .res⟩
  | .rem o => some ⟨o, 0x23, 2, true, true, .int, .data, .data, .unused, .any, .res⟩
  | .remu o => some ⟨o, 0x23, 3, true, true, .int, .data, .data, .unused, .any, .res⟩
  | .min o => some ⟨o, 0x24, 0, true, true, .int, .data, .data, .unused, .any, .res⟩
  | .max o => some ⟨o, 0x24, 1, true, true, .int, .data, .data, .unused, .any, .res⟩
  | .minu o => some ⟨o, 0x24, 2, true, true, .int, .data, .data, .unused, .any, .res⟩
  | .maxu o => some ⟨o, 0x24, 3, true, true, .int, .data, .data, .unused, .any, .res⟩
  | .and o => some ⟨o, 0x25, 0, true, true, .intPred, .data, .data, .unused, .any, .res⟩
  | .or o => some ⟨o, 0x25, 1, true, true, .intPred, .data, .data, .unused, .any, .res⟩
  | .xor o => some ⟨o, 0x25, 2, true, true, .intPred, .data, .data, .unused, .any, .res⟩
  | .andn o => some ⟨o, 0x25, 3, true, true, .intPred, .data, .data, .unused, .any, .res⟩
  | .not o => some ⟨o, 0x25, 4, true, true, .intPred, .data, .unused, .unused, .any, .res⟩
  | .shl o => some ⟨o, 0x26, 0, true, true, .int, .data, .data, .unused, .any, .res⟩
  | .shr o => some ⟨o, 0x26, 1, true, true, .int, .data, .data, .unused, .any, .res⟩
  | .sar o => some ⟨o, 0x26, 2, true, true, .int, .data, .data, .unused, .any, .res⟩
  | .rol o => some ⟨o, 0x26, 3, true, true, .int, .data, .data, .unused, .any, .res⟩
  | .clz o => some ⟨o, 0x27, 0, true, true, .int, .data, .unused, .unused, .any, .res⟩
  | .ctz o => some ⟨o, 0x27, 1, true, true, .int, .data, .unused, .unused, .any, .res⟩
  | .popc o => some ⟨o, 0x27, 2, true, true, .int, .data, .unused, .unused, .any, .res⟩
  | .bswap o => some ⟨o, 0x27, 3, true, true, .int, .data, .unused, .unused, .any, .res⟩
  | .bfx o => some ⟨o, 0x28, 0, true, true, .int, .data, .data, .unused, .any, .res⟩
  | .bfi o => some ⟨o, 0x28, 1, true, true, .int, .data, .data, .data, .any, .res⟩
  | .sext o => some ⟨o, 0x28, 2, true, true, .int, .data, .data, .unused, .any, .res⟩
  | .zext o => some ⟨o, 0x28, 3, true, true, .int, .data, .data, .unused, .any, .res⟩
  | .cmpEq o => some ⟨o, 0x29, 0, true, true, .int, .data, .data, .unused, .any, .res⟩
  | .cmpNe o => some ⟨o, 0x29, 1, true, true, .int, .data, .data, .unused, .any, .res⟩
  | .cmpLt o => some ⟨o, 0x29, 2, true, true, .int, .data, .data, .unused, .any, .res⟩
  | .cmpLe o => some ⟨o, 0x29, 3, true, true, .int, .data, .data, .unused, .any, .res⟩
  | .cmpGt o => some ⟨o, 0x29, 4, true, true, .int, .data, .data, .unused, .any, .res⟩
  | .cmpGe o => some ⟨o, 0x29, 5, true, true, .int, .data, .data, .unused, .any, .res⟩
  | .cmpLtu o => some ⟨o, 0x29, 6, true, true, .int, .data, .data, .unused, .any, .res⟩
  | .cmpLeu o => some ⟨o, 0x29, 7, true, true, .int, .data, .data, .unused, .any, .res⟩
  | .cmpGtu o => some ⟨o, 0x29, 8, true, true, .int, .data, .data, .unused, .any, .res⟩
  | .cmpGeu o => some ⟨o, 0x29, 9, true, true, .int, .data, .data, .unused, .any, .res⟩
  | .sel o => some ⟨o, 0x2A, 0, true, true, .port, .predData, .data, .data, .any, .res⟩
  | .addx o => some ⟨o, 0x2B, 0, true, true, .int, .data, .data, .data, .any, .res⟩
  | .crc o => some ⟨o, 0x2C, 0, true, true, .crc, .data, .data, .unused, .any, .res⟩
  | .mix o => some ⟨o, 0x2D, 0, true, true, .x64, .data, .data, .unused, .any, .res⟩
  | .fadd o => some ⟨o, 0x60, 0, true, true, .fp, .data, .data, .unused, .opImm, .res⟩
  | .fsub o => some ⟨o, 0x60, 1, true, true, .fp, .data, .data, .unused, .opImm, .res⟩
  | .fmul o => some ⟨o, 0x60, 2, true, true, .fp, .data, .data, .unused, .opImm, .res⟩
  | .ffma o => some ⟨o, 0x60, 3, true, true, .fp, .data, .data, .data, .opImm, .res⟩
  | .fdiv o => some ⟨o, 0x61, 0, true, true, .fp, .data, .data, .unused, .opImm, .res⟩
  | .fsqrt o => some ⟨o, 0x61, 1, true, true, .fp, .data, .unused, .unused, .opImm, .res⟩
  | .frsq o => some ⟨o, 0x61, 2, true, true, .fp, .data, .unused, .unused, .opImm, .res⟩
  | .frcp o => some ⟨o, 0x61, 3, true, true, .fp, .data, .unused, .unused, .opImm, .res⟩
  | .fexp2 o => some ⟨o, 0x61, 4, true, true, .fp, .data, .unused, .unused, .opImm, .res⟩
  | .flog2 o => some ⟨o, 0x61, 5, true, true, .fp, .data, .unused, .unused, .opImm, .res⟩
  | .fmin o => some ⟨o, 0x62, 0, true, true, .fp, .data, .data, .unused, .opImm, .res⟩
  | .fmax o => some ⟨o, 0x62, 1, true, true, .fp, .data, .data, .unused, .opImm, .res⟩
  | .fabs o => some ⟨o, 0x62, 2, true, true, .fp, .data, .unused, .unused, .opImm, .res⟩
  | .fneg o => some ⟨o, 0x62, 3, true, true, .fp, .data, .unused, .unused, .opImm, .res⟩
  | .fcmpEq o => some ⟨o, 0x63, 0, true, true, .fp, .data, .data, .unused, .opImm, .res⟩
  | .fcmpNe o => some ⟨o, 0x63, 1, true, true, .fp, .data, .data, .unused, .opImm, .res⟩
  | .fcmpLt o => some ⟨o, 0x63, 2, true, true, .fp, .data, .data, .unused, .opImm, .res⟩
  | .fcmpLe o => some ⟨o, 0x63, 3, true, true, .fp, .data, .data, .unused, .opImm, .res⟩
  | .fcmpGt o => some ⟨o, 0x63, 4, true, true, .fp, .data, .data, .unused, .opImm, .res⟩
  | .fcmpGe o => some ⟨o, 0x63, 5, true, true, .fp, .data, .data, .unused, .opImm, .res⟩
  | .fcmpUn o => some ⟨o, 0x63, 6, true, true, .fp, .data, .data, .unused, .opImm, .res⟩
  | .fclass o => some ⟨o, 0x64, 0, true, true, .fp, .data, .unused, .unused, .opImm, .res⟩
  | .fcvt o => some ⟨o, 0x65, 0, true, true, .scalar, .plain, .unused, .unused, .fcvt, .res⟩
  | .fround o => some ⟨o, 0x66, 0, true, true, .fp, .data, .unused, .unused, .opImm, .res⟩
  | .maxi o => some ⟨o, 0x67, 0, true, true, .fp, .plain, .plain, .unused, .between 0 1, .res⟩
  | .vadd o => some ⟨o, 0x80, 0, true, false, .lane, .port, .plain, .unused, .vec, .ref⟩
  | .vsub o => some ⟨o, 0x80, 1, true, false, .lane, .port, .plain, .unused, .vec, .ref⟩
  | .vmul o => some ⟨o, 0x80, 2, true, false, .lane, .port, .plain, .unused, .vec, .ref⟩
  | .vfma o => some ⟨o, 0x80, 3, true, false, .fp, .port, .plain, .plain, .vec, .ref⟩
  | .vmin o => some ⟨o, 0x80, 4, true, false, .lane, .port, .plain, .unused, .vec, .ref⟩
  | .vmax o => some ⟨o, 0x80, 5, true, false, .lane, .port, .plain, .unused, .vec, .ref⟩
  | .vabs o => some ⟨o, 0x80, 6, true, false, .fpSint, .port, .unused, .unused, .vec, .ref⟩
  | .vexp2 o => some ⟨o, 0x81, 0, true, false, .fp, .port, .unused, .unused, .vec, .ref⟩
  | .vlog2 o => some ⟨o, 0x81, 1, true, false, .fp, .port, .unused, .unused, .vec, .ref⟩
  | .vrcp o => some ⟨o, 0x81, 2, true, false, .fp, .port, .unused, .unused, .vec, .ref⟩
  | .vrsq o => some ⟨o, 0x81, 3, true, false, .fp, .port, .unused, .unused, .vec, .ref⟩
  | .vcvt o => some ⟨o, 0x82, 0, true, false, .lane, .port, .unused, .unused, .vcvt, .ref⟩
  | .vqnt o => some ⟨o, 0x82, 1, true, false, .quant, .port, .plain, .plain, .vqnt, .ref⟩
  | .vdqnt o => some ⟨o, 0x82, 2, true, false, .fp, .port, .plain, .plain, .vdqnt, .ref⟩
  | .vcmpEq o => some ⟨o, 0x83, 0, true, false, .lane, .port, .plain, .unused, .vec, .ref⟩
  | .vcmpNe o => some ⟨o, 0x83, 1, true, false, .lane, .port, .plain, .unused, .vec, .ref⟩
  | .vcmpLt o => some ⟨o, 0x83, 2, true, false, .lane, .port, .plain, .unused, .vec, .ref⟩
  | .vcmpLe o => some ⟨o, 0x83, 3, true, false, .lane, .port, .plain, .unused, .vec, .ref⟩
  | .vcmpGt o => some ⟨o, 0x83, 4, true, false, .lane, .port, .plain, .unused, .vec, .ref⟩
  | .vcmpGe o => some ⟨o, 0x83, 5, true, false, .lane, .port, .plain, .unused, .vec, .ref⟩
  | .vcmpUn o => some ⟨o, 0x83, 6, true, false, .fp, .port, .plain, .unused, .vec, .ref⟩
  | .vsel o => some ⟨o, 0x84, 0, true, false, .lane, .port, .plain, .plain, .vec, .ref⟩
  | .vredSum o => some ⟨o, 0x85, 0, true, false, .lane, .port, .unused, .unused, .vred, .res⟩
  | .vredMin o => some ⟨o, 0x85, 1, true, false, .lane, .port, .unused, .unused, .vred, .res⟩
  | .vredMax o => some ⟨o, 0x85, 2, true, false, .lane, .port, .unused, .unused, .vred, .res⟩
  | .vscanSum o => some ⟨o, 0x86, 0, true, false, .lane, .port, .unused, .unused, .vec, .ref⟩
  | .vscanMin o => some ⟨o, 0x86, 1, true, false, .lane, .port, .unused, .unused, .vec, .ref⟩
  | .vscanMax o => some ⟨o, 0x86, 2, true, false, .lane, .port, .unused, .unused, .vec, .ref⟩
  | .vmaxi o => some ⟨o, 0x87, 0, true, false, .fp, .port, .plain, .unused, .vmaxi, .res⟩
  | .vnoise o => some ⟨o, 0x88, 0, true, false, .noise, .port, .plain, .plain, .vec, .ref⟩
  | .vbcast o => some ⟨o, 0x89, 0, true, false, .lane, .plain, .plain, .unused, .vec, .ref⟩
  | .vperm o => some ⟨o, 0x8A, 0, true, false, .lane, .port, .plain, .unused, .vec, .ref⟩
  | .tmma o => some ⟨o, 0xA0, 0, true, false, .tile, .port, .port, .acc, .mask 0x0060, .res⟩
  | .tmmq o => some ⟨o, 0xA1, 0, true, false, .tile, .port, .port, .acc, .mask 0x0060, .res⟩
  | .tclr o => some ⟨o, 0xA2, 0, true, false, .x64, .plain, .unused, .acc, .any, .res⟩
  | .tacc o => some ⟨o, 0xA3, 0, true, false, .tile, .port, .unused, .acc, .mask 0x0020, .res⟩
  | .tdrain o => some ⟨o, 0xA4, 0, true, false, .x64, .plain, .unused, .acc, .fmt 0x0F3F, .ref1⟩
  | .ttrn o => some ⟨o, 0xA5, 0, true, false, .tile, .port, .unused, .unused, .mask 0x003F, .ref1⟩
  | .tcvt o => some ⟨o, 0xA6, 0, true, false, .tile, .port, .unused, .unused, .fmt 0x0F3F, .ref1⟩
  | .thdr o => some ⟨o, 0xA7, 0, true, false, .tile, .port, .plain, .portNone, .maskHold 0x0080, .ref1⟩
  | .trec o => some ⟨o, 0xA8, 0, true, false, .tile, .port, .port, .port, .fmt 0x0FFF, .ref1⟩
  | .tred o => some ⟨o, 0xA9, 0, true, false, .tile, .port, .unused, .unused, .tred, .ref1⟩
  | .race o => some ⟨o, 0xAA, 0, true, false, .bf16, .port, .plain, .unused, .race, .req⟩
  | .tsend o => some ⟨o, 0xAB, 0, true, false, .tile, .port, .unused, .unused, .mask 0x03FF, .near⟩
  | .agen o => some ⟨o, 0xB0, 0, true, false, .x64, .reg, .p0None, .unused, .zero, .agen⟩
  | .lds o => some ⟨o, 0xB1, 0, true, false, .mem, .port, .chain, .unused, .acc, .res⟩
  | .sts o => some ⟨o, 0xB1, 1, true, false, .mem, .plain, .chain, .unused, .acc, .res⟩
  | .ldr o => some ⟨o, 0xB1, 2, true, false, .mem, .plain, .chain, .unused, .acc, .res⟩
  | .str o => some ⟨o, 0xB1, 3, true, false, .mem, .plain, .plain, .chain, .acc, .res⟩
  | .updAdd o => some ⟨o, 0xB2, 0, true, false, .updArith, .plain, .plain, .chain, .acc, .res⟩
  | .updMin o => some ⟨o, 0xB2, 1, true, false, .updArith, .plain, .plain, .chain, .acc, .res⟩
  | .updMax o => some ⟨o, 0xB2, 2, true, false, .updArith, .plain, .plain, .chain, .acc, .res⟩
  | .updOr o => some ⟨o, 0xB2, 3, true, false, .updBits, .plain, .plain, .chain, .acc, .res⟩
  | .updAnd o => some ⟨o, 0xB2, 4, true, false, .updBits, .plain, .plain, .chain, .acc, .res⟩
  | .updXchg o => some ⟨o, 0xB2, 5, true, false, .updXchg, .plain, .plain, .chain, .acc, .res⟩
  | .updCas o => some ⟨o, 0xB2, 6, true, false, .updCas, .plain, .plain, .chain, .acc, .res⟩
  | .acqld o => some ⟨o, 0xB3, 0, true, false, .mem, .plain, .chain, .unused, .accRel, .res⟩
  | .relst o => some ⟨o, 0xB3, 1, true, false, .mem, .plain, .plain, .chain, .accRel, .res⟩
  | .ofork o => some ⟨o, 0xB4, 0, true, false, .x64, .port, .unused, .unused, .zero, .both⟩
  | .ojoin o => some ⟨o, 0xB4, 1, true, false, .x64, .port, .port, .unused, .zero, .req⟩
  | .xlat o => some ⟨o, 0xB5, 0, true, false, .x64, .port, .unused, .unused, .xlat, .res⟩
  | .param o => some ⟨o, 0xB6, 0, true, false, .x64, .port, .unused, .unused, .param, .res⟩
  | .bfal o => some ⟨o, 0xB7, 0, true, false, .x64, .portReg, .bfTrig, .unused, .zero, .res⟩
  | .bffr o => some ⟨o, 0xB7, 1, true, false, .x64, .port, .unused, .unused, .mask 0x001F, .res⟩
  | .bflife o => some ⟨o, 0xB7, 2, true, false, .x64, .portReg, .bfTrig, .unused, .mask 0x001F, .res⟩
  | .bfwr o => some ⟨o, 0xB7, 3, true, false, .mem, .plain, .plain, .unused, .bfwr, .bfwr⟩
  | .bfrd o => some ⟨o, 0xB7, 4, true, false, .mem, .port, .plain, .unused, .mask 0x0020, .res⟩
  | .bfqry o => some ⟨o, 0xB7, 5, true, false, .x64, .port, .unused, .unused, .mask 0x01FF, .res⟩
  | .renew o => some ⟨o, 0xB7, 6, true, false, .x64, .port, .unused, .unused, .mask 0x03FF, .res⟩
  | .viewmk o => some ⟨o, 0xB8, 0, true, false, .view, .plain, .plain, .unused, .zero, .res⟩
  | .viewdup o => some ⟨o, 0xB8, 1, true, false, .view, .plain, .plain, .unused, .zero, .res⟩
  | .narrow o => some ⟨o, 0xB8, 2, true, false, .view, .plain, .plain, .chain, .chOnly, .res⟩
  | .viewq o => some ⟨o, 0xB8, 3, true, false, .view, .plain, .chain, .unused, .chOnly, .res⟩
  | .viewdrop o => some ⟨o, 0xB8, 4, true, false, .view, .plain, .chain, .unused, .chOnly, .res⟩
  | .xferM2m o => some ⟨o, 0xD0, 0, true, false, .x64, .plain, .plain, .plain, .xfer 0, .copy⟩
  | .xferM2b o => some ⟨o, 0xD0, 0, true, false, .x64, .plain, .unused, .plain, .xfer 1, .copyRef⟩
  | .xferB2m o => some ⟨o, 0xD0, 0, true, false, .x64, .port, .plain, .plain, .xfer 2, .copy⟩
  | .weir o => some ⟨o, 0xD1, 0, true, false, .fp, .plain, .plain, .plain, .weir, .weir⟩
  | .coll o => some ⟨o, 0xD2, 0, true, false, .tile, .port, .unused, .unused, .coll, .coll⟩
  | .lsend o => some ⟨o, 0xD3, 0, true, false, .pass, .port, .unused, .unused, .mask 0x1FFF, .lsend⟩
  | .lrecv o => some ⟨o, 0xD4, 0, true, false, .pass, .unused, .unused, .unused, .lrecv, .typed⟩
  | .purgeCol o => some ⟨o, 0xE0, 0, false, true, .x64, .reg, .unused, .unused, .zero, .valid⟩
  | .purgeGen o => some ⟨o, 0xE0, 1, false, true, .x64, .reg, .unused, .unused, .zero, .valid⟩
  | .purgeIter o => some ⟨o, 0xE0, 2, false, true, .x64, .reg, .unused, .unused, .zero, .valid⟩
  | .park o => some ⟨o, 0xE1, 0, false, true, .x64, .reg, .unused, .unused, .zero, .valid⟩
  | .unpark o => some ⟨o, 0xE1, 1, false, true, .x64, .reg, .reg, .unused, .zero, .valid⟩
  | .qset o => some ⟨o, 0xE2, 0, false, true, .x64, .reg, .reg, .unused, .zero, .valid⟩
  | .prio o => some ⟨o, 0xE2, 1, false, true, .x64, .reg, .reg, .unused, .zero, .none⟩
  | .winset o => some ⟨o, 0xE2, 2, false, true, .x64, .reg, .reg, .unused, .zero, .none⟩
  | .sentl o => some ⟨o, 0xE2, 3, false, true, .x64, .reg, .reg, .unused, .zero, .none⟩
  | .colset o => some ⟨o, 0xE2, 4, false, true, .x64, .reg, .reg, .unused, .between 0 6, .valid⟩
  | .partw o => some ⟨o, 0xE3, 0, false, true, .x64, .reg, .reg, .unused, .zero, .valid⟩
  | .cfgw o => some ⟨o, 0xE4, 0, false, true, .x64, .reg, .reg, .reg, .zero, .valid⟩
  | .cfgrd o => some ⟨o, 0xE4, 1, false, true, .x64, .reg, .unused, .unused, .zero, .pair⟩
  | .raise o => some ⟨o, 0xE5, 0, false, true, .x64, .reg, .unused, .unused, .zero, .valid⟩
  | .drop o => some ⟨o, 0xE5, 1, false, true, .x64, .reg, .unused, .unused, .zero, .valid⟩
  | .tlbi o => some ⟨o, 0xE6, 0, false, true, .x64, .reg, .reg, .unused, .between 0 2, .none⟩
  | .genret o => some ⟨o, 0xE7, 0, false, true, .x64, .reg, .reg, .unused, .zero, .valid⟩
  | .quiesce o => some ⟨o, 0xE8, 0, false, true, .x64, .reg, .reg, .unused, .zero, .valid⟩
  | .resume o => some ⟨o, 0xE8, 1, false, true, .x64, .reg, .reg, .unused, .zero, .valid⟩
  | .fltrd o => some ⟨o, 0xE9, 0, false, true, .x64, .reg, .reg, .unused, .between 0 1, .valid⟩
  | .csrr o => some ⟨o, 0xEA, 0, false, true, .x64, .unused, .unused, .unused, .any, .valid⟩
  | .csrw o => some ⟨o, 0xEA, 1, false, true, .x64, .reg, .unused, .unused, .any, .none⟩
  | .trap o => some ⟨o, 0xEB, 0, false, true, .x64, .unused, .unused, .unused, .any, .none⟩
  | .rett o => some ⟨o, 0xEB, 1, false, true, .x64, .unused, .unused, .unused, .zero, .none⟩
  | .iterIssue _ => none
  | .emitSpaceResume _ => none
  | .waittTimeout _ => none
  | .updLineReleased _ => none
  | .threadStart _ => none
  | .threadRestart _ _ => none
  | .tokenMatch _ => none
  | .fireSelection _ => none
  | .unitCompletion _ => none
  | .flitDelivery _ => none
  | .entryOffer _ => none
  | .entryOfferReleased _ => none
  | .exitQueueArrival _ => none
  | .tilePacketArrival _ => none
  | .basinEngineTurn _ => none
  | .basinBundleReturn _ => none
  | .basinProbeReply _ => none
  | .basinRefill _ _ => none
  | .parkedTokenWriteback _ => none
  | .creditGrant _ _ => none
  | .creditReturn _ _ => none
  | .sentinelExpiry _ _ => none
  | .retcntTick _ => none
  | .slotExpiry _ _ _ _ => none
  | .bankWalkRenewal _ => none
  | .keepWalkRenewal _ => none
  | .roundOpen _ => none
  | .roundCompleteReport _ _ => none
  | .roundPrepare _ => none
  | .roundCommit _ => none
  | .releasePhase _ => none
  | .roundVoid _ => none
  | .faultRecordWrite _ => none
  | .readAhead _ => none
  | .portAccessPerformed _ => none
  | .pageWalk _ => none
  | .shootdownArrival _ => none
  | .shootdownAck _ => none
  | .reconfigurationToken _ => none
  | .copyChunk _ => none
  | .xferCompletion _ => none
  | .weirRequestArrival _ => none
  | .weirContextTake _ => none
  | .weirChunk _ => none
  | .weirResultSend _ => none
  | .weirCompletion _ => none
  | .weirResume _ => none
  | .trimmerChange _ => none
  | .pageFree _ _ => none
  | .linkTraining _ _ _ => none
  | .linkPacketArrival _ _ _ _ => none
  | .linkLoss _ => none
  | .spraySetTimeout _ => none
  | .collContribution _ _ _ _ => none
  | .collTimeout _ => none
  | .bindingStore _ _ _ => none
  | .configRegisterWrite _ _ _ => none
  | .elatchWrite _ _ => none
  | .retcntWrite _ _ => none
  | .heatEntryClear _ _ => none
  | .recordPublish _ => none
  | .takeWrite _ _ => none
  | .adoneWrite _ _ => none
  | .queueResidency _ => none
  | .launchAdmission _ _ => none
  | .loadPlacement _ => none
  | .residencyClaim _ _ _ _ => none
  | .adapterResident _ _ => none
  | .claimRelease _ _ => none
  | .orphanAnswer _ => none
  | .replay _ _ _ => none
  | .colourDrain _ _ _ => none
  | .eviction _ _ _ => none
  | .evictedRestore _ _ => none
  | .setroot _ _ _ => none
  | .resregion _ _ _ _ => none
  | .destregion _ _ => none
  | .loadkey _ _ _ => none
  | .setgroup _ _ _ _ => none
  | .setpart _ _ _ => none
  | .addkey _ _ _ => none
  | .revkey _ _ _ => none
  | .setcolour _ _ _ _ _ _ _ => none
  | .doorbellWrite _ _ _ => none
  | .queueDescriptorWrite _ _ _ _ => none
  | .functionLevelReset _ => none
  | .pageResponse _ _ _ => none
  | .atsInvalidation _ _ => none
  | .partitionReset _ => none
  | .errorDetected _ _ _ => none
  | .debugHalt _ => none
  | .debugRelease _ => none
  | .cutDrainTimeout _ _ => none
  | .cutEngineStop _ => none
  | .stateImageWrite _ => none
  | .fclkStepDown _ _ => none
  | .fclkStepUp _ _ => none
  | .thermalReset _ => none
  | .pcap _ => none
  | .bootStage _ _ _ _ => none
  | .setOwner _ => none
  | .erase => none
  | .telemetryRead _ => none
  | .getVersion _ => none
  | .getCapabilities _ _ => none
  | .negotiateAlgorithms _ _ => none
  | .getDigests _ => none
  | .getCertificate _ _ => none
  | .challenge _ _ => none
  | .getMeasurements _ _ => none
  | .keyExchange _ _ => none
  | .finish _ _ => none
  | .keyUpdate _ _ => none
  | .heartbeat _ _ => none
  | .endSession _ _ => none
  | .spdmUnsupportedRequest _ _ => none
  | .towpathMessageArrival _ _ => none
  | .linkAcknowledgement _ _ => none
  | .queueQuantumExpiry _ => none
  | .illegalWordFetch _ => none
  | .dynamicAddressAssignment _ => none

/-- The fabric target that 24 bits of T0 or T1 name (R72, R73): none where they name none, or break a rule. -/
def fabTarget (t : BitVec 24) : Option Target :=
  if !bit t 23 then none
  else if nfld t 21 2 = 0 then
    if nfld t 0 2 = 3 then none else some (.elem (fld t 15 6) (fld t 9 6) (fld t 2 7) (fld t 0 2))
  else if nfld t 21 2 = 3 then
    if nfld t 9 12 ≠ 0 ∨ nfld t 0 2 = 3 then none else some (.here (fld t 2 7) (fld t 0 2))
  else if nfld t 21 2 = 1 then
    if nfld t 4 17 ≠ 0 then none else some (.exit (fld t 0 4))
  else
    if nfld t 0 14 ≠ 0 ∨ nfld t 14 7 ≥ 100 then none else some (.pelem (fld t 14 7))

/-- The 24 bits are a valid target or all zero (R76). -/
def targetOk (t : BitVec 24) : Bool := t == 0 || (fabTarget t).isSome

/-- The target stays at the sending element (R163). -/
def targetHere (t : BitVec 24) : Bool :=
  match fabTarget t with
  | some (.here _ _) => true
  | some (.elem dx dy _ _) => dx == 0 && dy == 0
  | _ => false

/-- The port element that a target names, if it is of kind 0b10. -/
def targetPnum (t : BitVec 24) : Option Nat :=
  match fabTarget t with
  | some (.pelem p) => some p.toNat
  | _ => none

/-- The target is of kind 0b00 or 0b11. -/
def targetNear (t : BitVec 24) : Bool :=
  match fabTarget t with
  | some (.here _ _) => true
  | some (.elem _ _ _ _) => true
  | _ => false

/-- The register that T0 names on a steward (R77): none discards the result. -/
def stewDest (t : BitVec 24) : Option Nat := if bit t 23 then some (nfld t 0 6) else none

/-- T0 is well formed on a steward (R77). -/
def stewDestOk (t : BitVec 24) : Bool := t == 0 || (bit t 23 && nfld t 6 17 == 0)

/-- An operand is a token port. -/
def Opnd.isPort : Opnd → Bool
  | .port _ => true
  | _ => false

/-- An operand is a register. -/
def Opnd.isReg : Opnd → Bool
  | .reg _ => true
  | _ => false

/-- The port numbers a word names, in the order SA, SB, SC. -/
def portsOf (o : Ops) : List Nat :=
  let f := fun x : Opnd => match x with | .port n => [n.toNat] | _ => []
  f o.a ++ f o.b ++ f o.c

/-- No port is named twice, and n ports are p0 to p(n - 1) (R71). -/
def portsDense (o : Ops) : Bool :=
  match portsOf o with
  | [] => true
  | [a] => a == 0
  | [a, b] => (a == 0 && b == 1) || (a == 1 && b == 0)
  | l => [0, 1, 2].all fun n => l.contains n

/-- An operand satisfies the rule of its position in a form (R68, R71, R81). -/
def OpRule.ok (r : OpRule) (f : Form) (o : Ops) (x : Opnd) : Bool :=
  let isP := x.isPort && f == .fabric && x != .port 3
  let isR := match x with | .reg n => f == .fabric || n.toNat < 64 | _ => false
  let isL := match x with | .lit v => o.ty != .pred || v.toNat ≤ 1 | _ => false
  let isI := x == .imm
  match r with
  | .unused => x == .none
  | .data => isP || isR || isL || isI
  | .predData => isP || isR || (match x with | .lit v => decide (v.toNat ≤ 1) | _ => false) || isI
  | .plain => isP || isR || isL
  | .port => isP
  | .p0 => isP && x == .port 0
  | .p1 => isP && x == .port 1
  | .p1Data => (isP && x == .port 1) || isR || (match x with | .lit _ => true | _ => false) || isI
  | .trig => if f == .fabric then x == .port 0 else x == .none
  | .reg => isR
  | .regLit => isR || isL
  | .acc => match x with | .acc _ => true | _ => false
  | .portNone => isP || x == .none
  | .p0None => (isP && x == .port 0) || x == .none
  | .portReg => isP || isR
  | .bfTrig => if o.a.isReg then isP && x == .port 0 else x == .none
  | .chain => if bit o.imm 7 then isP else x == .none

/-- FMT is a code of Table 1.5. -/
def fmtOk (n : Nat) : Bool := n ≤ 6

/-- Bits of IMM outside a mask are zero. -/
def within (i : BitVec 16) (m : Nat) : Bool := (i &&& ~~~(BitVec.ofNat 16 m)) == 0

/-- The hold bits stand only on token ports (R166); a scalar token port may be named too, as the rules leave open (DESIGN CHOICE, log entry
87). -/
def holdsOk (o : Ops) : Bool :=
  (!bit o.imm 5 || o.a.isPort) && (!bit o.imm 6 || o.b.isPort) && (!bit o.imm 7 || o.c.isPort)

/-- IMM satisfies its rule. -/
def ImmRule.ok (r : ImmRule) (ver : Nat) (o : Ops) : Bool :=
  let i := o.imm
  let src := fld i 8 4
  match r with
  | .any => true
  | .zero => i == 0
  | .opImm => i == 0 || o.a == .imm || o.b == .imm || o.c == .imm
  | .between lo hi => decide (lo ≤ i.toNat) && decide (i.toNat ≤ hi)
  | .mask m => within i m
  | .maskHold m => within i m && holdsOk o
  | .fmt m => within i m && fmtOk (nfld i 8 4)
  | .fcvt => within i 0xF && TySet.scalar.has (tyOf (fld i 0 4)) && (TySet.fp.has o.ty || TySet.fp.has (tyOf (fld i 0 4)))
  | .vec => within i 0x00FF && holdsOk o
  | .vcvt => within i 0x0FFF && holdsOk o && TySet.lane.has (tyOf src)
  | .vqnt => within i 0x0FFF && holdsOk o && TySet.fp.has (tyOf src)
  | .vdqnt => within i 0x0FFF && holdsOk o && TySet.quant.has (tyOf src) && (ver != 3 || tyOf src != .q4)
  | .vred => within i 0x00E0 && holdsOk o
  | .vmaxi => within i 0x10E0 && holdsOk o
  | .tred => within i 0x7F3F && nfld i 12 2 != 3
  | .race => within i 0x0F20 && decide (1 ≤ nfld i 8 4) && decide (nfld i 8 4 ≤ 8)
  | .acc => within i 0x00FF
  | .accRel => within i 0x03FF && bit i 7
  | .chOnly => within i 0x0080
  | .xlat => within i 0x00FF && (nfld i 0 7 < 80 || (nfld i 0 7 % 2 == 0 && decide (92 ≤ nfld i 0 7) && decide (nfld i 0 7 ≤ 98)))
  | .param => within i 0x03FF && decide (nfld i 7 3 ≤ 4)
  | .bfwr => within i 0x003F
  | .xfer d => within i 0x03FF && nfld i 0 2 == d
  | .weir => within i 0x01FF && nfld i 7 2 != 3
  | .coll => nfld i 6 2 != 3
  | .lrecv => within i 0x0FFF && decide (nfld i 8 4 ≤ 11)

/-- The targets satisfy their rule (R72 to R77, R163, R190, R196, R228, R232, R367). -/
def TgtRule.ok (r : TgtRule) (f : Form) (o : Ops) : Bool :=
  match f with
  | .steward =>
    o.t1 == 0 && stewDestOk o.t0 && match r with
    | .none => o.t0 == 0
    | .valid => bit o.t0 23
    | .pair => bit o.t0 23 && decide (nfld o.t0 0 6 ≤ 62)
    | _ => true
  | .fabric =>
    let p0 := (targetPnum o.t0).getD 127
    targetOk o.t0 && targetOk o.t1 && (o.t1 == 0 || o.t0 != 0) && match r with
    | .none => o.t0 == 0 && o.t1 == 0
    | .req => o.t0 != 0
    | .res => true
    | .ref => (o.t0 == 0 || targetHere o.t0) && (o.t1 == 0 || targetHere o.t1)
    | .ref1 => targetHere o.t0 && (o.t1 == 0 || targetHere o.t1)
    | .both => o.t0 != 0 && o.t1 != 0
    | .agen => decide (p0 < 100) && o.t1 == 0
    | .copy => (p0 < 80 || (p0 % 2 == 0 && decide (92 ≤ p0) && decide (p0 < 100))) && o.t1 != 0
    | .copyRef => (p0 < 80 || (p0 % 2 == 0 && decide (92 ≤ p0) && decide (p0 < 100))) && targetHere o.t1
    | .weir => decide (p0 < 64) && targetHere o.t1 && decide (nfld o.t1 2 7 ≤ 31)
    | .coll => decide (80 ≤ p0) && decide (p0 < 92) && targetHere o.t1
    | .lsend => decide (80 ≤ p0) && decide (p0 < 92)
    | .near => targetNear o.t0 && (o.t1 == 0 || targetNear o.t1)
    | .bfwr => !bit o.imm 5 || ((o.t0 == 0 || targetHere o.t0) && (o.t1 == 0 || targetHere o.t1))
    | .typed => o.ty != .tile || ((o.t0 == 0 || targetHere o.t0) && (o.t1 == 0 || targetHere o.t1))
    | .valid => true
    | .pair => true

/-- Nodes of the memory chapter name at least one token port, except AGEN and LRECV (R192). -/
def portNamed (g : Sig) : Bool :=
  g.opc < 0xB0 || 0xD4 ≤ g.opc || g.opc == 0xB0 || g.opc == 0xCE || portsOf g.o != []

/-- The encoding exists in a version (Table 3.16). -/
def versionOk (ver : Nat) (g : Sig) : Bool :=
  decide (3 ≤ ver) && decide (ver ≤ 5) &&
  (ver != 3 || (!bit g.o.fl 5 && g.o.ty != .q4 &&
    !(g.opc == 0x0A || g.opc == 0xA1 || g.opc == 0xAA || g.opc == 0x88 || g.opc == 0x87 || g.opc == 0xD1))) &&
  (ver == 5 || (g.o.ty != .view && g.opc != 0xB8))

/-- A pred LI needs IMM 0 or 1 (R140). -/
def predImmOk (g : Sig) : Bool := g.opc != 0x20 || g.o.ty != .pred || g.o.imm.toNat ≤ 1

/-- The check of R83 for a row in a form. -/
def sigLegal (ver : Nat) (f : Form) (g : Sig) : Bool :=
  versionOk ver g && (match f with | .fabric => g.fab | .steward => g.stew) &&
  g.tys.has g.o.ty && g.ra.ok f g.o g.o.a && g.rb.ok f g.o g.o.b && g.rc.ok f g.o g.o.c &&
  portsDense g.o && g.tg.ok f g.o && nfld g.o.fl 0 5 == 0 &&
  (f == .fabric || (!bit g.o.fl 11 && !bit g.o.fl 10 && !bit g.o.fl 9 && !bit g.o.fl 5)) &&
  g.imm.ok ver g.o && portNamed g && predImmOk g

/-- A word is legal in a version and a form (R83). Events are not words. -/
def legal (ver : Nat) (f : Form) (i : Instr) : Bool :=
  match sig i with
  | some g => sigLegal ver f g
  | none => false

/-- No operand is the illegal port 3, and IMM agrees with the row's IMM rule: what the encoder needs. -/
def encodable (i : Instr) : Bool :=
  match sig i with
  | some g => g.o.a != .port 3 && g.o.b != .port 3 && g.o.c != .port 3 &&
    (match g.imm with | .xfer d => nfld g.o.imm 0 2 == d | _ => true)
  | none => false

end Sys2Proof
end

