-- ==== Sys2Proof/Decode.lean ====
section
/-! DEFINITION. Decoding a 128-bit slot word (R67, R68, R103) and encoding one, from the same tables. Decoding is total; a word that
is no instruction is refused with a reason. Whether a decoded word is legal in a form and version is `legal` (R83). -/

namespace Sys2Proof

open Sys2Proof.Machine

/-- Why bits are no instruction. -/
inductive DecodeError where
  /-- OPC and FN are not assigned (Table 3.11). -/
  | unassigned
  /-- SA is not a listed code (Table 3.2). -/
  | operandA
  /-- SB is not a listed code. -/
  | operandB
  /-- SC is not a listed code. -/
  | operandC
  /-- Fewer than 16 bytes. -/
  | tooShort
  deriving DecidableEq, Repr

/-- The operand that a 12-bit specifier names (Table 3.2). -/
def opndOf (s : BitVec 12) : Option Opnd :=
  let v := fld s 0 10
  if nfld s 10 2 = 0 then
    if nfld s 2 8 = 0 ∧ nfld s 0 2 ≠ 3 then some (.port (fld s 0 2)) else none
  else if nfld s 10 2 = 1 then some (.reg v)
  else if nfld s 10 2 = 2 then some (.lit v)
  else if v.toNat < 16 then some (.acc (fld s 0 4))
  else if 32 ≤ v.toNat ∧ v.toNat < 64 then some (.buf (fld s 0 5))
  else if v = 0x100 then some .imm
  else if v = 0x3FF then some .none
  else none

/-- The 12-bit specifier of an operand (Table 3.2). -/
def opndBits : Opnd → BitVec 12
  | .port n => n.zeroExtend 12
  | .reg n => (1 : BitVec 2) ++ n
  | .lit v => (2 : BitVec 2) ++ v
  | .acc n => (0xC0 : BitVec 8) ++ n
  | .buf n => (0x61 : BitVec 7) ++ n
  | .imm => 0xD00
  | .none => 0xFFF

/-- Table 3.9: the instruction of an OPC and FN, but for XFER, whose variant IMM selects. -/
def codeOf : Nat → Nat → Option (Ops → Instr)
  | 0x00, 0 => some .nop
  | 0x01, 0 => some .copy
  | 0x02, 0 => some .steer
  | 0x03, 0 => some .merge
  | 0x04, 0 => some .gate
  | 0x05, 0 => some .sink
  | 0x06, 0 => some .nullt
  | 0x07, 0 => some .joinn
  | 0x08, 0 => some .iter
  | 0x09, 0 => some .tagset
  | 0x09, 1 => some .tagget
  | 0x0A, 0 => some .keyset
  | 0x0A, 1 => some .keyget
  | 0x0B, 0 => some .genchk
  | 0x0C, 0 => some .delay
  | 0x0D, 0 => some .entry
  | 0x0E, 0 => some .emit
  | 0x0F, 0 => some .bar
  | 0x10, 0 => some .br
  | 0x11, 0 => some .brcEq
  | 0x11, 1 => some .brcNe
  | 0x11, 2 => some .brcLt
  | 0x11, 3 => some .brcGe
  | 0x11, 4 => some .brcLtu
  | 0x11, 5 => some .brcGeu
  | 0x12, 0 => some .call
  | 0x13, 0 => some .ret
  | 0x14, 0 => some .sendt
  | 0x15, 0 => some .waitt
  | 0x16, 0 => some .halt
  | 0x20, 0 => some .li
  | 0x21, 0 => some .add
  | 0x21, 1 => some .sub
  | 0x21, 2 => some .adds
  | 0x21, 3 => some .subs
  | 0x21, 4 => some .neg
  | 0x21, 5 => some .abs
  | 0x22, 0 => some .mul
  | 0x22, 1 => some .mulh
  | 0x22, 2 => some .mulhu
  | 0x22, 3 => some .mad
  | 0x23, 0 => some .div
  | 0x23, 1 => some .divu
  | 0x23, 2 => some .rem
  | 0x23, 3 => some .remu
  | 0x24, 0 => some .min
  | 0x24, 1 => some .max
  | 0x24, 2 => some .minu
  | 0x24, 3 => some .maxu
  | 0x25, 0 => some .and
  | 0x25, 1 => some .or
  | 0x25, 2 => some .xor
  | 0x25, 3 => some .andn
  | 0x25, 4 => some .not
  | 0x26, 0 => some .shl
  | 0x26, 1 => some .shr
  | 0x26, 2 => some .sar
  | 0x26, 3 => some .rol
  | 0x27, 0 => some .clz
  | 0x27, 1 => some .ctz
  | 0x27, 2 => some .popc
  | 0x27, 3 => some .bswap
  | 0x28, 0 => some .bfx
  | 0x28, 1 => some .bfi
  | 0x28, 2 => some .sext
  | 0x28, 3 => some .zext
  | 0x29, 0 => some .cmpEq
  | 0x29, 1 => some .cmpNe
  | 0x29, 2 => some .cmpLt
  | 0x29, 3 => some .cmpLe
  | 0x29, 4 => some .cmpGt
  | 0x29, 5 => some .cmpGe
  | 0x29, 6 => some .cmpLtu
  | 0x29, 7 => some .cmpLeu
  | 0x29, 8 => some .cmpGtu
  | 0x29, 9 => some .cmpGeu
  | 0x2A, 0 => some .sel
  | 0x2B, 0 => some .addx
  | 0x2C, 0 => some .crc
  | 0x2D, 0 => some .mix
  | 0x60, 0 => some .fadd
  | 0x60, 1 => some .fsub
  | 0x60, 2 => some .fmul
  | 0x60, 3 => some .ffma
  | 0x61, 0 => some .fdiv
  | 0x61, 1 => some .fsqrt
  | 0x61, 2 => some .frsq
  | 0x61, 3 => some .frcp
  | 0x61, 4 => some .fexp2
  | 0x61, 5 => some .flog2
  | 0x62, 0 => some .fmin
  | 0x62, 1 => some .fmax
  | 0x62, 2 => some .fabs
  | 0x62, 3 => some .fneg
  | 0x63, 0 => some .fcmpEq
  | 0x63, 1 => some .fcmpNe
  | 0x63, 2 => some .fcmpLt
  | 0x63, 3 => some .fcmpLe
  | 0x63, 4 => some .fcmpGt
  | 0x63, 5 => some .fcmpGe
  | 0x63, 6 => some .fcmpUn
  | 0x64, 0 => some .fclass
  | 0x65, 0 => some .fcvt
  | 0x66, 0 => some .fround
  | 0x67, 0 => some .maxi
  | 0x80, 0 => some .vadd
  | 0x80, 1 => some .vsub
  | 0x80, 2 => some .vmul
  | 0x80, 3 => some .vfma
  | 0x80, 4 => some .vmin
  | 0x80, 5 => some .vmax
  | 0x80, 6 => some .vabs
  | 0x81, 0 => some .vexp2
  | 0x81, 1 => some .vlog2
  | 0x81, 2 => some .vrcp
  | 0x81, 3 => some .vrsq
  | 0x82, 0 => some .vcvt
  | 0x82, 1 => some .vqnt
  | 0x82, 2 => some .vdqnt
  | 0x83, 0 => some .vcmpEq
  | 0x83, 1 => some .vcmpNe
  | 0x83, 2 => some .vcmpLt
  | 0x83, 3 => some .vcmpLe
  | 0x83, 4 => some .vcmpGt
  | 0x83, 5 => some .vcmpGe
  | 0x83, 6 => some .vcmpUn
  | 0x84, 0 => some .vsel
  | 0x85, 0 => some .vredSum
  | 0x85, 1 => some .vredMin
  | 0x85, 2 => some .vredMax
  | 0x86, 0 => some .vscanSum
  | 0x86, 1 => some .vscanMin
  | 0x86, 2 => some .vscanMax
  | 0x87, 0 => some .vmaxi
  | 0x88, 0 => some .vnoise
  | 0x89, 0 => some .vbcast
  | 0x8A, 0 => some .vperm
  | 0xA0, 0 => some .tmma
  | 0xA1, 0 => some .tmmq
  | 0xA2, 0 => some .tclr
  | 0xA3, 0 => some .tacc
  | 0xA4, 0 => some .tdrain
  | 0xA5, 0 => some .ttrn
  | 0xA6, 0 => some .tcvt
  | 0xA7, 0 => some .thdr
  | 0xA8, 0 => some .trec
  | 0xA9, 0 => some .tred
  | 0xAA, 0 => some .race
  | 0xAB, 0 => some .tsend
  | 0xB0, 0 => some .agen
  | 0xB1, 0 => some .lds
  | 0xB1, 1 => some .sts
  | 0xB1, 2 => some .ldr
  | 0xB1, 3 => some .str
  | 0xB2, 0 => some .updAdd
  | 0xB2, 1 => some .updMin
  | 0xB2, 2 => some .updMax
  | 0xB2, 3 => some .updOr
  | 0xB2, 4 => some .updAnd
  | 0xB2, 5 => some .updXchg
  | 0xB2, 6 => some .updCas
  | 0xB3, 0 => some .acqld
  | 0xB3, 1 => some .relst
  | 0xB4, 0 => some .ofork
  | 0xB4, 1 => some .ojoin
  | 0xB5, 0 => some .xlat
  | 0xB6, 0 => some .param
  | 0xB7, 0 => some .bfal
  | 0xB7, 1 => some .bffr
  | 0xB7, 2 => some .bflife
  | 0xB7, 3 => some .bfwr
  | 0xB7, 4 => some .bfrd
  | 0xB7, 5 => some .bfqry
  | 0xB7, 6 => some .renew
  | 0xB8, 0 => some .viewmk
  | 0xB8, 1 => some .viewdup
  | 0xB8, 2 => some .narrow
  | 0xB8, 3 => some .viewq
  | 0xB8, 4 => some .viewdrop
  | 0xCE, 0 => some .ld
  | 0xCE, 1 => some .st
  | 0xD1, 0 => some .weir
  | 0xD2, 0 => some .coll
  | 0xD3, 0 => some .lsend
  | 0xD4, 0 => some .lrecv
  | 0xE0, 0 => some .purgeCol
  | 0xE0, 1 => some .purgeGen
  | 0xE0, 2 => some .purgeIter
  | 0xE1, 0 => some .park
  | 0xE1, 1 => some .unpark
  | 0xE2, 0 => some .qset
  | 0xE2, 1 => some .prio
  | 0xE2, 2 => some .winset
  | 0xE2, 3 => some .sentl
  | 0xE2, 4 => some .colset
  | 0xE3, 0 => some .partw
  | 0xE4, 0 => some .cfgw
  | 0xE4, 1 => some .cfgrd
  | 0xE5, 0 => some .raise
  | 0xE5, 1 => some .drop
  | 0xE6, 0 => some .tlbi
  | 0xE7, 0 => some .genret
  | 0xE8, 0 => some .quiesce
  | 0xE8, 1 => some .resume
  | 0xE9, 0 => some .fltrd
  | 0xEA, 0 => some .csrr
  | 0xEA, 1 => some .csrw
  | 0xEB, 0 => some .trap
  | 0xEB, 1 => some .rett
  | _, _ => none

/-- The instruction of an OPC, FN and IMM (R103, R228). -/
def instrOf (opc fn dir : Nat) : Option (Ops → Instr) :=
  if opc = 0xD0 ∧ fn = 0 then
    if dir = 0 then some .xferM2m else if dir = 1 then some .xferM2b else if dir = 2 then some .xferB2m else none
  else codeOf opc fn

/-- Decodes a slot word (Table 3.1). -/
def decode (w : SlotWord) : Except DecodeError Instr :=
  match instrOf (nfld w 120 8) (nfld w 116 4) (nfld w 0 2) with
  | none => .error .unassigned
  | some f =>
    match opndOf (fld w 100 12) with
    | none => .error .operandA
    | some a =>
      match opndOf (fld w 88 12) with
      | none => .error .operandB
      | some b =>
        match opndOf (fld w 76 12) with
        | none => .error .operandC
        | some c => .ok (f ⟨tyOf (fld w 112 4), a, b, c, fld w 52 24, fld w 28 24, fld w 16 12, fld w 0 16⟩)

/-- Decodes the 16 bytes of a slot word, least significant first (R4), and returns the bytes that follow. -/
def decodeBytes (bs : List Byte) : Except DecodeError (Instr × List Byte) :=
  if bs.length < 16 then .error .tooShort
  else match decode (BitVec.ofNat 128 (ofBytes (bs.take 16))) with
    | .ok i => .ok (i, bs.drop 16)
    | .error e => .error e

/-- The word of an OPC, an FN and operand fields (Table 3.1). -/
def wordOf (opc : BitVec 8) (fn : BitVec 4) (o : Ops) : SlotWord :=
  opc ++ fn ++ tyCode o.ty ++ opndBits o.a ++ opndBits o.b ++ opndBits o.c ++ o.t0 ++ o.t1 ++ o.fl ++ o.imm

/-- Encodes a slot-word instruction; an event has no word. -/
def encode (i : Instr) : Option SlotWord :=
  match sig i with
  | some g => some (wordOf (BitVec.ofNat 8 g.opc) (BitVec.ofNat 4 g.fn) g.o)
  | none => none

/-- The instruction that the decoder reads from bits numbered as spec/opcode_table.json numbers them; bits above `nbits` are 0. -/
def decodeTableWord (nbits w : Nat) : Option Instr :=
  match decode (BitVec.ofNat 128 (w % 2 ^ nbits)) with
  | .ok i => some i
  | .error _ => none

end Sys2Proof
end

