-- ==== Sys2Proof/Machine/State.lean ====
section
/-! DEFINITION. The state of the T9 as plain data: everything the spec names, and the model's own fields (agenda, focus, fresh,
cycle). Elements are numbered 48y + x, threads by THREADID, ports by PNUM. -/

namespace Sys2Proof.Machine

/-- Why a step stops. -/
inductive Fault where
  /-- Raised by an access to a physical address that Table 11.1 says is no memory; safe: the machine's answer is not given. -/
  | noMemory (a : Nat)
  deriving DecidableEq, Repr

/-- Why the model gives an instruction no meaning. -/
inductive Refusal where
  /-- Raised by the dispatcher for an instruction whose meaning is not written; safe: nothing can be proved of it. -/
  | notModelled (mnemonic : String)
  /-- Raised by the step for a word that no form of the machine reads: a firing whose slot word does not decode; safe. -/
  | noWord
  deriving DecidableEq, Repr

/-! ### The schedule (the model's own, log entry 1) -/

/-- What moves next. -/
inductive Move where
  /-- Thread t fetches and runs one word. -/
  | run (t : Nat)
  /-- An event of the device happens. -/
  | happen (i : Instr)
  /-- One fabric cycle passes. -/
  | tick
  /-- From now on a peer answers accesses to a page of its memory with a code of Table 7.6, or performs them when it is 0 (R329). -/
  | peerAnswer (peer page code : Nat)
  /-- The hypervisor firmware sets the residency quantum, in microseconds (R413). -/
  | setQuantum (us : Nat)
  /-- The far end of a link stops or lets go a lane class (R452). -/
  | stopGo (l cls : Nat) (stop : Bool)
  /-- The host stores a doubleword to BAR 0 of a function, 64 the physical one, or loads one (R445, R448). -/
  | hostStore (f off : Nat) (v : Word)
  | hostLoad (f off : Nat)
  /-- An open session of the physical function's DOE sets the IDE key of a stream (R449, R481). -/
  | ideKey (session stream : Nat) (key : BitVec 256)
  deriving DecidableEq, Repr

/-! ### Tokens (01, 08, 09) -/

/-- Payload kinds (R9). -/
inductive TKind where
  | scalar | ref | tile
  deriving DecidableEq, Repr

/-- A tile: header (Table 1.4), scale block (R33) and body bytes (R32) as a little-endian number. -/
structure TilePkt where
  hdr : BitVec 256
  scale : BitVec 1024
  body : List Byte
  deriving DecidableEq, Repr

/-- Where a token is bound. -/
inductive Dst where
  /-- Port of a slot word of an element. -/
  | node (e slot port : Nat)
  /-- Exit port of the load of the token's context slot. -/
  | exit (x : Nat)
  /-- A port element. -/
  | pelem (p : Nat)
  deriving DecidableEq, Repr

/-- Where a token is (R293). -/
inductive Place where
  /-- On the mesh from an element or, 2,304 + PNUM, a port element; its last flit is due at a cycle (R268). -/
  | mesh (due src : Nat)
  /-- At the element's input, entering matching from a cycle on (R272). -/
  | input (due : Nat)
  /-- A candidate of a one-port node that holds no entry, since a cycle (R272). -/
  | cand (since : Nat)
  /-- In a matching entry since a cycle (R271). -/
  | entry (since : Nat)
  /-- In the element's spill queue (R299). -/
  | spill
  /-- In an entry of the colour's basin (R300). -/
  | basin (i : Nat)
  /-- In an entry of the colour's basin and parked there since, while the entry does not show P yet (R300, R437). -/
  | marked (i : Nat)
  /-- Returned from the basin in a bundle, a candidate since a cycle (R302). -/
  | bundle (since : Nat)
  /-- Bound for the hub port element from a sender, due there at a cycle, not yet queued (R292). -/
  | exitIn (due src : Nat)
  /-- In the exit queues (R292). -/
  | exitq
  /-- Admitted at an entry port, waiting for its ENTRY node (R291). -/
  | entryq (port : Nat)
  /-- Held by a BAR (R121). -/
  | barHold
  /-- Held by an EMIT that waits for event space (R131). -/
  | emitWait
  /-- A reference from another element, parked at the element's input; its sender, whose slot it names (R26). -/
  | foreign (src : Nat)
  /-- At a port element, which has no use for it (log entry 90). -/
  | port
  deriving DecidableEq, Repr

/-- A token (R9). -/
structure Token where
  tag : Word
  sb : BitVec 8
  kind : TKind
  pay : Word
  /-- The body of a tile packet. -/
  pkt : Option TilePkt
  dst : Dst
  place : Place
  /-- Parked under R244. -/
  parked : Bool
  /-- Arrival sequence at the destination (Table 9.4). -/
  seq : Nat
  /-- LOADID of the load it belongs to. -/
  load : Word
  /-- Accesses that the chain of this token has performed (R204, R350). -/
  hist : List Nat
  deriving DecidableEq, Repr

/-! ### Buffers and accumulators (05, 06, 10) -/

/-- Slot state of Table 10.2, with the slot header of R158 and the scale block. -/
structure Slot where
  stamp : BitVec 32
  hv : Bool
  exp : Bool
  kept : Bool
  data : Bool
  full : Bool
  hdr : BitVec 256
  scale : BitVec 1024
  /-- Lines written (LINES of the reference). -/
  lines : Nat
  /-- An EXPIRY event was sent (R265). -/
  warned : Bool
  /-- It was written with KP and its lines were granted (R216, R319). -/
  granted : Bool
  /-- The stamp that a renewal in progress will write (R315, R321). -/
  renew : Option (BitVec 32)
  deriving DecidableEq, Repr

/-- The reset values of a slot (R314). -/
def Slot.empty : Slot := ⟨0, false, false, false, false, false, 0, 0, 0, false, false, none⟩

/-- An allocated buffer (R213, Table 3.14). -/
structure Buf where
  base : Nat
  size : Nat
  depth : Nat
  life : Nat
  keep : Bool
  widx : Nat
  slots : List Slot
  deriving DecidableEq, Repr

/-- Mode of an accumulator (Table 5.7). -/
inductive AMode where
  | unset | float | integer
  deriving DecidableEq, Repr

/-- Accumulator state of Table 5.7, but for DATA, which lies in the pool. -/
structure Acc where
  owner : Option Word
  kc : Nat
  shape : Option (Nat × Nat)
  mode : AMode
  /-- Open group: tiles still to come, exact partials, and the opening A and B scale blocks (R182). -/
  gleft : Nat
  partials : List Int
  ascale : BitVec 1024
  bscale : BitVec 1024
  idx : Nat × Nat
  asb : BitVec 8
  deriving DecidableEq, Repr

/-- The reset values of an accumulator (R176). -/
def Acc.reset : Acc := ⟨none, 0, none, .unset, 0, [], 0, 0, (0, 0), 0⟩

/-! ### Elements (08) -/

/-- A context slot of an element. -/
structure Ctx where
  active : Bool
  partwd : Word
  /-- Slot words; none is empty (R84). -/
  words : Tbl (Option SlotWord)
  /-- Buffer descriptors that CFGW wrote (R97). -/
  descs : Tbl (Option Word)
  /-- The slot has received a CFGW since it was last inactive (R252). -/
  touched : Bool
  prio : Nat
  bufs : Tbl (Option Buf)
  accs : Tbl Acc
  deriving DecidableEq, Repr

/-- A context slot at reset. -/
def Ctx.reset : Ctx := ⟨false, 0, [], [], false, 0, [], []⟩

/-- A cached translation (R334). -/
structure Xent where
  asid : Nat
  /-- Virtual address of the page. -/
  page : Nat
  /-- log2 of the page size. -/
  psz : Nat
  frame : Nat
  wr : Bool
  cv : Bool
  ro : Bool
  /-- Made by a request for writing (R334). -/
  fw : Bool
  deriving DecidableEq, Repr

/-- Credit of a colour at an element (R295, R296): units and the cycle from which the element holds no entry of it. -/
structure Credit where
  units : Nat
  idle : Nat
  deriving DecidableEq, Repr

/-- A request for credit at a colour's counter (R295). -/
structure Ask where
  col : Nat
  e : Nat
  n : Nat
  deriving DecidableEq, Repr

/-- Entries of an element, by colour and set, at the start of a cycle in which it has issued a firing (R298). -/
structure Holdings where
  cycle : Nat
  entries : List (Nat × Nat)
  deriving DecidableEq, Repr

/-- A firing that is ready, by context slot, slot word and tag, and the cycle at which it became so (R274). -/
structure Ready where
  ctx : Nat
  slot : Nat
  tag : Word
  since : Nat
  deriving DecidableEq, Repr

/-- A firing that an element has issued, the cycle of its issue, and the pool banks that it uses (R281). -/
structure Use where
  cycle : Nat
  ctx : Nat
  slot : Nat
  tag : Word
  banks : List Nat
  deriving DecidableEq, Repr

/-- The sentinel count of a colour at an element (R307): the cycle it was last 0, and whether it has reported. -/
structure Sentinel where
  since : Nat
  sent : Bool
  deriving DecidableEq, Repr

/-- An element. -/
structure Elem where
  ctxs : Tbl Ctx
  /-- Pool bytes (R277): registers, accumulator DATA and scratchpad lines. -/
  pool : Memory
  /-- Poisoned pool lines (R281). -/
  poison : List Nat
  turn : BitVec 12
  retcnt : BitVec 32
  /-- Cycle of the last life unit's end (R311). -/
  tickAt : Nat
  elatch : Word
  /-- One more than the cycle of the last firing with XL, and the firings with XL of that cycle as ELATCH would record them (R283). -/
  shown : Nat × List Word
  /-- XLAT cache, most recently used first. -/
  xlat : List Xent
  credits : Tbl Credit
  sentinels : Tbl Sentinel
  /-- Next bank-walk line of the Lengthsman, whether the keep walk is next, and the cycle from which it may renew a line (R280). -/
  walk : Nat
  keepNext : Bool
  walkAt : Nat
  /-- The slot that the keep walk renews: context slot, buffer, slot, and lines left (R318). -/
  keepAt : Option (Nat × Nat × Nat × Nat)
  /-- Next arrival sequence number. -/
  seq : BitVec 32
  halted : Bool
  /-- Cycle at which it was halted (R460). -/
  haltedAt : Nat
  /-- One more than the cycle of its last choice, an issue or none before a line was renewed; 0 before the first (R274, R281). -/
  issued : Nat
  /-- One more than the cycle in which it last examined its candidates (R273). -/
  examined : Nat
  /-- What it held at the start of the cycle of its last issue (R298). -/
  start : Holdings
  /-- Its ready firings, as the last selection saw them (R274). -/
  ready : List Ready
  /-- Its latest firings, with the banks that they use (R281). -/
  uses : List Use
  deriving DecidableEq, Repr

/-- An element at reset. -/
def Elem.reset : Elem := ⟨[], [], [], 0, 0, 0, 0, (0, []), [], [], [], 0, false, 8, none, 0, false, 0, 0, 0, ⟨0, []⟩, [], []⟩

/-! ### Node state and firings (04, 08) -/

/-- A JOINN count (R120). -/
structure Join where
  e : Nat
  slot : Nat
  tag : Word
  count : Nat
  sum : Word
  sb : BitVec 8
  hist : List Nat
  load : Word
  parked : Bool
  /-- Arrival number of its first token. -/
  seq : Nat
  deriving DecidableEq, Repr

/-- An ITER stream (R122, Table 19.7). -/
structure Stream where
  e : Nat
  slot : Nat
  /-- Tag and side-band of the start token. -/
  tag : Word
  sb : BitVec 8
  n : Nat
  /-- Next index to issue. -/
  k : Nat
  rc : Bool
  load : Word
  parked : Bool
  /-- What the chain of the start token has performed (R350), and its arrival number. -/
  hist : List Nat
  seq : Nat
  deriving DecidableEq, Repr

/-- The NEXT of a BAR for a colour and load (R121). -/
structure BarNext where
  e : Nat
  load : Word
  slot : Nat
  col : Nat
  next : Nat
  deriving DecidableEq, Repr

/-- An issued firing, or a steward word about to run. -/
structure Firing where
  e : Nat
  ctx : Nat
  slot : Nat
  word : SlotWord
  tag : Word
  /-- Operand tokens by port. -/
  ops : Tbl (Option Token)
  deriving DecidableEq, Repr

/-- What runs when the next step executes a word. -/
inductive Focus where
  | thread (t : Nat)
  | node (f : Firing)
  deriving DecidableEq, Repr

/-- A token to send, with the target it goes to. -/
structure Out where
  target : BitVec 24
  sb : BitVec 8
  kind : TKind
  pay : Word
  pkt : Option TilePkt
  tag : Word
  hist : List Nat
  deriving DecidableEq, Repr

/-- A slot write at the completion of a firing (R161, R315). -/
structure SlotWrite where
  buf : Nat
  slot : Nat
  data : List Byte
  lines : Nat
  hv : Bool
  hdr : BitVec 256
  scale : BitVec 1024
  keep : Bool
  deriving DecidableEq, Repr

/-- A firing in a unit (R276). -/
structure UnitOp where
  e : Nat
  ctx : Nat
  slot : Nat
  tag : Word
  due : Nat
  /-- 0 scalar or flow, 1 the vector unit (R175), 2 the matrix queue and unit (R191). -/
  unit : Nat
  /-- The accumulator of a firing in the matrix unit. -/
  acc : Option Nat
  outs : List Out
  /-- The slot reserved at issue, and what is written into it (R161). -/
  write : Option SlotWrite
  /-- Slots to release (R162). -/
  release : List (Nat × Nat)
  /-- Slots that a RENEW renews (R220). -/
  renews : List (Nat × Nat)
  deriving DecidableEq, Repr

/-! ### Threads (04, 07) -/

/-- Why a thread does not run. -/
inductive Stall where
  | none
  /-- SENDT waits for its answer (R135). -/
  | offer
  /-- WAITT waits; the deadline of a limit (R136). -/
  | waitt (deadline : Option Nat)
  /-- A system instruction waits for acknowledgements (R239). -/
  | system
  deriving DecidableEq, Repr

/-- A steward image (R100): its encoding version and words, its header of Table 3.12 and the CRC-32C that follows the words. -/
structure Image where
  version : Nat
  words : Tbl SlotWord
  /-- Number of words. -/
  size : Nat
  hdr : BitVec 2048
  crc : BitVec 32
  deriving DecidableEq, Repr

/-- A steward thread. -/
structure Thread where
  pc : Word
  regs : Tbl Word
  status : Word
  tvec : Word
  epc : Word
  ecause : Word
  eval : Word
  scratch : Word
  asid : BitVec 16
  evtx0 : Word
  evtx1 : Word
  started : Bool
  halted : Bool
  image : Nat
  stall : Stall
  /-- Cycle from which its next word may run (R157). -/
  busy : Nat
  deriving DecidableEq, Repr

/-- A thread that no firmware has started: R258's values. -/
def Thread.reset : Thread := ⟨0, [], 0x100, 0, 0, 0, 0, 0, 0, 0, 0, false, false, 0, .none, 0⟩

/-- What an offer waits for (R290). -/
inductive OWait where
  | fresh | waiting
  deriving DecidableEq, Repr

/-- Who makes an offer: a thread's SENDT, the launch of record n of a queue slot (R419), or the save or restore path of an evicted load (R439, R441). -/
inductive OfferBy where
  | thread
  | launch (qslot n : Nat)
  | path (load : Word)
  deriving DecidableEq, Repr

/-- An offer at an entry port (R135, R290). -/
structure Offer where
  thread : Nat
  part : Nat
  ctx : Nat
  eport : Nat
  sender : Nat
  tag : Word
  pay : Word
  dest : Option Nat
  wait : OWait
  /-- Cycle at which it reached the arbiter (R291). -/
  since : Nat
  who : OfferBy
  deriving DecidableEq, Repr

/-- Scopes of the system operations on the towpath. -/
inductive SysKind where
  /-- PURGE of a colour: variant 0 col, 1 gen, 2 iter (R241). -/
  | purge (variant col gen lo hi : Nat)
  /-- PARK (R244). -/
  | park (col lo hi : Nat)
  /-- PRIO (R247). -/
  | prio (ctx p : Nat)
  /-- The raise wave of a load (R252): its descriptor and the digest to extend with. -/
  | raise (desc : BitVec 512) (img : BitVec 512)
  deriving DecidableEq, Repr

/-- A system operation whose messages are under way (R239, R240). -/
structure SysOp where
  thread : Nat
  part : Nat
  kind : SysKind
  /-- Elements that have not acknowledged. -/
  todo : List Nat
  /-- Tokens removed or marked so far. -/
  count : Nat
  /-- Load and iteration of what was removed (R406). -/
  hits : List (Word × Nat)
  dest : Option Nat
  deriving DecidableEq, Repr

/-- A park in force for later arrivals (R244, R344): colour, iteration range, the load it is limited to, and the generations
that a PURGE.gen has lifted it for. -/
structure Park where
  part : Nat
  col : Nat
  lo : Nat
  hi : Nat
  load : Option Word
  lifted : List Nat
  deriving DecidableEq, Repr

/-- An event entry of Table 7.9. -/
abbrev Event := BitVec 256

/-- A fault waiting for its park or for a free record (R262, R345). -/
structure PendFault where
  part : Nat
  rcd : BitVec 512
  tag : Word
  /-- First iteration of the uncommitted round it voids, if any. -/
  round : Option Nat
  /-- The round is voided and its tokens parked. -/
  done : Bool
  /-- The record is of a failed RAISE: a LOADREF event names it (R252). -/
  loadref : Bool
  deriving DecidableEq, Repr

/-- An adapter claim that waits (R403): its adapter, ASID and pinned slot, the launch that made it, by queue slot and record, and the tag of
its row. -/
structure ClaimWait where
  adp : Word
  asid : Nat
  pin : Nat
  who : Option (Nat × Nat)
  tag : Word
  deriving DecidableEq, Repr

/-- An entry of the adapter residency table (R402). -/
structure Resident where
  adp : Word
  asid : Nat
  users : Nat
  age : Nat
  /-- 0 free, 1 loading, 2 resident. -/
  state : Nat
  deriving DecidableEq, Repr

/-- A residency slot at reset. -/
def Resident.free : Resident := ⟨0, 0, 0, 0, 0⟩

/-- States of a cut (R464). -/
inductive Cut where
  | idle | draining | parked | quiesced
  deriving DecidableEq, Repr

/-- A partition (18 R442). -/
structure Part where
  /-- Descriptor of Table 18.1. -/
  desc : BitVec 512
  /-- Binding entries (Table 9.3). -/
  bind : Tbl Word
  events : List Event
  /-- Events that sources hold while the queue is full (R264). -/
  held : List Event
  /-- Fault ring: record by index 0 to 63. -/
  ring : Tbl (Option (BitVec 512))
  /-- Indexes held, oldest first. -/
  order : List Nat
  fseq : BitVec 16
  /-- Kept PW records, oldest first (R457). -/
  kept : List (BitVec 512)
  expwarn : Nat
  topo : Tbl Word
  groups : Tbl Word
  viewKey : BitVec 256
  frames : List Nat
  cut : Cut
  qseq : Nat
  /-- Image area of the cut: address, length, ASID. -/
  qarea : Nat × Nat × Nat
  /-- Cycle at which the cut began. -/
  qstart : Nat
  resident : Tbl Resident
  nres : Nat
  klo : Nat
  age : Nat
  claims : List ClaimWait
  /-- POISON faults and failed collectives by launch, 2^32 x queue slot + record, and iteration (R458, R459). -/
  poisons : List (Nat × Nat)
  /-- Mismatches of a redundant pair, by launch and iteration (R462). -/
  mismatches : List (Nat × Nat)
  /-- Claims that rows hold: the row's tag and the residency slot (R404). -/
  rows : List (Word × Nat)
  deriving DecidableEq, Repr

/-- A partition that no descriptor has created. -/
def Part.reset : Part :=
  ⟨0, [], [], [], [], [], 0, [], 50, [], [], 0, [], .idle, 0, (0, 0, 0), 0, [], 65535, 1, 0, [], [], [], []⟩

/-- A colour table entry (Table 9.1). -/
structure Colour where
  inflt : Nat
  sentlim : Nat
  window : Nat
  cprio : Nat
  cap : Nat
  quota : Nat
  basinlen : Nat
  basin : Word
  seed : Word
  pasid : Nat
  asid : Nat
  keyslot : Nat
  owner : Nat
  deriving DecidableEq, Repr

/-- Table 9.1's reset values. -/
def Colour.reset : Colour := ⟨0, 65536, 0, 0, 16, 0, 0, 0, 0, 0, 0, 0, 127⟩

/-- An active load (R252). -/
structure Load where
  part : Nat
  /-- Raise descriptor of Table 7.5. -/
  desc : BitVec 512
  /-- Footprint elements, ascending. -/
  foot : List Nat
  /-- Order of raising (R438). -/
  order : Nat
  /-- Entry and exit ports bound. -/
  live : Bool
  deriving DecidableEq, Repr

/-- A colour in a load (R16, R128). -/
structure ColLoad where
  col : Nat
  load : Word
  egen : BitVec 4
  oldest : Option Nat
  /-- A launch of the colour has been admitted since O was set: the colour's next admission sets O afresh (R16, R339). -/
  afresh : Bool
  /-- NEXT of each BAR of the load that has not moved its own since O was set afresh (R121). -/
  next : Nat
  deriving DecidableEq, Repr

/-- States of a round (R340 to R342). -/
inductive RState where
  | opening | opened | complete | prepared | phase1 | committed
  deriving DecidableEq, Repr

/-- An uncommitted round. -/
structure Round where
  col : Nat
  load : Word
  ctx : Nat
  rbase : Nat
  nr : Nat
  state : RState
  voided : Bool
  /-- Ports of the round (R340). -/
  ports : List Nat
  /-- Ports that reported the round complete. -/
  done : List Nat
  /-- Accesses of counted nodes performed: (port, element, slot, count). -/
  counts : List (Nat × Nat × Nat × Nat)
  /-- The ITER: element and slot. -/
  iter : Nat × Nat
  /-- It was brought back from an image, which carries no counts of its accesses (R473, log entry 114). -/
  restored : Bool
  /-- Cycle at which it opened (R348). -/
  opened : Nat
  /-- Line entries that each port reserved for it (R340). -/
  room : List (Nat × Nat)
  /-- Ports that have written its entries, in this phase (R342, R353). -/
  acked : List Nat
  /-- Its half of a port's slice of the overflow area (R343). -/
  half : Nat
  deriving DecidableEq, Repr

/-- Fabric state shared by the elements. -/
structure Fab where
  elems : Tbl Elem
  tokens : List Token
  joins : List Join
  streams : List Stream
  bars : List BarNext
  units : List UnitOp
  offers : List Offer
  sysops : List SysOp
  parks : List Park
  loads : List Load
  colLoads : List ColLoad
  rounds : List Round
  /-- Reconfiguration tokens: colour, order of raising of the later load, ports still to pass (R359). -/
  passages : List (Nat × Nat × List Nat)
  faults : List PendFault
  /-- Number of the next raise. -/
  raises : Nat
  /-- Requests for credit, in the order that the counters' arbiters see them (R295). -/
  asks : List Ask
  /-- The element whose spill queue the basin engine of a die served last, and the colour it last returned tokens of (R299, R303). -/
  spillTurn : Tbl Nat
  basinTurn : Tbl Nat
  /-- Loads that a DROP has made inactive while a round or an engine request of theirs was left, with the ports and Trimmers that they named
  (R236, R359). -/
  dropped : List (Load × List Nat)
  deriving DecidableEq, Repr

/-! ### Ports, engines and links (06, 11, 13, 18) -/

/-- Kinds of access (R203, R221). -/
inductive AKind where
  | lds | sts | ldr | str | acqld | relst
  | upd (fn : Nat)
  | viewmk | viewdup | narrow | viewq | viewdrop
  deriving DecidableEq, Repr

/-- An access that waits at a port or Trimmer (R195, R390). -/
structure Access where
  /-- Its number, for chains. -/
  id : Nat
  kind : AKind
  /-- The port element, or 128 + d for the Trimmer of die d. -/
  at_ : Nat
  e : Nat
  ctx : Nat
  slot : Nat
  word : SlotWord
  tag : Word
  /-- Side-band of the index and data operands. -/
  sb : BitVec 8
  /-- Index or first operand, and data or second operand with its bits 4:0. -/
  idx : Word
  dat : Word
  dsb : BitVec 8
  /-- Chain-in bits, when CH is 1. -/
  chain : Option (BitVec 8)
  hist : List Nat
  /-- Slot word of the AGEN. -/
  gslot : Nat
  /-- Translation held (R210). -/
  frame : Option Xent
  /-- Started through a view: region and epoch (R388). -/
  started : Option (Nat × Nat)
  /-- Cycle of arrival at the port. -/
  since : Nat
  /-- A null access (R21). -/
  null : Bool
  /-- Held behind a line (R206), or taken by its Trimmer and not performed yet (R390). -/
  held : Bool
  /-- The operand tokens, which a fault parks (R262). -/
  ops : Tbl (Option Token)
  /-- Tokens that INFLT counts for it: its operand tokens, which can come back, or its results where they are more (R293 to R295). -/
  outs : Nat
  load : Word
  deriving DecidableEq, Repr

/-- A store held in a round store buffer or replay list (R205, R343). -/
structure Store where
  id : Nat
  port : Nat
  col : Nat
  ctx : Nat
  load : Word
  rbase : Nat
  /-- Line entry of the round at the port; 1,024 and above are overflow lines. -/
  entry : Nat
  /-- Virtual address, and the offset in its region when through a view. -/
  va : Nat
  asid : Nat
  /-- The translation it holds (R336). -/
  frame : Option Xent
  /-- Address of the datum in the space of its port, from its frame. -/
  pa : Nat
  data : List Byte
  sb : BitVec 8
  release : Bool
  /-- Marked by a shoot-down (R336). -/
  marked : Bool
  /-- In a replay list (R344). -/
  replay : Bool
  prepared : Bool
  started : Option (Nat × Nat)
  key : Nat
  e : Nat
  slot : Nat
  gslot : Nat
  tag : Word
  iter : Nat
  /-- An update, to compute afresh on resume: its operand and word (R346). -/
  upd : Option (Word × SlotWord)
  /-- What the chain of the store had performed (R204). -/
  hist : List Nat
  /-- A null store of a replay list. -/
  null : Bool
  /-- Its datum has been written, and its round has not yet committed (R342, R353). -/
  written : Bool
  deriving DecidableEq, Repr

/-- Who asked for a walk. -/
inductive WalkFor where
  /-- An XLAT firing (R209): the token to answer goes to the firing's targets. -/
  | xlat (outs : List Out)
  /-- An access, by number. -/
  | access (id : Nat)
  deriving DecidableEq, Repr

/-- A page walk in progress (R333). -/
structure Walk where
  port : Nat
  e : Nat
  asid : Nat
  va : Nat
  write : Bool
  who : WalkFor
  due : Nat
  deriving DecidableEq, Repr

/-- A walker cache entry: ASID, level, virtual prefix and table address (R333). -/
structure Went where
  port : Nat
  asid : Nat
  lvl : Nat
  pre : Nat
  table : Nat
  deriving DecidableEq, Repr

/-- A shoot-down under way (R210, R254). -/
structure Shoot where
  thread : Option Nat
  part : Nat
  kind : Nat
  asid : Nat
  va : Nat
  /-- The XLATs, walkers and ports it has not reached. -/
  todo : List Nat
  /-- Reached, not yet acknowledged. -/
  open_ : List Nat
  deriving DecidableEq, Repr

/-- An AGEN's working copy for a colour, its snapshots and its open region (R198, R199). -/
structure Agen where
  e : Nat
  ctx : Nat
  slot : Nat
  col : Nat
  copy : BitVec 384
  /-- Snapshots by the first iteration of the round, newest first. -/
  snaps : List (Nat × BitVec 384)
  /-- ITER and payload of the start token. -/
  region : Option (Nat × Nat)
  /-- Translation of the page last used (R334). -/
  last : Option Xent
  /-- Next iteration to read ahead (R201). -/
  ra : Nat
  /-- Iterations of uncommitted rounds whose datum was delivered (R346). -/
  got : List Nat
  deriving DecidableEq, Repr

/-- A datum or failure that read-ahead holds (R201): port, element, context, AGEN slot, colour, iteration. -/
structure Ahead where
  port : Nat
  e : Nat
  ctx : Nat
  gslot : Nat
  col : Nat
  iter : Nat
  code : Nat
  addr : Nat
  data : Word
  sb : BitVec 8
  /-- The translation used. -/
  frame : Option Xent
  pa : Nat
  started : Option (Nat × Nat)
  deriving DecidableEq, Repr

/-- States of an engine request. -/
inductive EState where
  /-- Sent, not yet checked or begun. -/
  | sent
  /-- Waits for a Weir context (R369). -/
  | waiting
  | running
  /-- Suspended on a fault (R231, R372). -/
  | suspended
  /-- Stopped by a cut (R464). -/
  | stopped
  /-- All work done; the completion is to be sent. -/
  | finished
  deriving DecidableEq, Repr

/-- An engine request (Tables 6.10 and 13.2). -/
structure Engine where
  id : Nat
  port : Nat
  /-- OPC of the node: 0xD0, 0xD1. -/
  opc : Nat
  ty : Ty
  e : Nat
  slot : Nat
  pkt : BitVec 384
  target : BitVec 24
  state : EState
  cursor : Nat
  /-- Destination slot of an m2b, or source slot of a b2m; the number of the save record of a Weir request (R374). -/
  bslot : Option (Nat × Nat)
  data : List Byte
  /-- Kept pairs, best first, or pairs of the chunk to send; with side-bands. -/
  pairs : List (Word × BitVec 8)
  /-- The comparator's copy at the start of the chunk. -/
  copy : List (Word × BitVec 8)
  sent : Nat
  /-- Started through a view: source and destination (R388). -/
  started : Option (Nat × Nat)
  startedB : Option (Nat × Nat)
  parked : Bool
  /-- First addresses of source and destination, once the request is checked. -/
  base : Option (Nat × Nat)
  since : Nat
  /-- Basin-side save record written (R374). -/
  saved : Bool
  sb : BitVec 8
  kp : Bool
  load : Word
  /-- The operand tokens, which a fault before any byte moves parks (R230, R262). -/
  ops : Tbl (Option Token)
  /-- Tokens that INFLT counts for it: its operand tokens until it is checked, then one (R293, R295). -/
  held : Nat
  deriving DecidableEq, Repr

/-- A link port (R452). -/
structure Link where
  trained : Bool
  version : Nat
  peer : BitVec 32
  drops : BitVec 32
  /-- Cycle at which the link was lost. -/
  lost : Nat
  /-- Lane classes that the far end has stopped: 0 scalars, 1 tile packets (R452). -/
  stopped : List Nat
  deriving DecidableEq, Repr

/-- A link port at reset. -/
def Link.reset : Link := ⟨false, 0, 0, 0, 0, []⟩

/-- A packet sent and not acknowledged (R453). -/
structure LinkPkt where
  port : Nat
  peer : BitVec 32
  chan : Nat
  seq : Nat
  head : BitVec 128
  pay : Word
  pkt : Option TilePkt
  part : Nat
  /-- The done token of an LSEND. -/
  done : List Out
  e : Nat
  ctx : Nat
  load : Word
  /-- It waits in its link queue, and counts as a token there; then the link has accepted it, and it waits for its acknowledgement. -/
  counted : Bool
  /-- While it waits: the operand tokens, which a PARK withdraws (R244), the slots that its sending empties, and the cycle of its arrival at the
  link port. -/
  ops : Tbl (Option Token)
  release : List (Nat × Nat)
  since : Nat
  deriving DecidableEq, Repr

/-- A packet received, waiting for LRECV (R235, R453). -/
structure LinkIn where
  port : Nat
  /-- Identity of the peer. -/
  src : Nat
  chan : Nat
  seq : Nat
  head : BitVec 128
  pay : Word
  pkt : Option TilePkt
  deriving DecidableEq, Repr

/-- A collective in flight (R456). -/
structure Coll where
  part : Nat
  grp : Nat
  e : Nat
  ctx : Nat
  slot : Nat
  port : Nat
  tag : Word
  sb : BitVec 8
  op : Nat
  sat : Bool
  kp : Bool
  dbuf : Nat
  dslot : Nat
  target : BitVec 24
  load : Word
  /-- This chip's topology entry, and its tile. -/
  own : Nat
  tile : TilePkt
  /-- Contributions by topology entry. -/
  got : Tbl (Option TilePkt)
  members : BitVec 16
  tmo : Nat
  /-- Cycle at which the own contribution reaches the link port, and then did. -/
  since : Nat
  /-- The topology that it began with (R455). -/
  topo : Tbl Word
  /-- This chip has no COLL of its own in it and only forwards (R456). -/
  fwd : Bool
  deriving DecidableEq, Repr

/-- Ports, engines and links. -/
structure Ports where
  accesses : List Access
  /-- Number of the next access or store. -/
  next : Nat
  stores : List Store
  walks : List Walk
  wcache : List Went
  shoots : List Shoot
  agens : List Agen
  ahead : List Ahead
  engines : List Engine
  links : Tbl Link
  linkOut : List LinkPkt
  linkIn : List LinkIn
  /-- Next sequence number to send, and to deliver, by 512 x peer identity + CHAN; 256 is the channel of the collectives. -/
  txSeq : Tbl Nat
  rxSeq : Tbl Nat
  colls : List Coll
  deriving DecidableEq, Repr

/-! ### Covered storage (14) -/

/-- A region entry (Table 14.1). -/
structure Region where
  v : Bool
  dying : Bool
  views : Nat
  asid : Nat
  part : Nat
  npage : Nat
  vbase : Nat
  keyslot : Nat
  eold : Nat
  ecur : Nat
  s0 : Nat
  s1 : Nat
  s2 : Nat
  s3 : Nat
  deriving DecidableEq, Repr

/-- Table 14.1's reset values. -/
def Region.reset : Region := ⟨false, false, 0, 0, 0, 1, 0, 0, 0, 0, 0, 0, 0, 0⟩

/-- A view entry (Table 14.2). -/
structure View where
  v : Bool
  gen : Nat
  region : Nat
  lo : Nat
  hi : Nat
  deriving DecidableEq, Repr

/-- Table 14.2's reset values. -/
def View.reset : View := ⟨false, 0, 0, 0, 0⟩

/-- A page record (Table 14.3), with the frame mapped. -/
structure PageRec where
  count : Nat
  epoch : Nat
  pend : Bool
  alloc : Bool
  frame : Nat
  deriving DecidableEq, Repr

/-- Table 14.3's reset values. -/
def PageRec.reset : PageRec := ⟨0, 0, false, false, 0⟩

/-- Covered storage. -/
structure Cov where
  regions : Tbl Region
  /-- Views by 2^20 x die + index. -/
  views : Tbl View
  /-- Page records by 2^22 x region + page. -/
  pages : Tbl PageRec
  /-- Frames freed whose shoot-down is under way: partition, frame, and the region and page (R381). -/
  freeing : List (Nat × Nat × Nat × Nat)
  deriving DecidableEq, Repr

/-! ### Memory (11) -/

/-- Memory and translation roots. -/
structure Mem where
  /-- Physical memory (Table 11.1). -/
  mem : Memory
  /-- Side-band bits kept beside the datum at an address (R205). -/
  sbits : Tbl (BitVec 8)
  /-- Key slot that a line was last written under (R451). -/
  keys : Tbl Nat
  /-- Lines marked uncorrectable (R457). -/
  poison : List Nat
  /-- Host memory by 2^57 x PASID + address (R328). -/
  host : Memory
  /-- Host pages present, by 2^41 x PASID + page: 1 read-only, 2 writable (R328). -/
  hostPages : Tbl Nat
  /-- Memory of peer chips by 2^57 x entry + address (R329). -/
  peer : Memory
  /-- Pages that a peer refuses, by 2^41 x entry + page: the CODE that it returns (R329). -/
  peerFail : Tbl Nat
  /-- ASID root entries (R332). -/
  asids : Tbl Word
  /-- FUSEMAP words by 24d + r (Table 7.7). -/
  fuse : Tbl Word
  /-- Heat entries by 1,024 x PNUM + entry (Table 11.6). -/
  heat : Tbl (BitVec 128)
  deriving DecidableEq, Repr

/-! ### Host, queues and launches (16, 17, 18) -/

/-- A page request (R328, R450). -/
structure PageReq where
  pasid : Nat
  page : Nat
  deriving DecidableEq, Repr

/-- A virtual function; number 64 is the physical function (R445, R448). -/
structure Vf where
  incarn : BitVec 4
  part : Nat
  staleprg : BitVec 32
  mailbox : Tbl Word
  status : BitVec 8
  value : Word
  msix : Memory
  msixPend : BitVec 64
  groups : Tbl (Option PageReq)
  /-- Page requests that wait for a group slot. -/
  waiting : List PageReq
  pasid : Nat
  deriving DecidableEq, Repr

/-- A function at reset. -/
def Vf.reset : Vf := ⟨0, 0, 0, [], 0, 0, [], 0, [], [], 0⟩

/-- A virtual queue (R412, R445). -/
structure Vq where
  ringbase : Word
  cmplbase : Word
  ctl : Word
  tail : BitVec 32
  /-- Records consumed, and answers written to the completion ring. -/
  next : BitVec 32
  cmpl : BitVec 32
  since : Nat
  closed : Bool
  deriving DecidableEq, Repr

/-- A queue at reset. -/
def Vq.reset : Vq := ⟨0, 0, 0, 0, 0, 0, 0, false⟩

/-- A hardware queue slot (Table 16.1). -/
structure Qslot where
  v : Bool
  vq : BitVec 16
  head : BitVec 32
  take : BitVec 32
  adone : BitVec 32
  /-- Answers the hub firmware has copied. -/
  copied : BitVec 32
  /-- Answer ring bytes and record ring bytes by ring offset. -/
  answers : Memory
  records : Memory
  part : Nat
  since : Nat
  quantum : Bool
  deriving DecidableEq, Repr

/-- A queue slot at reset. -/
def Qslot.reset : Qslot := ⟨false, 0, 0, 0, 0, 0, [], [], 0, 0, false⟩

/-- Stages of a launch (R419). -/
inductive LStage where
  | place | view | param | rows | taking | answered
  deriving DecidableEq, Repr

/-- A load that a launch is writing into a context slot (R422, R423): its descriptor and digest, the elements at which the slot is reserved, and the
element records still to be written. -/
structure Writing where
  desc : BitVec 512
  digest : BitVec 512
  elems : List Nat
  left : List (Nat × Ctx × List Byte)
  deriving DecidableEq, Repr

/-- How an offer of the firmware stands: none is out, it is undecided, or its status (R290). -/
inductive Asked where
  | idle | out
  | got (status : Nat)
  deriving DecidableEq, Repr

/-- A launch in progress (R419). -/
structure Launch where
  qslot : Nat
  n : Nat
  part : Nat
  thread : Nat
  rcd : BitVec 1024
  stage : LStage
  /-- Load number, and the context slot and launch sender once bound; sender 0 is none. -/
  j : Nat
  ctx : Nat
  sender : Nat
  /-- Offers made, or tokens taken, in the stage. -/
  i : Nat
  last : Word
  /-- Handles made, by view request. -/
  handles : List Word
  /-- Residency slots claimed, by row; 65,536 for none. -/
  claims : List Nat
  /-- The load being written for it. -/
  writing : Option Writing
  asked : Asked
  /-- Iterations of the DONEX tokens taken of this load, and whether its inputs are offered again (R407). -/
  took : List Nat
  redo : Bool
  deriving DecidableEq, Repr

/-- How far an eviction or its restore has come (R439, R441). -/
inductive EvStage where
  | draining | parked | out | back (ctx : Nat)
  deriving DecidableEq, Repr

/-- A load that is being evicted or has been (R439, R440). -/
structure Evicted where
  part : Nat
  desc : BitVec 512
  /-- Eviction record bytes. -/
  rcd : List Byte
  /-- Colours bound, with their sender, CAP, QUOTA and SENTLIM. -/
  cols : List (Nat × Nat × Nat × Nat × Nat)
  prio : Nat
  stage : EvStage
  /-- Colours whose save or restore path is still to run: offered, and tokens to take. -/
  path : List (Nat × Bool × Nat)
  asked : Asked
  deriving DecidableEq, Repr

/-- Host side and firmware tables. -/
structure HostSide where
  vfs : Tbl Vf
  vqs : Tbl Vq
  qslots : Tbl Qslot
  launches : List Launch
  evicted : List Evicted
  /-- Drains under way: colour, context slot, start, and the cycles W × DEPTH that it may take (R436). -/
  drains : List (Nat × Nat × Nat × Nat)
  /-- The residency quantum in microseconds (R413). -/
  quantum : Nat
  /-- What the host's last load from a BAR 0 returned. -/
  loaded : Word
  /-- Key slots loaded (R447). -/
  keysLoaded : List Nat
  deriving DecidableEq, Repr

/-! ### Boot, identity and power (20) -/

/-- SPDM state of a transport (R481). -/
structure Spdm where
  /-- 0 nothing, 1 version, 2 capabilities, 3 algorithms negotiated. -/
  state : Nat
  version : Nat
  sessions : List Nat
  /-- Sessions whose FINISH has not come. -/
  opening : List Nat
  transcript : List Byte
  /-- The responder was reset (R482). -/
  resynch : Bool
  nextSess : Nat
  /-- Keys of the sessions (R481). -/
  keys : Tbl (BitVec 256)
  /-- Last reply: 0x100 an answer, else an error code of R482. -/
  reply : Nat
  answer : List Byte
  deriving DecidableEq, Repr

/-- SPDM at reset. -/
def Spdm.reset : Spdm := ⟨0, 0, [], [], [], false, 1, [], 0, []⟩

/-- Management core. -/
structure Mgmt where
  /-- Stages done, 0 to 7 (R475): the stage reached is one less. -/
  boot : Nat
  reason : BitVec 8
  /-- A boot stage failed and the boot stopped (R476). -/
  failed : Bool
  slots : Tbl (BitVec 512)
  locked : Bool
  keystore : Tbl (BitVec 1152)
  spdm : Tbl Spdm
  /-- Side-band transport: 0 undecided, 1 I3C, 2 SMBus (R484). -/
  sideband : Nat
  pcap : Nat
  power : Nat
  temp : Nat
  fclk : Nat
  /-- Cycle from which power and temperature have been below their limits, and from which the junction has been above 105 °C at
  step 3 (R485). -/
  cool : Nat
  hot : Option Nat
  throttle : BitVec 64
  /-- Value of the last telemetry read. -/
  telemetry : Word
  /-- IDE keys by stream (R449). -/
  ide : Tbl (BitVec 256)
  deriving DecidableEq, Repr

/-! ### The machine -/

/-- Steward threads and images. -/
structure Stew where
  threads : Tbl Thread
  images : Tbl Image
  /-- Threads that wait in WAITT, in order of arrival, with the descriptor of their source (R136). -/
  waiters : List (Nat × Word)
  deriving DecidableEq, Repr

/-- An image with no words. -/
def Image.none : Image := ⟨5, [], 0, 0, 0⟩

/-- The state of the machine. -/
structure State where
  /-- What moves next, in order (the model's own schedule; log entry 1). -/
  agenda : List Move
  /-- What the next execution belongs to (the model's own). -/
  focus : Focus
  /-- Counter of free values used (the model's own; log entry 2). -/
  fresh : Nat
  /-- Fabric cycles passed. -/
  cycle : Nat
  mem : Mem
  stew : Stew
  parts : Tbl Part
  colours : Tbl Colour
  fab : Fab
  port : Ports
  cov : Cov
  host : HostSide
  mgmt : Mgmt
  deriving DecidableEq, Repr

/-- FUSEMAP of a part that has columns 24 and 25 fused in every row (log entry 8). -/
def fuseReset : Tbl Word := (rangeFrom 0 96).map fun i => (i, (0x3000000 : Word))

/-- The machine right after reset. -/
def State.reset : State where
  agenda := []
  focus := .thread 0
  fresh := 0
  cycle := 0
  mem := ⟨[], [], [], [], [], [], [], [], [], fuseReset, []⟩
  stew := ⟨[], [], []⟩
  parts := []
  colours := []
  fab := ⟨[], [], [], [], [], [], [], [], [], [], [], [], [], [], 0, [], [], [], []⟩
  port := ⟨[], 0, [], [], [], [], [], [], [], [], [], [], [], [], []⟩
  cov := ⟨[], [], [], []⟩
  host := ⟨[], [], [], [], [], [], 2000, 0, []⟩
  mgmt := ⟨0, 0, false, [], false, [], [], 0, 2600, 0, 0, 0, 0, none, 0, 0, []⟩

end Sys2Proof.Machine
end

