-- ==== Sys2Proof/Machine/Fields.lean ====
section
/-! DEFINITION. The fields of tags, side-bands, references, tile headers, descriptors, fault records and events, in the spec's names. -/

namespace Sys2Proof.Machine

/-! ### Tags (Table 1.1) -/

/-- COL. -/
def tagCol (t : Word) : Nat := nfld t 52 12
/-- CTX. -/
def tagCtx (t : Word) : Nat := nfld t 50 2
/-- GEN. -/
def tagGen (t : Word) : Nat := nfld t 46 4
/-- KEY. -/
def tagKey (t : Word) : Nat := nfld t 30 16
/-- ITER. -/
def tagIter (t : Word) : Nat := nfld t 6 24
/-- A tag of its fields; bits 5:0 are zero (R11). -/
def mkTag (col ctx gen key iter : Nat) : Word := pack 64 [(52, 12, col), (50, 2, ctx), (46, 4, gen), (30, 16, key), (6, 24, iter)]
/-- Bits 63:6, which decide equality of tags (R12). -/
def tagId (t : Word) : Nat := t.toNat / 64
/-- Tag equality (R12). -/
def tagEq (t u : Word) : Bool := tagId t == tagId u
/-- The tag with another iteration. -/
def tagWithIter (t : Word) (i : Nat) : Word := mkTag (tagCol t) (tagCtx t) (tagGen t) (tagKey t) i
/-- The tag with another key. -/
def tagWithKey (t : Word) (k : Nat) : Word := mkTag (tagCol t) (tagCtx t) (tagGen t) k (tagIter t)
/-- The tag with another context slot. -/
def tagWithCtx (t : Word) (c : Nat) : Word := mkTag (tagCol t) c (tagGen t) (tagKey t) (tagIter t)
/-- The tag as a node sends it: bits 5:0 zero (R11). -/
def tagClean (t : Word) : Word := BitVec.ofNat 64 (tagId t * 64)

/-- 2^24. -/
def iterMod : Nat := 16777216
/-- The age of iteration i against a reference (R16). -/
def age (o i : Nat) : Nat := (i + iterMod - o % iterMod) % iterMod
/-- The range [a, b] contains iteration i (R18). -/
def inRange (a b i : Nat) : Bool := decide (age a i ≤ age a b)

/-! ### Side-band (Table 1.2) -/

/-- NL. -/
def sbNL (b : BitVec 8) : Bool := bit b 6
/-- PZ. -/
def sbPZ (b : BitVec 8) : Bool := bit b 5
/-- Exception bits 4:0. -/
def sbExc (b : BitVec 8) : BitVec 8 := b &&& 0x1F
/-- The side-band of a null token. -/
def sbNull : BitVec 8 := 0x40
/-- The side-band of a poisoned token. -/
def sbPoison : BitVec 8 := 0x20

/-! ### References (Table 1.3) -/

/-- LINES. -/
def refLines (p : Word) : Nat := nfld p 32 16
/-- SLOT. -/
def refSlot (p : Word) : Nat := nfld p 5 4
/-- BUF. -/
def refBuf (p : Word) : Nat := nfld p 0 5
/-- A reference payload. -/
def mkRef (buf slot lines : Nat) : Word := pack 64 [(0, 5, buf), (5, 4, slot), (32, 16, lines)]

/-! ### Tile headers (Table 1.4) -/

def hTcol (h : BitVec 256) : Nat := nfld h 144 16
def hTrow (h : BitVec 256) : Nat := nfld h 128 16
def hDslot (h : BitVec 256) : Nat := nfld h 117 4
def hDbuf (h : BitVec 256) : Nat := nfld h 112 5
def hBeats (h : BitVec 256) : Nat := nfld h 90 7
def hNcol (h : BitVec 256) : Nat := nfld h 85 5
def hNrow (h : BitVec 256) : Nat := nfld h 80 5
def hRax (h : BitVec 256) : Nat := nfld h 79 1
def hScl (h : BitVec 256) : Nat := nfld h 78 1
def hGrp (h : BitVec 256) : Nat := nfld h 76 2
def hFmt (h : BitVec 256) : Nat := nfld h 72 4
def hSb (h : BitVec 256) : BitVec 8 := fld h 64 8
def hTag (h : BitVec 256) : Word := fld h 0 64
/-- A header without TAG, SB, DBUF and DSLOT. -/
def mkHdr (tcol trow beats ncol nrow rax scl grp fmt : Nat) : BitVec 256 :=
  pack 256 [(144, 16, tcol), (128, 16, trow), (90, 7, beats), (85, 5, ncol), (80, 5, nrow), (79, 1, rax), (78, 1, scl),
    (76, 2, grp), (72, 4, fmt)]
/-- The header with TAG, SB, DBUF, DSLOT set (R190). -/
def hdrAddr (h : BitVec 256) (tag : Word) (sb : BitVec 8) (dbuf dslot : Nat) : BitVec 256 :=
  setFld (setFld (setFld (setFld h 0 64 tag.toNat) 64 8 sb.toNat) 112 5 dbuf) 117 4 dslot
/-- Bits per element of a format (Table 1.5); 0 for a reserved code. -/
def fmtBits (f : Nat) : Nat :=
  match f with | 0 => 32 | 1 => 16 | 2 => 16 | 3 => 8 | 4 => 4 | 5 => 32 | 6 => 8 | _ => 0
/-- Whole beats that a shape fills (R32). -/
def fmtBeats (f nrow ncol : Nat) : Nat := ceilDiv ((nrow + 1) * (ncol + 1) * fmtBits f) 512

/-! ### Raise descriptors (Table 7.5) -/

def dLoadid (d : BitVec 512) : Word := fld d 448 64
def dGraphid (d : BitVec 512) : Word := fld d 384 64
def dDepth (d : BitVec 512) : Nat := nfld d 352 32
def dWindow (d : BitVec 512) : Nat := nfld d 320 32
def dExitmask (d : BitVec 512) : BitVec 16 := fld d 304 16
def dEntrymask (d : BitVec 512) : BitVec 16 := fld d 288 16
def dRound (d : BitVec 512) : Nat := nfld d 272 16
def dFh (d : BitVec 512) : Nat := nfld d 264 8
def dFw (d : BitVec 512) : Nat := nfld d 256 8
def dFy0 (d : BitVec 512) : Nat := nfld d 248 8
def dFx0 (d : BitVec 512) : Nat := nfld d 240 8
def dVersion (d : BitVec 512) : Nat := nfld d 236 4
def dCtx (d : BitVec 512) : Nat := nfld d 234 2
def dKeyid (d : BitVec 512) : Nat := nfld d 202 32
def dPrio (d : BitVec 512) : Nat := nfld d 198 4
def dImg (d : BitVec 512) : Bool := bit d 197

/-! ### Partition descriptors (Table 18.1) -/

def pShkey (d : BitVec 512) : Nat := nfld d 287 8
def pPortmask (d : BitVec 512) : BitVec 100 := fld d 187 100
def pFrames (d : BitVec 512) : Nat := nfld d 155 32
def pNregion (d : BitVec 512) : Nat := nfld d 138 17
def pRegion0 (d : BitVec 512) : Nat := nfld d 122 16
def pCores (d : BitVec 512) : BitVec 16 := fld d 106 16
def pNkey (d : BitVec 512) : Nat := nfld d 97 9
def pKey0 (d : BitVec 512) : Nat := nfld d 89 8
def pNasid (d : BitVec 512) : Nat := nfld d 72 17
def pAsid0 (d : BitVec 512) : Nat := nfld d 56 16
def pNcol (d : BitVec 512) : Nat := nfld d 43 13
def pCol0 (d : BitVec 512) : Nat := nfld d 31 12
def pCtxmask (d : BitVec 512) : BitVec 4 := fld d 27 4
def pH (d : BitVec 512) : Nat := nfld d 20 7
def pW (d : BitVec 512) : Nat := nfld d 13 7
def pY0 (d : BitVec 512) : Nat := nfld d 7 6
def pX0 (d : BitVec 512) : Nat := nfld d 1 6
def pV (d : BitVec 512) : Bool := bit d 0

/-! ### PARTWD (Table 8.2) -/

def wKq (w : Word) : Nat := nfld w 32 13
def wSbk (w : Word) : Nat := nfld w 24 8
def wAbk (w : Word) : Nat := nfld w 16 8
def wRbk (w : Word) : Nat := nfld w 8 8
def wFirst (w : Word) : Nat := nfld w 0 8

/-! ### Fault records (Table 7.8) and events (Table 7.9) -/

/-- What a fault says of itself; fields that do not apply keep the values of `faultInfo0` (R262). -/
structure FaultInfo where
  code : Nat
  reason : Nat
  addr : Nat
  pos : Nat
  cursor : Option Nat
  slot : Nat
  agslot : Nat
  pnum : Nat
  e : Nat
  tag : Word
  sb : BitVec 8
  acc : Nat
  ra : Bool
  pw : Bool
  deriving DecidableEq, Repr

/-- Fields that do not apply: AGSLOT and PNUM 0x7F, ACC none, the rest zero (R262). -/
def faultInfo0 : FaultInfo := ⟨0, 0, 0, 0, none, 0, 0x7F, 0x7F, 0, 0, 0, 3, false, false⟩

/-- The record of a fault; RBASE and SEQ are filled when it is written (R345). -/
def mkRecord (f : FaultInfo) (part : Nat) (loadid : Word) : BitVec 512 :=
  pack 512 [(480, 32, f.cursor.getD 0), (416, 64, f.addr), (384, 32, f.pos), (320, 64, loadid.toNat), (296, 24, tagIter f.tag),
    (256, 16, tagKey f.tag), (244, 12, tagCol f.tag), (242, 2, tagCtx f.tag), (238, 4, tagGen f.tag), (231, 7, f.slot),
    (224, 7, f.agslot), (218, 6, f.e % 48), (212, 6, f.e / 48), (204, 8, f.sb.toNat), (196, 8, f.reason), (192, 4, f.code),
    (185, 7, f.pnum), (183, 2, f.acc), (182, 1, b2n f.ra), (181, 1, b2n f.cursor.isSome), (180, 1, b2n f.pw), (176, 4, part)]

/-- An event entry. -/
def mkEvent (type code : Nat) (sb : BitVec 8) (ctx col e index : Nat) (a1 a2 a3 : Nat) : Event :=
  pack 256 [(192, 64, a3), (128, 64, a2), (64, 64, a1), (60, 4, type), (44, 16, code), (36, 8, sb.toNat), (34, 2, ctx), (22, 12, col),
    (16, 6, e % 48), (10, 6, e / 48), (0, 8, index)]

/-- The FAULT event of a record with an index (Table 7.10). -/
def faultEvent (r : BitVec 512) (tag : Word) (index : Nat) : Event :=
  mkEvent 2 (nfld r 192 4 + 16 * nfld r 196 8) (fld r 204 8) (nfld r 242 2) (nfld r 244 12) (nfld r 218 6 + 48 * nfld r 212 6) index
    tag.toNat (nfld r 416 64) 0

/-- The LOADREF event of a failed RAISE (R252, Table 7.10). -/
def loadrefEvent (r : BitVec 512) (index : Nat) : Event :=
  mkEvent 7 (nfld r 196 8) 0 (nfld r 242 2) 0 (nfld r 218 6 + 48 * nfld r 212 6) index (nfld r 320 64) (nfld r 231 7) 0

/-! ### Pending node values -/

/-- Width in bits of a scalar type (Table 3.6); 64 for x64 and handles, 1 for pred. -/
def tyBits : Ty → Nat
  | .x64 => 64 | .i32 => 32 | .u32 => 32 | .i64 => 64 | .u64 => 64 | .i16 => 16 | .i8 => 8 | .u8 => 8
  | .bf16 => 16 | .f16 => 16 | .f32 => 32 | .q8 => 8 | .q4 => 4 | .pred => 1 | .tile => 64 | .view => 64

/-- Whether values of the type are sign-extended (R24). -/
def tySigned : Ty → Bool
  | .i32 => true | .i64 => true | .i16 => true | .i8 => true | _ => false

/-- A value of a type as a 64-bit payload (R24). -/
def tyExtend (t : Ty) (n : Nat) : Word := if tySigned t then sextN (tyBits t) n else zextN (tyBits t) n

end Sys2Proof.Machine
end

