-- ==== Sys2Proof/Machine/Ops.lean ====
section
/-! DEFINITION. The shared operations: reading and writing the parts of the state, the event queue and the count of tokens in
flight, page walks and memory, sending tokens, raising the fault of an activation, taking a trap on a steward and returning. -/

namespace Sys2Proof.Machine

/-! ### Reading and writing the parts of the state -/

def State.thread (s : State) (t : Nat) : Thread := tget Thread.reset s.stew.threads t
def State.setThread (s : State) (t : Nat) (v : Thread) : State :=
  { s with stew := { s.stew with threads := tset Thread.reset s.stew.threads t v } }
def State.image (s : State) (i : Nat) : Image := tget Image.none s.stew.images i
def State.part (s : State) (p : Nat) : Part := tget Part.reset s.parts p
def State.setPart (s : State) (p : Nat) (v : Part) : State := { s with parts := tset Part.reset s.parts p v }
def State.colour (s : State) (c : Nat) : Colour := tget Colour.reset s.colours c
def State.setColour (s : State) (c : Nat) (v : Colour) : State := { s with colours := tset Colour.reset s.colours c v }
def State.elem (s : State) (e : Nat) : Elem := tget Elem.reset s.fab.elems e
def State.setElem (s : State) (e : Nat) (v : Elem) : State :=
  { s with fab := { s.fab with elems := tset Elem.reset s.fab.elems e v } }
def State.ctx (s : State) (e c : Nat) : Ctx := tget Ctx.reset (s.elem e).ctxs c
def State.setCtx (s : State) (e c : Nat) (v : Ctx) : State :=
  s.setElem e { s.elem e with ctxs := tset Ctx.reset (s.elem e).ctxs c v }
def State.setTokens (s : State) (l : List Token) : State := { s with fab := { s.fab with tokens := l } }
def State.vf (s : State) (f : Nat) : Vf := tget Vf.reset s.host.vfs f
def State.setVf (s : State) (f : Nat) (v : Vf) : State := { s with host := { s.host with vfs := tset Vf.reset s.host.vfs f v } }
def State.vq (s : State) (q : Nat) : Vq := tget Vq.reset s.host.vqs q
def State.setVq (s : State) (q : Nat) (v : Vq) : State := { s with host := { s.host with vqs := tset Vq.reset s.host.vqs q v } }
def State.qslot (s : State) (q : Nat) : Qslot := tget Qslot.reset s.host.qslots q
def State.setQslot (s : State) (q : Nat) (v : Qslot) : State :=
  { s with host := { s.host with qslots := tset Qslot.reset s.host.qslots q v } }
def State.region (s : State) (r : Nat) : Region := tget Region.reset s.cov.regions r
def State.setRegion (s : State) (r : Nat) (v : Region) : State :=
  { s with cov := { s.cov with regions := tset Region.reset s.cov.regions r v } }
def State.link (s : State) (l : Nat) : Link := tget Link.reset s.port.links l
def State.setLink (s : State) (l : Nat) (v : Link) : State :=
  { s with port := { s.port with links := tset Link.reset s.port.links l v } }
def State.spdm (s : State) (x : Nat) : Spdm := tget Spdm.reset s.mgmt.spdm x
def State.setSpdm (s : State) (x : Nat) (v : Spdm) : State := { s with mgmt := { s.mgmt with spdm := tset Spdm.reset s.mgmt.spdm x v } }

/-- The slot word of a context slot of an element; none is empty (R84). -/
def State.slotWord (s : State) (e c n : Nat) : Option SlotWord := tget none (s.ctx e c).words n

/-- The steward thread or firing the machine runs. -/
def State.focusThread (s : State) : Nat := match s.focus with | .thread t => t | .node _ => 0

/-- Register wN of a thread. -/
def Thread.reg (t : Thread) (n : Nat) : Word := tget 0 t.regs n
/-- Writes wN. -/
def Thread.setReg (t : Thread) (n : Nat) (v : Word) : Thread := { t with regs := tset 0 t.regs n v }
/-- Writes the destination register, if the word names one (R77). -/
def Thread.setDest (t : Thread) (d : Option Nat) (v : Word) : Thread := match d with | some n => t.setReg n v | none => t
/-- The thread goes on with the next word (R132). -/
def Thread.advance (t : Thread) : Thread := { t with pc := t.pc + 1 }

/-- MODE of a thread: supervisor. -/
def Thread.super (t : Thread) : Bool := bit t.status 8

/-! ### Register banks and pool lines of an element (R277, R278) -/

/-- Pool byte of register kN of a context slot with this PARTWD. -/
def regByte (w : Word) (n : Nat) : Nat := 2048 * wFirst w + 8 * n
/-- Register kN exists (R278). -/
def regExists (w : Word) (n : Nat) : Bool := n < 256 * wRbk w
/-- Accumulator accN exists (R278). -/
def accExists (w : Word) (n : Nat) : Bool := n < wAbk w / 2
/-- First pool byte of accN's DATA. -/
def accByte (w : Word) (n : Nat) : Nat := 2048 * (wFirst w + wRbk w + 2 * n)
/-- First and one-past-last scratchpad line. -/
def scratch (w : Word) : Nat × Nat := (32 * (wFirst w + wRbk w + wAbk w), 32 * (wFirst w + wRbk w + wAbk w + wSbk w))
/-- A PARTWD obeys R277. -/
def partwdOk (w : Word) : Bool :=
  nfld w 45 19 == 0 && wKq w ≤ 4096 && wAbk w ≤ 32 && wAbk w % 2 == 0 && wRbk w ≤ 4 &&
  wFirst w + wRbk w + wAbk w + wSbk w ≤ 256
/-- Two PARTWDs give overlapping banks. -/
def banksOverlap (v w : Word) : Bool :=
  let n := fun x => wRbk x + wAbk x + wSbk x
  decide (0 < n v) && decide (0 < n w) && decide (wFirst v < wFirst w + n w) && decide (wFirst w < wFirst v + n v)

/-- Any of the pool lines of a byte range is poisoned (R281). -/
def poolPoisoned (el : Elem) (byte len : Nat) : Bool := el.poison.any fun l => decide (byte / 64 ≤ l) && decide (l ≤ (byte + len - 1) / 64)

/-- Reads register kN of an element: the value and whether its line is poisoned. -/
def State.kreg (s : State) (e c n : Nat) : Word × Bool :=
  let w := (s.ctx e c).partwd
  let a := regByte w n
  (BitVec.ofNat 64 (ofBytes (mgetN (s.elem e).pool a 8)), poolPoisoned (s.elem e) a 8)

/-- Writes pool bytes; the lines written lose their poison (R281). -/
def Elem.poolWrite (el : Elem) (a : Nat) (bs : List Byte) : Elem :=
  { el with pool := msetN el.pool a bs, poison := el.poison.filter fun l => !(decide (a / 64 ≤ l) && decide (l ≤ (a + bs.length - 1) / 64)) }

/-- Writes register kN. -/
def State.setKreg (s : State) (e c n : Nat) (v : Word) : State :=
  s.setElem e ((s.elem e).poolWrite (regByte (s.ctx e c).partwd n) (bvBytes v 8))

/-! ### Buffers -/

def State.buf (s : State) (e c b : Nat) : Option Buf := tget none (s.ctx e c).bufs b
def State.setBuf (s : State) (e c b : Nat) (v : Option Buf) : State :=
  let x := s.ctx e c
  s.setCtx e c { x with bufs := tset none x.bufs b v }
/-- A slot of a buffer. -/
def Buf.slot (b : Buf) (n : Nat) : Slot := nth Slot.empty b.slots n
/-- Replaces a slot. -/
def Buf.setSlot (b : Buf) (n : Nat) (v : Slot) : Buf := { b with slots := setNth b.slots n v }
/-- First pool byte of a slot (R278, Table 3.14). -/
def Buf.slotByte (b : Buf) (n : Nat) : Nat := 64 * (b.base + b.size * n)
/-- Changes a slot of an allocated buffer. -/
def State.modSlot (s : State) (e c b n : Nat) (f : Slot → Slot) : State :=
  match s.buf e c b with
  | some x => s.setBuf e c b (some (x.setSlot n (f (x.slot n))))
  | none => s
/-- Lines of keep budget that a context slot uses (R213, R216). -/
def ctxKept (x : Ctx) : Nat :=
  x.bufs.foldl (fun n e => match e.2 with
    | some b => n + (if b.keep then b.size * b.depth else b.size * (b.slots.filter fun q => q.kept).length)
    | none => n) 0
/-- Lines of keep budget that an element uses. -/
def elemKept (el : Elem) : Nat := el.ctxs.foldl (fun n e => n + ctxKept e.2) 0
/-- The element can grant `n` more kept lines to a context slot (R279). -/
def State.keepFits (s : State) (e c n : Nat) : Bool :=
  ctxKept (s.ctx e c) + n ≤ wKq (s.ctx e c).partwd && elemKept (s.elem e) + n ≤ 4096

/-! ### Partitions, colours and loads -/

/-- The key of the first table entry that satisfies a test. -/
def tfind {α : Type} (p : Nat → α → Bool) : Tbl α → Option Nat
  | [] => none
  | (k, v) :: t => if p k v then some k else tfind p t

/-- The rectangle of a partition holds the element. -/
def inRect (d : BitVec 512) (e : Nat) : Bool :=
  let x := e % 48; let y := e / 48
  pX0 d ≤ x && x < pX0 d + pW d && pY0 d ≤ y && y < pY0 d + pH d
/-- The partition that owns an element (R442). -/
def State.partOfElem (s : State) (e : Nat) : Option Nat := tfind (fun _ p => pV p.desc && inRect p.desc e) s.parts
/-- The partition of a steward thread (R442). -/
def State.partOfThread (s : State) (t : Nat) : Nat := (tfind (fun _ p => pV p.desc && bit (pCores p.desc) (t / 4)) s.parts).getD 0
/-- A colour lies in a partition's range. -/
def colIn (d : BitVec 512) (c : Nat) : Bool := pCol0 d ≤ c && c < pCol0 d + pNcol d
/-- The partition of a colour. -/
def State.partOfCol (s : State) (c : Nat) : Nat := (tfind (fun _ p => pV p.desc && colIn p.desc c) s.parts).getD 0
/-- An ASID lies in a partition's range. -/
def asidIn (d : BitVec 512) (a : Nat) : Bool := pAsid0 d ≤ a && a < pAsid0 d + pNasid d
/-- A key slot lies in KEY0 to KEY0 + NKEY - 1. -/
def keyIn (d : BitVec 512) (k : Nat) : Bool := 0 < k && pKey0 d ≤ k && k < pKey0 d + pNkey d

/-- The first element of a list that satisfies a test. -/
def lfind {α : Type} (p : α → Bool) : List α → Option α
  | [] => none
  | x :: xs => if p x then some x else lfind p xs

/-- The active load in a context slot at an element. -/
def State.loadAt (s : State) (e c : Nat) : Option Load :=
  lfind (fun l => dCtx l.desc == c && l.foot.contains e) s.fab.loads
/-- LOADID of the load at an element, 0 where none is active. -/
def State.loadidAt (s : State) (e c : Nat) : Word := match s.loadAt e c with | some l => dLoadid l.desc | none => 0
/-- The active load of a context slot of a partition whose entry port (or any) is named. -/
def State.loadIn (s : State) (p c : Nat) (f : Load → Bool) : Option Load :=
  lfind (fun l => l.part == p && dCtx l.desc == c && f l) s.fab.loads
/-- The active load of a partition with a LOADID. -/
def State.loadById (s : State) (p : Nat) (id : Word) : Option Load := lfind (fun l => l.part == p && dLoadid l.desc == id) s.fab.loads

/-- The state of a colour in a load. -/
def State.colLoad (s : State) (c : Nat) (l : Word) : ColLoad :=
  (lfind (fun x => x.col == c && x.load == l) s.fab.colLoads).getD ⟨c, l, 0, none, false, 0⟩
/-- Writes the state of a colour in a load. -/
def State.setColLoad (s : State) (v : ColLoad) : State :=
  { s with fab := { s.fab with colLoads := v :: s.fab.colLoads.filter fun x => !(x.col == v.col && x.load == v.load) } }
/-- O of a colour and load; 0 before it is set (R16). -/
def State.oldest (s : State) (c : Nat) (l : Word) : Nat := (s.colLoad c l).oldest.getD 0
/-- The effective window of a colour and load (R285). -/
def State.window (s : State) (c : Nat) (l : Option Load) : Nat :=
  if (s.colour c).window ≠ 0 then (s.colour c).window else match l with | some x => dWindow x.desc | none => 0

/-! ### Events (R264) -/

/-- Sends a hardware event: it enters the queue, or its source holds it while the queue is full. -/
def State.sendEvent (s : State) (p : Nat) (ev : Event) : State :=
  let x := s.part p
  if x.events.length < 256 && x.held.isEmpty then s.setPart p { x with events := x.events ++ [ev] }
  else s.setPart p { x with held := x.held ++ [ev] }
/-- The oldest event leaves the queue, and a held event takes its place. -/
def State.takeEvent (s : State) (p : Nat) : Option (Event × State) :=
  let x := s.part p
  match x.events with
  | [] => none
  | ev :: es => match x.held with
    | [] => some (ev, s.setPart p { x with events := es })
    | h :: hs => some (ev, s.setPart p { x with events := es ++ [h], held := hs })

/-! ### Tokens in flight (R293) -/

/-- INFLT rises by n. -/
def State.inflUp (s : State) (c n : Nat) : State := if n = 0 then s else s.setColour c { s.colour c with inflt := (s.colour c).inflt + n }
/-- INFLT falls by n. -/
def State.inflDown (s : State) (c n : Nat) : State := if n = 0 then s else s.setColour c { s.colour c with inflt := (s.colour c).inflt - n }

/-- The next free value (log entry 2), and the state with its counter advanced. -/
def State.free (s : State) : Word × State := (Config.freeValue s.fresh, { s with fresh := s.fresh + 1 })

/-! ### Time (R485) -/

/-- Fabric cycles in a microsecond at a step of the clock (Table 20.5). -/
def stepMhz (n : Nat) : Nat := match n with | 0 => 1300 | 1 => 1100 | 2 => 900 | _ => 650

/-! ### Memory (R324, R451, R457) -/

/-- Table 11.1: the address is memory. -/
def isMemory (a : Nat) : Bool := a < 0x6000000000 || (0x10000000000 ≤ a && a < 0x28000000000)
/-- A range of bytes lies within one range of Table 11.1. -/
def inOneRange (a n : Nat) : Bool := a + n ≤ 0x6000000000 || (0x10000000000 ≤ a && a + n ≤ 0x28000000000)

/-- Key slot of a line that nothing has written. -/
def noKey : Nat := 256
/-- The key slot a line was last written under. -/
def Mem.keyOf (m : Mem) (a : Nat) : Nat := tget noKey m.keys (a / 64)
/-- One byte as a port reads it under a key slot (R451). -/
def Mem.read1 (m : Mem) (key a : Nat) : Byte :=
  let k := m.keyOf a
  if k = noKey ∨ k = key then mget m.mem a else Config.xtsByte (BitVec.ofNat 8 k) (BitVec.ofNat 8 key) a (mget m.mem a)
/-- `n` bytes as a port reads them. -/
def Mem.read (m : Mem) (key a : Nat) : Nat → List Byte
  | 0 => []
  | n + 1 => m.read1 key a :: m.read key (a + 1) n
/-- Brings a line under another key slot: its bytes become what that key slot reads. -/
def Mem.rekey (m : Mem) (key a : Nat) : Mem :=
  let k := m.keyOf a
  let m' := if k = noKey ∨ k = key then m else { m with mem := msetN m.mem (64 * (a / 64)) (m.read key (64 * (a / 64)) 64) }
  { m' with keys := tset noKey m'.keys (a / 64) key }
/-- Writes one byte under a key slot; the line loses its poison. -/
def Mem.write1 (m : Mem) (key a : Nat) (b : Byte) : Mem :=
  let m' := m.rekey key a
  { m' with mem := mset m'.mem a b, poison := m'.poison.filter fun l => l != a / 64 }
/-- Writes bytes under a key slot. -/
def Mem.write (m : Mem) (key a : Nat) : List Byte → Mem
  | [] => m
  | b :: bs => (m.write1 key a b).write key (a + 1) bs
/-- A line of the range holds an uncorrectable error (R457). -/
def Mem.bad (m : Mem) (a n : Nat) : Bool := m.poison.any fun l => decide (a / 64 ≤ l) && decide (l ≤ (a + n - 1) / 64)
def State.setMem (s : State) (m : Mem) : State := { s with mem := m }

/-! ### Page walks (R330 to R333) -/

/-- log2 of the page size at a level, and the low bit of its virtual field; the index width of the level (Table 11.3). -/
def lvlLow (l : Nat) : Nat := match l with | 0 => 46 | 1 => 34 | 2 => 29 | 3 => 21 | _ => 16
def lvlBits (l : Nat) : Nat := match l with | 0 => 11 | 1 => 12 | 2 => 5 | 3 => 8 | _ => 5
/-- log2 of the size of a level's table. -/
def lvlTable (l : Nat) : Nat := lvlBits l + 3
/-- PS of a frame token for a level's page (Table 6.5). -/
def lvlPs (l : Nat) : Nat := 4 - l

/-- R331: a table entry is malformed at a level. -/
def entryBad (d : Word) (l : Nat) : Bool :=
  let leaf := bit d 1
  nfld d 52 12 != 0 || nfld d 6 2 != 0 || bit d 2 || (leaf && l == 0) || (!leaf && l == 4) ||
  (!leaf && (bit d 3 || bit d 4 || bit d 5)) || (leaf && bit d 5 && l != 4) ||
  (if leaf then nfld d 8 44 * 256 % 2 ^ lvlLow l != 0 || !inOneRange (nfld d 8 44 * 256) (2 ^ lvlLow l)
   else nfld d 8 44 * 256 % 2 ^ lvlTable (l + 1) != 0)

/-- What a walk yields. -/
inductive WalkRes where
  /-- A leaf. -/
  | ok (x : Xent)
  /-- A failure code of Table 6.5. -/
  | fail (code : Nat)
  /-- The walk reads an address that is no memory. -/
  | nowhere (a : Nat)
  deriving DecidableEq, Repr

/-- The levels of a walk from level `l` with the table at `t`; `fuel` levels are left. -/
def walkFrom (m : Mem) (asid va : Nat) (write : Bool) : Nat → Nat → Nat → WalkRes × List (Nat × Nat)
  | _, _, 0 => (.fail 2, [])
  | l, t, fuel + 1 =>
    let a := t + 8 * (va / 2 ^ lvlLow l % 2 ^ lvlBits l)
    if !isMemory a then (.nowhere a, [])
    else if m.bad a 8 then (.fail 4, [])
    else
      let d : Word := BitVec.ofNat 64 (ofBytes (m.read 0 a 8))
      if !bit d 0 then (.fail 1, [])
      else if entryBad d l then (.fail 2, [])
      else if bit d 1 then
        if write && (!bit d 3 || bit d 4) then (.fail 2, [])
        else (.ok ⟨asid, va / 2 ^ lvlLow l * 2 ^ lvlLow l, lvlLow l, nfld d 8 44 * 256, bit d 3 && !bit d 4, bit d 5, bit d 4, write⟩, [])
      else
        let r := walkFrom m asid va write (l + 1) (nfld d 8 44 * 256) fuel
        (r.1, (l + 1, nfld d 8 44 * 256) :: r.2)

/-- A walk of the table of an ASID with no cache (R333). -/
def State.walkPlain (s : State) (asid va : Nat) (write : Bool) : WalkRes :=
  let r := tget 0 s.mem.asids asid
  if !bit r 0 then .fail 1 else (walkFrom s.mem asid va write 0 (nfld r 14 38 * 16384) 5).1

/-- The deepest cached table on the path of a walk (R333). -/
def wcacheBest (port asid va : Nat) : List Went → Option Went → Option Went
  | [], b => b
  | w :: ws, b =>
    let hit := w.port == port && w.asid == asid && va / 2 ^ lvlLow (w.lvl - 1) == w.pre
    wcacheBest port asid va ws (if hit && (match b with | some x => decide (x.lvl < w.lvl) | none => true) then some w else b)

/-- A walk by the walker of a port, through its cache of entries that are not leaves (R333). -/
def State.walkPort (s : State) (port asid va : Nat) (write : Bool) : WalkRes × State :=
  let r := tget 0 s.mem.asids asid
  let go := match wcacheBest port asid va s.port.wcache none with
    | some w => walkFrom s.mem asid va write w.lvl w.table (5 - w.lvl)
    | none => if !bit r 0 then (.fail 1, []) else walkFrom s.mem asid va write 0 (nfld r 14 38 * 16384) 5
  match go.1 with
  | .ok x =>
    let new := go.2.map fun p => (⟨port, asid, p.1, va / 2 ^ lvlLow (p.1 - 1), p.2⟩ : Went)
    let mine := (new ++ s.port.wcache.filter fun w => w.port == port && !new.contains w).take 32
    (.ok x, { s with port := { s.port with wcache := mine ++ s.port.wcache.filter fun w => w.port != port } })
  | r => (r, s)

/-- Physical address of a virtual address through a leaf. -/
def Xent.phys (x : Xent) (va : Nat) : Nat := x.frame + va % 2 ^ x.psz

/-- The key slot of a steward's accesses in an ASID: that of the lowest colour of the partition with the ASID, else KEY0 (log entry 16). -/
def State.stewKey (s : State) (p asid : Nat) : Nat :=
  match tfind (fun c x => colIn (s.part p).desc c && x.asid == asid && x.keyslot != 0) s.colours with
  | some c => (s.colour c).keyslot
  | none => pKey0 (s.part p).desc
/-- The region that holds a covered virtual page of an ASID (R379). -/
def State.regionOf (s : State) (asid va : Nat) : Option Nat :=
  tfind (fun _ r => r.v && r.asid == asid && decide (r.vbase ≤ va) && decide (va < r.vbase + 65536 * r.npage)) s.cov.regions
/-- The key slot of an access through a leaf (R451); `plain` is the key slot of an ordinary page. -/
def State.keyFor (s : State) (p : Nat) (x : Xent) (va plain : Nat) : Nat :=
  if x.cv then match s.regionOf x.asid va with | some r => (s.region r).keyslot | none => plain
  else if x.ro then pShkey (s.part p).desc else plain

/-! ### Routes (R266 to R268, R486) -/

/-- The c-th element of a row that is not fused, and is among its first 24 (R426). -/
def physCol (fuse : Word) : Nat → Nat → Nat → Nat
  | _, i, 0 => i
  | c, i, n + 1 => if bit fuse i then physCol fuse c (i + 1) n else if c = 0 then i else physCol fuse (c - 1) (i + 1) n
/-- The die of an element. -/
def dieOf (e : Nat) : Nat := 2 * (e / 48 / 24) + e % 48 / 24
/-- Row and column of an element in the physical package grid of 48 rows of 52. -/
def State.physOf (s : State) (e : Nat) : Nat × Nat :=
  let x := e % 48; let y := e / 48
  (y, 26 * (x / 24) + physCol (tget 0 s.mem.fuse (24 * dieOf e + y % 24)) (x % 24) 0 26)
/-- Attaching router of a port element (Table 8.4). -/
def portPos (p : Nat) : Nat × Nat :=
  let at_ := fun d r c => (24 * (d / 2) + r, 26 * (d % 2) + c)
  let outerR := fun d => if d < 2 then 0 else 23
  let innerR := fun d => if d < 2 then 23 else 0
  let outerC := fun d => if d % 2 = 0 then 0 else 25
  if p < 64 then
    let d := p / 16; let i := p % 16
    if i < 8 then at_ d (outerR d) (3 * i + 2) else at_ d (3 * (i - 8) + 1) (outerC d)
  else if p < 80 then let d := (p - 64) / 4; at_ d (3 * ((p - 64) % 4) + 2) (outerC d)
  else if p < 92 then let d := (p - 80) / 3; at_ d (3 * ((p - 80) % 3) + 14) (outerC d)
  else let d := (p - 92) / 2; at_ d (innerR d) (if d % 2 = 0 then 24 + (p - 92) % 2 else (p - 92) % 2)
/-- Cycles of a head flit between two routers: H + 8 C (R268). -/
def hops (a b : Nat × Nat) : Nat :=
  let dist := fun x y : Nat => if x < y then y - x else x - y
  dist a.1 b.1 + dist a.2 b.2 + 8 * (if a.1 / 24 = b.1 / 24 then 0 else 1) + 8 * (if a.2 / 26 = b.2 / 26 then 0 else 1)
/-- Cycles from an element to a port element. -/
def State.toPort (s : State) (e p : Nat) : Nat := hops (s.physOf e) (portPos p) + 1
/-- Cycles from a port element to an element. -/
def State.fromPort (s : State) (p e : Nat) : Nat := hops (portPos p) (s.physOf e)
/-- Flits of a token (R266). -/
def flits (pkt : Option TilePkt) : Nat := match pkt with | some t => 1 + 2 * hScl t.hdr + hBeats t.hdr | none => 1

/-- The element of a target from an element; off the grid gives none. -/
def targetElem (e : Nat) (dx dy : BitVec 6) : Option Nat :=
  let x := (e % 48 : Nat) + dx.toInt; let y := (e / 48 : Nat) + dy.toInt
  if 0 ≤ x ∧ x < 48 ∧ 0 ≤ y ∧ y < 48 then some (48 * y.toNat + x.toNat) else none

/-- The IMM of an ENTRY word; none for another word. -/
def entryPort (w : SlotWord) : Option Nat := if nfld w 120 8 = 0x0D then some (nfld w 0 16) else none
/-- The lowest entry port of a context slot's words below a bound. -/
def lowEntry (ws : Tbl (Option SlotWord)) : Option Nat :=
  ws.foldl (fun b e => match e.2.bind entryPort, b with
    | some n, some m => some (if n < m then n else m)
    | some n, none => some n
    | none, b => b) none
/-- The element of the round controller of a load: that of its ENTRY node of the lowest port (R129). -/
def State.controller (s : State) (l : Load) : Nat :=
  (l.foot.foldl (fun (b : Option (Nat × Nat)) e => match lowEntry (s.ctx e (dCtx l.desc)).words, b with
    | some n, some (m, f) => if n < m then some (n, e) else some (m, f)
    | some n, none => some (n, e)
    | none, b => b) none |>.map fun p => p.2).getD (l.foot.headD 0)

/-! ### Sending tokens -/

/-- The token is on its way and has not arrived where it is bound: a park takes it when it arrives (R244). -/
def Place.onWay (p : Place) : Bool := match p with | .mesh _ _ => true | .exitIn _ _ => true | .input _ => true | _ => false
/-- Where a token lies once it is parked: one that lies in its basin waits there for the basin engine to set P (R300, R437). -/
def Place.park (p : Place) : Place := match p with | .basin i => .marked i | p => p
/-- The entry of its basin that a token lies in. -/
def Place.basinAt (p : Place) : Option Nat := match p with | .basin i => some i | .marked i => some i | _ => none
/-- A later arrival is parked (R244, R344). -/
def State.parkedFor (s : State) (tag load : Word) : Bool :=
  s.fab.parks.any fun p => p.col == tagCol tag && inRange p.lo p.hi (tagIter tag) && !p.lifted.contains (tagGen tag) && (match p.load with | some l => l == load | none => true)

/-- A PURGE of the list covers a tag. -/
def SysKind.covers (k : SysKind) (tag : Word) : Bool :=
  match k with
  | .purge 0 c _ _ _ => tagCol tag == c
  | .purge 1 c g _ _ => tagCol tag == c && tagGen tag == g
  | .purge _ c _ lo hi => tagCol tag == c && inRange lo hi (tagIter tag)
  | .park c lo hi => tagCol tag == c && inRange lo hi (tagIter tag)
  | _ => false
/-- The operation is a PURGE. -/
def SysKind.isPurge (k : SysKind) : Bool := match k with | .purge _ _ _ _ _ => true | _ => false
/-- A PURGE that covers the tag is in progress. -/
def State.purging (s : State) (tag : Word) : Bool := s.fab.sysops.any fun o => o.kind.isPurge && o.kind.covers tag
/-- A PURGE that covers the tag has reached the element (R242). -/
def State.purgedAt (s : State) (e : Nat) (tag : Word) : Bool :=
  s.fab.sysops.any fun o => o.kind.isPurge && o.kind.covers tag && !o.todo.contains e
/-- Tokens of a load removed on arrival by the PURGEs that cover a tag (R241, R406). -/
def State.countPurged (s : State) (tag load : Word) (n : Nat) : State :=
  let up := fun o : SysOp => if o.kind.isPurge && o.kind.covers tag then { o with count := o.count + n, hits := (load, tagIter tag) :: o.hits } else o
  { s with fab := { s.fab with sysops := s.fab.sysops.map up } }

/-- Adds a token. -/
def State.addToken (s : State) (t : Token) : State := s.setTokens (s.fab.tokens ++ [t])
/-- The token that a target and a payload give, leaving an element, or a port element, `lag` cycles from now. One for the element itself
never enters the mesh: it enters matching in the next cycle (R267). -/
def State.tokenFrom (s : State) (port : Option Nat) (e ctx lag : Nat) (o : Out) : Option Token :=
  let load := s.loadidAt e ctx
  let mk := fun dst place => some (⟨tagClean o.tag, o.sb, o.kind, o.pay, o.pkt, dst, place, false, 0, load, o.hist⟩ : Token)
  let src := match port with | some p => portPos p | none => s.physOf e
  let sender := match port with | some p => 2304 + p | none => e
  let far := fun f slot pt =>
    let due := s.cycle + lag + hops src (s.physOf f) + flits o.pkt - 1
    mk (.node f slot pt) (if port.isSome && o.kind = .ref then .input (due + 1) else .mesh due sender)
  let near := fun slot pt => if port.isSome then far e slot pt else mk (.node e slot pt) (.input (s.cycle + 1))
  match fabTarget o.target with
  | none => none
  | some (.here slot port) => near slot.toNat port.toNat
  | some (.elem dx dy slot port) =>
    if dx = 0 ∧ dy = 0 then near slot.toNat port.toNat
    else match targetElem e dx dy with
      | none => none
      | some f => far f slot.toNat port.toNat
  | some (.exit x) =>
    let l := s.loadAt e ctx
    let d := match l with | some l => dieOf (s.controller l) | none => dieOf e
    mk (.exit x.toNat) (.exitIn (s.cycle + lag + hops src (portPos (92 + 2 * d)) + 1) sender)
  | some (.pelem p) => mk (.pelem p.toNat) (.mesh (s.cycle + lag + hops src (portPos p.toNat) + 1) sender)
/-- The token that an element sends. -/
def State.tokenOf (s : State) (e ctx lag : Nat) (o : Out) : Option Token := s.tokenFrom none e ctx lag o

/-- Sends results, the second one cycle after the first (R269). -/
def State.sendFrom (s : State) (port : Option Nat) (e ctx : Nat) : Nat → List Out → State
  | _, [] => s
  | lag, o :: os =>
    match s.tokenFrom port e ctx lag o with
    | some t => (s.addToken t).sendFrom port e ctx (lag + 1) os
    | none => s.sendFrom port e ctx (lag + 1) os
/-- Results that an element sends. -/
def State.sendOuts (s : State) (e ctx lag : Nat) (l : List Out) : State := s.sendFrom none e ctx lag l

/-- Tokens that a list of results sends. -/
def outCount (l : List Out) : Nat := (l.filter fun o => (fabTarget o.target).isSome).length

/-! ### Faults of activations (R262, R344, R345) -/

/-- The uncommitted round of a colour and load that holds an iteration. -/
def State.roundOf (s : State) (c : Nat) (l : Word) (i : Nat) : Option Round :=
  lfind (fun r => r.col == c && r.load == l && r.state != .committed && r.state != .phase1 && decide (age r.rbase i < r.nr)) s.fab.rounds

/-- The uncommitted round, in its release phase or before it, that holds an iteration. -/
def State.heldRound (s : State) (c : Nat) (l : Word) (i : Nat) : Option Round :=
  lfind (fun r => r.col == c && r.load == l && r.state != .committed && decide (age r.rbase i < r.nr)) s.fab.rounds
/-- The newest round of a colour and load that holds an iteration, committed or not. -/
def State.anyRound (s : State) (c : Nat) (l : Word) (i : Nat) : Option Round :=
  match s.heldRound c l i with
  | some r => some r
  | none => lfind (fun r => r.col == c && r.load == l && decide (age r.rbase i < r.nr)) s.fab.rounds

/-- The round of an iteration has opened, or lies behind O (R352). -/
def State.iterOpen (s : State) (c : Nat) (load : Word) (it : Nat) : Bool :=
  match s.heldRound c load it with
  | some r => r.state != .opening
  | none => decide (8388608 ≤ age (s.oldest c load) it)

/-- Parks the tokens in a range of iterations of a colour and load, now and on arrival; node state with them. -/
def State.parkRange (s : State) (part col lo hi : Nat) (load : Option Word) : State :=
  let hit := fun (tag l : Word) => tagCol tag == col && inRange lo hi (tagIter tag) && (match load with | some x => x == l | none => true)
  let toks := s.fab.tokens.map fun t => if hit t.tag t.load && !t.place.onWay && !t.parked then { t with parked := true, place := t.place.park } else t
  let js := s.fab.joins.map fun j => if hit j.tag j.load then { j with parked := true } else j
  { s with fab := { s.fab with parks := ⟨part, col, lo, hi, load, []⟩ :: s.fab.parks, tokens := toks, joins := js } }

/-- Raises the fault of an activation. A fault of a covered token during a PURGE is not reported (R242); one of an iteration in a
voided round writes no record (R344); one in a round with a fault pending joins it, and the older iteration stands (R345). -/
def State.raiseFault (s : State) (f : FaultInfo) : State :=
  let col := tagCol f.tag; let it := tagIter f.tag
  let load := s.loadidAt f.e (tagCtx f.tag)
  let part := (s.partOfElem f.e).getD 0
  if s.purgedAt f.e f.tag then s
  else
    let rcd := mkRecord f part load
    match s.roundOf col load it with
    | some r =>
      if r.voided then s.parkRange part col it it (some load)
      else
        let mine := fun p : PendFault => p.part == part && nfld p.rcd 244 12 == col && fld p.rcd 320 64 == load && p.round == some r.rbase && !p.done
        let older := fun p : PendFault => decide (age r.rbase it < age r.rbase (nfld p.rcd 296 24))
        let upd := fun p : PendFault => if mine p && older p then { p with rcd := setFld rcd 272 24 r.rbase, tag := f.tag } else p
        if s.fab.faults.any mine then { s with fab := { s.fab with faults := s.fab.faults.map upd } }
        else { s with fab := { s.fab with faults := s.fab.faults ++ [⟨part, setFld rcd 272 24 r.rbase, f.tag, some r.rbase, false, false⟩] } }
    | none =>
      let s' := s.parkRange part col it it (some load)
      let rcd := match s.anyRound col load it with | some r => setFld rcd 272 24 r.rbase | none => rcd
      { s' with fab := { s'.fab with faults := s'.fab.faults ++ [⟨part, rcd, f.tag, none, true, false⟩] } }

/-- Writes a record into the ring and sends its FAULT event; none when the ring is full (R262). -/
def State.writeRecord (s : State) (p : Nat) (rcd : BitVec 512) (event : Nat → Event) : Option State :=
  let x := s.part p
  match firstKey (fun i => (tget none x.ring i).isNone) 0 64 with
  | none => none
  | some i =>
    let r := setFld rcd 160 16 x.fseq.toNat
    some ((s.setPart p { x with ring := tset none x.ring i (some r), order := x.order ++ [i], fseq := x.fseq + 1 }).sendEvent p (event i))

/-- Puts the operand tokens of a firing that does not take place back where they lay (R26, R161). -/
def State.unfire (s : State) (f : Firing) : State :=
  { s.setTokens (s.fab.tokens ++ f.ops.filterMap fun e => e.2) with focus := .thread 0 }
/-- A fault of a firing: its operand tokens are parked with its activation. -/
def State.faultFiring (s : State) (f : Firing) (info : FaultInfo) : State :=
  let toks := f.ops.filterMap fun e => e.2.map fun t => { t with parked := true }
  ({ s.setTokens (s.fab.tokens ++ toks) with focus := .thread 0 } : State).raiseFault info

/-! ### Traps (R258, R259) -/

/-- Codes of Table 7.6 that stewards trap with. -/
def cTranslation : Nat := 1
def cProtection : Nat := 2
def cWidening : Nat := 3
def cStale : Nat := 4
def cPoison : Nat := 6
def cConfig : Nat := 7
def cIllegal : Nat := 8
def cPrivilege : Nat := 9
def cTopology : Nat := 10
def cAlign : Nat := 11
def cBuffer : Nat := 12
def cVersion : Nat := 13
def cTrap : Nat := 14

/-- TB of STATUS. -/
def Thread.tb (t : Thread) : Bool := bit t.status 10

/-- The thread halts; its event carries a CODE and a PC (Table 7.10). -/
def State.haltThread (s : State) (t : Nat) (code : Nat) (pc : Word) : State :=
  let th := s.thread t
  (s.setThread t { th with halted := true, stall := .none, pc := pc }).sendEvent (s.partOfThread t) (mkEvent 4 code 0 0 0 0 0 pc.toNat t 0)

/-- The status that trap entry leaves (R259): PMODE takes MODE, MODE and TB are set. -/
def trapStatus (st : Word) : Word := setFld (setFld (setFld st 9 1 (nfld st 8 1)) 8 1 1) 10 1 1

/-- Takes a trap: code, the value of EVAL, the TRAP number and the word to resume at (R259). -/
def State.takeTrap (s : State) (t : Nat) (code eval n : Nat) (epc : Word) : State :=
  let th := s.thread t
  if th.tb then s.haltThread t 1 th.pc
  else s.setThread t { th with epc := epc, ecause := pack 64 [(0, 4, code), (16, 16, n)], eval := BitVec.ofNat 64 eval,
                               status := trapStatus th.status, pc := th.tvec, stall := .none }

/-- A trap at the current word (R259). -/
def State.trapAt (s : State) (t code eval : Nat) : State := s.takeTrap t code eval 0 (s.thread t).pc

/-- The status that RETT leaves (R259). -/
def rettStatus (st : Word) : Word := setFld (setFld st 8 1 (nfld st 9 1)) 10 1 0

/-- Returns from a trap (R259). -/
def State.returnTrap (s : State) (t : Nat) : State :=
  let th := s.thread t
  s.setThread t { th with pc := th.epc, status := rettStatus th.status }

/-- EVAL of an ILLEGAL or PRIVILEGE trap: bits 127:64 of the word at the PC (R259). -/
def State.wordHigh (s : State) (t : Nat) : Nat :=
  let th := s.thread t
  nfld (tget 0 (s.image th.image).words th.pc.toNat) 64 64
/-- An ILLEGAL trap. -/
def State.trapIllegal (s : State) (t : Nat) : State := s.trapAt t cIllegal (s.wordHigh t)
/-- A PRIVILEGE trap. -/
def State.trapPrivilege (s : State) (t : Nat) : State := s.trapAt t cPrivilege (s.wordHigh t)
/-- A PROTECTION trap of a system instruction (R238). -/
def State.trapProtection (s : State) (t : Nat) : State := s.trapAt t cProtection 0

/-- The thread's instruction is done: it writes its destination and goes on. -/
def State.finishWord (s : State) (t : Nat) (d : Option Nat) (v : Word) : State := s.setThread t ((s.thread t).setDest d v).advance

/-- Every step's answer. -/
abbrev Res := Host.Outcome State Fault Refusal

end Sys2Proof.Machine
end

