-- ==== Sys2Proof/Machine/Cover.lean ====
section
/-! DEFINITION. Covered storage: started accesses, handles and their checks, extents and page counts (14), shoot-downs (R254) and
page requests (R328, R450), shared by the ports, engines, Trimmers and stewards. -/

namespace Sys2Proof.Machine

/-! ### Spaces (Table 6.1) -/

inductive Space where
  | global | peer | host | config
  deriving DecidableEq, Repr

/-- The space of a port. -/
def spaceOf (p : Nat) : Space := if p < 80 then .global else if p < 92 then .peer else if p % 2 = 0 then .host else .config

/-! ### Shoot-downs (R210, R254, R336) -/

/-- An element holds an XLAT. -/
def Elem.hasXlat (el : Elem) : Bool :=
  el.ctxs.any fun x => x.2.active && x.2.words.any fun w => match w.2 with | some v => nfld v 120 8 == 0xB5 | none => false
/-- Numbers of a port and of its page walker in a shoot-down's lists. -/
def shootPort : Nat := 4096
def shootWalker : Nat := 8192
/-- Ports that hold a page walker (R325, R328). -/
def isWalker (p : Nat) : Bool := p < 80 || (92 ≤ p && p % 2 == 0 && p < 100)
/-- Ports whose walkers the XLATs of an element name. -/
def Elem.xlatPorts (el : Elem) : List Nat :=
  (el.ctxs.map fun x => x.2.words.filterMap fun w => match w.2 with | some v => if nfld v 120 8 == 0xB5 then some (nfld v 0 7) else none | none => none).flatten
/-- Sends a shoot-down to every page walker, XLAT cache and port that serves a partition: the walkers first, so that no XLAT is filled again
from a table that a walker had cached, then the XLATs, then the ports. A port outside PORTMASK is among them where an XLAT names it, or where it
still holds tables of the partition. -/
def State.shoot (s : State) (thread : Option Nat) (part kind asid va : Nat) : State :=
  let d := (s.part part).desc
  let es := s.fab.elems.filter fun e => e.2.hasXlat && inRect d e.1
  let named := (es.map fun e => e.2.xlatPorts).flatten
  let kept := fun p : Nat => s.port.wcache.any fun w => w.port == p && asidIn d w.asid
  let ps := (rangeFrom 0 100).filter fun p => isWalker p && (bit (pPortmask d) p || named.contains p || kept p)
  let todo := (ps.map fun p => shootWalker + p) ++ (es.map fun e => e.1) ++ ps.map fun p => shootPort + p
  { s with port := { s.port with shoots := s.port.shoots ++ [⟨thread, part, kind, asid, va, todo, []⟩] } }
/-- A shoot-down covers a translation. -/
def State.shootHits (s : State) (h : Shoot) (x : Xent) : Bool :=
  match h.kind with
  | 0 => x.asid == h.asid && decide (x.page ≤ h.va) && decide (h.va < x.page + 2 ^ x.psz)
  | 1 => x.asid == h.asid
  | _ => asidIn (s.part h.part).desc x.asid

/-! ### Page requests (R328, R450) -/

/-- Number of a host address space among the ASIDs of translations. -/
def hostAsid (pasid : Nat) : Nat := 65536 + pasid
/-- The virtual function that asks the host for a page of a PASID. -/
def State.vfOf (s : State) (part pasid : Nat) : Option Nat :=
  match firstKey (fun f => (s.vf f).part == part && (s.vf f).pasid == pasid) 0 64 with
  | some f => some f
  | none => firstKey (fun f => (s.vf f).part == part) 0 64
/-- Adds a page request of a function: it takes a free group slot, or waits (R450). -/
def Vf.request (f : Vf) (r : PageReq) : Vf :=
  if f.groups.any (fun g => g.2 == some r) || f.waiting.contains r then f
  else match firstKey (fun g => (tget none f.groups g).isNone) 0 32 with
    | some g => { f with groups := tset none f.groups g (some r) }
    | none => { f with waiting := f.waiting ++ [r] }
/-- The port asks the host for a page. -/
def State.pageRequest (s : State) (part pasid va : Nat) : State :=
  match s.vfOf part pasid with
  | some f => s.setVf f ((s.vf f).request ⟨pasid, va / 65536⟩)
  | none => s
/-- A host translation by ATS: 64 KiB pages that the host reports present. -/
def State.hostWalk (s : State) (pasid va : Nat) (write : Bool) : WalkRes :=
  match tget 0 s.mem.hostPages (2 ^ 41 * pasid + va / 65536) with
  | 0 => .fail 1
  | n => if write && n != 2 then .fail 2
    else .ok ⟨hostAsid pasid, va / 65536 * 65536, 16, 2 ^ 57 * pasid + va / 65536 * 65536, n == 2, false, false, write⟩

/-! ### Started accesses (R388, R389) -/

/-- S of an epoch. -/
def Region.started (r : Region) (e : Nat) : Nat := match e with | 0 => r.s0 | 1 => r.s1 | 2 => r.s2 | _ => r.s3
/-- Writes S of an epoch. -/
def Region.setStarted (r : Region) (e n : Nat) : Region :=
  match e with | 0 => { r with s0 := n } | 1 => { r with s1 := n } | 2 => { r with s2 := n } | _ => { r with s3 := n }
/-- Key of a page record. -/
def pageKey (r p : Nat) : Nat := 2 ^ 22 * r + p
def State.page (s : State) (r p : Nat) : PageRec := tget PageRec.reset s.cov.pages (pageKey r p)
def State.setPage (s : State) (r p : Nat) (v : PageRec) : State :=
  { s with cov := { s.cov with pages := tset PageRec.reset s.cov.pages (pageKey r p) v } }
/-- A page of the region waits for the drain of an epoch. -/
def State.pendsOn (s : State) (r e : Nat) : Bool := s.cov.pages.any fun x => x.1 / 2 ^ 22 == r && x.2.pend && x.2.epoch == e
/-- Moves EOLD past the drained epochs that no page waits on (R389). -/
def State.advanceOld (s : State) (r : Nat) : Nat → State
  | 0 => s
  | n + 1 =>
    let g := s.region r
    if g.eold ≠ g.ecur ∧ g.started g.eold = 0 ∧ !s.pendsOn r g.eold then (s.setRegion r { g with eold := (g.eold + 1) % 4 }).advanceOld r n
    else s
/-- An access through a view starts; none while its count is full. -/
def State.startAccess (s : State) (r : Nat) : Option (State × (Nat × Nat)) :=
  let g := s.region r
  if 65535 ≤ g.started g.ecur then none else some (s.setRegion r (g.setStarted g.ecur (g.started g.ecur + 1)), (r, g.ecur))
/-- Every allocated page of a region waits for its free (R389, R395). -/
def State.pendAll (s : State) (r epoch : Nat) : State :=
  let one := fun x : Nat × PageRec =>
    if x.1 / 2 ^ 22 == r && x.2.alloc then (x.1, if x.2.pend then { x.2 with count := 0 } else { x.2 with count := 0, epoch := epoch, pend := true }) else x
  { s with cov := { s.cov with pages := s.cov.pages.map one } }
/-- The pages of a region that is being destroyed are uncovered as soon as R389 lets them be (R395). -/
def State.uncoverDying (s : State) (r : Nat) : State :=
  let g := s.region r
  let left := s.cov.pages.any fun x => x.1 / 2 ^ 22 == r && x.2.alloc && !x.2.pend
  if g.v && g.dying && left && (g.ecur + 1) % 4 != g.eold then ((s.pendAll r g.ecur).setRegion r { g with ecur := (g.ecur + 1) % 4 }).advanceOld r 3 else s
/-- A started access ends. -/
def State.endStarted (s : State) (x : Option (Nat × Nat)) : State :=
  match x with
  | some (r, e) => ((s.setRegion r ((s.region r).setStarted e ((s.region r).started e - 1))).advanceOld r 3).uncoverDying r
  | none => s

/-- Discards read-ahead data, whose accesses end with them (R388). -/
def State.dropAhead (s : State) (p : Ahead → Bool) : State :=
  let gone := s.port.ahead.filter p
  gone.foldl (fun (s : State) h => s.endStarted h.started) { s with port := { s.port with ahead := s.port.ahead.filter fun h => !p h } }
/-- Discards what read-ahead holds of bytes of device memory that are written (R204, R327). -/
def State.dropWritten (s : State) (pa n : Nat) : State :=
  s.dropAhead fun h => spaceOf h.port = .global && decide (h.pa < pa + n) && decide (pa < h.pa + 8) && h.code == 0
/-- A started access that an image brings back counts in the oldest epoch of its region, which every pending page waits for (R388, log entry 114). -/
def State.restartAccess (s : State) (r : Nat) : State × (Nat × Nat) :=
  let g := s.region r
  (s.setRegion r (g.setStarted g.eold (g.started g.eold + 1)), (r, g.eold))

/-! ### Views and handles (R227, R382 to R384) -/

/-- The die whose Trimmer holds a region. -/
def regionDie (r : Nat) : Nat := r / 16384
/-- Key of a view entry. -/
def viewKey (r i : Nat) : Nat := 2 ^ 20 * regionDie r + i
def State.view (s : State) (k : Nat) : View := tget View.reset s.cov.views k
def State.setView (s : State) (k : Nat) (v : View) : State := { s with cov := { s.cov with views := tset View.reset s.cov.views k v } }
/-- INDEX, GEN, REGION of a handle. -/
def hIndex (h : Word) : Nat := nfld h 44 20
def hGen (h : Word) : Nat := nfld h 32 12
def hRegion (h : Word) : Nat := nfld h 16 16
/-- The handle of a view entry (R383, R384). -/
def State.handle (s : State) (part r i gen : Nat) : Word :=
  let h : Word := pack 64 [(44, 20, i), (32, 12, gen), (16, 16, r)]
  setFld h 0 16 (cmac16 (s.part part).viewKey (fld h 16 48)).toNat
/-- The view that a good handle names: the key of its entry (R227). -/
def State.viewOf (s : State) (part asid : Nat) (h : Word) : Option Nat :=
  let r := s.region (hRegion h)
  let k := viewKey (hRegion h) (hIndex h)
  let v := s.view k
  if cmac16 (s.part part).viewKey (fld h 16 48) = fld h 0 16 ∧ r.v ∧ !r.dying ∧ r.asid = asid ∧ v.v ∧ v.region = hRegion h ∧ v.gen = hGen h
  then some k else none

/-! ### Extents and coverage (R386, R389) -/

/-- Pages that an extent covers: the first, and how many. -/
def extentPages (lo hi : Nat) : Nat × Nat := if lo < hi then (lo / 1024, (hi - 1) / 1024 + 1 - lo / 1024) else (0, 0)
/-- The pages as a list. -/
def pagesOf (lo hi : Nat) : List Nat := let p := extentPages lo hi; rangeFrom p.1 p.2
/-- Raises COUNT of pages. -/
def State.countUp (s : State) (r : Nat) : List Nat → State
  | [] => s
  | p :: ps => (s.setPage r p { s.page r p with count := (s.page r p).count + 1 }).countUp r ps
/-- Lowers COUNT of pages; a page that falls to 0 waits for the epoch (R389). -/
def State.countDown (s : State) (r epoch : Nat) : List Nat → State
  | [] => s
  | p :: ps =>
    let x := s.page r p
    let y := if x.count = 1 then { x with count := 0, epoch := epoch, pend := true } else { x with count := x.count - 1 }
    (s.setPage r p y).countDown r epoch ps
/-- Uncovers pages of a region: none while the change must wait (R389). -/
def State.uncover (s : State) (r : Nat) (ps : List Nat) : Option State :=
  let g := s.region r
  if ps.any fun p => (s.page r p).count == 1 then
    if (g.ecur + 1) % 4 = g.eold then none
    else
      let s1 := s.countDown r g.ecur ps
      some ((s1.setRegion r { s1.region r with ecur := (g.ecur + 1) % 4 }).advanceOld r 3)
  else some (s.countDown r g.ecur ps)

/-! ### Leaves and frames (R380, R381) -/

/-- The address of the level-4 entry of a virtual address, if the tables are built (R380). -/
def leafAddr (m : Mem) (va : Nat) : Nat → Nat → Nat → Option Nat
  | _, _, 0 => none
  | l, t, n + 1 =>
    let a := t + 8 * (va / 2 ^ lvlLow l % 2 ^ lvlBits l)
    if l = 4 then some a
    else
      let d : Word := BitVec.ofNat 64 (ofBytes (m.read 0 a 8))
      if bit d 0 && !bit d 1 then leafAddr m va (l + 1) (nfld d 8 44 * 256) n else none
/-- Writes the level-4 leaf of a page of an ASID. -/
def State.writeLeaf (s : State) (asid va : Nat) (w : Word) : State :=
  let r := tget 0 s.mem.asids asid
  match leafAddr s.mem va 0 (nfld r 14 38 * 16384) 5 with
  | some a => s.setMem (s.mem.write 0 a (bvBytes w 8))
  | none => s
/-- The leaf of a covered page in a frame (R380). -/
def coveredLeaf (frame : Nat) : Word := pack 64 [(8, 44, frame / 256), (5, 1, 1), (3, 1, 1), (1, 1, 1), (0, 1, 1)]
/-- Virtual address of a page of a region. -/
def Region.va (r : Region) (p : Nat) : Nat := r.vbase + 65536 * p

end Sys2Proof.Machine
end

