-- ==== Sys2Proof/Machine/Entries.lean ====
section
/-! DEFINITION. Where tokens wait at an element: matching entries and their sets (08 R271, 09 R298), arrival order (09 R303), the
sentinel's rest (R307) and the credit of a colour (R295, R296). -/

namespace Sys2Proof.Machine

/-- The element that a token is bound for. -/
def Token.elem (t : Token) : Option Nat := match t.dst with | .node e _ _ => some e | _ => none
/-- Slot and port that a token is bound for. -/
def Token.slotOf (t : Token) : Nat := match t.dst with | .node _ n _ => n | _ => 0
def Token.portOf (t : Token) : Nat := match t.dst with | .node _ _ p => p | _ => 0
/-- The token is bound for a node of an element's context slot. -/
def Token.isAt (t : Token) (e c n : Nat) : Bool := t.elem == some e && t.slotOf == n && tagCtx t.tag == c
/-- Equal node and tag. -/
def Token.mate (t u : Token) : Bool := t.elem == u.elem && t.slotOf == u.slotOf && tagEq t.tag u.tag
/-- The token waits in an entry. -/
def Token.inEntry (t : Token) : Bool := (match t.place with | .entry _ => true | _ => false) && !t.parked
/-- The token stands in an entry, parked or not (R437). -/
def Token.inPlace (t : Token) : Bool := match t.place with | .entry _ => true | _ => false
/-- The token waits in a bundle. -/
def Token.inBundle (t : Token) : Bool := (match t.place with | .bundle _ => true | _ => false) && !t.parked
/-- The token waits in its basin. -/
def Token.inBasin (t : Token) : Bool := (match t.place with | .basin _ => true | _ => false) && !t.parked
/-- The token is spilled: in a spill queue or its basin. -/
def Token.spilled (t : Token) : Bool := (match t.place with | .spill => true | .basin _ => true | _ => false) && !t.parked
/-- The token waits at the element or in its basin (R272). -/
def Token.waits (t : Token) : Bool := t.inEntry || t.inBundle || t.spilled || ((match t.place with | .cand _ => true | _ => false) && !t.parked)
/-- From which cycle the token's firing may be a candidate. -/
def Token.since (t : Token) : Nat := match t.place with | .entry n => n | .cand n => n | .bundle n => n | _ => 0
/-- Arrival order, modulo 2^32. -/
def seqBefore (m n : Nat) : Bool := let d := (n + 2 ^ 32 - m) % 2 ^ 32; decide (0 < d) && decide (d < 2 ^ 31)
def Token.before (t u : Token) : Bool := seqBefore t.seq u.seq
/-- Sorts tokens by SEQ at insertion (R245). -/
def insertSeq (t : Token) : List Token → List Token
  | [] => [t]
  | u :: us => if t.before u then t :: u :: us else u :: insertSeq t us
/-- The oldest of a list of tokens. -/
def oldestOf : List Token → Option Token
  | [] => none
  | t :: l => match oldestOf l with
    | some u => if u.before t then some u else some t
    | none => some t

/-! ### Entries (R271, R298) -/

/-- The set of a token (R271). -/
def setOf (col iter slot : Nat) : Nat := (iter % 128) ^^^ (col % 128) ^^^ (slot % 128)
/-- Entries that a node and tag hold: as many as wait at its fullest port. -/
def entriesOf (l : List Token) (t : Token) : Nat :=
  let at_ := fun p => (l.filter fun u => u.mate t && u.portOf == p).length
  Nat.max (at_ 0) (Nat.max (at_ 1) (at_ 2))
/-- One token of each node and tag. -/
def mates : List Token → List Token
  | [] => []
  | t :: l => let r := mates l; if r.any fun u => u.mate t then r else t :: r
/-- The entries of an element: colour and set of each (R271); node state holds entries too, and a parked token keeps its entry until it
is in its basin (R437). -/
def State.entries (s : State) (e : Nat) : List (Nat × Nat) :=
  let l := s.fab.tokens.filter fun t => t.inPlace && t.elem == some e
  let of := fun (tag : Word) (n : Nat) => (tagCol tag, setOf (tagCol tag) (tagIter tag) n)
  ((mates l).map fun t => List.replicate (entriesOf l t) (of t.tag t.slotOf)).flatten ++
  (s.fab.joins.filter fun j => j.e == e && !j.parked).map (fun j => of j.tag j.slot) ++
  (s.fab.streams.filter fun x => x.e == e && !x.parked).map (fun x => of x.tag x.slot) ++
  (s.fab.tokens.filter fun t => t.place == .barHold && t.elem == some e).map fun t => of t.tag t.slotOf
/-- Entries of a colour at an element. -/
def State.holds (s : State) (e c : Nat) : Nat := ((s.entries e).filter fun x => x.1 == c).length
/-- A new entry of a colour may stand in a set beside the entries of a list (R298). -/
def roomIn (cap c set : Nat) (l : List (Nat × Nat)) : Bool :=
  decide ((l.filter fun x => x.1 == c).length < cap) && decide ((l.filter fun x => x == (c, set)).length < 8) &&
    decide ((l.filter fun x => x.2 == set).length < 16)
/-- A new entry of a colour may stand in a set; what a firing of this cycle frees is free in the next (R298). -/
def State.room (s : State) (e c set : Nat) : Bool :=
  let h := (s.elem e).start
  roomIn (s.colour c).cap c set (s.entries e) && ((s.elem e).issued != s.cycle + 1 || h.cycle != s.cycle || roomIn (s.colour c).cap c set h.entries)
/-- Room for an entry of a token. -/
def State.roomFor (s : State) (e : Nat) (t : Token) : Bool := s.room e (tagCol t.tag) (setOf (tagCol t.tag) (tagIter t.tag) t.slotOf)
/-- The tag of the first to arrive of a list of arrival numbers and tags. -/
def firstTag : List (Nat × Word) → Option (Nat × Word)
  | [] => none
  | x :: l => match firstTag l with
    | some y => if seqBefore y.1 x.1 then some y else some x
    | none => some x
/-- The tag of a colour's oldest entry at an element: a token's, or that of a JOINN count or ITER stream, which arrived with its first token
(R307). -/
def State.oldestTag (s : State) (e c : Nat) : Option Word :=
  let mine := fun t : Token => t.elem == some e && tagCol t.tag == c
  let ts := s.fab.tokens.filter fun t => mine t && (t.inPlace || t.place == .barHold)
  let js := s.fab.joins.filter fun j => j.e == e && tagCol j.tag == c && !j.parked
  let ss := s.fab.streams.filter fun x => x.e == e && tagCol x.tag == c && !x.parked
  (firstTag ((ts.map fun t => (t.seq, t.tag)) ++ (js.map fun j => (j.seq, j.tag)) ++ ss.map fun x => (x.seq, x.tag))).map fun x => x.2
/-- The colour holds an entry or a spilled token for the element (R307). -/
def State.holdsAny (s : State) (e c : Nat) : Bool :=
  ((s.entries e).any fun x => x.1 == c) || s.fab.tokens.any fun t => t.spilled && t.elem == some e && tagCol t.tag == c

/-! ### The sentinel (R307) -/

/-- The sentinel count of a colour returns to 0. -/
def State.resetSentinel (s : State) (e c : Nat) : State :=
  let el := s.elem e
  s.setElem e { el with sentinels := tset ⟨0, false⟩ el.sentinels c ⟨s.cycle, false⟩ }
/-- The colour touches the element's entries: a count that stood at rest starts. -/
def State.touch (s : State) (e c : Nat) : State := if s.holdsAny e c then s else s.resetSentinel e c

/-! ### Credit (R295, R296) -/

def State.credit (s : State) (e c : Nat) : Credit := tget ⟨0, 0⟩ (s.elem e).credits c
def State.setCredit (s : State) (e c : Nat) (v : Credit) : State :=
  s.setElem e { s.elem e with credits := tset ⟨0, 0⟩ (s.elem e).credits c v }
/-- The credit of the colours that hold an entry at an element in this cycle is not idle (R296). -/
def State.noteHeld (s : State) (e : Nat) : State :=
  let busy := fun c : Nat => (s.entries e).any fun x => x.1 == c
  let el := s.elem e
  s.setElem e { el with credits := el.credits.map fun x => if busy x.1 then (x.1, { x.2 with idle := s.cycle }) else x }

end Sys2Proof.Machine
end

