-- ==== Sys2Proof/Machine/Mesh.lean ====
section
/-! DEFINITION. How a token is framed on the mesh (08 R266, Table 8.1): the head and the flits of 64 bytes. -/

namespace Sys2Proof.Machine

/-- Code of a payload kind (R9). -/
def TKind.code (k : TKind) : Nat := match k with | .scalar => 0 | .ref => 1 | .tile => 2
/-- The die whose hub port element holds the exit queues of a token's load (R267). -/
def State.exitDie (s : State) (t : Token) : Nat :=
  match s.loadById (s.partOfCol (tagCol t.tag)) t.load with | some l => dieOf (s.controller l) | none => 0
/-- Destination fields of the head: an element's physical place through the fuse map, the hub port element of an exit token by its die
(log entry 90), or the number of a port element, whose coordinates are zero (R267). -/
def State.headDest (s : State) (t : Token) : List (Nat × Nat × Nat) :=
  match t.dst with
  | .node e n p => [(52, 2, 0), (50, 2, dieOf e), (45, 5, e / 48 % 24), (40, 5, (s.physOf e).2 % 26), (33, 7, n), (31, 2, p)]
  | .exit x => [(52, 2, 1), (50, 2, s.exitDie t), (20, 4, x)]
  | .pelem p => [(52, 2, 2), (24, 7, p)]
/-- The head of flit 0 (Table 8.1). -/
def State.flitHead (s : State) (t : Token) : BitVec 128 :=
  pack 128 ([(64, 64, t.tag.toNat), (56, 8, t.sb.toNat), (54, 2, t.kind.code), (13, 7, flits t.pkt)] ++ s.headDest t)
/-- Bytes cut into flits. -/
def flitsOf (bs : List Byte) : Nat → List (BitVec 512)
  | 0 => []
  | n + 1 => BitVec.ofNat 512 (ofBytes (bs.take 64)) :: flitsOf (bs.drop 64) n
/-- The flits of a token (R266): the head with its payload or tile header, the scale block when SCL is 1, and one flit for each beat. -/
def State.frame (s : State) (t : Token) : List (BitVec 512) :=
  let head := (s.flitHead t).toNat
  match t.pkt with
  | none => [BitVec.ofNat 512 (head + t.pay.toNat * 2 ^ 128)]
  | some p => BitVec.ofNat 512 (head + p.hdr.toNat * 2 ^ 128) :: flitsOf (bvBytes p.scale 128) (2 * hScl p.hdr) ++ flitsOf p.body (hBeats p.hdr)

end Sys2Proof.Machine
end

