-- ==== Sys2Proof/Machine/Float.lean ====
section
/-! DEFINITION. Floating point (02 R38 to R52): data as exact dyadic numbers, one rounding at the end, and the side-band bits. -/

namespace Sys2Proof.Machine

/-- Side-band bits of Table 1.2. -/
def bIX : BitVec 8 := 1
def bUF : BitVec 8 := 2
def bOF : BitVec 8 := 4
def bDZ : BitVec 8 := 8
def bIV : BitVec 8 := 16

/-- A floating-point format (Tables 2.3 and 2.4): exponent and fraction widths. -/
structure Fmt where
  eb : Nat
  fb : Nat
  deriving DecidableEq, Repr

def fmtF32 : Fmt := ⟨8, 23⟩
def fmtF16 : Fmt := ⟨5, 10⟩
def fmtBf16 : Fmt := ⟨8, 7⟩
/-- The format of a type; f32 for types that are none. -/
def fmtOf : Ty → Fmt
  | .f16 => fmtF16 | .bf16 => fmtBf16 | _ => fmtF32
/-- The type is bf16, f16 or f32. -/
def isFp : Ty → Bool
  | .bf16 => true | .f16 => true | .f32 => true | _ => false

def Fmt.bias (f : Fmt) : Nat := 2 ^ (f.eb - 1) - 1
/-- Bits of a datum. -/
def Fmt.bits (f : Fmt) : Nat := f.eb + f.fb + 1
def Fmt.inf (f : Fmt) (neg : Bool) : Nat := b2n neg * 2 ^ (f.eb + f.fb) + (2 ^ f.eb - 1) * 2 ^ f.fb
def Fmt.max (f : Fmt) (neg : Bool) : Nat := f.inf neg - 1
def Fmt.nan (f : Fmt) : Nat := f.inf false + 2 ^ (f.fb - 1)
def Fmt.zero (f : Fmt) (neg : Bool) : Nat := b2n neg * 2 ^ (f.eb + f.fb)

/-- The value of a datum (R39); `fin neg m e` is m x 2^e with its sign. -/
inductive Fp where
  | nan
  | inf (neg : Bool)
  | fin (neg : Bool) (m : Nat) (e : Int)
  deriving DecidableEq, Repr

/-- Reads a datum (R39, R40). -/
def Fmt.read (f : Fmt) (n : Nat) : Fp :=
  let fr := n % 2 ^ f.fb
  let ex := n / 2 ^ f.fb % 2 ^ f.eb
  let neg := n / 2 ^ (f.eb + f.fb) % 2 == 1
  if ex = 2 ^ f.eb - 1 then (if fr = 0 then .inf neg else .nan)
  else if ex = 0 then .fin neg fr (1 - (f.bias : Int) - f.fb)
  else .fin neg (2 ^ f.fb + fr) (ex - (f.bias : Int) - f.fb)

/-- Number of significant bits. -/
def bitLen (m : Nat) : Nat := if m = 0 then 0 else Nat.log2 m + 1

/-- Rounds k + rem/2^sh (with something more when sticky) to an integer (R42). -/
def roundInt (rm : Nat) (neg : Bool) (m : Nat) (sh : Nat) (sticky : Bool) : Nat × Bool :=
  let k := m / 2 ^ sh
  let r := m % 2 ^ sh
  let half := 2 ^ sh
  let exact := r == 0 && !sticky
  let up := match rm with
    | 0 => decide (2 * r > half) || (decide (2 * r = half) && decide (0 < sh) && (sticky || k % 2 == 1))
    | 1 => false
    | 2 => neg && !exact
    | _ => !neg && !exact
  (if up then k + 1 else k, !exact)

/-- Overflow results of Table 2.7 and R47. -/
def Fmt.overflow (f : Fmt) (rm : Nat) (sat neg : Bool) : Nat :=
  if sat then f.max neg
  else match rm with
    | 0 => f.inf neg
    | 1 => f.max neg
    | 2 => if neg then f.inf true else f.max false
    | _ => if neg then f.max true else f.inf false

/-- Rounds an exact value m x 2^e, or one just above it when sticky, into a format (R42 to R48). -/
def Fmt.round (f : Fmt) (rm : Nat) (sat neg : Bool) (m : Nat) (e : Int) (sticky : Bool) : Nat × BitVec 8 :=
  if m = 0 ∧ sticky = false then (f.zero neg, 0)
  else
    let top : Int := e + bitLen m - 1
    let emin : Int := 1 - f.bias
    let q : Int := (if top < emin then emin else top) - f.fb
    let r := if q ≤ e then (m * 2 ^ (e - q).toNat, sticky) else roundInt rm neg m (q - e).toNat sticky
    let k := r.1
    let inexact := r.2
    let big := k ≠ 0 ∧ q + bitLen k - 1 > f.bias
    if big then (f.overflow rm sat neg, bOF ||| bIX)
    else
      let qu : Int := top - f.fb
      let ku := if qu ≤ e then m * 2 ^ (e - qu).toNat else (roundInt rm neg m (qu - e).toNat sticky).1
      let tiny := top < emin ∧ ¬ (ku = 2 ^ (f.fb + 1) ∧ top + 1 = emin)
      let bits := ((q - (emin - f.fb)).toNat) * 2 ^ f.fb + k
      (b2n neg * 2 ^ (f.eb + f.fb) + bits, if inexact then (if tiny then bUF ||| bIX else bIX) else 0)

/-- Rounds a value that may be special; a value that is infinite because an operand is raises nothing. -/
def Fmt.put (f : Fmt) (rm : Nat) (sat : Bool) : Fp → Nat × BitVec 8
  | .nan => (f.nan, 0)
  | .inf neg => (f.inf neg, 0)
  | .fin neg m e => f.round rm sat neg m e false

/-- A signed integer times a power of two as a value; zero takes the given sign. -/
def fpOfInt (zneg : Bool) (i : Int) (e : Int) : Fp := if i = 0 then .fin zneg 0 e else .fin (i < 0) i.natAbs e

/-- The signed significand of a finite value. -/
def signed (neg : Bool) (m : Nat) : Int := if neg then -(m : Int) else m

/-- The exact sum of finite values, with the sign of zero of R44. -/
def addFin (rm : Nat) (n1 : Bool) (m1 : Nat) (e1 : Int) (n2 : Bool) (m2 : Nat) (e2 : Int) : Fp :=
  let e := if e1 ≤ e2 then e1 else e2
  let s := signed n1 m1 * 2 ^ (e1 - e).toNat + signed n2 m2 * 2 ^ (e2 - e).toNat
  let z := if m1 = 0 ∧ m2 = 0 ∧ n1 = n2 then n1 else rm == 2
  fpOfInt z s e

/-- The exact sum (R44, R45). -/
def addFp (rm : Nat) : Fp → Fp → Fp × BitVec 8
  | .nan, _ => (.nan, 0)
  | _, .nan => (.nan, 0)
  | .inf a, .inf b => if a = b then (.inf a, 0) else (.nan, bIV)
  | .inf a, _ => (.inf a, 0)
  | _, .inf b => (.inf b, 0)
  | .fin a m e, .fin b n g => (addFin rm a m e b n g, 0)

/-- The negated value. -/
def negFp : Fp → Fp
  | .nan => .nan
  | .inf a => .inf !a
  | .fin a m e => .fin (!a) m e

/-- The exact product (R44, R45). -/
def mulFp : Fp → Fp → Fp × BitVec 8
  | .nan, _ => (.nan, 0)
  | _, .nan => (.nan, 0)
  | .inf a, .inf b => (.inf (a ^^ b), 0)
  | .inf a, .fin b n _ => if n = 0 then (.nan, bIV) else (.inf (a ^^ b), 0)
  | .fin a m _, .inf b => if m = 0 then (.nan, bIV) else (.inf (a ^^ b), 0)
  | .fin a m e, .fin b n g => (.fin (a ^^ b) (m * n) (e + g), 0)

/-- Rounds a value and joins bits raised before. -/
def Fmt.fin (f : Fmt) (rm : Nat) (sat : Bool) (v : Fp × BitVec 8) : Nat × BitVec 8 :=
  let r := f.put rm sat v.1
  (r.1, r.2 ||| v.2)

/-- FADD (R43). -/
def fAdd (f : Fmt) (rm : Nat) (sat : Bool) (a b : Nat) : Nat × BitVec 8 := f.fin rm sat (addFp rm (f.read a) (f.read b))
/-- FSUB (R43). -/
def fSub (f : Fmt) (rm : Nat) (sat : Bool) (a b : Nat) : Nat × BitVec 8 := f.fin rm sat (addFp rm (f.read a) (negFp (f.read b)))
/-- FMUL (R43). -/
def fMul (f : Fmt) (rm : Nat) (sat : Bool) (a b : Nat) : Nat × BitVec 8 := f.fin rm sat (mulFp (f.read a) (f.read b))
/-- FFMA (R41, R43): a NaN operand raises nothing. -/
def fFma (f : Fmt) (rm : Nat) (sat : Bool) (a b c : Nat) : Nat × BitVec 8 :=
  if f.read a = .nan ∨ f.read b = .nan ∨ f.read c = .nan then (f.nan, 0)
  else
    let p := mulFp (f.read a) (f.read b)
    if p.1 = .nan then (f.nan, p.2)
    else
      let r := addFp rm p.1 (f.read c)
      f.fin rm sat (r.1, r.2 ||| p.2)

/-- The quotient of finite non-zero values, with at least 80 significant bits. -/
def divFin (f : Fmt) (rm : Nat) (sat : Bool) (neg : Bool) (m : Nat) (e : Int) (n : Nat) (g : Int) : Nat × BitVec 8 :=
  let k := 80 + bitLen n
  let q := m * 2 ^ k / n
  f.round rm sat neg q (e - g - k) (q * n != m * 2 ^ k)

/-- FDIV (R43, R49). -/
def fDiv (f : Fmt) (rm : Nat) (sat : Bool) (a b : Nat) : Nat × BitVec 8 :=
  match f.read a, f.read b with
  | .nan, _ => (f.nan, 0)
  | _, .nan => (f.nan, 0)
  | .inf _, .inf _ => (f.nan, bIV)
  | .inf x, .fin y _ _ => (f.inf (x ^^ y), 0)
  | .fin x _ _, .inf y => (f.zero (x ^^ y), 0)
  | .fin x m e, .fin y n g =>
    if n = 0 then (if m = 0 then (f.nan, bIV) else (f.inf (x ^^ y), bDZ))
    else if m = 0 then (f.zero (x ^^ y), 0)
    else divFin f rm sat (x ^^ y) m e n g

/-- Newton steps of the integer square root. -/
def isqrtLoop (n : Nat) : Nat → Nat → Nat
  | 0, x => x
  | k + 1, x => let y := (x + n / x) / 2; if y < x then isqrtLoop n k y else x

/-- The integer square root, rounded down. -/
def isqrt (n : Nat) : Nat := if n = 0 then 0 else isqrtLoop n (bitLen n + 8) (2 ^ ((bitLen n + 1) / 2))

/-- An even exponent: m x 2^e with e even. -/
def evenExp (m : Nat) (e : Int) : Nat × Int := if e % 2 = 0 then (m, e) else (2 * m, e - 1)

/-- FSQRT (R43, R49). -/
def fSqrt (f : Fmt) (rm : Nat) (sat : Bool) (a : Nat) : Nat × BitVec 8 :=
  match f.read a with
  | .nan => (f.nan, 0)
  | .inf n => if n then (f.nan, bIV) else (f.inf false, 0)
  | .fin n m e =>
    if m = 0 then (f.zero n, 0)
    else if n then (f.nan, bIV)
    else
      let p := evenExp m e
      let x := p.1 * 2 ^ 160
      let r := isqrt x
      f.round rm sat false r (p.2 / 2 - 80) (r * r != x)

/-- FRSQ (R43, R49). -/
def fRsq (f : Fmt) (rm : Nat) (sat : Bool) (a : Nat) : Nat × BitVec 8 :=
  match f.read a with
  | .nan => (f.nan, 0)
  | .inf n => if n then (f.nan, bIV) else (f.zero false, 0)
  | .fin n m e =>
    if m = 0 then (f.inf n, bDZ)
    else if n then (f.nan, bIV)
    else
      let p := evenExp m e
      let r := isqrt (2 ^ 240 / p.1)
      f.round rm sat false r (-(p.2 / 2) - 120) (r * r * p.1 != 2 ^ 240)

/-- FRCP (R43, R49). -/
def fRcp (f : Fmt) (rm : Nat) (sat : Bool) (a : Nat) : Nat × BitVec 8 :=
  match f.read a with
  | .nan => (f.nan, 0)
  | .inf n => (f.zero n, 0)
  | .fin n m e => if m = 0 then (f.inf n, bDZ) else divFin f rm sat n 1 0 m e

/-! ### Power and logarithm, in fixed point of 320 bits (log entry 15) -/

/-- Fraction bits of the series. -/
def serBits : Nat := 320

/-- Terms z^(2k+1)/(2k+1) of the inverse hyperbolic tangent; `t` is the power of z. -/
def atanhLoop (z2 : Nat) : Nat → Nat → Nat → Nat → Nat
  | 0, _, _, acc => acc
  | n + 1, k, t, acc => atanhLoop z2 n (k + 2) (t * z2 / 2 ^ serBits) (acc + t / k)
/-- The inverse hyperbolic tangent of a fixed-point fraction of at most 1/3. -/
def atanhFix (z : Nat) : Nat := atanhLoop (z * z / 2 ^ serBits) 110 1 z 0
/-- The natural logarithm of 2. -/
def ln2Fix : Nat := 2 * atanhFix (2 ^ serBits / 3)
/-- Terms y^k/k! of the exponential. -/
def expLoop (y : Nat) : Nat → Nat → Nat → Nat → Nat
  | 0, _, _, acc => acc
  | n + 1, k, t, acc => expLoop y n (k + 1) (t * y / 2 ^ serBits / k) (acc + t)
/-- 2 to a fixed-point fraction. -/
def exp2Fix (fr : Nat) : Nat := expLoop (fr * ln2Fix / 2 ^ serBits) 90 1 (2 ^ serBits) 0

/-- FEXP2 (R43, R49). -/
def fExp2 (f : Fmt) (rm : Nat) (sat : Bool) (a : Nat) : Nat × BitVec 8 :=
  match f.read a with
  | .nan => (f.nan, 0)
  | .inf n => if n then (f.zero false, 0) else (f.inf false, 0)
  | .fin n m e =>
    if m = 0 then f.round rm sat false 1 0 false
    else if e + bitLen m > 12 then (if n then f.round rm sat false 1 (-4000) true else f.round rm sat false 1 4000 true)
    else
      let x : Int := signed n m * 2 ^ (e + serBits).toNat
      let i := x / 2 ^ serBits
      let fr := (x % 2 ^ serBits).toNat
      if fr = 0 then f.round rm sat false 1 i false
      else f.round rm sat false (exp2Fix fr) (i - serBits) true

/-- FLOG2 (R43, R49). -/
def fLog2 (f : Fmt) (rm : Nat) (sat : Bool) (a : Nat) : Nat × BitVec 8 :=
  match f.read a with
  | .nan => (f.nan, 0)
  | .inf n => if n then (f.nan, bIV) else (f.inf false, 0)
  | .fin n m e =>
    if m = 0 then (f.inf true, bDZ)
    else if n then (f.nan, bIV)
    else
      let l := bitLen m
      let top : Int := e + l - 1
      if m = 2 ^ (l - 1) then f.fin rm sat (fpOfInt false top 0, 0)
      else
        let one := 2 ^ (l - 1)
        let z := (m - one) * 2 ^ serBits / (m + one)
        let lg := 2 * atanhFix z * 2 ^ serBits / ln2Fix
        let t : Int := top * 2 ^ serBits + lg
        if t < 0 then f.round rm sat true (t.natAbs - 1) (-(serBits : Int)) true
        else f.round rm sat false t.toNat (-(serBits : Int)) true

/-! ### Comparison (R50, R51) -/

/-- Compares finite values exactly. -/
def cmpFin (n1 : Bool) (m1 : Nat) (e1 : Int) (n2 : Bool) (m2 : Nat) (e2 : Int) : Ordering :=
  let e := if e1 ≤ e2 then e1 else e2
  compare (signed n1 m1 * 2 ^ (e1 - e).toNat) (signed n2 m2 * 2 ^ (e2 - e).toNat)

/-- Order of values with -0 below +0 when `zeros` is set (R50); none when unordered. -/
def fpCompare (zeros : Bool) : Fp → Fp → Option Ordering
  | .nan, _ => none
  | _, .nan => none
  | .inf a, .inf b => some (if a = b then .eq else if a then .lt else .gt)
  | .inf a, _ => some (if a then .lt else .gt)
  | _, .inf b => some (if b then .gt else .lt)
  | .fin a m e, .fin b n g =>
    if m = 0 ∧ n = 0 then some (if !zeros ∨ a = b then .eq else if a then .lt else .gt) else some (cmpFin a m e b n g)

/-- FMIN and FMAX (R50). -/
def fMinMax (f : Fmt) (wantMax : Bool) (a b : Nat) : Nat :=
  match f.read a, f.read b with
  | .nan, .nan => f.nan
  | .nan, _ => b % 2 ^ f.bits
  | _, .nan => a % 2 ^ f.bits
  | x, y => match fpCompare true x y with
    | some .lt => if wantMax then b % 2 ^ f.bits else a % 2 ^ f.bits
    | some .gt => if wantMax then a % 2 ^ f.bits else b % 2 ^ f.bits
    | _ => a % 2 ^ f.bits

/-- The ranking key of R51, widened to the format's width (R156, R364). -/
def rankKey (f : Fmt) (x : Nat) : Nat :=
  let w := f.bits
  match f.read x with
  | .nan => 0
  | .fin _ 0 _ => 2 ^ (w - 1)
  | _ => if x / 2 ^ (w - 1) % 2 = 0 then x % 2 ^ w + 2 ^ (w - 1) else 2 ^ w - 1 - x % 2 ^ w

/-! ### Conversions (R52) -/

/-- An integer into a format (R52). -/
def intToFp (f : Fmt) (rm : Nat) (sat : Bool) (i : Int) : Nat × BitVec 8 := f.fin rm sat (fpOfInt false i 0, 0)

/-- A value rounded to an integer under RM, and whether it changed. -/
def fpToInt (rm : Nat) (neg : Bool) (m : Nat) (e : Int) : Int × Bool :=
  if 0 ≤ e then (signed neg (m * 2 ^ e.toNat), false)
  else let r := roundInt rm neg m (-e).toNat false; (signed neg r.1, r.2)

/-- Floating point into the integers from lo to hi (R52). -/
def fpToRange (rm : Nat) (lo hi : Int) : Fp → Int × BitVec 8
  | .nan => (0, bIV)
  | .inf n => (if n then lo else hi, bIV)
  | .fin n m e =>
    let r := fpToInt rm n m e
    if r.1 < lo then (lo, bIV) else if hi < r.1 then (hi, bIV) else (r.1, if r.2 then bIX else 0)

/-- FROUND (R154): the nearest integral value in the same format. -/
def fRound (f : Fmt) (rm : Nat) (a : Nat) : Nat × BitVec 8 :=
  match f.read a with
  | .nan => (f.nan, 0)
  | .inf n => (f.inf n, 0)
  | .fin n m e =>
    if 0 ≤ e then (a % 2 ^ f.bits, 0)
    else
      let r := roundInt rm n m (-e).toNat false
      ((f.round rm false n r.1 0 false).1, if r.2 then bIX else 0)

/-- One format into another (R52). -/
def fpConv (src dst : Fmt) (rm : Nat) (sat : Bool) (a : Nat) : Nat × BitVec 8 := dst.put rm sat (src.read a)

end Sys2Proof.Machine
end

