-- ==== Sys2Proof/Machine/Flags.lean ====
section
/-! DEFINITION. The side-band of a result (R20 to R22), the sticky bits of a steward (R132) and the exception latch of an element
(R282). -/

namespace Sys2Proof.Machine

/-- The OR of side-bands, bit 7 zero (R19, R20). -/
def sbOr (l : List (BitVec 8)) : BitVec 8 := l.foldl (fun a b => a ||| b) 0 &&& 0x7F

/-- A firing with this operand side-band performs no arithmetic (R21, R22). -/
def sbDead (sb : BitVec 8) : Bool := sbNL sb || sbPZ sb

/-- The payload and side-band of a result: zero payload and no bit of its own for an NL or PZ operand (R20 to R22). -/
def sbResult (sb : BitVec 8) (r : Word × BitVec 8) : Word × BitVec 8 := if sbDead sb then (0, sb) else (r.1, sb ||| (r.2 &&& 0x1F))

/-- ORs bits 4:0 into the sticky bits of STATUS (R132). -/
def Thread.sticky (t : Thread) (b : BitVec 8) : Thread := { t with status := t.status ||| (b &&& 0x1F).zeroExtend 64 }

/-- What ELATCH records of a firing, with WATCH 0 (Table 8.3). -/
def latchWord (tag : Word) (slot : Nat) (bits : BitVec 8) : Word :=
  pack 64 [(63, 1, 1), (48, 12, tagCol tag), (46, 2, tagCtx tag), (39, 7, slot), (15, 24, tagIter tag), (8, 5, nfld bits 0 5)]
/-- ELATCH after a firing with XL: captured where V is 0 and a watched bit is set (R282). -/
def latched (x w : Word) : Word := if !bit x 63 && nfld (BitVec.ofNat 5 (nfld w 8 5) &&& x.truncate 5) 0 5 != 0 then setFld w 0 5 (nfld x 0 5) else x
/-- A firing with XL comes to ELATCH in a cycle, which remembers it for a write of the same cycle (R282, R283). -/
def Elem.capture (el : Elem) (now : Nat) (tag : Word) (slot : Nat) (bits : BitVec 8) : Elem :=
  let w := latchWord tag slot bits
  { el with elatch := latched el.elatch w, shown := (now + 1, (if el.shown.1 = now + 1 then el.shown.2 else []) ++ [w]) }

end Sys2Proof.Machine
end

