-- ==== Sys2Proof/Machine/Operands.lean ====
section
/-! DEFINITION. Operand forms (R67 to R71, R81) in both readings of a word, and how a firing or a steward word delivers its
result (R77, R108, R276, R294). -/

namespace Sys2Proof.Machine

/-- An operand's value, and the side-band of its token or of a poisoned register line. -/
structure Val where
  v : Word
  sb : BitVec 8
  deriving DecidableEq, Repr

/-- A literal read in a type (R69): an integer literal is sign-extended, and the instruction reads the low w bits (R139). -/
def litVal (ty : Ty) (v : BitVec 10) : Word :=
  if isFp ty then BitVec.ofNat 64 (intToFp (fmtOf ty) 0 false v.toInt).1 else BitVec.ofInt 64 v.toInt

/-- IMM read as an operand of a type (R70). The rule gives no reading for pred and view, where IMM is zero-extended (DESIGN CHOICE,
log entry 86). -/
def immVal (ty : Ty) (i : BitVec 16) : Word :=
  match ty with
  | .f32 => BitVec.ofNat 64 (i.toNat * 65536)
  | .i32 | .i64 | .i16 | .i8 => BitVec.ofInt 64 i.toInt
  | _ => i.zeroExtend 64

/-- The operand token at a port of a firing. -/
def Firing.tok (f : Firing) (n : Nat) : Option Token := tget none f.ops n

/-- A token port's value; a port that holds nothing reads as 0. -/
def Firing.portVal (f : Firing) (n : Nat) : Val :=
  match f.tok n with
  | some t => ⟨t.pay, t.sb &&& 0x7F⟩
  | none => ⟨0, 0⟩

/-- The value of an operand specifier read in a type, in the form that the focus names (Table 3.7). -/
def State.opVal (s : State) (ty : Ty) (imm : BitVec 16) (x : Opnd) : Val :=
  match x with
  | .lit v => ⟨litVal ty v, 0⟩
  | .imm => ⟨immVal ty imm, 0⟩
  | .reg n => match s.focus with
    | .thread t => ⟨(s.thread t).reg n.toNat, 0⟩
    | .node f => let r := s.kreg f.e f.ctx n.toNat; ⟨r.1, if r.2 then sbPoison else 0⟩
  | .port n => match s.focus with
    | .thread _ => ⟨0, 0⟩
    | .node f => f.portVal n.toNat
  | .acc _ => ⟨0, 0⟩
  | .buf _ => ⟨0, 0⟩
  | .none => ⟨0, 0⟩

/-- Chain provenance of a firing: everything its operand tokens' chains have performed (R204). -/
def Firing.hist (f : Firing) : List Nat := f.ops.foldl (fun l e => match e.2 with | some t => l ++ t.hist | none => l) []

/-- A scalar result to a target. -/
def outOf (target : BitVec 24) (tag : Word) (r : Word × BitVec 8) : Out := ⟨target, r.2, .scalar, r.1, none, tag, []⟩
/-- One result to T0 and a copy to T1 (R108). -/
def outBoth (o : Ops) (x : Out) : List Out := ({ x with target := o.t0 } :: (if o.t1 == 0 then [] else [{ x with target := o.t1 }])).filter fun y => y.target != 0

/-- Tokens a firing consumed. -/
def Firing.count (f : Firing) : Nat := (f.ops.filter fun e => e.2.isSome).length

/-- Takes credit of a colour at an element (R295). -/
def State.spendCredit (s : State) (e c n : Nat) : State :=
  let el := s.elem e
  let cr := tget ⟨0, 0⟩ el.credits c
  s.setElem e { el with credits := tset ⟨0, 0⟩ el.credits c { cr with units := cr.units - n } }

/-- INFLT after a firing that consumes and sends tokens: an expanding firing spends credit that INFLT already counts (R294, R295). -/
def State.settle (s : State) (e c consumed sent : Nat) : State :=
  if consumed < sent then s.spendCredit e c (sent - consumed) else s.inflDown c (consumed - sent)

/-- INFLT at the issue of a request whose operand tokens can come back: an expansion is paid, a decrease is reported when they are gone (R295,
R297). -/
def State.settleHeld (s : State) (e c consumed sent : Nat) : State := if consumed < sent then s.spendCredit e c (sent - consumed) else s

/-- ELATCH for a node with XL set (R282). -/
def State.latch (s : State) (f : Firing) (o : Ops) (bits : BitVec 8) : State :=
  if bit o.fl 10 then s.setElem f.e ((s.elem f.e).capture s.cycle f.tag f.slot bits) else s

/-- Hands a firing to its unit: its results leave after `lat` cycles (R276). -/
def State.toUnit (s : State) (f : Firing) (lat : Nat) (outs : List Out) : State :=
  { s with fab := { s.fab with units := s.fab.units ++ [⟨f.e, f.ctx, f.slot, f.tag, s.cycle + lat, 0, none, outs, none, [], []⟩] },
           focus := .thread 0 }

/-- A firing whose results are scalar tokens is done issuing. -/
def State.fire (s : State) (f : Firing) (o : Ops) (lat : Nat) (outs : List Out) (bits : BitVec 8) : State :=
  ((s.latch f o bits).settle f.e (tagCol f.tag) f.count (outCount outs)).toUnit f lat outs

/-- Runs a computation over the operand values of a word, in either form: on a steward the result goes to wD and its bits to STATUS,
and the thread's next word runs after the latency (R157; a DESIGN CHOICE for integer words, log entry 106); in the fabric it leaves as tokens (R20 to R22, R77, R108, R132). -/
def State.compute (s : State) (o : Ops) (lat : Nat) (vals : List Val) (r : Word × BitVec 8) : State :=
  match s.focus with
  | .thread t => s.setThread t { (((s.thread t).setDest (stewDest o.t0) r.1).sticky r.2).advance with busy := s.cycle + lat }
  | .node f =>
    let q := sbResult (sbOr (vals.map fun x => x.sb)) r
    s.fire f o lat (outBoth o ⟨0, q.2, .scalar, q.1, none, f.tag, []⟩) q.2

/-- A computation of one operand. -/
def State.compute1 (s : State) (o : Ops) (lat : Nat) (g : Word → Word × BitVec 8) : State :=
  let a := s.opVal o.ty o.imm o.a
  s.compute o lat [a] (g a.v)
/-- A computation of two operands. -/
def State.compute2 (s : State) (o : Ops) (lat : Nat) (g : Word → Word → Word × BitVec 8) : State :=
  let a := s.opVal o.ty o.imm o.a
  let b := s.opVal o.ty o.imm o.b
  s.compute o lat [a, b] (g a.v b.v)
/-- A computation of three operands. -/
def State.compute3 (s : State) (o : Ops) (lat : Nat) (g : Word → Word → Word → Word × BitVec 8) : State :=
  let a := s.opVal o.ty o.imm o.a
  let b := s.opVal o.ty o.imm o.b
  let c := s.opVal o.ty o.imm o.c
  s.compute o lat [a, b, c] (g a.v b.v c.v)

end Sys2Proof.Machine
end

