-- ==== Sys2Proof/Machine/Windows.lean ====
section
/-! DEFINITION. The windows of an address space: the partition control window (R287, R288), the configuration space and its aperture
(R283, R313, R326, R347) and the launch window (R414, R415). -/

namespace Sys2Proof.Machine

/-- Doublewords of a list of bytes or of a wide value. -/
def dword {n : Nat} (w : BitVec n) (j : Nat) : Word := fld w (64 * j) 64

/-- A colour table entry as 512 bits (Table 9.1). -/
def Colour.entry (c : Colour) : BitVec 512 :=
  pack 512 [(480, 32, c.inflt), (416, 32, c.sentlim), (392, 24, c.window), (388, 4, c.cprio), (376, 12, c.cap), (344, 32, c.quota),
    (312, 32, c.basinlen), (248, 64, c.basin.toNat), (184, 64, c.seed.toNat), (164, 20, c.pasid), (148, 16, c.asid), (140, 8, c.keyslot),
    (128, 7, c.owner)]

/-! ### Partition control window (Table 9.2) -/

/-- A doubleword of the partition control window at an offset. -/
def State.ctlRead (s : State) (p off : Nat) : Word :=
  if off < 0x2000 then tget 0 (s.part p).bind (off / 8)
  else if 0x10000 ≤ off ∧ off < 0x50000 then
    let c := (off - 0x10000) / 64
    if colIn (s.part p).desc c then dword (s.colour c).entry (off / 8 % 8) else 0
  else 0

/-- A binding value that R288 admits. -/
def bindOk (d : BitVec 512) (v : Word) : Bool := nfld v 13 51 == 0 && (!bit v 12 || colIn d (nfld v 0 12))
/-- Writes a binding entry, or refuses it (R288). -/
def State.setBind (s : State) (p i : Nat) (v : Word) : Option State :=
  if i < 1024 && bindOk (s.part p).desc v then some (s.setPart p { s.part p with bind := tset 0 (s.part p).bind i v }) else none
/-- A store into the partition control window; none traps as PROTECTION. -/
def State.ctlWrite (s : State) (p off : Nat) (v : Word) : Option State := if off < 0x2000 then s.setBind p (off / 8) v else none

/-! ### Configuration space (Table 11.2) -/

/-- What a configuration address names. -/
inductive CfgReg where
  | elatch (e : Nat)
  | retcnt (e : Nat)
  /-- Heat entry and half. -/
  | heat (p i h : Nat)
  | kreg (e c n : Nat)
  | reserved
  deriving DecidableEq, Repr

/-- Decodes a configuration address. -/
def cfgReg (a : Nat) : CfgReg :=
  if 0x1000000 ≤ a ∧ a < 0x1000000 + 18432 then .elatch ((a - 0x1000000) / 8)
  else if 0x1008000 ≤ a ∧ a < 0x1008000 + 18432 then .retcnt ((a - 0x1008000) / 8)
  else if 0x2000000 ≤ a ∧ a < 0x2000000 + 80 * 0x4000 then
    .heat ((a - 0x2000000) / 0x4000) (a % 0x4000 / 16) (a % 16 / 8)
  else if 0x1000000000 ≤ a ∧ a < 0x1000000000 + 72 * 0x100000 then
    .kreg ((a - 0x1000000000) / 0x2000 / 4) ((a - 0x1000000000) / 0x2000 % 4) (a % 0x2000 / 8)
  else .reserved

/-- Reads a configuration register; none raises PROTECTION. The flag says that the line is poisoned. -/
def State.cfgRead (s : State) (a : Nat) : Option (Word × Bool) :=
  match cfgReg a with
  | .elatch e => some ((s.elem e).elatch, false)
  | .retcnt e => some ((s.elem e).retcnt.zeroExtend 64, false)
  | .heat p i h => some (dword (tget 0 s.mem.heat (1024 * p + i)) h, false)
  | .kreg e c n => if regExists (s.ctx e c).partwd n then some (s.kreg e c n) else none
  | .reserved => some (0, false)

/-- A write to ELATCH sets WATCH and V and clears every other field (R283). -/
def elatchWritten (v : Word) : Word := pack 64 [(63, 1, nfld v 63 1), (0, 5, nfld v 0 5)]
/-- The firings with XL that came to ELATCH in this cycle. -/
def Elem.shownNow (el : Elem) (now : Nat) : List Word := if el.shown.1 = now + 1 then el.shown.2 else []
/-- Writes ELATCH; the captures of the cycle are made against what is written (R283). -/
def State.setElatch (s : State) (e : Nat) (v : Word) : State :=
  s.setElem e { s.elem e with elatch := ((s.elem e).shownNow s.cycle).foldl latched (elatchWritten v) }
/-- A write to a heat entry clears it (R347). -/
def State.clearHeat (s : State) (p i : Nat) : State := { s with mem := { s.mem with heat := tset 0 s.mem.heat (1024 * p + i) 0 } }

/-- Writes a configuration register; none raises PROTECTION (R313, R326). -/
def State.cfgWrite (s : State) (a : Nat) (v : Word) : Option State :=
  match cfgReg a with
  | .elatch e => some (s.setElatch e v)
  | .retcnt _ => none
  | .heat p i _ => some (s.clearHeat p i)
  | .kreg e c n => if regExists (s.ctx e c).partwd n then some (s.setKreg e c n v) else none
  | .reserved => none

/-- A steward of the partition may reach the address through its aperture (R326). -/
def State.cfgMine (s : State) (p a : Nat) : Bool :=
  let d := (s.part p).desc
  match cfgReg a with
  | .elatch e => inRect d e
  | .retcnt e => inRect d e
  | .heat _ _ _ => true
  | .kreg e c _ => inRect d e && bit (pCtxmask d) c
  | .reserved => false

/-! ### Launch window (Table 16.1) -/

/-- A doubleword of the launch window. -/
def State.launchRead (s : State) (p off : Nat) : Word :=
  let q := s.qslot (off / 0x4000); let o := off % 0x4000
  if !(q.v && q.part == p) then 0
  else if o = 0 then q.head.zeroExtend 64
  else if o = 8 then q.take.zeroExtend 64
  else if o = 0x10 then q.adone.zeroExtend 64
  else if o = 0x18 then (q.vq.zeroExtend 64) ||| 0x10000
  else if 0x40 ≤ o ∧ o < 0x440 then BitVec.ofNat 64 (ofBytes (mgetN q.answers (o - 0x40) 8))
  else if 0x2000 ≤ o then BitVec.ofNat 64 (ofBytes (mgetN q.records (o - 0x2000) 8))
  else 0

/-- Writes host memory of a PASID. -/
def State.hostWrite (s : State) (pasid a : Nat) (l : List Byte) : State :=
  { s with mem := { s.mem with host := msetN s.mem.host (2 ^ 57 * pasid + a) l } }

/-- The hub firmware writes an answer to a queue's completion ring and signals its vector; a closed queue's answers are not written (R446, R450). -/
def State.answerRing (s : State) (n : Nat) (bytes : List Byte) : State :=
  let v := s.vq n
  let f := s.vf (n / 1024)
  let len := nfld v.ctl 0 16
  let s1 := if v.closed then s else s.hostWrite f.pasid (v.cmplbase.toNat + 16 * (v.cmpl.toNat % (if len = 0 then 1 else len))) bytes
  let s2 := s1.setVq n { v with cmpl := v.cmpl + 1 }
  if v.closed then s2 else s2.setVf (n / 1024) { f with msixPend := f.msixPend ||| (1 <<< nfld v.ctl 32 6) }
/-- The hub firmware copies answers up to ADONE to the completion ring and signals the queue's vector (R415, R446). -/
def State.copyAnswers (s : State) (qi : Nat) : Nat → State
  | 0 => s
  | n + 1 =>
    let q := s.qslot qi
    if q.copied = q.adone then s
    else
      ((s.answerRing q.vq.toNat (mgetN q.answers (16 * (q.copied.toNat % 64)) 16)).setQslot qi { q with copied := q.copied + 1 }).copyAnswers qi n

/-- Writes TAKE (R415). -/
def State.setTake (s : State) (q : Nat) (v : Word) : State := s.setQslot q { s.qslot q with take := v.truncate 32 }
/-- Writes ADONE; the hub firmware then copies the answers (R415). -/
def State.setAdone (s : State) (q : Nat) (v : Word) : State := (s.setQslot q { s.qslot q with adone := v.truncate 32 }).copyAnswers q 64

/-- A store into the launch window; none traps as PROTECTION (R414). -/
def State.launchWrite (s : State) (p off : Nat) (v : Word) : Option State :=
  let qi := off / 0x4000; let q := s.qslot qi; let o := off % 0x4000
  if !(q.v && q.part == p) then none
  else if o = 8 then some (s.setTake qi v)
  else if o = 0x10 then some (s.setAdone qi v)
  else if 0x40 ≤ o ∧ o < 0x440 then some (s.setQslot qi { q with answers := msetN q.answers (o - 0x40) (bvBytes v 8) })
  else none

/-! ### A steward's window accesses -/

/-- The windows of a virtual address. -/
inductive Window where
  | control (off : Nat)
  | aperture (a : Nat)
  | launch (off : Nat)
  | none
  deriving DecidableEq, Repr

/-- The window that a virtual address lies in (R287, R326, R414). -/
def windowOf (va : Nat) : Window :=
  if va / 2 ^ 48 = 0x1FF ∧ va % 2 ^ 48 < 0x80000 then .control (va % 2 ^ 48)
  else if va / 2 ^ 48 = 0x1FE ∧ va % 2 ^ 48 < 2 ^ 44 then .aperture (va % 2 ^ 48)
  else if va / 2 ^ 48 = 0x1FD ∧ va % 2 ^ 48 < 0xC0000 then .launch (va % 2 ^ 48)
  else .none

/-- Reads through a window: the value, or the trap code. -/
def State.windowRead (s : State) (p : Nat) (w : Window) : Except Nat Word :=
  match w with
  | .control off => .ok (s.ctlRead p off)
  | .aperture a => if s.cfgMine p a then (match s.cfgRead a with
      | some (v, bad) => if bad then .error cPoison else .ok v
      | none => .error cProtection) else .error cProtection
  | .launch off => .ok (s.launchRead p off)
  | .none => .error cProtection

/-- Writes through a window. -/
def State.windowWrite (s : State) (p : Nat) (w : Window) (v : Word) : Option State :=
  match w with
  | .control off => s.ctlWrite p off v
  | .aperture a => if s.cfgMine p a then s.cfgWrite a v else none
  | .launch off => s.launchWrite p off v
  | .none => none

/-! ### The same writes as events -/

/-- BINDING_STORE (R288): a store of a supervisor thread to a binding entry. -/
def execBindingStore (t i : Nat) (v : Word) (s : State) : Res :=
  .next (match s.setBind (s.partOfThread t) i v with
    | some s' => s'
    | none => s.trapAt t cProtection (0x01FF000000000000 + 8 * i))

/-- CONFIG_REGISTER_WRITE (R326): a write through a thread's aperture. -/
def execConfigRegisterWrite (t a : Nat) (v : Word) (s : State) : Res :=
  .next (match s.windowWrite (s.partOfThread t) (.aperture a) v with
    | some s' => s'
    | none => s.trapAt t cProtection (0x01FE000000000000 + a))

/-- ELATCH_WRITE (R283). -/
def execElatchWrite (e : Nat) (v : Word) (s : State) : Res := .next (if e < 2304 then s.setElatch e v else s)

/-- RETCNT_WRITE (R313): raises PROTECTION and changes nothing. -/
def execRetcntWrite (t e : Nat) (s : State) : Res := .next (s.trapAt t cProtection (0x01FE000001008000 + 8 * e))

/-- HEAT_ENTRY_CLEAR (R347). -/
def execHeatEntryClear (pnum i : Nat) (s : State) : Res := .next (s.clearHeat pnum i)

/-- TAKE_WRITE (R419). -/
def execTakeWrite (q : Nat) (v : Word) (s : State) : Res := .next (if q < 48 then s.setTake q v else s)

/-- ADONE_WRITE (R415). -/
def execAdoneWrite (q : Nat) (v : Word) (s : State) : Res := .next (if q < 48 then s.setAdone q v else s)

end Sys2Proof.Machine
end

