-- ==== Sys2Proof/Machine/Colours.lean ====
section
/-! DEFINITION. Tokens of a colour as a whole: removal, parking and return (07 R241 to R245, 09 R296, R306, 15 R406), freeing of a
context slot (R253), basins (R300, R301) and the reset of a partition (R444). -/

namespace Sys2Proof.Machine

/-! ### Slots -/

/-- A slot emptied by a read (Table 10.3); a renewal of it stops (R321). -/
def Slot.freed (q : Slot) : Slot := { q with full := false, data := false, exp := false, kept := false, warned := false, granted := false, renew := none }
/-- A slot emptied by BFFR, DROP or PURGE (Table 10.3). -/
def Slot.wiped (q : Slot) : Slot := { q.freed with stamp := 0 }

/-- Remaining life of a slot (R315). -/
def Slot.remain (q : Slot) (now : BitVec 32) : Nat := if q.data && !q.exp && (q.stamp - now).toNat ≤ 400 then (q.stamp - now).toNat else 0
/-- The stamp has been reached and nothing, a b2m copy or a renewal in progress, holds the slot back from expiring (R315); a kept slot never
expires (R320). -/
def Slot.runOut (q : Slot) (copying : Bool) (now : BitVec 32) : Bool :=
  q.data && !q.exp && !copying && q.renew.isNone && !q.kept && ((q.stamp - now).toNat == 0 || decide (400 < (q.stamp - now).toNat))
/-- The slot after its stamp has been looked at. -/
def Slot.age (q : Slot) (copying : Bool) (now : BitVec 32) : Slot := if q.runOut copying now then { q with exp := true } else q
/-- The request runs, or waits to (R242). -/
def Engine.busy (g : Engine) : Bool := match g.state with | .suspended => false | .stopped => false | _ => true
/-- The request is a b2m copy of a slot (R230). -/
def Engine.copies (g : Engine) (e c b i : Nat) : Bool := g.opc == 0xD0 && nfld g.pkt 224 2 == 2 && g.e == e && nfld g.pkt 270 2 == c && g.bslot == some (b, i)
/-- A b2m copy of the slot is in progress; a suspended or stopped one is not (R315, R433). -/
def State.copying (s : State) (e c b i : Nat) : Bool := s.port.engines.any fun g => g.busy && g.copies e c b i
/-- Looks at the stamp of a slot. -/
def State.ageSlot (s : State) (e c b i : Nat) : State := s.modSlot e c b i fun q => q.age (s.copying e c b i) (s.elem e).retcnt
/-- A copy is no longer in progress: its source slot expires if its stamp has been reached (R315, R433). -/
def State.copyStops (s : State) (g : Engine) : State :=
  match g.bslot with
  | some (b, i) => if g.opc = 0xD0 ∧ nfld g.pkt 224 2 = 2 then s.ageSlot g.e (nfld g.pkt 270 2) b i else s
  | none => s
/-- A renewal of the slot ends: unless it has been stopped, it has its stamp (R315, R321). -/
def Slot.renewed (q : Slot) : Slot := match q.renew with | some st => { q with stamp := st, renew := none } | none => q
/-- Ends the renewal of slots, and looks at their stamps. -/
def State.renewAll (s : State) (e c : Nat) (l : List (Nat × Nat)) : State :=
  l.foldl (fun (s : State) q => (s.modSlot e c q.1 q.2 Slot.renewed).ageSlot e c q.1 q.2) s

/-- NL or PZ: the reference names no slot (R26). -/
def sbDeadRef (sb : BitVec 8) : Bool := bit sb 6 || bit sb 5
/-- The token is a reference that names a slot (R26). -/
def Token.isRef (t : Token) : Bool := t.kind == .ref && !sbDeadRef t.sb
/-- The element whose slot a reference names: where it lies, or the element that sent it to another one (R26, R241). -/
def Token.home (t : Token) : Option Nat :=
  match t.place with
  | .mesh _ src => if src < 2304 then some src else t.elem
  | .foreign src => if src < 2304 then some src else t.elem
  | _ => t.elem
/-- A token refers to a slot of an element's context slot. -/
def Token.refers (t : Token) (e c b n : Nat) : Bool :=
  t.isRef && tagCtx t.tag == c && t.home == some e && refBuf t.pay == b && refSlot t.pay == n
/-- A reference to the slot lies somewhere (R241): in a token, a waiting engine request, or a result on its way out of a unit. -/
def State.slotReferred (s : State) (e c b n : Nat) : Bool :=
  let res := fun x : Out => x.kind == .ref && !sbDeadRef x.sb && refBuf x.pay == b && refSlot x.pay == n
  s.fab.tokens.any (fun u => u.refers e c b n) || s.fab.units.any (fun u => u.e == e && u.ctx == c && u.outs.any res) ||
  (s.port.engines.any fun g => g.ops.any fun x => match x.2 with | some u => u.refers e c b n | none => false) ||
  (s.port.linkOut.any fun g => g.ops.any fun x => match x.2 with | some u => u.refers e c b n | none => false) ||
  s.port.accesses.any fun a => a.ops.any fun x => match x.2 with | some u => u.refers e c b n | none => false
/-- The operand tokens of a request that go back to their element, parked (R244, R262). -/
def recalled (ops : Tbl (Option Token)) : List Token := ops.filterMap fun x => x.2.map fun t => { t with parked := true }
/-- Empties the slots to which removed references referred and no remaining one does (R241). -/
def State.wipeSlots (s : State) : List Token → State
  | [] => s
  | t :: ts =>
    let s1 := match t.home with
      | some e => if t.isRef && !s.slotReferred e (tagCtx t.tag) (refBuf t.pay) (refSlot t.pay) then
          s.modSlot e (tagCtx t.tag) (refBuf t.pay) (refSlot t.pay) Slot.wiped else s
      | none => s
    s1.wipeSlots ts

/-! ### Basins (R300 to R302) -/

/-- The basin entry of a token (Table 9.4). -/
def Token.basinEntry (t : Token) : BitVec 256 :=
  let d := match t.dst with
    | .node e n p => [(77, 7, n), (75, 2, p), (69, 6, e % 48), (63, 6, e / 48)]
    | .exit x => [(84, 1, 1), (59, 4, x)]
    | .pelem _ => []
  pack 256 ([(192, 64, t.pay.toNat), (128, 64, t.tag.toNat), (96, 32, t.seq), (88, 8, t.sb.toNat), (86, 2, b2n (t.kind == .ref)),
    (85, 1, b2n t.parked), (0, 1, 1)] ++ d)
/-- Virtual address of an entry of a colour's basin. -/
def Colour.basinAt (c : Colour) (i : Nat) : Nat := (c.basin.toNat + 32 * i) % 2 ^ 64
/-- Writes an entry of a basin: the state, or the code of the failed access and its address (R301). -/
def State.basinStore (s : State) (c i : Nat) (w : BitVec 256) : Except (Nat × Nat) State :=
  let col := s.colour c
  let va := col.basinAt i
  if windowOf va != .none then .error (cProtection, va) else match s.walkPlain col.asid va true with
  | .ok x => if x.cv then .error (cProtection, va) else .ok (s.setMem (s.mem.write (s.keyFor (s.partOfCol c) x va col.keyslot) (x.phys va) (bvBytes w 32)))
  | .fail k => .error (if k = 2 then cProtection else cTranslation, va)
  | .nowhere _ => .error (cTranslation, va)
/-- The first basin access that fails when the entries of tokens are written: colour, and code and address (R301). -/
def State.basinFails (s : State) : List Token → Option (Nat × Nat × Nat)
  | [] => none
  | t :: ts => match t.place.basinAt with
    | some i => match s.basinStore (tagCol t.tag) i 0 with
      | .ok _ => s.basinFails ts
      | .error x => some (tagCol t.tag, x.1, x.2)
    | none => s.basinFails ts
/-- Sets P in the basin entries of tokens that are parked where they lie (R300, R310). -/
def State.basinPark (s : State) : List Token → State
  | [] => s
  | t :: ts =>
    let s1 := match t.place.basinAt with
      | some i => match s.basinStore (tagCol t.tag) i { t with parked := true }.basinEntry with | .ok s1 => s1 | .error _ => s
      | none => s
    s1.basinPark ts
/-- Clears V of the basin entries of removed tokens (R306). -/
def State.basinClear (s : State) : List Token → State
  | [] => s
  | t :: ts =>
    let s1 := match t.place.basinAt with
      | some i => match s.basinStore (tagCol t.tag) i 0 with | .ok s1 => s1 | .error _ => s
      | none => s
    s1.basinClear ts
/-- The lowest free entry of a colour's basin. -/
def State.basinFree (s : State) (c : Nat) : Nat :=
  let used := s.fab.tokens.filterMap fun t => match t.place.basinAt with | some i => if tagCol t.tag == c then some i else none | none => none
  (firstKey (fun i => !used.contains i) 0 (used.length + 1)).getD 0

/-! ### Removal (R241, R242) -/

/-- Removes the tokens that a test selects; what they leave in slots, basins and the count follows. -/
def State.removeTokens (s : State) (c : Nat) (p : Token → Bool) : State × List Token :=
  let gone := s.fab.tokens.filter p
  let s1 := s.setTokens (s.fab.tokens.filter fun t => !p t)
  (((s1.basinClear gone).wipeSlots gone).inflDown c gone.length, gone)

/-- Ends accesses: their started counts fall, and the tokens that they stand for leave the count. -/
def State.endAccesses (s : State) (c : Nat) : List Access → State
  | [] => s
  | a :: l => ((s.endStarted a.started).inflDown c a.outs).endAccesses c l

/-- An accumulator with OWNER none and its GROUP and ASB discarded (R178); DATA lies in the pool. -/
def Acc.purged (a : Acc) : Acc := { a with owner := none, gleft := 0, partials := [], ascale := 0, bscale := 0, asb := 0 }
/-- Releases the accumulators of a context slot whose owner a test selects (R178). -/
def Ctx.purgeAccs (x : Ctx) (p : Word → Bool) : Ctx :=
  let hit := fun a : Acc => match a.owner with | some t => p t | none => false
  { x with accs := x.accs.filterMap fun a => if hit a.2 then (if a.2.purged = Acc.reset then none else some (a.1, a.2.purged)) else some a }
/-- Applies a function to every context slot of an element. -/
def Elem.mapCtx (el : Elem) (f : Ctx → Ctx) : Elem := { el with ctxs := [0, 1, 2, 3].foldl (fun t c => tmod Ctx.reset t c f) el.ctxs }

/-- Walks of XLAT firings that a PURGE covers (R293). -/
def Walk.purged (k : SysKind) (w : Walk) : Bool := match w.who with | .xlat outs => outs.any fun o => k.covers o.tag | .access _ => false
/-- Tokens that the result of a walk will be. -/
def Walk.outs (w : Walk) : Nat := match w.who with | .xlat outs => outCount outs | .access _ => 0
/-- Load and iteration of an XLAT firing that walks. -/
def State.walkHit (s : State) (w : Walk) : Word × Nat :=
  match w.who with
  | .xlat (o :: _) => (s.loadidAt w.e (tagCtx o.tag), tagIter o.tag)
  | _ => (0, 0)

/-- What a PURGE removes at one element, at one cycle boundary (R242): the state, the number removed as INFLT counts it, and the load and
iteration of each thing removed. -/
def State.purgeAt (s : State) (k : SysKind) (c e : Nat) : State × Nat × List (Word × Nat) :=
  let r := s.removeTokens c fun t => t.elem == some e && k.covers t.tag && (match t.place with | .mesh _ _ => false | _ => true)
  let s1 := r.1
  let js := s1.fab.joins.filter fun j => j.e == e && k.covers j.tag
  let ends := fun x : Stream => x.e == e && k.covers x.tag && (match k with | .purge v _ _ _ _ => v != 2 | _ => false)
  let ss := s1.fab.streams.filter ends
  let as := s1.port.accesses.filter fun a => a.e == e && k.covers a.tag
  let walks := fun w : Walk => w.e == e && w.purged k
  let ws := s1.port.walks.filter walks
  let nw := ws.foldl (fun n w => n + w.outs) 0
  let s2 := { s1 with
    fab := { s1.fab with joins := s1.fab.joins.filter fun j => !(j.e == e && k.covers j.tag), streams := s1.fab.streams.filter fun x => !ends x },
    port := { s1.port with accesses := s1.port.accesses.filter (fun a => !(a.e == e && k.covers a.tag)), walks := s1.port.walks.filter fun w => !walks w } }
  let s3 := (s2.inflDown c (js.length + ss.length + nw)).endAccesses c as
  let s4 := s3.setElem e ((s3.elem e).mapCtx fun x => x.purgeAccs fun t => k.covers t)
  (s4, r.2.length + js.length + ss.length + nw + as.foldl (fun n a => n + a.outs) 0,
    (r.2.map fun t => (t.load, tagIter t.tag)) ++ (js.map fun j => (j.load, tagIter j.tag)) ++ (ss.map fun x => (x.load, tagIter x.tag)) ++
      (as.map fun a => (a.load, tagIter a.tag)) ++ ws.map s1.walkHit)

/-- The parts of a range outside another (R18). -/
def rangeMinus (lo hi a b : Nat) : List (Nat × Nat) :=
  let n := age lo hi
  let x := age lo a; let y := age lo b
  let at_ := fun d => (lo + d) % iterMod
  if x ≤ y then
    if n < x then [(lo, hi)]
    else (if 0 < x then [(lo, at_ (x - 1))] else []) ++ (if y < n then [(at_ (y + 1), hi)] else [])
  else if y + 1 < x && y < n then [(at_ (y + 1), at_ (if x - 1 < n then x - 1 else n))] else []
/-- Lifts the parks of a colour over a range (R241, R245). -/
def liftRange (c lo hi : Nat) (l : List Park) : List Park :=
  (l.map fun p => if p.col == c then (rangeMinus p.lo p.hi lo hi).map fun r => { p with lo := r.1, hi := r.2 } else [p]).flatten
/-- Lifts the parks that a PURGE covers. -/
def SysKind.lift (k : SysKind) (l : List Park) : List Park :=
  match k with
  | .purge 0 c _ _ _ => l.filter fun p => p.col != c
  | .purge 1 c g _ _ => l.map fun p => if p.col == c then { p with lifted := g :: p.lifted } else p
  | .purge _ c _ lo hi => liftRange c lo hi l
  | _ => l

/-- Returns the unspent credit of a colour at every element (R296, R306). -/
def State.returnCredit (s : State) (c : Nat) : State :=
  let n := s.fab.elems.foldl (fun m e => m + (tget ⟨0, 0⟩ e.2.credits c).units) 0
  let clear := fun e : Nat × Elem =>
    let el := { e.2 with credits := tset ⟨0, 0⟩ e.2.credits c ⟨0, 0⟩ }
    if el = Elem.reset then none else some (e.1, el)
  let s1 : State := { s with fab := { s.fab with elems := s.fab.elems.filterMap clear } }
  s1.inflDown c n

/-- Every iteration of a round lies in a range. -/
def Round.within (r : Round) (lo hi : Nat) : Bool :=
  (rangeFrom 0 r.nr).all fun d => inRange lo hi ((r.rbase + d) % iterMod)
/-- Some iteration of a round lies in a range. -/
def Round.meets (r : Round) (lo hi : Nat) : Bool :=
  (rangeFrom 0 r.nr).any fun d => inRange lo hi ((r.rbase + d) % iterMod)
/-- An iteration lies in a round. -/
def Round.holds (r : Round) (i : Nat) : Bool := decide (age r.rbase i < r.nr)

/-- Ends the started counts of stores that are discarded. -/
def State.endStores (s : State) : List Store → State
  | [] => s
  | st :: l => (s.endStarted st.started).endStores l
/-- Discards the stores that a test selects. -/
def State.dropStores (s : State) (p : Store → Bool) : State :=
  let gone := s.port.stores.filter p
  ({ s with port := { s.port with stores := s.port.stores.filter fun x => !p x } }).endStores gone

/-- Tag of a packet in a link queue. -/
def LinkPkt.tag (x : LinkPkt) : Word := fld x.head 0 64
/-- Colour and tag of an engine request. -/
def Engine.tag (g : Engine) : Word := fld g.pkt 0 64

/-- Moves O and NEXT past a purged range, or has them set afresh (R145, R243), once every element has acknowledged; a hold whose iteration NEXT
then is becomes a candidate (R121; DESIGN CHOICE, log entry 89). -/
def State.moveOldest (s : State) (k : SysKind) : State :=
  match k with
  | .purge 0 c _ _ _ =>
    { s with fab := { s.fab with colLoads := s.fab.colLoads.map fun x => if x.col == c then { x with oldest := none } else x,
                                 bars := s.fab.bars.filter fun b => b.col != c },
             port := { s.port with agens := s.port.agens.filter fun g => g.col != c } }
  | .purge 2 c _ lo hi =>
    let nxt := (hi + 1) % iterMod
    let mv := fun x : ColLoad =>
      if x.col == c then { x with oldest := x.oldest.map fun o => if inRange lo hi o then nxt else o, next := if inRange lo hi x.next then nxt else x.next } else x
    { s with fab := { s.fab with colLoads := s.fab.colLoads.map mv,
                                 bars := s.fab.bars.map fun b => if b.col == c && inRange lo hi b.next then { b with next := nxt } else b } }
  | _ => s

/-- Withdraws what waits in link queues, where a test of tag and load selects it: its operand tokens lie parked at their element (R244). -/
def State.parkLinks (s : State) (hit : Word → Word → Bool) : State × Nat :=
  let waits := fun x : LinkPkt => x.counted && hit x.tag x.load
  let ts := ((s.port.linkOut.filter waits).map fun x => recalled x.ops).flatten
  ({ s.setTokens (s.fab.tokens ++ ts) with port := { s.port with linkOut := s.port.linkOut.filter fun x => !waits x } }, ts.length)
/-- Closes the rounds that a PURGE closes, and discards their stores (R241, R243, R406). The tokens of other generations that lie in a round
which a PURGE.gen closes are parked as under R344, wherever they are; those of the load's entry generation that are sent later are the replay's
(R407; log entry 93). Read-ahead of what it closes or covers is discarded (R344, R388). -/
def State.closeRounds (s : State) (k : SysKind) (c : Nat) (hits : List (Word × Nat)) : State :=
  let covered := s.port.stores.filter fun st => k.covers st.tag
  let mine := fun (r : Round) (st : Store) => st.col == r.col && st.load == r.load && st.rbase == r.rbase
  let gone := fun r : Round => r.col == c && r.state != .committed && (match k with
    | .purge 0 _ _ _ _ => true
    | .purge 1 _ _ _ _ => hits.any (fun x => x.1 == r.load && r.holds x.2) || covered.any (mine r)
    | .purge _ _ _ lo hi => r.within lo hi
    | _ => false)
  let loses := fun r : Round => gone r || (r.col == c && r.state != .committed && (match k with | .purge 2 _ _ lo hi => r.meets lo hi | _ => false))
  let lost := s.fab.rounds.filter loses
  let closed := s.fab.rounds.filter gone
  let ahead := fun h : Ahead => h.col == c && ((closed.any fun r => r.load == s.loadidAt h.e h.ctx && r.holds h.iter) || (match k with
    | .purge 0 _ _ _ _ => true
    | .purge 2 _ _ lo hi => inRange lo hi h.iter
    | _ => false))
  let s1 := (s.dropStores fun st => lost.any fun r => mine r st).dropAhead ahead
  let rest := fun r : Round => !gone r && !(match k with | .purge 0 _ _ _ _ => r.col == c | _ => false)
  let s2 : State := { s1 with fab := { s1.fab with rounds := s1.fab.rounds.filter rest } }
  match k with
  | .purge 1 _ g _ _ => closed.foldl (fun (s : State) r =>
      let in_ := fun (tag load : Word) => tagCol tag == c && load == r.load && r.holds (tagIter tag)
      let s' := (s.parkRange (s.partOfCol c) c r.rbase ((r.rbase + r.nr + iterMod - 1) % iterMod) (some r.load)).parkLinks in_ |>.1
      { s' with fab := { s'.fab with
          tokens := s'.fab.tokens.map fun t => if in_ t.tag t.load && t.place.onWay && tagGen t.tag != g then { t with parked := true } else t,
          parks := match s'.fab.parks with
          | p :: ps => { p with lifted := [g, (s.colLoad c r.load).egen.toNat] } :: ps
          | [] => [] } }) s2
  | _ => s2

/-- The rest of a PURGE, once every element has been reached: everything covered that is left anywhere, and rounds, stores, suspended
engine requests, parks and credit (R241 to R243, R306). The number removed is added to what the elements removed. -/
def State.purgeRest (s : State) (k : SysKind) (c : Nat) (hits : List (Word × Nat)) : State × Nat :=
  let us := s.fab.units.filter fun u => k.covers u.tag
  let r := ({ s with fab := { s.fab with units := s.fab.units.filter fun u => !k.covers u.tag } } : State).removeTokens c fun t => k.covers t.tag
  let s1 := r.1
  let eng := s1.port.engines.filter fun g => k.covers g.tag
  let accs := s1.port.accesses.filter fun a => k.covers a.tag
  let ws := s1.port.walks.filter fun w => w.purged k
  let s2 := { s1 with
    fab := { s1.fab with parks := k.lift s1.fab.parks },
    port := { s1.port with engines := s1.port.engines.filter (fun g => !k.covers g.tag), accesses := s1.port.accesses.filter (fun a => !k.covers a.tag),
                           walks := s1.port.walks.filter fun w => !w.purged k } }
  let s3 := eng.foldl (fun (s : State) g => ((s.endStarted g.started).endStarted g.startedB).copyStops g) (s2.endAccesses c accs)
  let s4 := us.foldl (fun (s : State) u =>
    let s' := (match u.write with | some w => s.modSlot u.e u.ctx w.buf w.slot Slot.wiped | none => s).renewAll u.e u.ctx u.renews
    u.release.foldl (fun (s : State) q => s.modSlot u.e u.ctx q.1 q.2 Slot.freed) s') s3
  let s5 := eng.foldl (fun (s : State) g => match g.bslot with
    | some q =>
      let c := nfld g.pkt 270 2
      let dir := if g.opc = 0xD0 then nfld g.pkt 224 2 else 0
      if dir = 1 || (dir = 2 && g.held == 1 && g.state != .sent && !s.slotReferred g.e c q.1 q.2) then s.modSlot g.e c q.1 q.2 Slot.wiped else s
    | none => s) s4
  let colls := s5.port.colls.filter fun g => k.covers g.tag
  let pk := fun x : LinkPkt => x.counted && k.covers x.tag
  let ended := s5.port.linkOut.filter pk
  let s5b := colls.foldl (fun (s : State) g => s.modSlot g.e g.ctx g.dbuf g.dslot Slot.wiped)
    ({ s5 with port := { s5.port with
        colls := s5.port.colls.filter fun g => !k.covers g.tag,
        linkOut := s5.port.linkOut.filter fun x => !pk x } } : State)
  let s5c := s5b.wipeSlots ((eng.map fun g => recalled g.ops).flatten ++ (ended.map fun x => recalled x.ops).flatten)
  let n := us.foldl (fun n u => n + outCount u.outs) 0 + eng.foldl (fun n g => n + g.held) 0 + ws.foldl (fun n w => n + w.outs) 0 + colls.length +
    ended.length
  let it := fun (load tag : Word) => (load, tagIter tag)
  let more := (r.2.map fun t => it t.load t.tag) ++ (us.map fun u => it (s.loadidAt u.e u.ctx) u.tag) ++ (eng.map fun g => it g.load g.tag) ++
    (accs.map fun a => it a.load a.tag) ++ (ws.map s1.walkHit) ++ (colls.map fun g => it g.load g.tag) ++ ended.map fun x => it x.load x.tag
  let s6 := (s5c.inflDown c n).closeRounds k c (hits ++ more)
  let s7 := s6.moveOldest k
  let s8 := match k with
    | .purge 0 _ _ _ _ =>
      let s' := s7.returnCredit c
      let s'' := s'.setColour c { s'.colour c with inflt := 0 }
      { s'' with fab := { s''.fab with asks := s''.fab.asks.filter (fun a => a.col != c), passages := s''.fab.passages.filter fun x => x.1 != c } }
    | _ => s7
  (s8, r.2.length + n + accs.foldl (fun n a => n + a.outs) 0)

/-! ### Parking and return (R244, R245, R146) -/

/-- The tokens of a colour's range that a PARK marks. -/
def State.parkMoves (s : State) (c lo hi : Nat) : List Token :=
  s.fab.tokens.filter fun t => tagCol t.tag == c && inRange lo hi (tagIter t.tag) && !t.parked && !t.place.onWay
/-- Marks what the elements and queues hold of a colour's range parked, later arrivals too, sets P in the basin entries, and returns the
colour's credit; the number that this marks (R244, R293, R310). An ITER stream is covered where the tag of its start token is (R146; DEDUCED,
log entry 92). -/
def State.parkColour (s : State) (p c lo hi : Nat) : State × Nat :=
  let hit := fun tag : Word => tagCol tag == c && inRange lo hi (tagIter tag)
  let moves := fun t : Token => hit t.tag && !t.parked && !t.place.onWay
  let ts := s.parkMoves c lo hi
  let js := (s.fab.joins.filter fun j => hit j.tag && !j.parked).length
  let ss := (s.fab.streams.filter fun x => hit x.tag && !x.parked).length
  let s1 : State := { s with
    fab := { s.fab with
      parks := ⟨p, c, lo, hi, none, []⟩ :: s.fab.parks,
      tokens := s.fab.tokens.map fun t => if moves t then { t with parked := true } else t,
      joins := s.fab.joins.map fun j => if hit j.tag then { j with parked := true } else j,
      streams := s.fab.streams.map fun x => if hit x.tag then { x with parked := true } else x } }
  let r := s1.parkLinks fun tag _ => hit tag
  ((r.1.basinPark ts).returnCredit c, ts.length + js + ss + r.2)

/-- Where a parked token returns to (R245): a matching place anew, the element's input where it is a reference from elsewhere (R26), or the
place where it goes on waiting. Cycle 0 marks a token that returns: it goes before every later arrival, by its SEQ. -/
def Place.resumed (p : Place) (now : Nat) : Place :=
  match p with
  | .cand _ => .input 0
  | .entry _ => .input 0
  | .spill => .input 0
  | .bundle _ => .input 0
  | .basin _ => .input 0
  | .marked _ => .input 0
  | .emitWait => .input 0
  | .barHold => .input 0
  | .foreign src => .mesh now src
  | p => p
/-- An exit token returns to its exit queue. -/
def Token.back (t : Token) (now : Nat) (ctx : Option Nat) : Token :=
  let tag := match ctx with | some c => tagWithCtx t.tag c | none => t.tag
  let place := match t.dst, t.place with
    | .exit _, .basin _ => Place.exitIn 0 0
    | .exit _, .marked _ => Place.exitIn 0 0
    | _, p => p.resumed now
  { t with parked := false, tag := tag, place := place }
/-- Node state of a colour comes back to an element: where it held nothing of the colour, its sentinel count stands at 0 (R307). -/
def State.restState (s : State) (c : Nat) : List Nat → State
  | [] => s
  | e :: es => (s.touch e c).restState c es
/-- The parked tokens of a colour's range. -/
def State.parkedHits (s : State) (c lo hi : Nat) : List Token := s.fab.tokens.filter fun t => t.parked && tagCol t.tag == c && inRange lo hi (tagIter t.tag)
/-- Returns the parked tokens of a colour's range (R245): the park is lifted, and node state comes back; a stream is covered where the range
holds its start tag's iteration (DEDUCED, log entry 92). -/
def State.unparkColour (s : State) (c lo hi : Nat) (ctx : Option Nat) : State :=
  let at_ := fun tag : Word => tagCol tag == c && inRange lo hi (tagIter tag)
  let hit := fun t : Token => t.parked && at_ t.tag
  let back := ((s.fab.tokens.filter hit).foldl (fun l t => insertSeq t l) []).map fun t => t.back s.cycle ctx
  let js := s.fab.joins.filter fun j => j.parked && at_ j.tag
  let ss := s.fab.streams.filter fun x => x.parked && at_ x.tag
  let s0 := (s.basinClear (s.fab.tokens.filter hit)).restState c ((js.map fun j => j.e) ++ ss.map fun x => x.e)
  let re := fun tag : Word => match ctx with | some x => tagWithCtx tag x | none => tag
  { s0 with
    fab := { s0.fab with
      parks := liftRange c lo hi s0.fab.parks,
      tokens := s0.fab.tokens.filter (fun t => !hit t) ++ back,
      joins := s0.fab.joins.map fun j => if j.parked && at_ j.tag then { j with parked := false, tag := re j.tag } else j,
      streams := s0.fab.streams.map fun x => if x.parked && at_ x.tag then { x with parked := false, tag := re x.tag } else x } }

/-! ### Context slots (R253) -/

/-- A context slot emptied: words, buffers, accumulators, XLAT cache; only registers and PARTWD stay. -/
def State.emptyCtx (s : State) (e c : Nat) : State :=
  let x := s.ctx e c
  let had := x.words.any fun w => match w.2 with | some v => nfld v 120 8 == 0xB5 | none => false
  let s1 := s.setCtx e c { Ctx.reset with partwd := x.partwd, prio := x.prio }
  let s2 := if had then s1.setElem e { s1.elem e with xlat := [] } else s1
  { s2 with port := { s2.port with agens := s2.port.agens.filter fun g => !(g.e == e && g.ctx == c) } }
/-- Empties a context slot at every element of a list. -/
def State.emptyCtxs (s : State) (c : Nat) : List Nat → State
  | [] => s
  | e :: es => (s.emptyCtx e c).emptyCtxs c es

/-! ### Partition reset (R444, R457) -/

/-- A launch answer (R418). -/
def answerWord (launch data reason code status : Nat) : BitVec 128 :=
  pack 128 [(64, 64, launch), (32, 32, data), (24, 8, reason), (20, 4, code), (0, 8, status)]
/-- Writes answer n of a queue slot and advances ADONE past it; the hub firmware copies it (R415). -/
def State.writeAnswer (s : State) (qi n : Nat) (w : BitVec 128) : State :=
  let q := s.qslot qi
  let s1 := s.setQslot qi { q with answers := msetN q.answers (16 * (n % 64)) (bvBytes w 16), adone := BitVec.ofNat 32 (n + 1) }
  s1.copyAnswers qi 64
/-- Record n of a queue slot. -/
def State.recordOf (s : State) (qi n : Nat) : BitVec 1024 := BitVec.ofNat 1024 (ofBytes (mgetN (s.qslot qi).records (128 * (n % 64)) 128))
/-- Answers every published record that has no answer with POISON (R444). -/
def State.answerAll (s : State) (qi : Nat) : Nat → State
  | 0 => s
  | n + 1 =>
    let q := s.qslot qi
    if q.adone = q.head then s
    else (s.writeAnswer qi q.adone.toNat (answerWord (nfld (s.recordOf qi q.adone.toNat) 64 64) 0 0 cPoison 4)).answerAll qi n
/-- Withdraws the queue slots of a partition (R444). -/
def State.withdraw (s : State) (p : Nat) : List Nat → State
  | [] => s
  | q :: qs => (if (s.qslot q).v && (s.qslot q).part == p then ((s.answerAll q 64).setQslot q Qslot.reset) else s).withdraw p qs

/-- Elements of a partition's rectangle. -/
def rectElems (d : BitVec 512) : List Nat := (rangeFrom 0 2304).filter fun e => inRect d e
/-- Colours of a partition. -/
def partCols (d : BitVec 512) : List Nat := rangeFrom (pCol0 d) (pNcol d)
/-- Threads of a partition. -/
def partThreads (d : BitVec 512) : List Nat := (rangeFrom 0 64).filter fun t => bit (pCores d) (t / 4)

/-- Purges a list of colours whole. -/
def State.purgeAll (s : State) : List Nat → State
  | [] => s
  | c :: cs =>
    let k := SysKind.purge 0 c 0 0 0
    let js := s.fab.joins.filter fun j => k.covers j.tag
    let ss := s.fab.streams.filter fun x => k.covers x.tag
    let s1 : State := { s with fab := { s.fab with joins := s.fab.joins.filter (fun j => !k.covers j.tag), streams := s.fab.streams.filter fun x => !k.covers x.tag } }
    ((s1.inflDown c (js.length + ss.length)).purgeRest k c []).1.purgeAll cs
/-- Resets a list of colours to Table 9.1. -/
def State.resetColours (s : State) : List Nat → State
  | [] => s
  | c :: cs => (s.setColour c Colour.reset).resetColours cs
/-- Restarts a list of threads at the firmware entry (R258). -/
def State.restartThreads (s : State) (asid : Nat) : List Nat → State
  | [] => s
  | t :: ts =>
    let th := s.thread t
    (if th.started then s.setThread t { Thread.reset with started := true, image := th.image, asid := BitVec.ofNat 16 asid } else s).restartThreads asid ts

/-- Resets a partition (R444), its basins under key slot 0 (R451). Memory, regions, key slots, topology, groups and the kept records stay. -/
def State.resetPart (s : State) (p : Nat) : State :=
  let d := (s.part p).desc
  let s0 := (partCols d).foldl (fun (s : State) c => s.setColour c { s.colour c with keyslot := 0 }) s
  let s1 := s0.purgeAll (partCols d)
  let es := rectElems d
  let cs := (rangeFrom 0 4).filter fun c => bit (pCtxmask d) c
  let s2 := cs.foldl (fun (s : State) c => s.emptyCtxs c es) s1
  let s3 := s2.resetColours (partCols d)
  let x := s3.part p
  let s4 := s3.setPart p { x with bind := [], events := [], held := [], ring := [], order := [], claims := [], rows := [], poisons := [], mismatches := [], resident := [],
                                  cut := .idle, qarea := (0, 0, 0), qstart := 0 }
  let s5 : State := { s4 with
    fab := { s4.fab with loads := s4.fab.loads.filter (fun l => l.part != p), colLoads := s4.fab.colLoads.filter (fun x => !colIn d x.col),
                         offers := s4.fab.offers.filter (fun o => o.part != p), sysops := s4.fab.sysops.filter (fun o => o.part != p),
                         faults := s4.fab.faults.filter (fun f => f.part != p), parks := s4.fab.parks.filter (fun k => k.part != p),
                         dropped := s4.fab.dropped.filter fun l => l.1.part != p },
    host := { s4.host with launches := s4.host.launches.filter (fun l => l.part != p),
                           evicted := s4.host.evicted.filter (fun v => v.part != p), drains := s4.host.drains.filter fun x => !colIn d x.1 },
    port := { s4.port with shoots := s4.port.shoots.filter fun x => x.part != p },
    stew := { s4.stew with waiters := s4.stew.waiters.filter fun w => !(partThreads d).contains w.1 } }
  (s5.withdraw p (rangeFrom 0 48)).restartThreads (pAsid0 d) (partThreads d)

/-- An error that no activation owns: a record with PW is kept, and the partition is reset (R457). -/
def State.failPart (s : State) (p code : Nat) (f : FaultInfo) (load : Word) : State :=
  let x := s.part p
  let r := setFld (mkRecord { f with code := code, pw := true } p load) 160 16 x.fseq.toNat
  let kept := (x.kept ++ [r]).drop ((x.kept.length + 1) - 16)
  (s.setPart p { x with kept := kept, fseq := x.fseq + 1 }).resetPart p
/-- A basin or overflow access that failed (R301, R343). -/
def State.failBasin (s : State) (c : Nat) (err : Nat × Nat) : State :=
  s.failPart (s.partOfCol c) err.1 { faultInfo0 with addr := err.2, tag := mkTag c 0 0 0 0 } 0
/-- What follows where the basin entries of tokens are written; where such an access fails, the reset of the partition (R301). -/
def State.guarded (s : State) (l : List Token) (k : State) : State := match s.basinFails l with | some x => s.failBasin x.1 x.2 | none => k

end Sys2Proof.Machine
end

