-- ==== Sys2Proof/Machine/Requests.lean ====
section
/-! DEFINITION. Engine requests: their packets (Tables 6.10, 6.11, 13.2), the checks that start them (06 R230, 13 R363) and the accesses
through views that they start (R388). -/

namespace Sys2Proof.Machine

/-! ### Requests -/

/-- What is left of a copy refused before any byte moved: its operand tokens lie parked, and it holds the reconfiguration token (R230, R236). -/
def Engine.refused (g : Engine) : Bool := g.opc == 0xD0 && g.state == .suspended && g.held == 0
/-- CTX of a request packet. -/
def Engine.ctx (g : Engine) : Nat := nfld g.pkt 270 2
/-- Colour of a request. -/
def Engine.col (g : Engine) : Nat := tagCol g.tag
/-- Replaces a request. -/
def State.setEngine (s : State) (g : Engine) : State :=
  { s with port := { s.port with engines := s.port.engines.map fun x => if x.id == g.id then g else x } }
/-- Removes a request. -/
def State.dropEngine (s : State) (g : Engine) : State :=
  { s with port := { s.port with engines := s.port.engines.filter fun x => x.id != g.id } }
/-- The request has reached its port and its round is open. -/
def State.reqOpen (s : State) (g : Engine) : Bool := decide (g.since ≤ s.cycle) && s.iterOpen g.col g.load (tagIter g.tag)
/-- The request no longer counts as started through its views. -/
def State.endViews (s : State) (g : Engine) : State := (s.endStarted g.started).endStarted g.startedB

/-! ### Fields -/

/-- DIR, SV, DV and HA of MODE. -/
def Engine.dir (g : Engine) : Nat := nfld g.pkt 224 2
def Engine.sv (g : Engine) : Bool := bit g.pkt 226 && g.dir != 2
def Engine.dv (g : Engine) : Bool := bit g.pkt 227 && g.dir != 1
def Engine.ha (g : Engine) : Bool := bit g.pkt 233
/-- LEN of a copy. -/
def Engine.len (g : Engine) : Nat := nfld g.pkt 192 32
/-- Number of pairs that a Weir request keeps (Table 6.11). -/
def Engine.keeps (g : Engine) : Nat := if g.opc = 0xD1 then nfld (fld g.pkt 128 64) 5 7 else 0
/-- Fields of the control word (Table 6.11). -/
def Engine.ctl (g : Engine) : Word := fld g.pkt 128 64
def Engine.count (g : Engine) : Nat := nfld g.ctl 32 32
def Engine.stride (g : Engine) : Nat := nfld g.ctl 16 16
def Engine.pred (g : Engine) : Nat := nfld g.ctl 12 4
def Engine.vw (g : Engine) : Bool := bit g.ctl 4
/-- Bytes of a candidate. -/
def Engine.width (g : Engine) : Nat := tyBits g.ty / 8
/-- t or lo, and hi, in TY. -/
def Engine.thrLo (g : Engine) : Nat := nfld g.pkt 192 32 % 2 ^ tyBits g.ty
def Engine.thrHi (g : Engine) : Nat := nfld g.pkt 288 32 % 2 ^ tyBits g.ty
/-- The control word and the threshold obey R232 and check 1 of R363. -/
def Engine.ctlOk (g : Engine) : Bool :=
  let nan := fun x => (fmtOf g.ty).read x == .nan
  decide (g.pred ≤ 8) && decide (g.keeps ≤ 64) && !(g.pred == 0 && g.keeps == 0) && g.count != 0 && g.stride != 0 && nfld g.ctl 0 4 == 0 &&
  !nan g.thrLo && !(g.pred == 7 && nan g.thrHi)
/-- Bytes from the first candidate to the end of the last. -/
def Engine.span (g : Engine) : Nat := (g.count - 1) * g.stride * g.width + g.width

/-! ### Starting (R227, R230, R363, R388) -/

/-- Starts a request through a view: the state, the count it holds and the address of the view's lo; a fault code with the offset in the region
(R393); or none while the count is full. A handle that fails its check has no region, and the offset is 0. -/
def State.engineView (s : State) (g : Engine) (h : Word) (len : Nat) : Except (Nat × Nat) (Option (State × Option (Nat × Nat) × Nat)) :=
  match s.viewOf ((s.partOfElem g.e).getD 0) (s.colour g.col).asid h with
  | none => .error (cProtection, 0)
  | some k =>
    let v := s.view k
    if (v.hi - v.lo) * 64 < len then .error (cWidening, 64 * v.lo)
    else match s.startAccess v.region with
      | some (s1, x) => .ok (some (s1, some x, (s.region v.region).vbase + 64 * v.lo))
      | none => .ok none
/-- The views of a copy are resolved: the request as it runs, a fault with its address and access, or none while it must wait. -/
def State.resolveCopy (s : State) (g : Engine) : Except (Nat × Nat × Nat) (Option (State × Engine)) :=
  let src := nfld g.pkt 64 64; let dst := nfld g.pkt 128 64
  let one := fun (s : State) (v : Bool) (a : Nat) => if v then s.engineView g (BitVec.ofNat 64 a) g.len else .ok (some (s, none, a))
  match one s g.sv src with
  | .error k => .error (k.1, k.2, 0)
  | .ok none => .ok none
  | .ok (some (s1, x, a)) => match one s1 g.dv dst with
    | .error k => .error (k.1, k.2, 1)
    | .ok none => .ok none
    | .ok (some (s2, y, b)) => .ok (some (s2, { g with started := x, startedB := y, base := some (a, b), state := .running }))
/-- A scan passes the checks of R363 at its port: the request as it waits for a context, a fault with its address, or none while it must wait. -/
def State.resolveScan (s : State) (g : Engine) : Except (Nat × Nat) (Option (State × Engine)) :=
  let base := nfld g.pkt 64 64
  let last := (base + (g.count - 1) * g.stride * g.width) % 2 ^ 64
  if !g.ctlOk then .error (cConfig, base)
  else if g.vw then match s.engineView g (BitVec.ofNat 64 base) g.span with
    | .error x => .error x
    | .ok none => .ok none
    | .ok (some (s1, x, a)) => .ok (some (s1, { g with state := .waiting, started := x, base := some (a, 0) }))
  else if base % g.width ≠ 0 then .error (cAlign, base)
  else if 2 ^ 57 ≤ base ∨ 2 ^ 57 ≤ last then .error (cTranslation, base)
  else .ok (some (s, { g with state := .waiting, base := some (base, 0) }))
/-- A request stands at its port: its operand tokens are gone, and it counts as one (R293, R297). -/
def State.stands (s : State) (g : Engine) : State := s.inflDown g.col (g.held - 1)
/-- The request with nothing left of its operand tokens. -/
def Engine.one (g : Engine) : Engine := { g with held := 1, ops := [] }

end Sys2Proof.Machine
end

