-- ==== Sys2Proof/Machine/Int.lean ====
section
/-! DEFINITION. Integer and address instructions (04 R139 to R144, R487, Table 4.5): one function of the operand values each, and the
meanings, which run it in the form that the focus names. -/

namespace Sys2Proof.Machine

/-- A w-bit number as a payload of a type (R24, R139). -/
def placed (ty : Ty) (n : Nat) : Word := tyExtend ty n
/-- The low w bits of an operand, unsigned. -/
def uv (ty : Ty) (x : Word) : Nat := x.toNat % 2 ^ tyBits ty
/-- The low w bits of an operand, signed. -/
def sv (ty : Ty) (x : Word) : Int := sval (tyBits ty) x.toNat
/-- The low w bits of an integer, placed, with no bit raised. -/
def wrapped (ty : Ty) (i : Int) : Word × BitVec 8 := (placed ty (wrapInt (tyBits ty) i), 0)
/-- The ends of the range of a type (Table 2.1). -/
def tyLo (ty : Ty) : Int := if tySigned ty then -(2 ^ (tyBits ty - 1) : Nat) else 0
def tyHi (ty : Ty) : Int := if tySigned ty then (2 ^ (tyBits ty - 1) : Nat) - 1 else (2 ^ tyBits ty : Nat) - 1
/-- The value of an operand in the type's own signedness. -/
def tv (ty : Ty) (x : Word) : Int := if tySigned ty then sv ty x else (uv ty x : Nat)
/-- Clamps an exact result to the range of the type, with OF when it clamps (R37). -/
def clamped (ty : Ty) (i : Int) : Word × BitVec 8 :=
  if i < tyLo ty then (wrapped ty (tyLo ty)).1 |> fun v => (v, bOF)
  else if tyHi ty < i then ((wrapped ty (tyHi ty)).1, bOF) else wrapped ty i

def fnLi (o : Ops) : Word × BitVec 8 := (if o.ty = .pred then (o.imm &&& 1).zeroExtend 64 else tyExtend o.ty (immVal o.ty o.imm).toNat, 0)
def fnAdd (ty : Ty) (a b : Word) : Word × BitVec 8 := wrapped ty (uv ty a + uv ty b)
def fnSub (ty : Ty) (a b : Word) : Word × BitVec 8 := wrapped ty ((uv ty a : Int) - uv ty b)
def fnAdds (ty : Ty) (a b : Word) : Word × BitVec 8 := clamped ty (tv ty a + tv ty b)
def fnSubs (ty : Ty) (a b : Word) : Word × BitVec 8 := clamped ty (tv ty a - tv ty b)
def fnNeg (ty : Ty) (a : Word) : Word × BitVec 8 := wrapped ty (-(uv ty a : Int))
def fnAbs (ty : Ty) (a : Word) : Word × BitVec 8 := wrapped ty (sv ty a).natAbs
def fnMul (ty : Ty) (a b : Word) : Word × BitVec 8 := wrapped ty ((uv ty a * uv ty b : Nat) : Int)
def fnMulh (ty : Ty) (a b : Word) : Word × BitVec 8 := wrapped ty (sv ty a * sv ty b / (2 ^ tyBits ty : Nat))
def fnMulhu (ty : Ty) (a b : Word) : Word × BitVec 8 := wrapped ty ((uv ty a * uv ty b / 2 ^ tyBits ty : Nat) : Int)
def fnMad (ty : Ty) (a b c : Word) : Word × BitVec 8 := wrapped ty ((uv ty a * uv ty b + uv ty c : Nat) : Int)
/-- Signed division (R37, Table 2.2). -/
def fnDiv (ty : Ty) (a b : Word) : Word × BitVec 8 :=
  let w := tyBits ty
  if sv ty b = 0 then (placed ty (2 ^ w - 1), bDZ)
  else if sv ty a = -(2 ^ (w - 1) : Nat) ∧ sv ty b = -1 then (placed ty (2 ^ (w - 1)), bOF)
  else wrapped ty (Int.tdiv (sv ty a) (sv ty b))
def fnDivu (ty : Ty) (a b : Word) : Word × BitVec 8 :=
  if uv ty b = 0 then (placed ty (2 ^ tyBits ty - 1), bDZ) else wrapped ty ((uv ty a / uv ty b : Nat) : Int)
def fnRem (ty : Ty) (a b : Word) : Word × BitVec 8 :=
  let w := tyBits ty
  if sv ty b = 0 then (placed ty (uv ty a), bDZ)
  else if sv ty a = -(2 ^ (w - 1) : Nat) ∧ sv ty b = -1 then (0, bOF)
  else wrapped ty (Int.tmod (sv ty a) (sv ty b))
def fnRemu (ty : Ty) (a b : Word) : Word × BitVec 8 :=
  if uv ty b = 0 then (placed ty (uv ty a), bDZ) else wrapped ty ((uv ty a % uv ty b : Nat) : Int)
def fnMin (ty : Ty) (a b : Word) : Word × BitVec 8 := (placed ty (uv ty (if sv ty b < sv ty a then b else a)), 0)
def fnMax (ty : Ty) (a b : Word) : Word × BitVec 8 := (placed ty (uv ty (if sv ty a < sv ty b then b else a)), 0)
def fnMinu (ty : Ty) (a b : Word) : Word × BitVec 8 := (placed ty (uv ty (if uv ty b < uv ty a then b else a)), 0)
def fnMaxu (ty : Ty) (a b : Word) : Word × BitVec 8 := (placed ty (uv ty (if uv ty a < uv ty b then b else a)), 0)
def fnAnd (ty : Ty) (a b : Word) : Word × BitVec 8 := (placed ty (a &&& b).toNat, 0)
def fnOr (ty : Ty) (a b : Word) : Word × BitVec 8 := (placed ty (a ||| b).toNat, 0)
def fnXor (ty : Ty) (a b : Word) : Word × BitVec 8 := (placed ty (a ^^^ b).toNat, 0)
def fnAndn (ty : Ty) (a b : Word) : Word × BitVec 8 := (placed ty (a &&& ~~~b).toNat, 0)
def fnNot (ty : Ty) (a : Word) : Word × BitVec 8 := (placed ty (~~~a).toNat, 0)
/-- Shift distance: b mod w, unsigned. -/
def dist (ty : Ty) (b : Word) : Nat := uv ty b % tyBits ty
def fnShl (ty : Ty) (a b : Word) : Word × BitVec 8 := wrapped ty ((uv ty a * 2 ^ dist ty b : Nat) : Int)
def fnShr (ty : Ty) (a b : Word) : Word × BitVec 8 := wrapped ty ((uv ty a / 2 ^ dist ty b : Nat) : Int)
def fnSar (ty : Ty) (a b : Word) : Word × BitVec 8 := wrapped ty (sv ty a / (2 ^ dist ty b : Nat))
def fnRol (ty : Ty) (a b : Word) : Word × BitVec 8 :=
  wrapped ty ((uv ty a * 2 ^ dist ty b + uv ty a / 2 ^ (tyBits ty - dist ty b) : Nat) : Int)
/-- Trailing zeros of the low n bits, counting from bit i. -/
def ctzFrom (x i : Nat) : Nat → Nat
  | 0 => 0
  | n + 1 => if x / 2 ^ i % 2 = 1 then 0 else 1 + ctzFrom x (i + 1) n
/-- Ones of the low n bits. -/
def popFrom (x : Nat) : Nat → Nat
  | 0 => 0
  | n + 1 => x % 2 + popFrom (x / 2) n
def fnClz (ty : Ty) (a : Word) : Word × BitVec 8 := (placed ty (tyBits ty - (if uv ty a = 0 then 0 else Nat.log2 (uv ty a) + 1)), 0)
def fnCtz (ty : Ty) (a : Word) : Word × BitVec 8 := (placed ty (ctzFrom (uv ty a) 0 (tyBits ty)), 0)
def fnPopc (ty : Ty) (a : Word) : Word × BitVec 8 := (placed ty (popFrom (uv ty a) (tyBits ty)), 0)
def fnBswap (ty : Ty) (a : Word) : Word × BitVec 8 := (placed ty (ofBytes (toBytes (uv ty a) (tyBits ty / 8)).reverse), 0)
/-- BFX (R141). -/
def fnBfx (ty : Ty) (a ctl : Word) : Word × BitVec 8 :=
  let w := tyBits ty
  let pos := nfld ctl 0 8
  let n := if nfld ctl 8 8 < w then nfld ctl 8 8 else w
  let f := (tv ty a / (2 ^ pos : Nat) % (2 ^ n : Nat)).toNat
  if n = 0 then (0, 0) else if tySigned ty then wrapped ty (sval n f) else wrapped ty f
/-- BFI (R141). -/
def fnBfi (ty : Ty) (a v ctl : Word) : Word × BitVec 8 :=
  let pos := nfld ctl 0 8
  let len := nfld ctl 8 8
  let mask := (2 ^ len - 1) * 2 ^ pos
  wrapped ty ((BitVec.ofNat 512 (uv ty a) &&& ~~~(BitVec.ofNat 512 mask) ||| (BitVec.ofNat 512 (v.toNat * 2 ^ pos) &&& BitVec.ofNat 512 mask)).toNat : Int)
def fnSext (ty : Ty) (a n : Word) : Word × BitVec 8 :=
  if n = 0 then (0, 0) else if n.toNat ≥ tyBits ty then (placed ty (uv ty a), 0) else wrapped ty (sval n.toNat a.toNat)
def fnZext (ty : Ty) (a n : Word) : Word × BitVec 8 :=
  if n = 0 then (0, 0) else if n.toNat ≥ tyBits ty then (placed ty (uv ty a), 0) else wrapped ty ((a.toNat % 2 ^ n.toNat : Nat) : Int)
/-- A predicate result. -/
def predOf (b : Bool) : Word × BitVec 8 := (BitVec.ofNat 64 (b2n b), 0)
def fnAddx (ty : Ty) (a b c : Word) : Word × BitVec 8 := wrapped ty ((uv ty a + uv ty b * 2 ^ nfld c 0 6 : Nat) : Int)
/-- SEL copies the low w bits of an operand, placed under R24. -/
def fnSel (ty : Ty) (c a b : Word) : Word × BitVec 8 := (placed ty (if bit c 0 then a else b).toNat, 0)

/-- One bit step of CRC-32C (R142). -/
def crcBit (c : BitVec 32) : BitVec 32 := if bit c 0 then (c >>> 1) ^^^ 0x82F63B78 else c >>> 1
/-- One byte of CRC-32C. -/
def crcByte (c : BitVec 32) (x : Byte) : BitVec 32 :=
  crcBit (crcBit (crcBit (crcBit (crcBit (crcBit (crcBit (crcBit (c ^^^ x.zeroExtend 32))))))))
/-- Bytes of CRC-32C, in order. -/
def crcBytes (c : BitVec 32) (l : List Byte) : BitVec 32 := l.foldl crcByte c
def fnCrc (ty : Ty) (a b : Word) : Word × BitVec 8 :=
  ((crcBytes (a.truncate 32) (toBytes b.toNat (match ty with | .u8 => 1 | .u32 => 4 | _ => 8))).zeroExtend 64, 0)
/-- CRC-32C with its initial value and final exclusive OR (R98). -/
def crc32c (l : List Byte) : BitVec 32 := crcBytes 0xFFFFFFFF l ^^^ 0xFFFFFFFF

/-- The multipliers of R65. -/
def mixC (r : Nat) : Word := match r with | 0 => 0xD6E8FEB86659FD93 | 1 => 0x9E6C63D0676A9A99 | _ => 0xCF3A2A1D5B7C41E5
/-- Round r of the noise mixer (R65). -/
def mixRound (r : Nat) (h : Word) : Word :=
  let h1 := h ^^^ (h >>> 32)
  let h2 := h1 * mixC r
  h2 ^^^ (h2 >>> 29)
def fnMix (a b : Word) : Word × BitVec 8 := (mixRound (b.toNat % 3) a, 0)

/-! ### Meanings -/

/-- LI (R140): the trigger's payload is never read. -/
def execLi (o : Ops) (s : State) : Res := .next (s.compute o 1 [s.opVal o.ty o.imm o.a] (fnLi o))
def execAdd (o : Ops) (s : State) : Res := .next (s.compute2 o 1 (fnAdd o.ty))
def execSub (o : Ops) (s : State) : Res := .next (s.compute2 o 1 (fnSub o.ty))
def execAdds (o : Ops) (s : State) : Res := .next (s.compute2 o 1 (fnAdds o.ty))
def execSubs (o : Ops) (s : State) : Res := .next (s.compute2 o 1 (fnSubs o.ty))
def execNeg (o : Ops) (s : State) : Res := .next (s.compute1 o 1 (fnNeg o.ty))
def execAbs (o : Ops) (s : State) : Res := .next (s.compute1 o 1 (fnAbs o.ty))
def execMul (o : Ops) (s : State) : Res := .next (s.compute2 o 4 (fnMul o.ty))
def execMulh (o : Ops) (s : State) : Res := .next (s.compute2 o 4 (fnMulh o.ty))
def execMulhu (o : Ops) (s : State) : Res := .next (s.compute2 o 4 (fnMulhu o.ty))
def execMad (o : Ops) (s : State) : Res := .next (s.compute3 o 4 (fnMad o.ty))
def execDiv (o : Ops) (s : State) : Res := .next (s.compute2 o 20 (fnDiv o.ty))
def execDivu (o : Ops) (s : State) : Res := .next (s.compute2 o 20 (fnDivu o.ty))
def execRem (o : Ops) (s : State) : Res := .next (s.compute2 o 20 (fnRem o.ty))
def execRemu (o : Ops) (s : State) : Res := .next (s.compute2 o 20 (fnRemu o.ty))
def execMin (o : Ops) (s : State) : Res := .next (s.compute2 o 1 (fnMin o.ty))
def execMax (o : Ops) (s : State) : Res := .next (s.compute2 o 1 (fnMax o.ty))
def execMinu (o : Ops) (s : State) : Res := .next (s.compute2 o 1 (fnMinu o.ty))
def execMaxu (o : Ops) (s : State) : Res := .next (s.compute2 o 1 (fnMaxu o.ty))
def execAnd (o : Ops) (s : State) : Res := .next (s.compute2 o 1 (fnAnd o.ty))
def execOr (o : Ops) (s : State) : Res := .next (s.compute2 o 1 (fnOr o.ty))
def execXor (o : Ops) (s : State) : Res := .next (s.compute2 o 1 (fnXor o.ty))
def execAndn (o : Ops) (s : State) : Res := .next (s.compute2 o 1 (fnAndn o.ty))
def execNot (o : Ops) (s : State) : Res := .next (s.compute1 o 1 (fnNot o.ty))
def execShl (o : Ops) (s : State) : Res := .next (s.compute2 o 1 (fnShl o.ty))
def execShr (o : Ops) (s : State) : Res := .next (s.compute2 o 1 (fnShr o.ty))
def execSar (o : Ops) (s : State) : Res := .next (s.compute2 o 1 (fnSar o.ty))
def execRol (o : Ops) (s : State) : Res := .next (s.compute2 o 1 (fnRol o.ty))
def execClz (o : Ops) (s : State) : Res := .next (s.compute1 o 1 (fnClz o.ty))
def execCtz (o : Ops) (s : State) : Res := .next (s.compute1 o 1 (fnCtz o.ty))
def execPopc (o : Ops) (s : State) : Res := .next (s.compute1 o 1 (fnPopc o.ty))
def execBswap (o : Ops) (s : State) : Res := .next (s.compute1 o 1 (fnBswap o.ty))
def execBfx (o : Ops) (s : State) : Res := .next (s.compute2 o 1 (fnBfx o.ty))
def execBfi (o : Ops) (s : State) : Res := .next (s.compute3 o 1 (fnBfi o.ty))
def execSext (o : Ops) (s : State) : Res := .next (s.compute2 o 1 (fnSext o.ty))
def execZext (o : Ops) (s : State) : Res := .next (s.compute2 o 1 (fnZext o.ty))
def execCmpEq (o : Ops) (s : State) : Res := .next (s.compute2 o 1 fun a b => predOf (uv o.ty a == uv o.ty b))
def execCmpNe (o : Ops) (s : State) : Res := .next (s.compute2 o 1 fun a b => predOf (uv o.ty a != uv o.ty b))
def execCmpLt (o : Ops) (s : State) : Res := .next (s.compute2 o 1 fun a b => predOf (sv o.ty a < sv o.ty b))
def execCmpLe (o : Ops) (s : State) : Res := .next (s.compute2 o 1 fun a b => predOf (sv o.ty a ≤ sv o.ty b))
def execCmpGt (o : Ops) (s : State) : Res := .next (s.compute2 o 1 fun a b => predOf (sv o.ty b < sv o.ty a))
def execCmpGe (o : Ops) (s : State) : Res := .next (s.compute2 o 1 fun a b => predOf (sv o.ty b ≤ sv o.ty a))
def execCmpLtu (o : Ops) (s : State) : Res := .next (s.compute2 o 1 fun a b => predOf (uv o.ty a < uv o.ty b))
def execCmpLeu (o : Ops) (s : State) : Res := .next (s.compute2 o 1 fun a b => predOf (uv o.ty a ≤ uv o.ty b))
def execCmpGtu (o : Ops) (s : State) : Res := .next (s.compute2 o 1 fun a b => predOf (uv o.ty b < uv o.ty a))
def execCmpGeu (o : Ops) (s : State) : Res := .next (s.compute2 o 1 fun a b => predOf (uv o.ty b ≤ uv o.ty a))
/-- SEL (R140): its first operand is read as a pred. -/
def execSel (o : Ops) (s : State) : Res :=
  let c := s.opVal .pred o.imm o.a
  let a := s.opVal o.ty o.imm o.b
  let b := s.opVal o.ty o.imm o.c
  .next (s.compute o 1 [c, a, b] (fnSel o.ty c.v a.v b.v))
def execAddx (o : Ops) (s : State) : Res := .next (s.compute3 o 1 (fnAddx o.ty))
def execCrc (o : Ops) (s : State) : Res := .next (s.compute2 o 4 (fnCrc o.ty))
def execMix (o : Ops) (s : State) : Res := .next (s.compute2 o 4 fnMix)

end Sys2Proof.Machine
end

