-- ==== Sys2Proof/Machine/FloatOps.lean ====
section
/-! DEFINITION. Scalar floating-point instructions (05 R148 to R157, Table 5.1), in both forms. -/

namespace Sys2Proof.Machine

/-- RM of a word's flags (Table 3.8). -/
def rmOf (o : Ops) : Nat := nfld o.fl 6 2
/-- SAT of a word's flags. -/
def satOf (o : Ops) : Bool := bit o.fl 8

/-- A datum and its bits as a payload. -/
def fpPay (r : Nat × BitVec 8) : Word × BitVec 8 := (BitVec.ofNat 64 r.1, r.2)

/-- FABS and FNEG on a datum (R150). -/
def fAbs (f : Fmt) (a : Nat) : Nat := if f.read a = .nan then f.nan else a % 2 ^ (f.bits - 1)
def fNeg (f : Fmt) (a : Nat) : Nat :=
  if f.read a = .nan then f.nan else (a % 2 ^ f.bits + 2 ^ (f.bits - 1)) % 2 ^ f.bits

/-- The relations of FCMP (R151). -/
inductive FRel where
  | eq | ne | lt | le | gt | ge | un
  deriving DecidableEq, Repr

/-- FCMP on two data (R151). -/
def fCmp (f : Fmt) (r : FRel) (a b : Nat) : Bool :=
  let c := fpCompare true (f.read a) (f.read b)
  match r with
  | .eq => c == some .eq
  | .ne => c != some .eq
  | .lt => c == some .lt
  | .le => c == some .lt || c == some .eq
  | .gt => c == some .gt
  | .ge => c == some .gt || c == some .eq
  | .un => c.isNone

/-- FCLASS (Table 5.2). -/
def fClass (f : Fmt) (a : Nat) : Nat :=
  let sub := a / 2 ^ f.fb % 2 ^ f.eb == 0
  match f.read a with
  | .nan => 2 ^ 8
  | .inf n => if n then 2 ^ 0 else 2 ^ 7
  | .fin n m _ =>
    if m = 0 then (if n then 2 ^ 3 else 2 ^ 4)
    else if sub then (if n then 2 ^ 2 else 2 ^ 5)
    else if n then 2 ^ 1 else 2 ^ 6

/-- FCVT of a value read in `src` to `ty` (R52, R153); of two integer types, the low bits, or the clamp of R168 under SAT. -/
def fCvt (src ty : Ty) (rm : Nat) (sat : Bool) (a : Word) : Word × BitVec 8 :=
  if isFp src then
    if isFp ty then
      if src = ty then (BitVec.ofNat 64 ((fmtOf ty).put 0 false ((fmtOf ty).read a.toNat)).1, 0)
      else fpPay (fpConv (fmtOf src) (fmtOf ty) rm sat a.toNat)
    else
      let r := fpToRange rm (tyLo ty) (tyHi ty) ((fmtOf src).read a.toNat)
      (placed ty (wrapInt (tyBits ty) r.1), r.2)
  else if isFp ty then fpPay (intToFp (fmtOf ty) rm sat (tv src a))
  else if sat then clamped ty (tv src a) else wrapped ty (tv src a)

/-- The value and index of a pair (R155). -/
def pairVal (ty : Ty) (p : Word) : Nat := p.toNat % 2 ^ tyBits ty
def pairIdx (p : Word) : Nat := nfld p 32 32
/-- Packs a pair. -/
def mkPair (idx v : Nat) : Word := pack 64 [(32, 32, idx), (0, 32, v)]
/-- Value a ranks above value b (R156). -/
def outranks (f : Fmt) (ord : Bool) (a b : Nat) : Bool :=
  if ord then decide (rankKey f b < rankKey f a)
  else match f.read a, f.read b with
    | .nan, _ => false
    | _, .nan => true
    | x, y => fpCompare true x y == some .gt
/-- MAXI of two pairs (R156). -/
def maxPair (ty : Ty) (ord : Bool) (a b : Nat × Nat) : Nat × Nat :=
  let f := fmtOf ty
  if outranks f ord a.2 b.2 then a
  else if outranks f ord b.2 a.2 then b
  else if a.1 ≤ b.1 then a else b
/-- The result pair with a canonical NaN (R156). -/
def pairOut (ty : Ty) (p : Nat × Nat) : Word := mkPair p.1 (if (fmtOf ty).read p.2 = .nan then (fmtOf ty).nan else p.2)

/-! ### Meanings -/

/-- Runs a one-operand function of the format of TY. -/
def State.fp1 (s : State) (o : Ops) (lat : Nat) (g : Fmt → Nat → Nat × BitVec 8) : Res :=
  .next (s.compute1 o lat fun a => fpPay (g (fmtOf o.ty) a.toNat))
/-- Runs a two-operand function of the format of TY. -/
def State.fp2 (s : State) (o : Ops) (lat : Nat) (g : Fmt → Nat → Nat → Nat × BitVec 8) : Res :=
  .next (s.compute2 o lat fun a b => fpPay (g (fmtOf o.ty) a.toNat b.toNat))

def execFadd (o : Ops) (s : State) : Res := s.fp2 o 4 fun f => fAdd f (rmOf o) (satOf o)
def execFsub (o : Ops) (s : State) : Res := s.fp2 o 4 fun f => fSub f (rmOf o) (satOf o)
def execFmul (o : Ops) (s : State) : Res := s.fp2 o 4 fun f => fMul f (rmOf o) (satOf o)
def execFfma (o : Ops) (s : State) : Res :=
  .next (s.compute3 o 4 fun a b c => fpPay (fFma (fmtOf o.ty) (rmOf o) (satOf o) a.toNat b.toNat c.toNat))
def execFdiv (o : Ops) (s : State) : Res := s.fp2 o 12 fun f => fDiv f (rmOf o) (satOf o)
def execFsqrt (o : Ops) (s : State) : Res := s.fp1 o 12 fun f => fSqrt f (rmOf o) (satOf o)
def execFrsq (o : Ops) (s : State) : Res := s.fp1 o 12 fun f => fRsq f (rmOf o) (satOf o)
def execFrcp (o : Ops) (s : State) : Res := s.fp1 o 8 fun f => fRcp f (rmOf o) (satOf o)
def execFexp2 (o : Ops) (s : State) : Res := s.fp1 o 8 fun f => fExp2 f (rmOf o) (satOf o)
def execFlog2 (o : Ops) (s : State) : Res := s.fp1 o 8 fun f => fLog2 f (rmOf o) (satOf o)
def execFmin (o : Ops) (s : State) : Res := s.fp2 o 1 fun f a b => (fMinMax f false a b, 0)
def execFmax (o : Ops) (s : State) : Res := s.fp2 o 1 fun f a b => (fMinMax f true a b, 0)
def execFabs (o : Ops) (s : State) : Res := s.fp1 o 1 fun f a => (fAbs f a, 0)
def execFneg (o : Ops) (s : State) : Res := s.fp1 o 1 fun f a => (fNeg f a, 0)
def execFcmpEq (o : Ops) (s : State) : Res := s.fp2 o 1 fun f a b => (b2n (fCmp f .eq a b), 0)
def execFcmpNe (o : Ops) (s : State) : Res := s.fp2 o 1 fun f a b => (b2n (fCmp f .ne a b), 0)
def execFcmpLt (o : Ops) (s : State) : Res := s.fp2 o 1 fun f a b => (b2n (fCmp f .lt a b), 0)
def execFcmpLe (o : Ops) (s : State) : Res := s.fp2 o 1 fun f a b => (b2n (fCmp f .le a b), 0)
def execFcmpGt (o : Ops) (s : State) : Res := s.fp2 o 1 fun f a b => (b2n (fCmp f .gt a b), 0)
def execFcmpGe (o : Ops) (s : State) : Res := s.fp2 o 1 fun f a b => (b2n (fCmp f .ge a b), 0)
def execFcmpUn (o : Ops) (s : State) : Res := s.fp2 o 1 fun f a b => (b2n (fCmp f .un a b), 0)
def execFclass (o : Ops) (s : State) : Res := s.fp1 o 1 fun f a => (fClass f a, 0)
/-- FCVT (R153): a literal is read in the source type. -/
def execFcvt (o : Ops) (s : State) : Res :=
  let src := tyOf (fld o.imm 0 4)
  let a := s.opVal src o.imm o.a
  .next (s.compute o 4 [a] (fCvt src o.ty (rmOf o) (satOf o) a.v))
def execFround (o : Ops) (s : State) : Res := s.fp1 o 4 fun f => fRound f (rmOf o)
/-- MAXI (R155, R156); ORD is bit 0 of IMM. -/
def execMaxi (o : Ops) (s : State) : Res :=
  let pr := fun p : Word => (pairIdx p, pairVal o.ty p)
  .next (s.compute2 o 1 fun a b => (pairOut o.ty (maxPair o.ty (bit o.imm 0) (pr a) (pr b)), 0))

end Sys2Proof.Machine
end

