-- ==== Sys2Proof/Machine/Flow.lean ====
section
/-! DEFINITION. Flow nodes (04 R111 to R131, R145). Each token at a one-port node, and each at MERGE, JOINN, BAR and ITER, is one firing. -/

namespace Sys2Proof.Machine

/-- The fault fields that a firing fixes (R262): REASON the OPC, SLOT, element, tag, side-band. -/
def Firing.info (f : Firing) (code : Nat) (sb : BitVec 8) : FaultInfo :=
  { faultInfo0 with code := code, reason := nfld f.word 120 8, slot := f.slot, e := f.e, tag := f.tag, sb := sb }

/-- A token passed on with its kind, payload and provenance. -/
def passOut (t : Token) (sb : BitVec 8) : Out := ⟨0, sb &&& 0x7F, t.kind, t.pay, none, t.tag, t.hist⟩

/-- The operand at p0; a firing of a flow node always holds one. -/
def Firing.p0 (f : Firing) : Token := (f.tok 0).getD ⟨f.tag, 0, .scalar, 0, none, .node f.e f.slot 0, .cand 0, false, 0, 0, []⟩

/-- One result of a target, when the target is valid. -/
def outTo (t : BitVec 24) (x : Out) : List Out := if t = 0 then [] else [{ x with target := t }]

/-- Runs a flow node on the firing in focus; a steward runs none (R112). -/
def State.flow (s : State) (g : Firing → State) : Res :=
  match s.focus with
  | .node f => .next (g f)
  | .thread _ => .next s

/-- NOP (R113): only the program counter on a steward; in the fabric it never fires. -/
def execNop (_ : Ops) (s : State) : Res :=
  match s.focus with
  | .thread t => .next (s.setThread t (s.thread t).advance)
  | .node f => .next (s.unfire f)

/-- COPY (R114). -/
def execCopy (o : Ops) (s : State) : Res := s.flow fun f => s.fire f o 1 (outBoth o (passOut f.p0 f.p0.sb)) f.p0.sb

/-- A routing operand: a token at p1, or a value read as unsigned 64 bits whatever TY holds, with side-band 0 (R112). -/
def State.route (s : State) (o : Ops) : Val :=
  match o.b with
  | .lit v => ⟨BitVec.ofInt 64 v.toInt, 0⟩
  | .imm => ⟨o.imm.zeroExtend 64, 0⟩
  | x => s.opVal .x64 o.imm x

/-- STEER (R117). -/
def execSteer (o : Ops) (s : State) : Res := s.flow fun f =>
  let d := f.p0
  let c := s.route o
  let sb := sbOr [d.sb, c.sb]
  let pass := fun b : BitVec 8 => { passOut d b with hist := f.hist }
  let dead := fun b : BitVec 8 => outBoth o { pass (sb ||| b) with pay := 0 }
  let outs :=
    if sbPZ c.sb || sbPZ d.sb then dead sbPoison
    else if sbNL c.sb then dead sbNull
    else if bit c.v 0 then outTo o.t0 (pass sb) else outTo o.t1 (pass sb)
  s.fire f o 1 outs sb

/-- MERGE (R118): the one token of the firing goes on unchanged. -/
def execMerge (o : Ops) (s : State) : Res := s.flow fun f =>
  let t := match f.tok 0 with | some t => t | none => (f.tok 1).getD f.p0
  s.fire f o 1 (outBoth o (passOut t t.sb)) t.sb

/-- GATE (R115): the payload of p1 is never read. -/
def execGate (o : Ops) (s : State) : Res := s.flow fun f =>
  let sb := sbOr [f.p0.sb, (f.portVal 1).sb]
  let x := passOut f.p0 sb
  s.fire f o 1 (outBoth o { x with pay := if sbDead sb then 0 else x.pay, hist := f.hist }) sb

/-- SINK (R116). -/
def execSink (o : Ops) (s : State) : Res := s.flow fun f => s.fire f o 1 [] f.p0.sb

/-- NULLT (R119). -/
def execNullt (o : Ops) (s : State) : Res := s.flow fun f =>
  let sb := sbOr [f.p0.sb, sbNull]
  s.fire f o 1 (outBoth o { passOut f.p0 sb with pay := 0 }) sb

/-- JOINN (R120): counts, and fires with the sum at the n-th token. -/
def execJoinn (o : Ops) (s : State) : Res := s.flow fun f =>
  let t := f.p0
  let mine := fun j : Join => j.e == f.e && j.slot == f.slot && tagEq j.tag f.tag
  let old := lfind mine s.fab.joins
  let j := old.getD ⟨f.e, f.slot, f.tag, 0, 0, 0, [], t.load, false, t.seq⟩
  let j' : Join := { j with count := j.count + 1, sum := j.sum + t.pay, sb := sbOr [j.sb, t.sb], hist := j.hist ++ t.hist }
  let rest := s.fab.joins.filter fun x => !mine x
  let s0 : State := { s with fab := { s.fab with joins := rest } }
  let held := if old.isSome then 1 else 0
  if j'.count < o.imm.toNat then
    let s1 : State := { s0 with fab := { s0.fab with joins := rest ++ [j'] } }
    (s1.settle f.e (tagCol f.tag) (1 + held) 1).toUnit f 1 []
  else
    let outs := outBoth o ⟨0, j'.sb, .scalar, if sbDead j'.sb then 0 else j'.sum, none, f.tag, j'.hist⟩
    ((s0.latch f o j'.sb).settle f.e (tagCol f.tag) (1 + held) (outCount outs)).toUnit f 1 outs

/-- ITER (R122): takes the start token and begins a stream; an NL or PZ start yields only the done token. The firings that ELATCH sees
are those of the stream. -/
def execIter (o : Ops) (s : State) : Res := s.flow fun f =>
  let t := f.p0
  let n := if sbDead t.sb then 0 else nfld t.pay 0 24
  let st : Stream := ⟨f.e, f.slot, tagClean t.tag, t.sb &&& 0x7F, n, 0, bit o.fl 9, t.load, false, t.hist, t.seq⟩
  let s1 : State := { s with fab := { s.fab with streams := s.fab.streams ++ [st] } }
  (s1.settle f.e (tagCol f.tag) 1 1).toUnit f 1 []

/-- A result whose iteration leaves the window: CONFIG, and the result is parked with the activation (R125), which is that of the operand
(DESIGN CHOICE, log entry 88). -/
def State.outsideWindow (s : State) (f : Firing) (o : Ops) (outs : List Out) (sb : BitVec 8) : State :=
  let park := fun (s : State) (x : Out) => match s.tokenOf f.e f.ctx 0 x with
    | some t => s.addToken { t with parked := true, place := .cand s.cycle }
    | none => s
  let s1 := outs.foldl park s
  (((s1.latch f o sb).settle f.e (tagCol f.tag) f.count (outCount outs)).toUnit f 1 []).raiseFault (f.info cConfig sb)

/-- Sends a result with a new iteration, under the window rule (R125). -/
def State.retag (s : State) (f : Firing) (o : Ops) (x : Out) : State :=
  let load := f.p0.load
  let w := s.window (tagCol f.tag) (s.loadAt f.e f.ctx)
  if age (s.oldest (tagCol f.tag) load) (tagIter x.tag) < w then s.fire f o 1 (outBoth o x) x.sb
  else s.outsideWindow f o (outBoth o x) x.sb

/-- TAGSET (R126). A poisoned p1 leaves the tag as NL does (DESIGN CHOICE, log entry 104). -/
def execTagset (o : Ops) (s : State) : Res := s.flow fun f =>
  let b := s.route o
  let sb := sbOr [f.p0.sb, b.sb]
  let x := { passOut f.p0 sb with pay := if sbDead sb then 0 else f.p0.pay, hist := f.hist }
  if sbDead b.sb then s.fire f o 1 (outBoth o x) sb else s.retag f o { x with tag := tagWithIter f.tag (nfld b.v 0 24) }

/-- TAGGET (R127): the tag is read even from a null token. -/
def execTagget (o : Ops) (s : State) : Res := s.flow fun f =>
  let v : Word := if sbPZ f.p0.sb then 0 else BitVec.ofNat 64 (tagId f.tag)
  s.fire f o 1 (outBoth o { passOut f.p0 f.p0.sb with kind := .scalar, pay := v }) f.p0.sb

/-- KEYSET (R126). A poisoned p1 leaves the tag as NL does (DESIGN CHOICE, log entry 104). -/
def execKeyset (o : Ops) (s : State) : Res := s.flow fun f =>
  let b := s.route o
  let sb := sbOr [f.p0.sb, b.sb]
  let x := { passOut f.p0 sb with pay := if sbDead sb then 0 else f.p0.pay, hist := f.hist }
  s.fire f o 1 (outBoth o (if sbDead b.sb then x else { x with tag := tagWithKey f.tag (nfld b.v 0 16) })) sb

/-- KEYGET (R127). -/
def execKeyget (o : Ops) (s : State) : Res := s.flow fun f =>
  let v : Word := if sbPZ f.p0.sb then 0 else BitVec.ofNat 64 (tagKey f.tag)
  s.fire f o 1 (outBoth o { passOut f.p0 f.p0.sb with kind := .scalar, pay := v }) f.p0.sb

/-- GENCHK (R128). -/
def execGenchk (o : Ops) (s : State) : Res := s.flow fun f =>
  let x := passOut f.p0 f.p0.sb
  let cur := tagGen f.tag == (s.colLoad (tagCol f.tag) f.p0.load).egen.toNat
  s.fire f o 1 (if cur then outTo o.t0 x else outTo o.t1 x) f.p0.sb

/-- DELAY (R125). -/
def execDelay (o : Ops) (s : State) : Res := s.flow fun f =>
  s.retag f o { passOut f.p0 f.p0.sb with tag := tagWithIter f.tag ((tagIter f.tag + o.imm.toNat) % iterMod) }

/-- ENTRY (R129): the admitted token, narrowed to TY. -/
def execEntry (o : Ops) (s : State) : Res := s.flow fun f =>
  s.fire f o 1 (outBoth o ⟨0, 0, .scalar, tyExtend o.ty f.p0.pay.toNat, none, f.tag, []⟩) 0

/-- The USER event of an EMIT firing (R131, Table 7.10). -/
def userEvent (t : Token) (e code : Nat) : Event :=
  mkEvent 1 code (t.sb &&& 0x7F) (tagCtx t.tag) (tagCol t.tag) e 0 (tagClean t.tag).toNat t.pay.toNat 0

/-- EMIT (R131): waits while 224 entries or more are held (R264); PZ raises POISON (R22). -/
def execEmit (o : Ops) (s : State) : Res := s.flow fun f =>
  let t := f.p0
  let p := (s.partOfElem f.e).getD 0
  if sbPZ t.sb then s.faultFiring f (f.info cPoison t.sb)
  else if (s.part p).events.length < 224 && (s.part p).held.isEmpty then (s.fire f o 1 [] t.sb).sendEvent p (userEvent t f.e o.imm.toNat)
  else { ((s.latch f o t.sb).addToken { t with place := .emitWait }) with focus := .thread 0 }

/-- EMIT_SPACE_RESUME (R131): the oldest waiting EMIT firing of an element completes when there is space. -/
def execEmitSpaceResume (e : Nat) (s : State) : Res :=
  let p := (s.partOfElem e).getD 0
  let waits := fun t : Token => t.place == .emitWait && !t.parked && (match t.dst with | .node f _ _ => f == e | _ => false)
  match findIdx? waits s.fab.tokens 0 with
  | none => .next s
  | some k =>
    if (s.part p).events.length < 224 && (s.part p).held.isEmpty then
      match nth? s.fab.tokens k with
      | none => .next s
      | some t =>
        let slot := match t.dst with | .node _ n _ => n | _ => 0
        let code := match s.slotWord e (tagCtx t.tag) slot with | some w => nfld w 0 16 | none => 0
        .next (((s.setTokens (dropNth s.fab.tokens k)).inflDown (tagCol t.tag) 1).sendEvent p (userEvent t e code))
    else .next s

/-- NEXT of a BAR for a colour and load: its own, or the O that was set afresh (R121). -/
def State.barNext (s : State) (e slot col : Nat) (load : Word) : Nat :=
  match lfind (fun b => b.e == e && b.slot == slot && b.col == col && b.load == load) s.fab.bars with
  | some b => b.next
  | none => (s.colLoad col load).next
/-- Writes NEXT. -/
def State.setBarNext (s : State) (e slot col : Nat) (load : Word) (n : Nat) : State :=
  let rest := s.fab.bars.filter fun b => !(b.e == e && b.slot == slot && b.col == col && b.load == load)
  { s with fab := { s.fab with bars := ⟨e, load, slot, col, n⟩ :: rest } }

/-- The tokens that a BAR releases from its held ones, in order, and the new NEXT (R121). -/
def barRelease (held : List Token) : Nat → Nat → List Token × Nat
  | next, 0 => ([], next)
  | next, fuel + 1 =>
    let now := held.filter fun t => tagIter t.tag == next
    if now.isEmpty then ([], next)
    else let r := barRelease held ((next + 1) % iterMod) fuel; (now ++ r.1, r.2)

/-- What a token does at a BAR: it passes, or joins the held ones, of which some are released (R121). -/
structure BarPlan where
  pass : Bool
  /-- Tokens of the colour and load held, the firing's among them, in order of arrival. -/
  held : List Token
  /-- Those released, in order, and the new NEXT. -/
  out : List Token
  next : Nat

/-- A token held at the BAR of a firing. -/
def Firing.barHeld (f : Firing) (x : Token) : Bool :=
  x.place == .barHold && x.load == f.p0.load && tagCol x.tag == tagCol f.tag && x.dst == .node f.e f.slot 0 && !x.parked
/-- The plan of a firing of a BAR. -/
def State.barPlan (s : State) (f : Firing) : BarPlan :=
  let t := f.p0
  let col := tagCol f.tag
  let ol := s.oldest col t.load
  let next := s.barNext f.e f.slot col t.load
  if age ol (tagIter f.tag) < age ol next then ⟨true, [], [], next⟩
  else
    let held := insertSeq { t with place := .barHold } (s.fab.tokens.filter fun x => f.barHeld x && x != t)
    let r := barRelease held next (held.length + 1)
    ⟨false, held, r.1, r.2⟩

/-- ELATCH for the results that a BAR sends, in order (R282). -/
def State.latchAll (s : State) (f : Firing) (o : Ops) : List Token → State
  | [] => s
  | x :: l => (s.latch { f with tag := x.tag } o x.sb).latchAll f o l
/-- BAR (R121). -/
def execBar (o : Ops) (s : State) : Res := s.flow fun f =>
  let t := f.p0
  let b := s.barPlan f
  if b.pass then s.fire f o 1 (outBoth o (passOut t t.sb)) t.sb
  else
    let keep := s.fab.tokens.filter (fun x => !f.barHeld x) ++ b.held.filter fun x => !b.out.contains x
    let outs := (b.out.map fun x => outBoth o (passOut x x.sb)).flatten
    let s1 := (s.setTokens keep).setBarNext f.e f.slot (tagCol f.tag) t.load b.next
    ((s1.latchAll f o b.out).settle f.e (tagCol f.tag) (1 + b.out.length) (outCount outs + 1)).toUnit f 1 outs

end Sys2Proof.Machine
end

