-- ==== Sys2Proof/Machine/Slots.lean ====
section
/-! DEFINITION. Buffer slots as operands and destinations of vector and tile nodes (05 R158 to R164, R167, R175). -/

namespace Sys2Proof.Machine

/-! ### Lanes and elements (R32, R167) -/

/-- `n` fields of `k` bytes. -/
def byteLanes (k : Nat) : Nat → List Byte → List Nat
  | 0, _ => []
  | n + 1, l => ofBytes (l.take k) :: byteLanes k n (l.drop k)
/-- The half-bytes of a list of bytes, lower first. -/
def nibbles : List Byte → List Nat
  | [] => []
  | b :: bs => b.toNat % 16 :: b.toNat / 16 :: nibbles bs
/-- `n` fields of `w` bits, 4 or whole bytes; what lies beyond the bytes reads as 0. -/
def laneList (w n : Nat) (l : List Byte) : List Nat := if w = 4 then (nibbles l ++ List.replicate n 0).take n else byteLanes (w / 8) n l
/-- Pairs of half-bytes as bytes. -/
def pairNibbles : List Nat → List Byte
  | [] => []
  | [a] => [BitVec.ofNat 8 (a % 16)]
  | a :: b :: l => BitVec.ofNat 8 (a % 16 + 16 * (b % 16)) :: pairNibbles l
/-- Fields of `w` bits as bytes, padded with zero bits to a whole line. -/
def packLanes (w : Nat) (l : List Nat) : List Byte :=
  let bs := if w = 4 then pairNibbles l else (l.map fun v => toBytes v (w / 8)).flatten
  bs ++ List.replicate (64 * ceilDiv bs.length 64 - bs.length) 0

/-- The body of a tile in a slot (R32): the elements of a header's shape and format, padded with zero bits to a whole beat. -/
def tileBody (h : BitVec 256) (l : List Byte) : List Byte :=
  toBytes (ofBytes l % 2 ^ ((hNrow h + 1) * (hNcol h + 1) * fmtBits (hFmt h))) (64 * fmtBeats (hFmt h) (hNrow h) (hNcol h))

/-! ### Operands -/

/-- An operand of a vector or tile node, read. -/
structure Arg where
  sb : BitVec 8
  /-- The slot that a real reference names: buffer and slot. -/
  ref : Option (Nat × Nat)
  /-- LINES of the reference. -/
  lines : Nat
  bytes : List Byte
  slot : Slot
  /-- A scalar broadcast to every lane (R159). -/
  val : Word
  /-- The hold bit (R162). -/
  hold : Bool
  deriving DecidableEq, Repr

/-- An operand that is a scalar. -/
def scalarArg (v : Val) : Arg := ⟨v.sb, none, 0, [], .empty, v.v, false⟩

/-- Reads a v or t operand: the slot that a reference names, or a scalar (R159); a null reference names no slot (R26). -/
def State.arg (s : State) (f : Firing) (ty : Ty) (x : Opnd) (hold : Bool) : Arg :=
  match x with
  | .port n => match f.tok n.toNat with
    | none => scalarArg ⟨0, 0⟩
    | some t =>
      if sbDead t.sb then ⟨t.sb &&& 0x7F, none, 0, [], .empty, 0, hold⟩
      else
        let r := some (refBuf t.pay, refSlot t.pay)
        match s.buf f.e f.ctx (refBuf t.pay) with
        | none => ⟨t.sb &&& 0x7F, r, refLines t.pay, [], .empty, 0, hold⟩
        | some b =>
          let a := b.slotByte (refSlot t.pay)
          let n := 64 * refLines t.pay
          ⟨(t.sb &&& 0x7F) ||| (if poolPoisoned (s.elem f.e) a n then sbPoison else 0), r, refLines t.pay, mgetN (s.elem f.e).pool a n,
            b.slot (refSlot t.pay), 0, hold⟩
  | x => scalarArg (s.opVal ty 0 x)

/-- The fault of an operand that names a slot (R26, R160, R317), if any. -/
def State.argFault (s : State) (f : Firing) (a : Arg) : Option FaultInfo :=
  match a.ref with
  | none => none
  | some (b, n) => match s.buf f.e f.ctx b with
    | none => some (f.info cBuffer a.sb)
    | some x =>
      if x.depth ≤ n || !(x.slot n).full then some (f.info cBuffer a.sb)
      else if (x.slot n).exp then
        some { f.info cStale a.sb with addr := packNat [(0, 5, b), (5, 4, n), (32, 32, (x.slot n).stamp.toNat)], acc := 0 }
      else if x.size < a.lines then some (f.info cBuffer a.sb)
      else none

/-- The first fault of a list of operands. -/
def State.argsFault (s : State) (f : Firing) (l : List Arg) : Option FaultInfo := (l.filterMap fun a => s.argFault f a).head?

/-- The slots that a firing releases when it completes (R162). -/
def releases (l : List Arg) : List (Nat × Nat) :=
  let held := l.filterMap fun a => if a.hold then a.ref else none
  ((l.filterMap fun a => a.ref).filter fun r => !held.contains r).eraseDups

/-- The lanes of an operand in a lane type; none when it does not hold exactly n (R167). -/
def Arg.lanes (a : Arg) (ty : Ty) (n : Nat) : Option (List Nat) :=
  if a.ref.isSome then (if a.lines * 512 / tyBits ty = n then some (laneList (tyBits ty) n a.bytes) else none)
  else some (List.replicate n (a.val.toNat % 2 ^ tyBits ty))
/-- Lane count of an operand in its lane type. -/
def Arg.count (a : Arg) (ty : Ty) : Nat := a.lines * 512 / tyBits ty

/-- The largest line count of the operands. -/
def argLines (l : List Arg) : Nat := l.foldl (fun m a => if m < a.lines then a.lines else m) 0
/-- The side-band of the operands (R164). -/
def argsSb (l : List Arg) : BitVec 8 := sbOr (l.map fun a => a.sb)

/-! ### Units -/

/-- The cycle at which a unit of an element is next free. -/
def State.unitFree (s : State) (e u : Nat) : Nat :=
  s.fab.units.foldl (fun m x => if x.e == e && x.unit == u && m < x.due then x.due else m) s.cycle
/-- Cycles that a vector firing occupies its unit (R175). -/
def vecCycles (bits lines : Nat) : Nat := if bits < 16 then ceilDiv lines 2 else ceilDiv lines 4

/-- Hands a firing to the vector or matrix unit, which runs firings in the order it starts them (R175, R191). -/
def State.toUnitOf (s : State) (f : Firing) (o : Ops) (u : Nat) (acc : Option Nat) (lat : Nat) (outs : List Out) (w : Option SlotWrite)
    (args : List Arg) (bits : BitVec 8) : State :=
  let due := s.unitFree f.e u + lat
  let s1 := (s.latch f o bits).settle f.e (tagCol f.tag) f.count (outCount outs)
  { s1 with fab := { s1.fab with units := s1.fab.units ++ [⟨f.e, f.ctx, f.slot, f.tag, due, u, acc, outs, w, releases args, []⟩] },
            focus := .thread 0 }

/-! ### Results -/

/-- What a vector or tile node writes into its destination slot. -/
structure SlotRes where
  data : List Byte
  hv : Bool
  hdr : BitVec 256
  scale : BitVec 1024
  /-- Bits raised. -/
  bits : BitVec 8
  deriving DecidableEq, Repr

/-- Lines of a result. -/
def SlotRes.lines (r : SlotRes) : Nat := ceilDiv r.data.length 64
/-- A reference to send. -/
def refOut (f : Firing) (sb : BitVec 8) (pay : Word) : Out := ⟨0, sb, .ref, pay, none, f.tag, []⟩

/-- The destination buffer's next slot is empty, or the buffer is not allocated (R161). -/
def State.destReady (s : State) (e c dbuf : Nat) : Bool :=
  match s.buf e c dbuf with
  | some b => !(b.slot b.widx).full
  | none => true

/-- Reserves the slot at the write index and advances the index (R161, Table 10.3). DATA stays as it is, also where R161 has it read 0 (DESIGN CHOICE,
log entry 108). -/
def State.reserveSlot (s : State) (e c dbuf : Nat) (b : Buf) : State :=
  let q := b.slot b.widx
  s.setBuf e c dbuf (some { b.setSlot b.widx { q with full := true } with widx := (b.widx + 1) % b.depth })

/-- Runs a node that writes a slot of DBUF (R160 to R164). Its cycles count the lines of the references that it reads (DESIGN CHOICE, log entry 109).
In order: reference checks, null and poisoned operands, the buffer's checks, the
reservation, and the result's way to the vector unit. `bits` is the lane width that sets its cycles. A body of none raises BUFFER. -/
def State.slotNode (s : State) (f : Firing) (o : Ops) (args : List Arg) (extra : BitVec 8) (bits more : Nat) (body : Option SlotRes) :
    State :=
  let dbuf := nfld o.imm 0 5
  let sb := sbOr [argsSb args, extra]
  match s.argsFault f args with
  | some i => s.faultFiring f i
  | none =>
    if sbDead sb then
      s.toUnitOf f o 1 none (vecCycles bits (argLines args) + more) (outBoth o (refOut f sb 0)) none args sb
    else match s.buf f.e f.ctx dbuf, body with
      | some b, some r =>
        if b.size < r.lines then s.faultFiring f (f.info cBuffer sb)
        else if (b.slot b.widx).full then s.unfire f
        else
          let sb' := sb ||| (r.bits &&& 0x1F)
          let lines := if argLines args < r.lines then r.lines else argLines args
          let w : SlotWrite := ⟨dbuf, b.widx, r.data, r.lines, r.hv, r.hdr, r.scale, bit o.fl 5⟩
          (s.reserveSlot f.e f.ctx dbuf b).toUnitOf f o 1 none (vecCycles bits lines + more)
            (outBoth o (refOut f sb' (mkRef dbuf b.widx r.lines))) (some w) args sb'
      | _, _ => s.faultFiring f (f.info cBuffer sb)

/-- Runs a node that reads slots and sends a scalar; a body of none raises BUFFER. -/
def State.scalarNode (s : State) (f : Firing) (o : Ops) (args : List Arg) (cycles : Nat → Nat) (body : Option (Word × BitVec 8)) : State :=
  let sb := argsSb args
  match s.argsFault f args with
  | some i => s.faultFiring f i
  | none =>
    if sbDead sb then s.toUnitOf f o 1 none (cycles (argLines args)) (outBoth o (outOf 0 f.tag (0, sb))) none args sb
    else match body with
      | none => s.faultFiring f (f.info cBuffer sb)
      | some r =>
        let sb' := sb ||| (r.2 &&& 0x1F)
        s.toUnitOf f o 1 none (cycles (argLines args)) (outBoth o (outOf 0 f.tag (r.1, sb'))) none args sb'

end Sys2Proof.Machine
end

