-- ==== Sys2Proof/Machine/Buffers.lean ====
section
/-! DEFINITION. Buffer instructions (06 R211 to R220) and the life of slots (10 R311 to R323). Each firing acts on the element's buffers
as one step (R212). -/

namespace Sys2Proof.Machine

/-! ### Life (R312, R315) -/

/-- now + LIFE. -/
def Elem.stampAt (el : Elem) (life : Nat) : BitVec 32 := el.retcnt + BitVec.ofNat 32 life

/-! ### Allocation (R97, R213) -/

/-- Answers to a request for a buffer. -/
inductive Alloc where
  /-- BUFFER. -/
  | bad
  /-- A keep request that the budget lacks. -/
  | refused
  | ok (n : Nat) (b : Buf)
  deriving DecidableEq, Repr

/-- Lines of the scratchpad that a buffer takes. -/
def Buf.meetsLines (b : Buf) (lo n : Nat) : Bool := decide (b.base < lo + n) && decide (lo < b.base + b.size * b.depth)

/-- Allocates from a descriptor of Table 3.14 in a context slot of an element (R213, R279). -/
def allocDesc (el : Elem) (x : Ctx) (d : Word) : Alloc :=
  let n := nfld d 0 5
  let base := nfld d 8 13; let size := nfld d 21 13; let depth := nfld d 34 4 + 1; let life := nfld d 38 9
  let keep := bit d 47
  let len := size * depth
  let sp := scratch x.partwd
  let others := x.bufs.any fun b => match b.2 with | some v => v.meetsLines base len | none => false
  if nfld d 48 16 ≠ 0 ∨ nfld d 5 3 ≠ 0 ∨ size = 0 ∨ life = 0 ∨ 400 < life ∨ (tget none x.bufs n).isSome ∨ base < sp.1 ∨ sp.2 < base + len ∨ others then .bad
  else if keep && !(decide (ctxKept x + len ≤ wKq x.partwd) && decide (elemKept el + len ≤ 4096)) then .refused
  else .ok n ⟨base, size, depth, life, keep, 0, List.replicate depth .empty⟩

/-- A result of a buffer firing. -/
def State.bufDone (s : State) (f : Firing) (o : Ops) (v : Word) (sb : BitVec 8) : State := s.fire f o 1 (outBoth o (outOf 0 f.tag (v, sb))) sb

/-- Buffer number of IMM. -/
def bufOf (o : Ops) : Nat := nfld o.imm 0 5

/-- BFAL (R213). -/
def execBfal (o : Ops) (s : State) : Res := s.flow fun f =>
  let d := s.opVal .x64 o.imm o.a
  let sb := sbOr [d.sb, (s.opVal .x64 o.imm o.b).sb]
  if sbDead sb then s.bufDone f o 0 sb
  else match allocDesc (s.elem f.e) (s.ctx f.e f.ctx) d.v with
    | .bad => s.faultFiring f (f.info cBuffer sb)
    | .refused => s.bufDone f o 1 sb
    | .ok n b => (s.setBuf f.e f.ctx n (some b)).bufDone f o 0 sb

/-- BFFR (R214). -/
def execBffr (o : Ops) (s : State) : Res := s.flow fun f =>
  let sb := (s.opVal .x64 o.imm o.a).sb
  if sbDead sb then s.bufDone f o 0 sb
  else match s.buf f.e f.ctx (bufOf o) with
    | none => s.faultFiring f (f.info cBuffer sb)
    | some _ => (s.setBuf f.e f.ctx (bufOf o) none).bufDone f o 0 sb

/-- The buffer after a change of LIFE and KEEP: the slots that hold data are kept when KEEP is set; when it falls those that KP had
granted stay kept, and a renewal of a slot stops (R216, R319; 10 "The keep walk and BFLIFE"). -/
def Buf.relife (b : Buf) (life : Nat) (keep : Bool) : Buf :=
  let ch := fun q : Slot => if keep then { q with kept := q.data } else if b.keep then { q with kept := q.granted, renew := none } else q
  { b with life := life, keep := keep, slots := b.slots.map ch }

/-- BFLIFE (R215). -/
def execBflife (o : Ops) (s : State) : Res := s.flow fun f =>
  let w := s.opVal .x64 o.imm o.a
  let sb := sbOr [w.sb, (s.opVal .x64 o.imm o.b).sb]
  let n := bufOf o
  if sbDead sb then s.bufDone f o 0 sb
  else match s.buf f.e f.ctx n with
    | none => s.faultFiring f (f.info cBuffer sb)
    | some b =>
      if nfld w.v 10 54 ≠ 0 ∨ nfld w.v 0 9 = 0 ∨ 400 < nfld w.v 0 9 then s.faultFiring f (f.info cBuffer sb)
      else
        let s0 := s.setBuf f.e f.ctx n (some (b.relife (nfld w.v 0 9) (bit w.v 9)))
        let s1 := (rangeFrom 0 b.depth).foldl (fun (s : State) i => s.ageSlot f.e f.ctx n i) s0
        if bit w.v 9 && !b.keep && !(s1.keepFits f.e f.ctx 0) then s.bufDone f o 1 sb else s1.bufDone f o 0 sb

/-- Slot and element index of a position operand. -/
def posSlot (v : Word) : Nat := nfld v 16 4
def posElem (v : Word) : Nat := nfld v 0 16
/-- A position operand is in range for a buffer and a width (R217). -/
def posOk (b : Buf) (bits : Nat) (v : Word) : Bool :=
  nfld v 20 44 == 0 && decide (posElem v * bits / 8 < b.size * 64) && decide (posSlot v < b.depth)

/-- A write of a slot stands in it (R216, R315, R319): kept by the buffer, or by KP when the budget allows. -/
def State.slotWritten (s : State) (e c n i : Nat) (kp : Bool) (g : Slot → Slot) : State :=
  match s.buf e c n with
  | none => s
  | some b =>
    let s0 := s.setBuf e c n (some (b.setSlot i { b.slot i with kept := false }))
    let grant := !b.keep && kp && s0.keepFits e c b.size
    let q := b.slot i
    s0.setBuf e c n (some (b.setSlot i (g { q with
      stamp := (s.elem e).stampAt b.life, data := true, exp := false, kept := b.keep || grant, warned := false, granted := grant, renew := none })))

/-- A BFWR waits for its slot to be empty (R217). -/
def State.bfwrReady (s : State) (f : Firing) (o : Ops) : Bool :=
  let x := s.opVal o.ty o.imm o.a
  let p := s.opVal .x64 o.imm o.b
  match s.buf f.e f.ctx (bufOf o) with
  | some b => sbDead (sbOr [x.sb, p.sb]) || !posOk b (tyBits o.ty) p.v || !(b.slot (posSlot p.v)).full
  | none => true
/-- Bytes of a BFWR over the lines of its slot, all of which it rewrites. -/
def Elem.bfwr (el : Elem) (b : Buf) (i at_ : Nat) (d : List Byte) : Elem :=
  let base := b.slotByte i
  (el.poolWrite base (mgetN el.pool base (64 * b.size))).poolWrite (base + at_) d

/-- BFWR (R217). A poisoned operand raises POISON (R22). -/
def execBfwr (o : Ops) (s : State) : Res := s.flow fun f =>
  let x := s.opVal o.ty o.imm o.a
  let p := s.opVal .x64 o.imm o.b
  let sb := sbOr [x.sb, p.sb]
  let n := bufOf o
  let setf := bit o.imm 5
  let w := tyBits o.ty
  let res := fun pay : Word => outBoth o (if setf then refOut f sb pay else outOf 0 f.tag (0, sb))
  if sbPZ sb then s.faultFiring f { f.info cPoison sb with acc := 1 }
  else if sbNL sb then s.fire f o 1 (res 0) sb
  else match s.buf f.e f.ctx n with
    | none => s.faultFiring f (f.info cBuffer sb)
    | some b =>
      let i := posSlot p.v
      if !posOk b w p.v then s.faultFiring f (f.info cBuffer sb)
      else if (b.slot i).full then s.unfire f
      else if (b.slot i).exp then
        s.faultFiring f { f.info cStale sb with addr := packNat [(0, 5, n), (5, 4, i), (32, 32, (b.slot i).stamp.toNat)], acc := 1 }
      else
        let s1 := s.setElem f.e ((s.elem f.e).bfwr b i (posElem p.v * w / 8) (bvBytes x.v (w / 8)))
        let s2 := s1.slotWritten f.e f.ctx n i (bit o.fl 5) fun q => { q with full := setf, hv := false, lines := b.size }
        let s3 := if setf then match s2.buf f.e f.ctx n with
          | some b2 => s2.setBuf f.e f.ctx n (some { b2 with widx := (i + 1) % b2.depth })
          | none => s2 else s2
        s3.fire f o 1 (res (mkRef n i b.size)) sb

/-- Releases slots that a firing read (R162). -/
def State.releaseAll (s : State) (e c : Nat) (l : List (Nat × Nat)) : State := l.foldl (fun (s : State) q => s.modSlot e c q.1 q.2 Slot.freed) s

/-- BFRD (R218). -/
def execBfrd (o : Ops) (s : State) : Res := s.flow fun f =>
  let a := s.arg f o.ty o.a (bit o.imm 5)
  let x := s.opVal .x64 o.imm o.b
  let w := tyBits o.ty / 8
  let at_ := x.v.toNat * w
  match s.argFault f a with
  | some i => s.faultFiring f i
  | none =>
    let nosb := sbOr [match o.a with | .port n => (f.portVal n.toNat).sb | _ => 0, x.sb]
    let s1 := s.releaseAll f.e f.ctx (releases [a])
    if sbDead nosb then s1.bufDone f o 0 nosb
    else if 64 * a.lines ≤ at_ then s.faultFiring f (f.info cBuffer nosb)
    else
      let bad := match a.ref with
        | some r => (match s.buf f.e f.ctx r.1 with | some b => poolPoisoned (s.elem f.e) (b.slotByte r.2 + at_) w | none => false)
        | none => false
      if bad then s1.bufDone f o 0 (nosb ||| sbPoison)
      else s1.bufDone f o (tyExtend o.ty (ofBytes ((a.bytes.drop at_).take w))) nosb

/-- The status word of a slot (Table 6.7). -/
def State.bufStatus (s : State) (e c n i : Nat) : Word :=
  let free := 4096 - elemKept (s.elem e)
  match s.buf e c n with
  | none => pack 64 [(32, 13, free)]
  | some b =>
    let q := b.slot i
    pack 64 [(32, 13, free), (13, 4, b.widx), (12, 1, 1), (11, 1, b2n q.exp), (10, 1, b2n q.kept), (9, 1, b2n q.full), (0, 9, q.remain (s.elem e).retcnt)]
/-- BFQRY (R219). -/
def execBfqry (o : Ops) (s : State) : Res := s.flow fun f =>
  let sb := (s.opVal .x64 o.imm o.a).sb
  let i := nfld o.imm 5 4
  let beyond := match s.buf f.e f.ctx (bufOf o) with | some b => decide (b.depth ≤ i) | none => false
  if sbDead sb then s.bufDone f o 0 sb
  else if beyond then s.faultFiring f (f.info cBuffer sb)
  else s.bufDone f o (s.bufStatus f.e f.ctx (bufOf o) i) sb

/-- A renewal of the slot begins: it will stand at a stamp when it ends (R315, R321). -/
def Slot.renewing (q : Slot) (stamp : BitVec 32) : Slot := { q with renew := some stamp }
/-- RENEW (R220): an empty slot is passed over; its renewals begin when it issues and end with its last line (DESIGN CHOICE, log entry 99). A SLOT that
the buffer does not have raises BUFFER (DESIGN CHOICE, log entry 111). -/
def execRenew (o : Ops) (s : State) : Res := s.flow fun f =>
  let sb := (s.opVal .x64 o.imm o.a).sb
  let n := bufOf o
  if sbDead sb then s.bufDone f o 0 sb
  else match s.buf f.e f.ctx n with
    | none => s.faultFiring f (f.info cBuffer sb)
    | some b =>
      let is := if bit o.imm 9 then rangeFrom 0 b.depth else [nfld o.imm 5 4]
      if is.any fun i => decide (b.depth ≤ i) then s.faultFiring f (f.info cBuffer sb)
      else match lfind (fun i => (b.slot i).full && (b.slot i).exp) is with
        | some i => s.faultFiring f { f.info cStale sb with addr := packNat [(0, 5, n), (5, 4, i), (32, 32, (b.slot i).stamp.toNat)], acc := 3 }
        | none =>
          let st := (s.elem f.e).stampAt b.life
          let full := is.filter fun i => (b.slot i).full
          let b' := full.foldl (fun (b : Buf) i => b.setSlot i ((b.slot i).renewing st)) b
          let lines := b.size * full.length
          let outs := outBoth o (outOf 0 f.tag (0, sb))
          let s1 := ((s.setBuf f.e f.ctx n (some b')).latch f o sb).settle f.e (tagCol f.tag) f.count (outCount outs)
          let u : UnitOp := ⟨f.e, f.ctx, f.slot, f.tag, s.cycle + (if lines = 0 then 1 else lines), 0, none, outs, none, [], full.map fun i => (n, i)⟩
          { s1 with fab := { s1.fab with units := s1.fab.units ++ [u] }, focus := .thread 0 }

/-! ### The retention counter and expiry (R311, R315, R265) -/

/-- Slots of an element: context slot, buffer, slot. -/
def Elem.slots (el : Elem) : List (Nat × Nat × Nat × Slot) :=
  (el.ctxs.map fun x => (x.2.bufs.map fun b => match b.2 with
    | some v => (rangeFrom 0 v.depth).map fun i => (x.1, b.1, i, v.slot i)
    | none => []).flatten).flatten
/-- Sends the EXPIRY events that are due at an element (R265). -/
def State.warnAll (s : State) (e : Nat) : List (Nat × Nat × Nat × Slot) → State
  | [] => s
  | (c, b, i, q) :: l =>
    let p := (s.partOfElem e).getD 0
    let r := q.remain (s.elem e).retcnt
    if q.data && !q.exp && !q.kept && !q.warned && (s.ctx e c).prio == 0 && decide (r ≤ (s.part p).expwarn) then
      ((s.modSlot e c b i fun v => { v with warned := true }).sendEvent p (mkEvent 8 (b + 32 * i) 0 c 0 e 0 r 0 0)).warnAll e l
    else s.warnAll e l
/-- The slots of a context slot of an element. -/
def Elem.ctxSlots (el : Elem) (c : Nat) : List (Nat × Nat × Nat × Slot) := el.slots.filter fun x => x.1 == c
/-- Sets PRIO of a context slot at an element; at priority 0 the EXPIRY events of its slots fall due (R247, R265). -/
def State.setPrio (s : State) (e c n : Nat) : State :=
  let s1 := s.setCtx e c { s.ctx e c with prio := n }
  if n = 0 then s1.warnAll e ((s1.elem e).ctxSlots c) else s1
/-- Bounds of a life unit in fabric cycles, 0.8 and 1.25 µs at a step of the clock (R311). -/
def State.lifeMin (s : State) : Nat := stepMhz s.mgmt.fclk * 4 / 5
def State.lifeMax (s : State) : Nat := stepMhz s.mgmt.fclk * 5 / 4
/-- RETCNT_TICK (R311): a life unit ends, 0.8 µs at least after the last. The warnings due are sent, the slots whose stamp is reached expire in the
same cycle, and the warnings then due are sent. -/
def execRetcntTick (e : Nat) (s : State) : Res :=
  if 2304 ≤ e ∨ s.cycle - (s.elem e).tickAt < s.lifeMin then .next s
  else
    let s0 := s.warnAll e (s.elem e).slots
    let s1 := s0.setElem e { s0.elem e with retcnt := (s0.elem e).retcnt + 1, tickAt := s.cycle }
    let s2 := (s1.elem e).slots.foldl (fun (s : State) x => s.ageSlot e x.1 x.2.1 x.2.2.1) s1
    .next (s2.warnAll e (s2.elem e).slots)
/-- SLOT_EXPIRY (R315): a slot whose stamp has passed is marked expired. -/
def execSlotExpiry (e c b n : Nat) (s : State) : Res := .next (s.ageSlot e c b n)

end Sys2Proof.Machine
end

