-- ==== Sys2Proof/Machine/Steward.lean ====
section
/-! DEFINITION. Steward control and memory instructions (04 R132 to R138), the admission of offers at entry ports (09 R290, R339) and
the starts and restarts of threads (R137, R258). -/

namespace Sys2Proof.Machine

/-- Runs a steward instruction on the thread in focus; the fabric runs none. -/
def State.onThread (s : State) (g : Nat → Thread → State) : Res :=
  match s.focus with
  | .thread t => .next (g t (s.thread t))
  | .node _ => .next { s with focus := .thread 0 }

/-! ### Branches (R134) -/

/-- The target of a relative branch. -/
def Thread.away (th : Thread) (o : Ops) : Word := th.pc + BitVec.ofInt 64 o.imm.toInt

/-- BR. -/
def execBr (o : Ops) (s : State) : Res := s.onThread fun t th => s.setThread t { th with pc := th.away o }

/-- A conditional branch on a relation of the two operands. -/
def State.branch (s : State) (o : Ops) (rel : Word → Word → Bool) : Res := s.onThread fun t th =>
  s.setThread t { th with pc := if rel (s.opVal o.ty o.imm o.a).v (s.opVal o.ty o.imm o.b).v then th.away o else th.pc + 1 }

def execBrcEq (o : Ops) (s : State) : Res := s.branch o fun a b => uv o.ty a == uv o.ty b
def execBrcNe (o : Ops) (s : State) : Res := s.branch o fun a b => uv o.ty a != uv o.ty b
def execBrcLt (o : Ops) (s : State) : Res := s.branch o fun a b => decide (sv o.ty a < sv o.ty b)
def execBrcGe (o : Ops) (s : State) : Res := s.branch o fun a b => decide (sv o.ty b ≤ sv o.ty a)
def execBrcLtu (o : Ops) (s : State) : Res := s.branch o fun a b => decide (uv o.ty a < uv o.ty b)
def execBrcGeu (o : Ops) (s : State) : Res := s.branch o fun a b => decide (uv o.ty b ≤ uv o.ty a)

/-- CALL. -/
def execCall (o : Ops) (s : State) : Res := s.onThread fun t th =>
  s.setThread t { th.setDest (stewDest o.t0) (th.pc + 1) with pc := th.away o }

/-- RET. -/
def execRet (o : Ops) (s : State) : Res := s.onThread fun t th => s.setThread t { th with pc := (s.opVal .x64 o.imm o.a).v }

/-- HALT (R137). -/
def execHalt (_ : Ops) (s : State) : Res := s.onThread fun t th => s.haltThread t 0 (th.pc + 1)

/-! ### Entry ports (R135, R290) -/

/-- The proxy rules that SENDT and WAITT share (R135, R136): a trap code, if any. -/
def proxyTrap (th : Thread) (px : Bool) (sndr : Nat) : Option Nat :=
  if px then (if !th.super then some cPrivilege else if sndr < 64 then some cIllegal else none)
  else if sndr ≠ 0 then some cIllegal else none

/-- A trap whose EVAL is the high half of the word (R259). -/
def State.trapWord (s : State) (t code : Nat) : State := s.trapAt t code (s.wordHigh t)

/-- SENDT (R135): offers a token and waits for the answer. -/
def execSendt (o : Ops) (s : State) : Res := s.onThread fun t th =>
  let d := (s.opVal .x64 o.imm o.b).v
  let px := bit d 54; let sndr := nfld d 46 8
  if nfld d 55 9 ≠ 0 then s.trapWord t cIllegal
  else match proxyTrap th px sndr with
    | some c => s.trapWord t c
    | none =>
      let off : Offer := ⟨t, s.partOfThread t, nfld d 44 2, nfld d 40 4, if px then sndr else t, mkTag 0 (nfld d 44 2) 0 (nfld d 24 16) (nfld d 0 24),
        tyExtend o.ty (s.opVal o.ty o.imm o.a).v.toNat, stewDest o.t0, .fresh, s.cycle, .thread⟩
      let s1 := s.setThread t { th with stall := .offer }
      { s1 with fab := { s1.fab with offers := s1.fab.offers ++ [off] } }

/-- The word is an ITER with RC set: a round source (R124). -/
def isRcIter (w : SlotWord) : Bool := nfld w 120 8 == 0x08 && bit w 25
/-- A load has a round source (R338). -/
def State.hasRounds (s : State) (l : Load) : Bool :=
  l.foot.any fun e => (s.ctx e (dCtx l.desc)).words.any fun x => match x.2 with | some w => isRcIter w | none => false
/-- The ENTRY node of an entry port: element and slot word. -/
def State.entryNode (s : State) (l : Load) (port : Nat) : Option (Nat × Nat) :=
  let at_ := fun e => tfind (fun _ w => w.bind entryPort == some port) (s.ctx e (dCtx l.desc)).words
  match lfind (fun e => (at_ e).isSome) l.foot with
  | some e => (at_ e).map fun n => (e, n)
  | none => none

/-- The decision on an offer (R290): a status, a wait, or an admission on a colour. -/
inductive Decision where
  | status (n : Nat)
  | wait
  | letIn (c : Nat) (l : Load)
  deriving Repr

/-- O, unless the next admission sets it afresh. -/
def ColLoad.first (x : ColLoad) : Option Nat := if x.afresh then none else x.oldest
/-- What INFLT is tested against: QUOTA; for the token of a save or restore path, while a drain holds QUOTA at 0, BASINLEN (DESIGN CHOICE, log entry
69). -/
def Offer.limit (o : Offer) (x : Colour) : Nat := match o.who with | .path _ => x.basinlen | _ => x.quota
/-- The steps of R290, before the admission. -/
def State.decideOn (s : State) (o : Offer) : Decision :=
  let p := s.part o.part
  if p.cut != .idle then .status 3
  else match s.loadIn o.part o.ctx fun l => bit (dEntrymask l.desc) o.eport && l.live with
    | none => .status 2
    | some l =>
      let b := tget 0 p.bind (256 * o.ctx + o.sender)
      if !bit b 12 then .status 2
      else
        let c := nfld b 0 12
        let id := dLoadid l.desc
        if s.fab.sysops.any (fun q => match q.kind with | .purge _ col _ _ _ => col == c | _ => false) then .wait
        else if s.hasRounds l && (s.colLoad c id).first.isSome && decide (s.window c (some l) ≤ age (s.oldest c id) (tagIter o.tag)) then .wait
        else if o.limit (s.colour c) ≤ (s.colour c).inflt then .status 1
        else .letIn c l

/-- O after an admission (R16, R339). Set afresh, it is NEXT of every BAR of the colour and load (R121), and the working copies of its AGENs are
taken again (R198), but not under the accesses and rounds of an earlier launch (DEDUCED, log entry 91). -/
def State.admitOldest (s : State) (c : Nat) (l : Load) (i : Nat) : State :=
  let id := dLoadid l.desc
  let x := s.colLoad c id
  match x.first with
  | none =>
    let s1 := s.setColLoad { x with oldest := some i, afresh := false, next := i }
    let busy := (s.fab.rounds.any fun r => r.col == c && r.load == id && r.state != .committed) || s.port.accesses.any fun a => tagCol a.tag == c && a.load == id
    let stale := fun g : Agen => g.col == c && g.ctx == dCtx l.desc && l.foot.contains g.e && !busy
    { s1 with fab := { s1.fab with bars := s1.fab.bars.filter fun b => !(b.col == c && b.load == id) },
              port := { s1.port with agens := s1.port.agens.filter fun g => !stale g } }
  | some o =>
    let w := s.window c (some l)
    if !s.hasRounds l && decide (age o i < 8388608) && decide (w ≤ age o i) then
      s.setColLoad { x with oldest := some ((i + iterMod + 1 - w) % iterMod) }
    else s

/-- Admits a token at an entry port (R129, R290). -/
def State.letIn (s : State) (o : Offer) (c : Nat) (l : Load) : State :=
  let id := dLoadid l.desc
  let s1 := (s.admitOldest c l (tagIter o.tag)).inflUp c 1
  let tag := mkTag c o.ctx (s1.colLoad c id).egen.toNat (tagKey o.tag) (tagIter o.tag)
  let n := (s.entryNode l o.eport).getD (l.foot.headD 0, 0)
  s1.addToken ⟨tag, 0, .scalar, o.pay, none, .node n.1 n.2 0, .entryq o.eport, s1.parkedFor tag id, 0, id, []⟩

/-- The answer to an offer: the thread goes on (R135), or the firmware has its status (R419, R439, R441). -/
def State.answerOffer (s : State) (k : Nat) (o : Offer) (status : Nat) : State :=
  let s1 : State := { s with fab := { s.fab with offers := dropNth s.fab.offers k } }
  match o.who with
  | .launch q n =>
    { s1 with host := { s1.host with launches := s1.host.launches.map fun l => if l.qslot == q && l.n == n then { l with asked := .got status } else l } }
  | .path load =>
    { s1 with host := { s1.host with evicted := s1.host.evicted.map fun v => if v.part == o.part && dLoadid v.desc == load then { v with asked := .got status } else v } }
  | .thread => s1.setThread o.thread { ((s1.thread o.thread).setDest o.dest (BitVec.ofNat 64 status)).advance with stall := .none }

/-- Takes the k-th offer to its decision (R290). -/
def State.decideOffer (s : State) (k : Nat) (o : Offer) : State :=
  match s.decideOn o with
  | .status n => s.answerOffer k o n
  | .wait => { s with fab := { s.fab with offers := setNth s.fab.offers k { o with wait := .waiting } } }
  | .letIn c l => (s.letIn o c l).answerOffer k o 0

/-- The colour bound for an offer, and the die of the hub port element that serves its entry port. -/
def State.offerCol (s : State) (o : Offer) : Option Nat :=
  let b := tget 0 (s.part o.part).bind (256 * o.ctx + o.sender)
  if bit b 12 then some (nfld b 0 12) else none
def State.offerHub (s : State) (o : Offer) : Nat :=
  match s.loadIn o.part o.ctx fun l => bit (dEntrymask l.desc) o.eport && l.live with | some l => dieOf (s.controller l) | none => 0
/-- CPRIO of an offer's colour; an unbound offer ranks lowest. -/
def State.offerPrio (s : State) (o : Offer) : Nat := match s.offerCol o with | some c => (s.colour c).cprio + 1 | none => 0
/-- An undecided offer is taken before another: at one port that of the earlier cycle, and in one cycle that of the higher CPRIO, then of
the lower SENDER (R291); of one colour at several ports in one cycle, that of the lower hub port, then of the lower entry port (R309). -/
def State.offerBefore (s : State) (a b : Offer) : Bool :=
  let lex := fun (x y : Nat) (r : Bool) => decide (x < y) || (x == y && r)
  let samePort := a.part == b.part && a.ctx == b.ctx && a.eport == b.eport
  a.wait == .fresh && (if samePort then lex a.since b.since (lex (s.offerPrio b) (s.offerPrio a) (decide (a.sender < b.sender)))
    else (s.offerCol a).isSome && s.offerCol a == s.offerCol b && a.since == b.since &&
      lex (s.offerHub a) (s.offerHub b) (decide (a.eport < b.eport)))
/-- An arbiter may take an offer: it has come in an earlier cycle, and no other goes before it. -/
def State.offerTurn (s : State) (o : Offer) : Bool := decide (o.since < s.cycle) && !s.fab.offers.any fun a => s.offerBefore a o
/-- ENTRY_OFFER (R290, R291, R309): an arbiter takes an offer that it has not decided yet, when its turn has come. -/
def execEntryOffer (k : Nat) (s : State) : Res :=
  .next (match nth? s.fab.offers k with
    | some o => if o.wait == .fresh && s.offerTurn o then s.decideOffer k o else s
    | none => s)

/-- ENTRY_OFFER_RELEASED (R290): an offer that waited is decided. -/
def execEntryOfferReleased (k : Nat) (s : State) : Res :=
  .next (match nth? s.fab.offers k with
    | some o => if o.wait == .waiting then s.decideOffer k o else s
    | none => s)

/-! ### WAITT (R136) -/

/-- The source that a WAITT descriptor names for a thread: its kind and, at an exit port, the colour bound. -/
structure Source where
  part : Nat
  event : Bool
  ctx : Nat
  port : Nat
  col : Option Nat
  deriving DecidableEq, Repr

/-- The source of a descriptor. -/
def State.sourceOf (s : State) (t : Nat) (d : Word) : Source :=
  let p := s.partOfThread t
  let sender := if bit d 7 then nfld d 8 8 else t
  let b := tget 0 (s.part p).bind (256 * nfld d 4 2 + sender)
  ⟨p, bit d 6, nfld d 4 2, nfld d 0 4, if bit b 12 then some (nfld b 0 12) else none⟩
/-- A number for a source, for the order of waits: that of the colour bound when the arbiter looks (R136). -/
def Source.code (x : Source) : Nat :=
  ((x.part * 2 + b2n x.event) * 64 + (if x.event then 0 else 16 * x.ctx + x.port)) * 4097 + (if x.event then 0 else x.col.getD 4096)

/-- The oldest token of a colour at an exit port (R292). -/
def State.exitToken (s : State) (x : Source) (c : Nat) : Option Nat :=
  let here := fun t : Token => t.place == .exitq && !t.parked && t.dst == .exit x.port && tagCol t.tag == c && tagCtx t.tag == x.ctx
  findIdx? (fun t => here t && !(s.fab.tokens.any fun u => here u && u.before t)) s.fab.tokens 0

/-- The token leaves its exit queue and flight (R292). -/
def State.takeExit (s : State) (k c : Nat) : State := (s.setTokens (dropNth s.fab.tokens k)).inflDown c 1

/-- The thread's WAITT ends with two values. -/
def State.waitDone (s : State) (t : Nat) (o : Ops) (v w : Word) (sb : BitVec 8) (ev : Option (Word × Word)) : State :=
  let d := nfld o.t0 0 6
  let th := s.thread t
  let th1 := ((th.setReg d v).setReg (d + 1) w).sticky sb
  let th2 := { th1 with status := if sbNL sb then th1.status ||| 0x40 else th1.status, stall := .none }
  let th3 := match ev with | some e => { th2 with evtx0 := e.1, evtx1 := e.2 } | none => th2
  let s1 := s.setThread t th3.advance
  { s1 with stew := { s1.stew with waiters := s1.stew.waiters.filter fun x => x.1 != t } }

/-- The source holds something that the thread may take; the state after it is taken. -/
def State.tryTake (s : State) (t : Nat) (o : Ops) (x : Source) : Option State :=
  let first := match lfind (fun w => (s.sourceOf w.1 w.2).code == x.code) s.stew.waiters with | some w => w.1 == t | none => true
  if !first then none
  else if x.event then
    match s.takeEvent x.part with
    | some (ev, s1) => some (s1.waitDone t o (dword ev 0) (dword ev 1) 0 (some (dword ev 2, dword ev 3)))
    | none => none
  else match x.col with
    | none => none
    | some c => match s.exitToken x c with
      | none => none
      | some k => match nth? s.fab.tokens k with
        | none => none
        | some tk =>
          let s1 := s.takeExit k c
          if sbPZ tk.sb then
            let s2 : State := { s1 with stew := { s1.stew with waiters := s1.stew.waiters.filter fun w => w.1 != t } }
            some (s2.trapAt t cPoison (tagClean tk.tag).toNat)
          else some (s1.waitDone t o tk.pay (tagClean tk.tag) tk.sb none)

/-- WAITT (R136): takes from its source, or waits. -/
def execWaitt (o : Ops) (s : State) : Res := s.onThread fun t th =>
  let d := (s.opVal .x64 o.imm o.a).v
  let px := bit d 7; let sndr := nfld d 8 8
  if nfld d 16 48 ≠ 0 ∨ (bit d 6 ∧ nfld d 7 9 ≠ 0) then s.trapWord t cIllegal
  else match proxyTrap th px sndr with
    | some c => s.trapWord t c
    | none =>
      let x := s.sourceOf t d
      match s.tryTake t o x with
      | some s1 => s1
      | none =>
        match th.stall with
        | .waitt _ => s
        | _ =>
          let s1 := s.setThread t { th with stall := .waitt (if o.imm = 0 then none else some (s.cycle + o.imm.toNat * 1024)) }
          { s1 with stew := { s1.stew with waiters := s1.stew.waiters ++ [(t, d)] } }

/-- WAITT_TIMEOUT (R136): the limit has passed and nothing has come. -/
def execWaittTimeout (t : Nat) (s : State) : Res :=
  .next (match (s.thread t).stall with
    | .waitt (some d) =>
      if s.cycle < d then s
      else
        let th := s.thread t
        match decode (tget 0 (s.image th.image).words th.pc.toNat) with
        | .ok i => match sig i with
          | some g =>
            let sel := match g.o.a with | .reg n => th.reg n.toNat | _ => 0
            match s.tryTake t g.o (s.sourceOf t sel) with
            | some _ => s
            | none => s.waitDone t g.o 0 ones64 0 none
          | none => s
        | .error _ => s
    | _ => s)

/-! ### LD and ST (R138) -/

/-- Bytes of an access in a type. -/
def tyBytes (ty : Ty) : Nat := (tyBits ty + 7) / 8

/-- The trap code of a failed walk (R138, Table 6.5). -/
def walkTrap (c : Nat) : Nat := if c = 2 then cProtection else if c = 4 then cPoison else cTranslation

/-- The physical address and key slot of a steward access, or a trap code, or an address that is no memory. -/
def State.stewPhys (s : State) (t va : Nat) (write : Bool) : Except (Nat ⊕ Nat) (Nat × Nat) :=
  let asid := (s.thread t).asid.toNat
  match s.walkPlain asid va write with
  | .ok x => if x.cv then .error (.inl cProtection)
    else .ok (x.phys va, s.keyFor (s.partOfThread t) x va (s.stewKey (s.partOfThread t) asid))
  | .fail c => .error (.inl (walkTrap c))
  | .nowhere a => .error (.inr a)

/-- The virtual address of an LD or ST. -/
def State.ldAddr (s : State) (o : Ops) : Nat := ((s.opVal .x64 o.imm o.a).v + BitVec.ofInt 64 o.imm.toInt).toNat

/-- Checks shared by LD and ST before the access: a trap code (R138, R287). -/
def State.ldTrap (s : State) (t : Nat) (o : Ops) (va : Nat) : Option Nat :=
  let n := tyBytes o.ty
  if va / 2 ^ 57 ≠ 0 then some cTranslation
  else if windowOf va ≠ .none then (if n = 8 ∧ va % 8 = 0 ∧ (s.thread t).super then none else some cProtection)
  else if va % n ≠ 0 then some cAlign
  else none

/-- LD. -/
def execLd (o : Ops) (s : State) : Res :=
  match s.focus with
  | .node _ => .next { s with focus := .thread 0 }
  | .thread t =>
    let va := s.ldAddr o
    match s.ldTrap t o va with
    | some c => .next (s.trapAt t c va)
    | none =>
      if windowOf va ≠ .none then
        match s.windowRead (s.partOfThread t) (windowOf va) with
        | .ok v => .next (s.finishWord t (stewDest o.t0) (tyExtend o.ty v.toNat))
        | .error c => .next (s.trapAt t c va)
      else match s.stewPhys t va false with
        | .error (.inl c) => .next (s.trapAt t c va)
        | .error (.inr a) => .fault (.noMemory a)
        | .ok (pa, key) =>
          if s.mem.bad pa (tyBytes o.ty) then .next (s.trapAt t cPoison va)
          else .next (s.finishWord t (stewDest o.t0) (tyExtend o.ty (ofBytes (s.mem.read key pa (tyBytes o.ty)))))

/-- Clears the side-band bits kept for a datum (R205). -/
def Mem.clearSb (m : Mem) (a n : Nat) : Mem := { m with sbits := m.sbits.filter fun e => !(decide (a ≤ e.1) && decide (e.1 < a + n)) }

/-- ST; the data goes out least significant byte first (R4), at device scope (R327). -/
def execSt (o : Ops) (s : State) : Res :=
  match s.focus with
  | .node _ => .next { s with focus := .thread 0 }
  | .thread t =>
    let va := s.ldAddr o
    let b := (s.opVal o.ty o.imm o.b).v
    match s.ldTrap t o va with
    | some c => .next (s.trapAt t c va)
    | none =>
      if windowOf va ≠ .none then
        match s.windowWrite (s.partOfThread t) (windowOf va) b with
        | some s1 => .next (s1.setThread t (s1.thread t).advance)
        | none => .next (s.trapAt t cProtection va)
      else match s.stewPhys t va true with
        | .error (.inl c) => .next (s.trapAt t c va)
        | .error (.inr a) => .fault (.noMemory a)
        | .ok (pa, key) =>
          let m := (s.mem.write key pa (bvBytes b (tyBytes o.ty))).clearSb pa (tyBytes o.ty)
          .next (((s.setMem m).dropWritten pa (tyBytes o.ty)).setThread t (s.thread t).advance)

/-! ### Starts, restarts and illegal fetches -/

/-- The partition of a thread's core exists. -/
def State.hasPart (s : State) (t : Nat) : Bool := (tfind (fun _ p => pV p.desc && bit (pCores p.desc) (t / 4)) s.parts).isSome

/-- A steward image passes the checks of Table 3.15 that apply to it, 1 to 7, over the header and the body that R100 gives it (R99). -/
def State.imageOk (s : State) (im : Image) : Bool :=
  let h := im.hdr
  let words := ((rangeFrom 0 im.size).map fun i => bvBytes (tget 0 im.words i) 16).flatten
  let zeroed := bvBytes (setFld (setFld h 480 512 0) 992 1056 0) 256
  nfld h 0 32 == 0x54535744 && nfld h 48 16 == 256 && decide (3 ≤ im.version) && decide (im.version ≤ 5) && nfld h 32 16 == im.version &&
  nfld h 288 32 == 16 * im.size + 4 && nfld h 192 96 == 0 && nfld h 320 32 == 0 && nfld h 384 32 == 0 && nfld h 416 64 == 0 &&
  decide (Config.sha512 (zeroed ++ words ++ bvBytes im.crc 4) = fld h 480 512) &&
  (match lfind (fun k => nfld k.2 0 32 == nfld h 352 32 && bit k.2 64 && !bit k.2 66) s.mgmt.keystore with
   | none => false
   | some k => Config.ecdsaVerify (fld k.2 96 1056) (bvBytes h 256 |>.take 124) (fld h 992 1056)) &&
  decide (crc32c words = im.crc)

/-- THREAD_START (R258): the state of a thread that the hub firmware first starts; an image that fails its checks starts none (R99, R100). -/
def execThreadStart (t : Nat) (s : State) : Res :=
  let th := s.thread t
  if t < 64 && s.hasPart t && !th.started && s.imageOk (s.image th.image) then
    .next (s.setThread t { Thread.reset with started := true, image := th.image, asid := BitVec.ofNat 16 (pAsid0 (s.part (s.partOfThread t)).desc) })
  else .next s

/-- THREAD_RESTART (R137): keeps every register and control register, and sets only PC. -/
def execThreadRestart (t : Nat) (pc : Word) (s : State) : Res :=
  let th := s.thread t
  if th.started && th.halted then .next (s.setThread t { th with halted := false, pc := pc, stall := .none }) else .next s

/-- The word that a thread would fetch is illegal, or lies outside its image (R85, R132). -/
def State.fetchIllegal (s : State) (t : Nat) : Bool :=
  let th := s.thread t
  let im := s.image th.image
  if th.pc.toNat < im.size then
    match decode (tget 0 im.words th.pc.toNat) with
    | .ok i => !legal im.version .steward i
    | .error _ => true
  else true

/-- ILLEGAL_WORD_FETCH (R85): the thread traps as ILLEGAL. -/
def execIllegalWordFetch (t : Nat) (s : State) : Res :=
  let th := s.thread t
  if th.started && !th.halted && s.fetchIllegal t then .next (s.trapIllegal t) else .next s

end Sys2Proof.Machine
end

