-- ==== Sys2Proof/Machine/Access.lean ====
section
/-! DEFINITION. Address generators and access nodes (06 R196 to R210), and the ports that perform their accesses (11 R325, R333 to R343,
R348, R352, R355). -/

namespace Sys2Proof.Machine

/-! ### Shape records (Table 6.2) -/

abbrev Shape := BitVec 384

def shBase (r : Shape) : Nat := nfld r 0 64
def shEsz (r : Shape) : Nat := 2 ^ nfld r 64 2
def shNdim (r : Shape) : Nat := nfld r 66 2 + 1
def shVw (r : Shape) : Bool := bit r 68
def shCls (r : Shape) : Bool := bit r 69
def shXslot (r : Shape) : Nat := nfld r 70 7
def shPeer (r : Shape) : Nat := nfld r 80 4
def shE (r : Shape) (d : Nat) : Nat := nfld r (128 + 64 * d) 32
def shS (r : Shape) (d : Nat) : Int := sval 32 (nfld r (160 + 64 * d) 32)

/-- OPC, TY, T0, T1 and IMM of a slot word (Table 3.1). -/
def wOpc (w : SlotWord) : Nat := nfld w 120 8
def wTy (w : SlotWord) : Ty := tyOf (fld w 112 4)
def wT0 (w : SlotWord) : BitVec 24 := fld w 52 24
def wT1 (w : SlotWord) : BitVec 24 := fld w 28 24
def wImm (w : SlotWord) : BitVec 16 := fld w 0 16
/-- The port that a word's T0 names. -/
def wPort (w : SlotWord) : Nat := (targetPnum (wT0 w)).getD 0
/-- The word is an AGEN that names a start port. -/
def isStreamAgen (w : SlotWord) : Bool := nfld w 88 12 != 0xFFF
/-- The word is an access node that names the AGEN of a slot. -/
def namesAgen (w : SlotWord) (g : Nat) : Bool := (wOpc w == 0xB1 || wOpc w == 0xB2 || wOpc w == 0xB3) && nfld w 0 7 == g
/-- The access node is an LDS or STS. -/
def isStreamNode (w : SlotWord) : Bool := wOpc w == 0xB1 && decide (nfld w 116 4 < 2)
/-- The access node writes. -/
def isStoreNode (w : SlotWord) : Bool := (wOpc w == 0xB1 && nfld w 116 4 % 2 == 1) || wOpc w == 0xB2 || (wOpc w == 0xB3 && nfld w 116 4 == 1)

/-- A record obeys R197 for an AGEN word of a context slot. -/
def State.shapeOk (s : State) (e c : Nat) (w : SlotWord) (r : Shape) : Bool :=
  let sp := spaceOf (wPort w)
  let used := (rangeFrom 0 4).all fun d => if d < shNdim r then shE r d != 0 else shE r d == 0 && shS r d == 0
  let xl := match s.slotWord e c (shXslot r) with | some x => shXslot r != 0x7F && wOpc x == 0xB5 | none => false
  nfld r 84 44 == 0 && nfld r 77 3 == 0 && used && (sp = .peer || shPeer r == 0) && (!shCls r || shNdim r == 1) &&
  (if sp = .global ∨ sp = .host then xl && (shVw r || nfld r 57 7 == 0) else shXslot r == 0x7F) && (sp ≠ .config || !shVw r) && shCls r == !isStreamAgen w
/-- The access nodes that name the AGEN fit its record (R198). -/
def State.nodesOk (s : State) (e c g : Nat) (r : Shape) : Bool :=
  (s.ctx e c).words.all fun x => match x.2 with
    | some w => !namesAgen w g || (tyBits (wTy w) == 8 * shEsz r && shCls r == !isStreamNode w)
    | none => true

/-! ### Working copies (R198) -/

def State.agenOf (s : State) (e c g col : Nat) : Option Agen := lfind (fun a => a.e == e && a.ctx == c && a.slot == g && a.col == col) s.port.agens
def State.setAgen (s : State) (a : Agen) : State :=
  let rest := s.port.agens.filter fun b => !(b.e == a.e && b.ctx == a.ctx && b.slot == a.slot && b.col == a.col)
  { s with port := { s.port with agens := rest ++ [a] } }
/-- The snapshot of a round, or the copy. -/
def Agen.snap (a : Agen) (rbase : Nat) : Shape := (tget none (a.snaps.map fun x => (x.1, some x.2)) rbase).getD a.copy

/-- POS of a fault record (R345). -/
def Agen.pos (a : Agen) (r : Shape) (rbase : Option Nat) : Nat :=
  match a.region, rbase with
  | some g, some b => if shCls r then 0 else (g.2 + age g.1 b) % 2 ^ 32
  | _, _ => 0
/-- POS for an iteration of a colour and load at an AGEN: that of the first iteration of its round. -/
def State.posAt (s : State) (e c g : Nat) (tag load : Word) : Nat :=
  let rb := (s.anyRound (tagCol tag) load (tagIter tag)).map fun r => r.rbase
  match s.agenOf e c g (tagCol tag) with | some a => a.pos (a.snap (rb.getD 0)) rb | none => 0
/-- The fault of a firing that names an AGEN. -/
def State.agenInfo (s : State) (f : Firing) (g code : Nat) (sb : BitVec 8) : FaultInfo :=
  { f.info code sb with agslot := g, pnum := wPort ((s.slotWord f.e f.ctx g).getD 0), pos := s.posAt f.e f.ctx g f.tag (s.loadidAt f.e f.ctx) }

/-- The working copy of a firing's colour, taken and checked now if there is none (R198). The six registers of a record that runs past the
context slot's banks are the pool bytes that follow (DESIGN CHOICE, log entry 96). -/
def State.takeCopy (s : State) (f : Firing) (g : Nat) (sb : BitVec 8) : Except FaultInfo (State × Agen) :=
  let col := tagCol f.tag
  match s.agenOf f.e f.ctx g col with
  | some a => .ok (s, a)
  | none =>
    let w := (s.slotWord f.e f.ctx g).getD 0
    let info := s.agenInfo f g cConfig sb
    let at_ := regByte (s.ctx f.e f.ctx).partwd (nfld w 100 10)
    let r : Shape := BitVec.ofNat 384 (ofBytes (mgetN (s.elem f.e).pool at_ 48))
    if poolPoisoned (s.elem f.e) at_ 48 then .error { info with code := cPoison }
    else if wOpc w = 0xB0 ∧ s.shapeOk f.e f.ctx w r ∧ s.nodesOk f.e f.ctx g r then
      let load := s.loadidAt f.e f.ctx
      let rs := s.fab.rounds.filter fun x => x.col == col && x.load == load
      let a : Agen := ⟨f.e, f.ctx, g, col, r, rs.map fun x => (x.rbase, r), none, none, 0, []⟩
      .ok (s.setAgen a, a)
    else .error info

/-- What read-ahead holds for an AGEN. -/
def Ahead.of (h : Ahead) (a : Agen) : Bool := h.e == a.e && h.ctx == a.ctx && h.gslot == a.slot && h.col == a.col
/-- AGEN (R196, R198, R199): a start token opens a region, and what had been read ahead for the one before is discarded. -/
def execAgen (o : Ops) (s : State) : Res := s.flow fun f =>
  let t := f.p0
  match s.takeCopy f f.slot t.sb with
    | .error i => s.faultFiring f i
    | .ok (s1, a) =>
      if sbPZ t.sb then s1.faultFiring f (s1.agenInfo f f.slot cPoison t.sb)
      else if sbNL t.sb then s1.fire f o 1 [] t.sb
      else ((s1.dropAhead fun h => h.of a).setAgen { a with region := some (tagIter f.tag, nfld t.pay 0 32), ra := tagIter f.tag, got := [] }).fire f o 1 [] t.sb

/-- PARAM (R202): one field of the working copy; the snapshots keep the old value until the next round opens. -/
def execParam (o : Ops) (s : State) : Res := s.flow fun f =>
  let v := s.opVal .x64 o.imm o.a
  let done := outBoth o ⟨0, v.sb, .scalar, 0, none, f.tag, f.hist⟩
  let g := nfld o.imm 0 7
  match s.takeCopy f g v.sb with
  | .error i => s.faultFiring f i
  | .ok (s1, a) =>
    if sbDead v.sb then s1.fire f o 1 done v.sb
    else
      let n := nfld o.imm 7 3
      let r := if n = 0 then setFld a.copy 0 64 v.v.toNat else setFld a.copy (128 + 64 * (n - 1)) 32 v.v.toNat
      let w := (s.slotWord f.e f.ctx g).getD 0
      if s1.shapeOk f.e f.ctx w r then (s1.setAgen { a with copy := r }).fire f o 1 done v.sb
      else s1.faultFiring f (s1.agenInfo f g cConfig v.sb)

/-! ### Addresses (R199, R385) -/

/-- The offset of a stream position; none beyond the shape. -/
def streamOff (r : Shape) : Nat → Nat → Nat → Int → Option Int
  | _, 0, _, off => some off
  | d, n + 1, q, off =>
    if n = 0 then (if shE r d ≤ q then none else some (off + q * shS r d))
    else streamOff r (d + 1) n (q / shE r d) (off + (q % shE r d : Nat) * shS r d)

/-- The address of an access; on the left, the code and address of its failure (R200 step 1). -/
def accessAddr (r : Shape) (region : Option (Nat × Nat)) (it : Nat) (idx : Word) : Except (Nat × Nat) Nat :=
  let base : Int := if shVw r then 0 else (shBase r : Int)
  if shCls r then
    let a := wrapInt 64 (base + idx.toNat * shS r 0)
    if shE r 0 ≤ idx.toNat then .error (cProtection, a) else .ok a
  else
    let g := region.getD (it, 0)
    match streamOff r 0 (shNdim r) ((g.2 + age g.1 it) % 2 ^ 32) 0 with
    | some off => .ok (wrapInt 64 (base + off))
    | none => .error (cConfig, 0)

/-! ### Translation (R210, R333, R334) -/

/-- A cached translation answers a request. -/
def Xent.hits (x : Xent) (asid va : Nat) : Bool := x.asid == asid && decide (x.page ≤ va) && decide (va < x.page + 2 ^ x.psz)
/-- Puts a translation first in an XLAT's cache of 64. -/
def Elem.cache (el : Elem) (x : Xent) : Elem :=
  { el with xlat := (x :: el.xlat.filter fun y => !(y.asid == x.asid && y.page == x.page && y.psz == x.psz)).take 64 }
/-- Looks a request up in the cache of an element's XLAT; a hit made for reading does not answer a request for writing. -/
def Elem.lookup (el : Elem) (asid va : Nat) (write : Bool) : Option Xent := lfind (fun x => x.hits asid va && (!write || x.fw)) el.xlat
/-- An AGEN requests translations for writing (R334). -/
def State.agenWrites (s : State) (a : Agen) (own : Bool) : Bool :=
  match s.slotWord a.e a.ctx a.slot with
  | some w => if isStreamAgen w then (s.ctx a.e a.ctx).words.any fun x => (match x.2 with | some v => namesAgen v a.slot && isStoreNode v | none => false) else own
  | none => own
/-- The frame token of a leaf (Table 6.5). -/
def frameToken (x : Xent) (va : Nat) : Word :=
  pack 64 [(63, 1, 1), (62, 1, b2n x.wr), (60, 2, match x.psz with | 16 => 0 | 21 => 1 | 29 => 2 | _ => 3), (0, 52, x.phys va)]
/-- A failed frame token. -/
def failToken (code va : Nat) : Word := pack 64 [(57, 3, code), (0, 57, va)]
/-- The fault code of a failed frame (R209). -/
def frameCode (k : Nat) : Nat := if k = 2 then cProtection else if k = 4 then cPoison else cTranslation

/-- XLAT (R209): a hit answers in 2 cycles; a miss walks through the named walker, which walks the colour's tables also at a hub port (DESIGN CHOICE,
log entry 110). -/
def execXlat (o : Ops) (s : State) : Res := s.flow fun f =>
  let t := f.p0
  let va := t.pay.toNat
  let write := bit o.imm 7
  let asid := (s.colour (tagCol f.tag)).asid
  let res := fun v : Word => outBoth o ⟨0, t.sb, .scalar, v, none, f.tag, t.hist⟩
  if sbDead t.sb then s.fire f o 1 (res 0) t.sb
  else if 2 ^ 57 ≤ va then s.fire f o 2 (res (failToken 3 va)) t.sb
  else match (s.elem f.e).lookup asid va write with
    | some x => (s.setElem f.e ((s.elem f.e).cache x)).fire f o 2 (res (if x.cv then failToken 2 va else frameToken x va)) t.sb
    | none =>
      let p := nfld o.imm 0 7
      let outs := res 0
      let w : Walk := ⟨p, f.e, asid, va, write, .xlat outs, s.cycle + 2 * s.toPort f.e p⟩
      let s1 := (s.latch f o t.sb).settle f.e (tagCol f.tag) f.count (outCount outs)
      { s1 with port := { s1.port with walks := s1.port.walks ++ [w] }, focus := .thread 0 }

/-- OFORK (R208): the chain token to both targets, with its bits 4:0. -/
def execOfork (o : Ops) (s : State) : Res := s.flow fun f =>
  s.fire f o 1 (outBoth o ⟨0, sbExc f.p0.sb, .scalar, 0, none, f.tag, f.p0.hist⟩) f.p0.sb
/-- OJOIN (R208). -/
def execOjoin (o : Ops) (s : State) : Res := s.flow fun f =>
  let sb := sbExc (f.portVal 0).sb ||| sbExc (f.portVal 1).sb
  s.fire f o 1 (outBoth o ⟨0, sb, .scalar, 0, none, f.tag, f.hist⟩) sb

/-! ### Access nodes: what the element does (R193 to R205) -/

/-- The kind writes. -/
def AKind.stores (k : AKind) : Bool := match k with | .sts => true | .str => true | .relst => true | .upd _ => true | _ => false
/-- The node is counted for round completion (Table 11.5). -/
def AKind.counted (k : AKind) : Bool := match k with | .lds => true | k => k.stores
/-- The access is of a view instruction (R221). -/
def AKind.view (k : AKind) : Bool := match k with | .viewmk => true | .viewdup => true | .narrow => true | .viewq => true | .viewdrop => true | _ => false
/-- ACC of Table 7.8; a view instruction has none (R393). -/
def AKind.acc (k : AKind) : Nat := match k with | .upd _ => 2 | k => if k.stores then 1 else if k.view then 3 else 0

/-- The tokens of an access: its result to T0 and its chain-out to T1, or two copies of its result (R108, R193). -/
def accessOuts (w : SlotWord) (res : Out) (chain : Option Out) : List Out :=
  match chain with
  | some c => outTo (wT0 w) res ++ outTo (wT1 w) c
  | none => outTo (wT0 w) res ++ outTo (wT1 w) res
/-- The chain-out token (R194). -/
def chainOut (tag : Word) (bits : BitVec 8) (hist : List Nat) : Out := ⟨0, sbExc bits, .scalar, 0, none, tag, hist⟩

/-- Runs an access node: its index and data values and its chain operand. Its operand tokens stay counted until its access has been performed,
and ELATCH looks at it then (R282, R297). A null access takes the working copy too (DESIGN CHOICE, log entry 112). -/
def State.access (s : State) (f : Firing) (o : Ops) (k : AKind) (idx dat : Val) (ch : Opnd) : State :=
  let g := nfld o.imm 0 7
  let w := (s.slotWord f.e f.ctx g).getD 0
  let p := wPort w
  let col := tagCol f.tag
  let chain : Option Token := if bit o.imm 7 then (match ch with | .port n => f.tok n.toNat | _ => none) else none
  let sb := sbOr [idx.sb, dat.sb]
  let stream := match k with | .lds => true | .sts => true | _ => false
  let noRegion := match s.agenOf f.e f.ctx g col with | some a => a.region.isNone | none => true
  if stream && noRegion then s.unfire f
  else if sbPZ sb && k.stores then s.faultFiring f { s.agenInfo f g cPoison sb with acc := k.acc }
  else match s.takeCopy f g sb with
    | .error i => s.faultFiring f { i with acc := k.acc }
    | .ok (s1, _) =>
      let hist := match chain with | some t => t.hist | none => []
      let outs := accessOuts f.word ⟨0, sb, .scalar, 0, none, f.tag, []⟩ (chain.map fun t => chainOut f.tag t.sb hist)
      let now := sbDead sb && !k.stores
      let a : Access := ⟨s1.port.next, k, p, f.e, f.ctx, f.slot, f.word, f.tag, sb, idx.v, dat.v, sbExc dat.sb, chain.map fun t => t.sb, hist, g, none, none,
        s1.cycle + 1 + s1.toPort f.e p, sbDead sb, false, if now then [] else f.ops, if now then 0 else Nat.max f.count (outCount outs), s1.loadidAt f.e f.ctx⟩
      let s3 := if now then ((s1.latch f o sb).settle f.e col f.count (outCount outs)).toUnit f 1 outs
                else { s1.settleHeld f.e col f.count (outCount outs) with focus := .thread 0 }
      if now && !k.counted then s3
      else { s3 with port := { s3.port with accesses := s3.port.accesses ++ [a], next := s3.port.next + 1 } }

/-- No index or data operand. -/
def noVal : Val := ⟨0, 0⟩

/-- LDS (R204). -/
def execLds (o : Ops) (s : State) : Res := s.flow fun f => s.access f o .lds (s.opVal .x64 o.imm o.a) noVal o.b
/-- STS (R205). -/
def execSts (o : Ops) (s : State) : Res := s.flow fun f => s.access f o .sts noVal (s.opVal o.ty o.imm o.a) o.b
/-- LDR (R204). -/
def execLdr (o : Ops) (s : State) : Res := s.flow fun f => s.access f o .ldr (s.opVal .x64 o.imm o.a) noVal o.b
/-- STR (R205). -/
def execStr (o : Ops) (s : State) : Res := s.flow fun f => s.access f o .str (s.opVal .x64 o.imm o.a) (s.opVal o.ty o.imm o.b) o.c
/-- UPD (R206): what all its variants do at the element. -/
def State.update (s : State) (o : Ops) (n : Nat) : Res := s.flow fun f => s.access f o (.upd n) (s.opVal .x64 o.imm o.a) (s.opVal (if n = 6 then .x64 else o.ty) o.imm o.b) o.c
def execUpdAdd (o : Ops) (s : State) : Res := s.update o 0
def execUpdMin (o : Ops) (s : State) : Res := s.update o 1
def execUpdMax (o : Ops) (s : State) : Res := s.update o 2
def execUpdOr (o : Ops) (s : State) : Res := s.update o 3
def execUpdAnd (o : Ops) (s : State) : Res := s.update o 4
def execUpdXchg (o : Ops) (s : State) : Res := s.update o 5
def execUpdCas (o : Ops) (s : State) : Res := s.update o 6
/-- ACQLD (R207). -/
def execAcqld (o : Ops) (s : State) : Res := s.flow fun f => s.access f o .acqld (s.opVal .x64 o.imm o.a) noVal o.b
/-- RELST (R207). -/
def execRelst (o : Ops) (s : State) : Res := s.flow fun f => s.access f o .relst (s.opVal .x64 o.imm o.a) (s.opVal o.ty o.imm o.b) o.c

/-! ### What the port does: checks (R200, R335, R378) -/

/-- How far an access gets. -/
inductive Found where
  /-- A failure: code and ADDR. -/
  | bad (code addr : Nat)
  /-- The page that answers does not allow the access: ADDR, and its translation. -/
  | denied (addr : Nat) (x : Xent)
  /-- The view's count of started accesses is full (R388). -/
  | full
  /-- A translation is wanted: ASID and virtual address. -/
  | walk (asid va : Nat)
  /-- Checked: ADDR of a later fault, address in the port's space, key slot, translation. -/
  | ok (a pa key : Nat) (x : Option Xent)
  deriving DecidableEq, Repr

/-- The start of an access through a view: the state, the count it holds, and its virtual address, or a failure (R200 step 2). -/
def State.viewStep (s : State) (part asid : Nat) (r : Shape) (a : Nat) (st : Option (Nat × Nat)) : Except (Nat × Nat) (Option (State × Option (Nat × Nat) × Nat)) :=
  if !shVw r then .ok (some (s, none, a))
  else
    let h : Word := BitVec.ofNat 64 (shBase r)
    match st with
    | some x => .ok (some (s, some x, (s.region x.1).vbase + a))
    | none => match s.viewOf part asid h with
      | none => .error (cProtection, a)
      | some k =>
        let v := s.view k
        if v.lo * 64 ≤ a ∧ a + shEsz r ≤ v.hi * 64 then
          match s.startAccess v.region with
          | some (s1, x) => .ok (some (s1, some x, (s.region v.region).vbase + a))
          | none => .ok none
        else .error (cWidening, a)

/-- Steps 3 to 6 of R200, R335 and R378 for an address and a held or cached translation. -/
def State.spaceStep (s : State) (g : Agen) (r : Shape) (p part col a va : Nat) (write : Bool) (held : Option Xent) : Found :=
  let c := s.colour col
  if a % shEsz r ≠ 0 then .bad cAlign a
  else match spaceOf p with
    | .config => if shEsz r = 8 then .ok a a 0 none else .bad cProtection a
    | .peer =>
      if 2 ^ 57 ≤ va then .bad cTranslation a
      else match tget 0 s.mem.peerFail (2 ^ 41 * shPeer r + va / 65536) with
        | 0 => .ok a (2 ^ 57 * shPeer r + va) 0 none
        | k => .bad k a
    | sp =>
      let asid := if sp = .host then hostAsid c.pasid else c.asid
      if 2 ^ 57 ≤ va then .bad cTranslation a
      else if sp = .global ∧ windowOf va ≠ .none then .bad cProtection a
      else
        let last := match g.last with | some x => if x.hits asid va then some x else none | none => none
        let x := match (match held with | some y => if y.hits asid va then some y else none | none => none) with
          | some y => some y
          | none => match last with
            | some y => some y
            | none => (s.elem g.e).lookup asid va (s.agenWrites g write)
        match x with
        | none => .walk asid va
        | some x =>
          if x.cv != shVw r then .denied a x
          else if write && !x.wr then .denied a x
          else .ok a (x.phys va) (if sp = .host then 0 else s.keyFor part x va c.keyslot) (some x)

/-- The page of an access is the page last used now; one that was not had a request, which the XLAT's cache remembers (R334). -/
def State.useFrame (s : State) (g : Agen) (x : Option Xent) : State :=
  match x with
  | some y => if g.last = some y then s else (s.setElem g.e (if (s.elem g.e).xlat.contains y then (s.elem g.e).cache y else s.elem g.e)).setAgen { g with last := some y }
  | none => s

/-! ### Reading and writing at a port (R204, R205, R348) -/

/-- Bytes of a space as its port reads them. -/
def State.spaceRead (s : State) (p key pa n : Nat) : List Byte :=
  match spaceOf p with
  | .global => s.mem.read key pa n
  | .peer => mgetN s.mem.peer pa n
  | .host => mgetN s.mem.host pa n
  | .config => match s.cfgRead pa with | some (v, _) => bvBytes v 8 | none => []
/-- A datum of a space carries an uncorrectable error (R200 step 7). -/
def State.spaceBad (s : State) (p pa n : Nat) : Bool :=
  match spaceOf p with
  | .global => s.mem.bad pa n
  | .config => match s.cfgRead pa with | some (_, b) => b | none => false
  | _ => false
/-- Writes a datum to the space of a port, with the side-band bits that memory ports keep (R205). -/
def State.spaceWrite (s : State) (p key pa : Nat) (data : List Byte) (sb : BitVec 8) : State :=
  match spaceOf p with
  | .global =>
    let m := (s.mem.write key pa data).clearSb pa data.length
    (s.setMem { m with sbits := tset 0 m.sbits pa (sbExc sb) }).dropWritten pa data.length
  | .peer => { s with mem := { s.mem with peer := msetN s.mem.peer pa data } }
  | .host => { s with mem := { s.mem with host := msetN s.mem.host pa data } }
  | .config => (s.cfgWrite pa (BitVec.ofNat 64 (ofBytes data))).getD s

/-- Lays the bytes of a store over those of a datum at `pa`. -/
def overlay (pa : Nat) (old : List Byte) (st : Store) : List Byte :=
  (rangeFrom 0 old.length).map fun i => if st.pa ≤ pa + i ∧ pa + i < st.pa + st.data.length then nth 0 st.data (pa + i - st.pa) else nth 0 old i
/-- A store overlaps a datum. -/
def Store.meets (st : Store) (p pa n : Nat) : Bool := spaceOf st.port == spaceOf p && !st.null && decide (st.pa < pa + n) && decide (pa < st.pa + st.data.length)
/-- A store covers all of a datum. -/
def Store.covers (st : Store) (pa n : Nat) : Bool := decide (st.pa ≤ pa) && decide (pa + n ≤ st.pa + st.data.length)
/-- The datum that a chain sees over committed bytes: its own writes, newest last (R204). -/
def State.seen (s : State) (hist : List Nat) (p pa : Nat) (old : List Byte) (sb : BitVec 8) : List Byte × BitVec 8 × Bool :=
  let own := s.port.stores.filter fun st => hist.contains st.id && st.meets p pa old.length
  (own.foldl (fun b st => overlay pa b st) old,
   own.foldl (fun b st => if st.covers pa old.length then st.sb else b ||| st.sb) sb,
   own.any fun st => st.covers pa old.length)

/-- Reads a datum under R204: its value, its bits 4:0, and whether it is uncorrectable. -/
def State.readDatum (s : State) (hist : List Nat) (p key pa n : Nat) : Nat × BitVec 8 × Bool :=
  let old := s.spaceRead p key pa n
  let sb := if spaceOf p = .global then tget 0 s.mem.sbits pa else 0
  let r := s.seen hist p pa old sb
  (ofBytes r.1, sbExc r.2.1, s.spaceBad p pa n && !r.2.2)

/-- HEAT of an entry (R348). -/
def heatOf (h : BitVec 128) : Nat := nfld h 0 32 + 8 * nfld h 32 32
/-- The coolest of a port's heat entries, from entry `i` on. -/
def coolest (t : Tbl (BitVec 128)) (p : Nat) : Nat → Nat → Nat → Nat
  | 0, _, best => best
  | n + 1, i, best => coolest t p n (i + 1) (if heatOf (tget 0 t (1024 * p + i)) < heatOf (tget 0 t (1024 * p + best)) then i else best)
/-- Adds to the heat of a window at a port (R348). -/
def State.heatUp (s : State) (p pa deliv starve : Nat) : State :=
  if 80 ≤ p then s
  else
    let t := s.mem.heat
    let at_ := fun i => tget 0 t (1024 * p + i)
    let i := match firstKey (fun i => bit (at_ i) 127 && nfld (at_ i) 88 36 == pa / 65536) 0 1024 with
      | some i => i
      | none => match firstKey (fun i => !bit (at_ i) 127) 0 1024 with
        | some i => i
        | none => coolest t p 1024 0 0
    let old := if bit (at_ i) 127 && nfld (at_ i) 88 36 == pa / 65536 then at_ i else 0
    let sat := fun n => if n < 2 ^ 32 then n else 2 ^ 32 - 1
    let new : BitVec 128 := pack 128 [(127, 1, 1), (88, 36, pa / 65536), (32, 32, sat (nfld old 32 32 + starve)), (0, 32, sat (nfld old 0 32 + deliv))]
    { s with mem := { s.mem with heat := tset 0 t (1024 * p + i) new } }

/-- What an update writes, and the bits it raises (R206). -/
def updNew (w : SlotWord) (old : Nat) (v : Word) : Nat × BitVec 8 :=
  let ty := wTy w
  let a : Word := tyExtend ty old
  let cut := fun (r : Word × BitVec 8) => (uv ty r.1, (0 : BitVec 8))
  match nfld w 116 4 with
  | 0 => if ty = .f32 then fAdd fmtF32 (nfld w 22 2) (bit w 24) (old % 2 ^ 32) (nfld v 0 32) else cut (fnAdd ty a v)
  | 1 => if ty = .f32 then (fMinMax fmtF32 false (old % 2 ^ 32) (nfld v 0 32), 0) else cut (if tySigned ty then fnMin ty a v else fnMinu ty a v)
  | 2 => if ty = .f32 then (fMinMax fmtF32 true (old % 2 ^ 32) (nfld v 0 32), 0) else cut (if tySigned ty then fnMax ty a v else fnMaxu ty a v)
  | 3 => cut (fnOr ty a v)
  | 4 => cut (fnAnd ty a v)
  | 5 => (uv ty v, 0)
  | _ => (if old % 2 ^ 32 = nfld v 32 32 then nfld v 0 32 else old % 2 ^ 32, 0)

/-! ### The round store buffer (R343) -/

/-- A store belongs to a round. -/
def Store.of (st : Store) (r : Round) : Bool := st.col == r.col && st.load == r.load && st.rbase == r.rbase
/-- Entries below or from 1,024 that a list of stores takes. -/
def entriesIn (l : List Store) (spilt : Bool) : Nat :=
  ((l.filter fun st => !st.null && (decide (1024 ≤ st.entry)) == spilt).map fun st => st.entry).eraseDups.length
/-- The entry of the round that the store may merge into: one of its line, performed after the last RELST entry. -/
def mergeEntry (line : Nat) : List Store → Option Nat → Option Nat
  | [], b => b
  | st :: l, b => mergeEntry line l (if st.null then b else if st.release then none else if st.pa / 64 = line then some st.entry else b)
/-- Entries of a port that uncommitted rounds have reserved. -/
def State.portEntries (s : State) (p : Nat) : Nat := (s.fab.rounds.filter fun r => r.state != .committed).foldl (fun n r => n + tget 0 r.room p) 0
/-- What a port reserves for a round that opens: its 1,024 entries, or what is left of 16,384 (R340, R343; DESIGN CHOICE, log entry 27). -/
def State.roomAt (s : State) (p : Nat) : Nat := Nat.min 1024 (16384 - s.portEntries p)
/-- Virtual address of an overflow line: slice of the port, half of the round. -/
def State.overflowAt (s : State) (c p half i : Nat) : Nat :=
  let x := s.colour c
  ceilDiv (x.basin.toNat + 32 * x.basinlen) 65536 * 65536 + 65536 * p + 32768 * half + 64 * i
/-- The entry that a new store of a round takes: none where it would need a 513th overflow line; a flag when it overflows. -/
def State.entryFor (s : State) (p : Nat) (r : Round) (line : Nat) (release : Bool) : Option Nat :=
  let mine := s.port.stores.filter fun st => st.of r && st.port == p && !st.replay
  match (if release then none else mergeEntry line mine none) with
  | some e => some e
  | none =>
    let n := entriesIn mine false
    if n < tget 0 r.room p then some n
    else
      let m := entriesIn mine true
      if m < 512 then some (1024 + m) else none

/-- Adds one to the accesses of a counted node performed in a round (R341). -/
def Round.count (r : Round) (p e n : Nat) : Round :=
  let k := match lfind (fun c => c.1 == p && c.2.1 == e && c.2.2.1 == n) r.counts with | some c => c.2.2.2 | none => 0
  { r with counts := (p, e, n, k + 1) :: r.counts.filter fun c => !(c.1 == p && c.2.1 == e && c.2.2.1 == n) }
/-- Takes one off, for an entry that moves to the replay list (R344, R346). -/
def Round.uncount (r : Round) (p e n : Nat) : Round :=
  { r with counts := r.counts.map fun c => if c.1 == p && c.2.1 == e && c.2.2.1 == n then (p, e, n, c.2.2.2 - 1) else c }
/-- Puts a store at the end of the buffers, in place of its entry on a replay list. -/
def State.addStore (s : State) (st : Store) : State :=
  { s with port := { s.port with stores := s.port.stores.filter (fun x => x.id != st.id) ++ [st] } }
/-- Replaces a round. -/
def State.setRound (s : State) (r : Round) : State :=
  let same := fun x : Round => x.col == r.col && x.load == r.load && x.rbase == r.rbase && x.state != .committed
  { s with fab := { s.fab with rounds := s.fab.rounds.map fun x => if same x then r else x } }
/-- Counts a performed access. -/
def State.countAccess (s : State) (a : Access) : State :=
  if a.kind.counted then match s.roundOf (tagCol a.tag) a.load (tagIter a.tag) with
    | some r => s.setRound (r.count a.at_ a.e a.slot)
    | none => s
  else s

/-! ### Order (R355) -/

/-- The die of a port element. -/
def portDie (p : Nat) : Nat := if p < 64 then p / 16 else if p < 80 then (p - 64) / 4 else if p < 92 then (p - 80) / 3 else (p - 92) / 2
/-- The word is an AGEN or an engine node (R340). -/
def isPortNode (w : SlotWord) : Bool := wOpc w == 0xB0 || (decide (0xD0 ≤ wOpc w) && decide (wOpc w ≤ 0xD3))
/-- Ports that the AGEN and engine nodes of an element name. -/
def State.portsAt (s : State) (e c : Nat) : List Nat :=
  ((s.ctx e c).words.filterMap fun x => match x.2 with | some w => if isPortNode w then some (wPort w) else none | none => none).eraseDups
/-- A port lies within the scope of an ACQLD or RELST (R354). -/
def State.inScope (s : State) (scope e c p : Nat) : Bool :=
  match scope with
  | 0 => (s.portsAt e c).contains p
  | 1 => (s.portsAt e c).contains p || portDie p == dieOf e
  | _ => true
/-- Discards what read-ahead has fetched for a colour and load at the ports of a scope (R355). -/
def State.discardAhead (s : State) (col ctx : Nat) (e scope : Nat) : State := s.dropAhead fun h => h.col == col && h.ctx == ctx && s.inScope scope e ctx h.port

/-! ### Performing (R195, R200, R352) -/

/-- Mark in the history of a chain that an engine's completion started (R358). -/
def fromEngine : Nat := 2 ^ 64

/-- Removes an access. -/
def State.dropAccess (s : State) (id : Nat) : State := { s with port := { s.port with accesses := s.port.accesses.filter fun a => a.id != id } }
/-- Replaces an access. -/
def State.setAccess (s : State) (a : Access) : State :=
  { s with port := { s.port with accesses := s.port.accesses.map fun b => if b.id == a.id then a else b } }
/-- A page of host memory that the host does not present is asked for (R328). -/
def State.askHost (s : State) (a : Access) (code addr : Nat) : State :=
  let va := (match a.started with | some x => (s.region x.1).vbase | none => 0) + addr
  if a.at_ < 100 ∧ spaceOf a.at_ = .host ∧ code = cTranslation ∧ va < 2 ^ 57 then s.pageRequest ((s.partOfElem a.e).getD 0) (s.colour (tagCol a.tag)).pasid va else s
/-- The fault of an access: it ends at once, its operand tokens are parked, and the fault is raised (R200, R262, R388). -/
def State.failAccess (s : State) (a : Access) (code addr : Nat) (ra : Bool) : State :=
  let info : FaultInfo := { faultInfo0 with
    code := code, reason := wOpc a.word, addr := addr, pos := if a.kind.view then 0 else s.posAt a.e a.ctx a.gslot a.tag a.load, slot := a.slot, agslot := a.gslot, pnum := if a.kind.view then 0x7F else a.at_, e := a.e,
    tag := a.tag, sb := a.sb, acc := a.kind.acc, ra := ra }
  let toks := recalled a.ops
  let s1 := ((s.dropAccess a.id).endStarted a.started).askHost a code addr
  ((s1.inflDown (tagCol a.tag) (a.outs - toks.length)).setTokens (s1.fab.tokens ++ toks)).raiseFault info

/-- An access has been performed: its operand tokens are gone (R297), and its tokens leave the port, or, for a view instruction, reach its element (R193, R195, R392). -/
def State.reply (s : State) (a : Access) (res : Out) (hist : List Nat) : State :=
  let outs := accessOuts a.word res (a.chain.map fun b => chainOut a.tag b hist)
  let s1 := (s.dropAccess a.id).inflDown (tagCol a.tag) (a.outs - outCount outs)
  let s2 := if bit a.word 26 then s1.setElem a.e ((s1.elem a.e).capture s1.cycle a.tag a.slot res.sb) else s1
  s2.sendFrom (if a.kind.view then none else some a.at_) a.e a.ctx 1 outs

/-- An iteration's datum has been delivered to an LDS of an AGEN (R346). -/
def State.noteGot (s : State) (a : Access) : State :=
  if a.kind = .lds then match s.agenOf a.e a.ctx a.gslot (tagCol a.tag) with
    | some g => s.setAgen { g with got := tagIter a.tag :: g.got }
    | none => s
  else s
/-- A performed load delivers its datum. -/
def State.deliver (s : State) (a : Access) (v : Nat) (sb : BitVec 8) (pa : Nat) : State :=
  let s1 := (((s.endStarted a.started).countAccess a).heatUp a.at_ pa 1 0).noteGot a
  let s2 := if a.kind = .acqld then s1.discardAhead (tagCol a.tag) a.ctx a.e (nfld a.word 8 2) else s1
  s2.reply a ⟨0, a.sb ||| sb, .scalar, tyExtend (wTy a.word) v, none, a.tag, []⟩ a.hist

/-- Writes the bytes of an overflow line into the colour's overflow area, or gives the failure that resets the partition (R301, R343). -/
def State.spill (s : State) (c p half i pa : Nat) (data : List Byte) : Except (Nat × Nat) State :=
  let va := s.overflowAt c p half i
  if windowOf va ≠ .none then .error (cProtection, va)
  else match s.walkPlain (s.colour c).asid va true with
    | .fail k => .error (if k = 2 then cProtection else cTranslation, va)
    | .ok y => .ok (s.setMem (s.mem.write (s.keyFor (s.partOfCol c) y va (s.colour c).keyslot) (y.phys va + pa % 64) data))
    | .nowhere _ => .error (cTranslation, va)
/-- A performed store or update enters the round store buffer, and an overflow line the colour's overflow area too (R343); a store of a round that is no longer open is written at once. -/
def State.enter (s : State) (a : Access) (pa addr key : Nat) (x : Option Xent) (data : List Byte) (sb : BitVec 8) (old : Option Word) : State :=
  let c := tagCol a.tag
  let r := s.roundOf c a.load (tagIter a.tag)
  let res : Out := match old with | some v => ⟨0, a.sb ||| sb, .scalar, v, none, a.tag, []⟩ | none => ⟨0, a.sb, .scalar, 0, none, a.tag, []⟩
  let sbits := sbExc (a.dsb ||| sb)
  match r with
  | none => ((s.spaceWrite a.at_ key pa data sbits).endStarted a.started).reply a res a.hist
  | some r =>
    match (if r.voided then some 0 else s.entryFor a.at_ r (pa / 64) (a.kind == .relst)) with
    | none => s.failAccess a cConfig addr false
    | some n =>
      let st : Store := ⟨a.id, a.at_, c, a.ctx, a.load, r.rbase, n, addr, (s.colour c).asid, x, pa, data, sbits, a.kind == .relst, false, r.voided, false,
        a.started, key, a.e, a.slot, a.gslot, a.tag, tagIter a.tag, (match a.kind with | .upd _ => some (a.dat, a.word) | _ => none), a.hist, false, false⟩
      let s1 : State := { s with port := { s.port with stores := s.port.stores ++ [st] } }
      let s2 := if r.voided then s1 else s1.countAccess a
      let s3 := match a.kind with | .upd _ => s2.discardAhead c a.ctx a.e 2 | _ => s2
      let done := s3.reply a res (a.hist ++ [a.id])
      if 1024 ≤ n ∧ !r.voided then
        match done.spill c a.at_ r.half (n - 1024) pa data with
        | .error x => s.failBasin c x
        | .ok s4 => s4
      else done

/-- Another colour or load holds an uncommitted write to the line at the port (R206, R356). -/
def State.lineHeld (s : State) (a : Access) (pa : Nat) : Bool :=
  s.port.stores.any fun st => st.port == a.at_ && !st.replay && !st.null && !(st.col == tagCol a.tag && st.load == a.load) && st.pa / 64 == pa / 64

/-- Performs a checked access. -/
def State.performAt (s : State) (a : Access) (addr pa key : Nat) (x : Option Xent) : State :=
  let n := tyBits (wTy a.word) / 8
  match a.kind with
  | .sts => if spaceOf a.at_ = .config ∧ (s.cfgWrite pa 0).isNone then s.failAccess a cProtection addr false
            else s.enter a pa addr key x (bvBytes a.dat n) 0 none
  | .str => if spaceOf a.at_ = .config ∧ (s.cfgWrite pa 0).isNone then s.failAccess a cProtection addr false
            else s.enter a pa addr key x (bvBytes a.dat n) 0 none
  | .relst => if spaceOf a.at_ = .config ∧ (s.cfgWrite pa 0).isNone then s.failAccess a cProtection addr false
              else s.enter a pa addr key x (bvBytes a.dat n) 0 none
  | .upd _ =>
    if s.lineHeld a pa then s.setAccess { a with held := true }
    else if spaceOf a.at_ = .config ∧ (s.cfgWrite pa 0).isNone then s.failAccess a cProtection addr false
    else
      let r := s.readDatum a.hist a.at_ key pa n
      if r.2.2 then s.failAccess a cPoison addr false
      else
        let w := updNew a.word r.1 a.dat
        s.enter a pa addr key x (toBytes w.1 n) w.2 (some (tyExtend (wTy a.word) r.1))
  | _ =>
    if spaceOf a.at_ = .config ∧ (s.cfgRead pa).isNone then s.failAccess a cProtection addr false
    else
      let r := s.readDatum a.hist a.at_ key pa n
      if r.2.2 then s.failAccess a cPoison addr false else s.deliver a r.1 r.2.1 pa

/-- The round of an access is open, or lies behind O (R352). -/
def State.accessOpen (s : State) (a : Access) : Bool :=
  match s.heldRound (tagCol a.tag) a.load (tagIter a.tag) with
  | some r => r.state != .opening && !s.port.stores.any fun st => st.of r && st.replay && st.port == a.at_ && !r.voided
  | none => decide (8388608 ≤ age (s.oldest (tagCol a.tag) a.load) (tagIter a.tag))

/-- What read-ahead holds is for an access. -/
def Ahead.for_ (h : Ahead) (a : Access) : Bool :=
  h.port == a.at_ && h.e == a.e && h.ctx == a.ctx && h.gslot == a.gslot && h.col == tagCol a.tag && h.iter == tagIter a.tag
/-- A null access is counted, and a null store sends its tokens (R21, R204); what had been read ahead for a null LDS is discarded. -/
def State.performNull (s : State) (a : Access) : State :=
  if a.kind.stores then (s.countAccess a).reply a ⟨0, a.sb, .scalar, 0, none, a.tag, []⟩ a.hist
  else (((s.countAccess a).noteGot a).dropAccess a.id).dropAhead fun h => h.for_ a

/-- What read-ahead holds for an access. -/
def State.aheadFor (s : State) (a : Access) : Option Ahead := if a.kind = .lds then lfind (fun h => h.for_ a) s.port.ahead else none

/-- A port takes an access as far as it goes: it faults, waits, asks for a translation, or is performed. The region is that of the working copy
as it stands now (DESIGN CHOICE, log entry 95). -/
def State.perform (s : State) (a : Access) : State :=
  let c := tagCol a.tag
  let part := (s.partOfElem a.e).getD 0
  if a.null then s.performNull a
  else match s.agenOf a.e a.ctx a.gslot c with
    | none => s
    | some g =>
      match s.aheadFor a with
      | some h =>
        let s1 : State := { s with port := { s.port with ahead := s.port.ahead.filter fun k => k != h } }
        if h.code ≠ 0 then (s1.endStarted h.started).failAccess a h.code h.addr true
        else
          let r := s1.seen a.hist a.at_ h.pa (toBytes h.data.toNat (tyBits (wTy a.word) / 8)) h.sb
          (s1.endStarted h.started).deliver a (ofBytes r.1) (sbExc r.2.1) h.pa
      | none =>
        let rb := ((s.anyRound c a.load (tagIter a.tag)).map fun r => r.rbase).getD 0
        let r := g.snap rb
        match accessAddr r g.region (tagIter a.tag) a.idx with
        | .error f => s.failAccess a f.1 f.2 false
        | .ok addr =>
          match s.viewStep part (s.colour c).asid r addr a.started with
          | .error f => s.failAccess a f.1 f.2 false
          | .ok none => s
          | .ok (some (s1, st, va)) =>
            let b := { a with started := st }
            let s2 := s1.setAccess b
            match s2.spaceStep g r a.at_ part c addr va a.kind.stores a.frame with
            | .bad k ad => s2.failAccess b k ad false
            | .denied ad x => (s2.useFrame g (some x)).failAccess b cProtection ad false
            | .full => s2
            | .walk asid v =>
              if s2.port.walks.any fun w => w.who == .access a.id then s2
              else
                let xp := match s2.slotWord a.e a.ctx (shXslot r) with | some w => nfld w 0 7 | none => a.at_
                let w : Walk := ⟨xp, a.e, asid, v, s2.agenWrites g a.kind.stores, .access a.id, s2.cycle + 1⟩
                { s2 with port := { s2.port with walks := s2.port.walks ++ [w] } }
            | .ok ad pa key x => (s2.useFrame g x).performAt b ad pa key x

/-- An access whose chain an engine's completion started discards what had been read ahead, once, as an ACQLD at device scope does (R358). -/
def State.afterEngine (s : State) (a : Access) : State × Access :=
  if a.hist.contains fromEngine then
    let b := { a with hist := a.hist.filter fun i => i != fromEngine }
    ((s.discardAhead (tagCol a.tag) a.ctx a.e 2).setAccess b, b)
  else (s, a)
/-- PORT_ACCESS_PERFORMED (R195): the k-th access at the ports goes on. -/
def execPortAccessPerformed (k : Nat) (s : State) : Res :=
  .next (match nth? s.port.accesses k with
    | some a => if a.at_ < 100 && !a.held && decide (a.since ≤ s.cycle) && s.accessOpen a then let r := s.afterEngine a; r.1.perform r.2 else s
    | none => s)

/-! ### Walks (R209, R333, R336) -/

/-- The walk of a request. -/
def State.walkOf (s : State) (w : Walk) : WalkRes × State :=
  if 65536 ≤ w.asid then (s.hostWalk (w.asid - 65536) w.va w.write, s) else s.walkPort w.port w.asid w.va w.write
/-- Hands the frame or failure of a walk to who asked for it. -/
def State.walkDone (s : State) (w : Walk) (r : Except Nat Xent) : State :=
  match w.who with
  | .xlat outs =>
    let v := match r with | .ok x => if x.cv then failToken 2 w.va else frameToken x w.va | .error k => failToken k w.va
    let c := match outs with | x :: _ => tagCtx x.tag | [] => 0
    s.sendFrom none w.e c 0 (outs.map fun x => { x with pay := v })
  | .access id => match lfind (fun a => a.id == id) s.port.accesses, r with
    | some a, .ok x => s.setAccess { a with frame := some x }
    | some a, .error k => s.failAccess a (frameCode k) (w.va - (match a.started with | some x => (s.region x.1).vbase | none => 0)) false
    | none, _ => s

/-- PAGE_WALK (R333): the k-th walk ends; only a leaf enters the XLAT's cache. -/
def execPageWalk (k : Nat) (s : State) : Res :=
  match nth? s.port.walks k with
  | none => .next s
  | some w =>
    if s.cycle < w.due then .next s
    else
      let s0 : State := { s with port := { s.port with walks := dropNth s.port.walks k } }
      match s0.walkOf w with
      | (.nowhere a, _) => .fault (.noMemory a)
      | (.fail c, s1) => .next (s1.walkDone w (.error c))
      | (.ok x, s1) => .next ((s1.setElem w.e ((s1.elem w.e).cache x)).walkDone w (.ok x))

/-! ### Waiting for data (R348) -/

/-- The physical address of the datum that an LDS waits for at its port, as its address translates in this cycle; none where it waits for no
window's data (log entry 98). -/
def State.awaits (s : State) (a : Access) : Option Nat :=
  if a.kind ≠ .lds ∨ a.null ∨ !(decide (a.since ≤ s.cycle) && s.accessOpen a) then none
  else match s.agenOf a.e a.ctx a.gslot (tagCol a.tag) with
    | none => none
    | some g =>
      let r := g.snap (((s.anyRound (tagCol a.tag) a.load (tagIter a.tag)).map fun q => q.rbase).getD 0)
      let part := (s.partOfElem a.e).getD 0
      match accessAddr r g.region (tagIter a.tag) a.idx with
      | .error _ => none
      | .ok addr => match s.viewStep part (s.colour (tagCol a.tag)).asid r addr a.started with
        | .ok (some (_, _, va)) => match s.spaceStep g r a.at_ part (tagCol a.tag) addr va false a.frame with
          | .ok _ pa _ _ => some pa
          | .walk asid v => match (s.walkOf ⟨a.at_, a.e, asid, v, false, .access a.id, 0⟩).1 with | .ok x => some (x.phys v) | _ => none
          | _ => none
        | _ => none
/-- What a cycle adds to STARVE: one for every LDS that waits at its port for data of a window. -/
def State.starve (s : State) : State :=
  s.port.accesses.foldl (fun (s : State) a => match s.awaits a with | some pa => s.heatUp a.at_ pa 0 1 | none => s) s

/-! ### Read-ahead (R201) -/

/-- The datum or failure that a read-ahead of an iteration finds. -/
def State.aheadAt (s : State) (g : Agen) (p it : Nat) (r : Shape) : State × Option Ahead :=
  let part := (s.partOfElem g.e).getD 0
  let mk := fun (code addr : Nat) (v : Nat) (sb : BitVec 8) (x : Option Xent) (pa : Nat) (st : Option (Nat × Nat)) =>
    some (⟨p, g.e, g.ctx, g.slot, g.col, it, code, addr, BitVec.ofNat 64 v, sb, x, pa, st⟩ : Ahead)
  match accessAddr r g.region it 0 with
  | .error f => (s, mk f.1 f.2 0 0 none 0 none)
  | .ok addr =>
    match s.viewStep part (s.colour g.col).asid r addr none with
    | .error f => (s, mk f.1 f.2 0 0 none 0 none)
    | .ok none => (s, none)
    | .ok (some (s1, st, va)) =>
      let fin := fun (s : State) (fd : Found) => match fd with
        | .bad k ad => (s.endStarted st, mk k ad 0 0 none 0 none)
        | .denied ad x => ((s.useFrame g (some x)).endStarted st, mk cProtection ad 0 0 none 0 none)
        | .ok ad pa key x =>
          let d := s.readDatum [] p key pa (shEsz r)
          if d.2.2 then (s.endStarted st, mk cPoison ad 0 0 x pa none) else (s.useFrame g x, mk 0 ad d.1 d.2.1 x pa st)
        | _ => (s.endStarted st, none)
      match s1.spaceStep g r p part g.col addr va false none with
      | .walk asid v =>
        let xp := match s1.slotWord g.e g.ctx (shXslot r) with | some w => nfld w 0 7 | none => p
        match s1.walkOf ⟨xp, g.e, asid, v, s1.agenWrites g false, .access 0, 0⟩ with
        | (.fail c, s2) => (s2.endStarted st, mk (frameCode c) addr 0 0 none 0 none)
        | (.nowhere _, s2) => (s2.endStarted st, none)
        | (.ok x, s2) =>
          let s3 := s2.setElem g.e ((s2.elem g.e).cache x)
          fin s3 (s3.spaceStep g r p part g.col addr va false (some x))
      | fd => fin s1 fd

/-- The AGEN serves an LDS. -/
def State.hasLds (s : State) (g : Agen) : Bool :=
  (s.ctx g.e g.ctx).words.any fun x => match x.2 with | some w => wOpc w == 0xB1 && nfld w 116 4 == 0 && nfld w 0 7 == g.slot | none => false

/-- READ_AHEAD (R201): the port of the k-th streaming AGEN reads its next position ahead within the open rounds. -/
def execReadAhead (k : Nat) (s : State) : Res :=
  .next (match nth? s.port.agens k with
    | none => s
    | some g =>
      match s.roundOf g.col (s.loadidAt g.e g.ctx) g.ra with
      | none => s
      | some r =>
        let sh := g.snap r.rbase
        if g.got.contains g.ra then s.setAgen { g with ra := (g.ra + 1) % iterMod }
        else if r.state == .opening || r.voided || shCls sh || g.region.isNone || !s.hasLds g || spaceOf (wPort ((s.slotWord g.e g.ctx g.slot).getD 0)) = .config then s
        else
          let p := wPort ((s.slotWord g.e g.ctx g.slot).getD 0)
          let q := s.aheadAt g p g.ra sh
          match q.2 with
          | none => q.1
          | some h =>
            let g' := (q.1.agenOf g.e g.ctx g.slot g.col).getD g
            let s1 := q.1.setAgen { g' with ra := (g.ra + 1) % iterMod }
            { s1 with port := { s1.port with ahead := s1.port.ahead ++ [h] } })

end Sys2Proof.Machine
end

