-- ==== Sys2Proof/Machine/Rounds.lean ====
section
/-! DEFINITION. Rounds (11 R338 to R346, 12 R353 to R360): opening, completion, prepare, commit and release, voiding, the fault record,
and resuming from the replay lists. -/

namespace Sys2Proof.Machine

/-! ### Opening (R340, R359) -/

/-- Ports that the AGEN and engine nodes of a load name. -/
def State.loadPorts (s : State) (l : Load) : List Nat := ((l.foot.map fun e => s.portsAt e (dCtx l.desc)).flatten).eraseDups
/-- Dies that hold a view node of a load. -/
def State.viewDies (s : State) (l : Load) : List Nat :=
  ((l.foot.filter fun e => (s.ctx e (dCtx l.desc)).words.any fun x => match x.2 with | some w => wOpc w == 0xB8 | none => false).map dieOf).eraseDups
/-- Counted nodes of a load that a port serves: element and slot (R341). -/
def State.countedAt (s : State) (l : Load) (p : Nat) : List (Nat × Nat) :=
  let c := dCtx l.desc
  let here := fun e => ((s.ctx e c).words.filterMap fun x => match x.2 with
    | some w => if (isStreamNode w && namesAgen w (nfld w 0 7) || isStoreNode w) && wPort ((s.slotWord e c (nfld w 0 7)).getD 0) == p then some (e, x.1) else none
    | none => none)
  (l.foot.map here).flatten
/-- Uncommitted rounds of a colour and load. -/
def State.openRounds (s : State) (c : Nat) (load : Word) : List Round :=
  s.fab.rounds.filter fun r => r.col == c && r.load == load && r.state != .committed
/-- Uncommitted rounds of a colour that a load holds in its context slot. -/
def State.roundsOf (s : State) (c : Nat) (l : Load) : List Round := (s.openRounds c (dLoadid l.desc)).filter fun r => r.ctx == dCtx l.desc
/-- Ports, and Trimmers as 128 plus their die, that the reconfiguration token of a later load passes (R359). -/
def State.passed (s : State) (l : Load) : List Nat := s.loadPorts l ++ (s.viewDies l).map fun d => 128 + d
/-- Loads of the same graph raised before a load, each with the ports and Trimmers that it names or named, those too that a DROP has ended while something of theirs was left; not those whose place
the load has taken, whose rounds are its own. -/
def State.earlier (s : State) (l : Load) : List (Load × List Nat) :=
  let old := fun m : Load => m.part == l.part && dGraphid m.desc == dGraphid l.desc && decide (m.order < l.order)
  (s.fab.loads.filter old).map (fun m => (m, s.passed m)) ++
    s.fab.dropped.filter fun m => old m.1 && !(dLoadid m.1.desc == dLoadid l.desc && dCtx m.1.desc == dCtx l.desc)
/-- A load's engine nodes have a request for a colour at a port that has not completed; a parked one has not (R236). -/
def State.engineLeft (s : State) (l : Load) (c p : Nat) : Bool :=
  let mine := fun (q ctx : Nat) (tag load : Word) => q == p && ctx == dCtx l.desc && tagCol tag == c && load == dLoadid l.desc
  (s.port.engines.any fun g => mine g.port (nfld g.pkt 270 2) g.tag g.load) || (s.port.colls.any fun g => mine g.port g.ctx g.tag g.load) ||
    s.port.linkOut.any fun x => x.counted && mine x.port x.ctx (fld x.head 0 64) x.load
/-- A port or controller holds nothing of the earlier loads for a colour (R359). -/
def State.passes (s : State) (ls : List (Load × List Nat)) (c p : Nat) : Bool :=
  (ls.map fun x => x.1).all fun l => (s.roundsOf c l).all (fun r => !r.ports.contains p) && !s.engineLeft l c p

/-- The stream may open the round of its next iteration (R122, R124, R344, R464). -/
def State.mayOpen (s : State) (x : Stream) (l : Load) : Bool :=
  let c := tagCol x.tag
  let i := (tagIter x.tag + x.k) % iterMod
  let rs := s.openRounds c x.load
  x.rc && !x.parked && decide (x.k < x.n) && x.k % dRound l.desc == 0 && decide (age (s.oldest c x.load) i < s.window c (some l)) &&
  (s.roundOf c x.load i).isNone && decide (rs.length < 2) && rs.all (fun r => !r.voided) && (s.part l.part).cut == .idle &&
  !s.fab.faults.any fun f => !f.done && f.round.isSome && nfld f.rcd 244 12 == c && fld f.rcd 320 64 == x.load

/-- The half of the overflow area's slices that a round takes: the one that no other uncommitted round of the colour and load has (R343). -/
def State.freeHalf (s : State) (c : Nat) (load : Word) : Nat := if (s.openRounds c load).any fun r => r.half == 0 then 1 else 0
/-- Opens a round: the ports reserve entries and snapshot the working copies; a port with no counted node reports at once (R198, R340, R341). -/
def State.openRound (s : State) (x : Stream) (l : Load) : State :=
  let c := tagCol x.tag
  let rb := (tagIter x.tag + x.k) % iterMod
  let ps := s.loadPorts l
  let idle := ps.filter fun p => (s.countedAt l p).isEmpty
  let nr := if dRound l.desc < x.n - x.k then dRound l.desc else x.n - x.k
  let r : Round := ⟨c, x.load, dCtx l.desc, rb, nr, if idle.length = ps.length then .complete else .opened, false, ps, idle, [], (x.e, x.slot), false,
    s.cycle, ps.map fun p => (p, s.roomAt p), [], s.freeHalf c x.load⟩
  let snap := fun g : Agen => if g.col == c && g.ctx == dCtx l.desc && l.foot.contains g.e then
      { g with snaps := (rb, g.copy) :: g.snaps, last := if g.copy = g.snap rb then g.last else none } else g
  { s with fab := { s.fab with rounds := r :: s.fab.rounds, passages := s.fab.passages.filter fun p => !(p.1 == c && p.2.1 == l.order) },
           port := { s.port with agens := s.port.agens.map snap } }

/-- ROUND_OPEN (R340): the controller of the k-th stream opens its next round, once a passage that it needs is complete (R359). -/
def execRoundOpen (k : Nat) (s : State) : Res :=
  .next (match nth? s.fab.streams k with
    | none => s
    | some x => match s.loadAt x.e (tagCtx x.tag) with
      | none => s
      | some l =>
        if !s.mayOpen x l then s
        else
          let c := tagCol x.tag
          let first := s.fab.rounds.all fun r => !(r.col == c && r.load == x.load && r.ctx == dCtx l.desc)
          match lfind (fun p => p.1 == c && p.2.1 == l.order) s.fab.passages with
          | some p => if p.2.2.isEmpty then s.openRound x l else s
          | none =>
            let ls := s.earlier l
            if first && !ls.isEmpty then
              let ps := ((ls.map fun m => m.2).flatten).eraseDups
              { s with fab := { s.fab with passages := s.fab.passages ++ [(c, l.order, ps ++ [200])] } }
            else s.openRound x l)

/-- RECONFIGURATION_TOKEN (R359): the next port, Trimmer or controller of the k-th passage answers when it holds nothing; 200 is the
round controllers of the earlier loads. -/
def execReconfigurationToken (k : Nat) (s : State) : Res :=
  .next (match nth? s.fab.passages k with
    | some (c, x, p :: ps) =>
      match lfind (fun l => l.order == x) s.fab.loads with
      | some l =>
        let ls := s.earlier l
        let ok := if p = 200 then ls.all fun m => (s.roundsOf c m.1).isEmpty else s.passes ls c p
        if ok then { s with fab := { s.fab with passages := setNth s.fab.passages k (c, x, ps) } } else s
      | none => { s with fab := { s.fab with passages := dropNth s.fab.passages k } }
    | _ => s)

/-! ### Completion, prepare and commit (R341, R342, R353) -/

/-- Replaces the k-th round. -/
def State.putRound (s : State) (k : Nat) (r : Round) : State := { s with fab := { s.fab with rounds := setNth s.fab.rounds k r } }
/-- A fault that voids the round is under way. -/
def State.voiding (s : State) (r : Round) : Bool :=
  s.fab.faults.any fun f => !f.done && f.round == some r.rbase && nfld f.rcd 244 12 == r.col && fld f.rcd 320 64 == r.load
/-- The load of a round. -/
def State.roundLoad (s : State) (r : Round) : Option Load :=
  lfind (fun l => dCtx l.desc == r.ctx && dLoadid l.desc == r.load && l.part == s.partOfCol r.col) s.fab.loads

/-- Something of a round's iterations is in flight at the elements and ports: a token, a firing, a stream that has them to issue, an access or a request. -/
def State.roundLeft (s : State) (r : Round) : Bool :=
  let mine := fun (tag load : Word) => tagCol tag == r.col && load == r.load && r.holds (tagIter tag)
  (s.fab.tokens.any fun t => mine t.tag t.load) || (s.fab.joins.any fun j => mine j.tag j.load) ||
  (s.fab.units.any fun u => mine u.tag (s.loadidAt u.e u.ctx)) || (s.port.accesses.any fun a => mine a.tag a.load) || (s.port.engines.any fun g => mine g.tag g.load) ||
  s.fab.streams.any fun x => tagCol x.tag == r.col && x.load == r.load && (rangeFrom 0 r.nr).any fun d =>
    decide (x.k ≤ age (tagIter x.tag) ((r.rbase + d) % iterMod)) && decide (age (tagIter x.tag) ((r.rbase + d) % iterMod) < x.n)
/-- ROUND_COMPLETE_REPORT (R341): a port reports the k-th round complete. -/
def execRoundCompleteReport (k pnum : Nat) (s : State) : Res :=
  .next (match nth? s.fab.rounds k with
    | none => s
    | some r => match s.roundLoad r with
      | none => s
      | some l =>
        let n := fun x : Nat × Nat => match lfind (fun c => c.1 == pnum && c.2.1 == x.1 && c.2.2.1 == x.2) r.counts with | some c => c.2.2.2 | none => 0
        let full := (s.countedAt l pnum).all fun x => decide (r.nr ≤ n x)
        let full := if r.restored then !s.roundLeft r else full
        let pend := s.port.stores.any fun st => st.of r && st.replay
        if r.state == .opened && !r.voided && r.ports.contains pnum && !r.done.contains pnum && full && !pend then
          let d := pnum :: r.done
          s.putRound k { r with done := d, state := if r.ports.all (fun p => d.contains p) then .complete else .opened }
        else s)

/-- Every older round of the colour and load has committed. -/
def State.isOldest (s : State) (r : Round) : Bool :=
  (s.openRounds r.col r.load).all fun q => !(decide (0 < age q.rbase r.rbase) && decide (age q.rbase r.rbase < 8388608))

/-- The fault of a buffered store at commit (R336). -/
def Store.info (st : Store) (code pos : Nat) : FaultInfo :=
  { faultInfo0 with
    code := code, reason := if st.upd.isSome then 0xB2 else if st.release then 0xB3 else 0xB1, addr := st.va, pos := pos, slot := st.slot,
    agslot := st.gslot, pnum := st.port, e := st.e, tag := st.tag, sb := st.sb, acc := 1 }
/-- Translates a marked store again for writing: its new address, or a failure code. -/
def State.retranslate (s : State) (st : Store) : Except Nat (Store × State) :=
  let at_ := match st.started with | some x => (s.region x.1).vbase + st.va | none => st.va
  let r := match st.frame with
    | some x => if 65536 ≤ x.asid then (s.hostWalk (x.asid - 65536) at_ true, s) else s.walkPort st.port x.asid at_ true
    | none => (.fail 1, s)
  match r with
  | (.ok x, s1) => if x.cv != st.started.isSome then .error cProtection else .ok ({ st with frame := some x, pa := x.phys at_, marked := false, prepared := true }, s1)
  | (.fail k, _) => .error (frameCode k)
  | (.nowhere _, _) => .error cTranslation
/-- A page of host memory that the host does not present is asked for (R328). -/
def State.askStore (s : State) (st : Store) (code : Nat) : State :=
  match st.frame with
  | some x => if 65536 ≤ x.asid ∧ code = cTranslation then s.pageRequest (s.partOfCol st.col) (x.asid - 65536) st.va else s
  | none => s
/-- Prepares the stores of a round, in order, up to the first failure. -/
def State.prepareAll (s : State) (r : Round) (pos : Store → Nat) : List Store → State × Bool
  | [] => (s, true)
  | st :: l =>
    let put := fun (s : State) (v : Store) => ({ s with port := { s.port with stores := s.port.stores.map fun x => if x.id == v.id then v else x } } : State)
    if !st.of r then s.prepareAll r pos l
    else if st.marked then match s.retranslate st with
      | .ok (v, s1) => (put s1 v).prepareAll r pos l
      | .error k => ((s.askStore st k).raiseFault (st.info k (pos st)), false)
    else (put s { st with prepared := true }).prepareAll r pos l
/-- POS of the fault of a store. -/
def State.storePos (s : State) (st : Store) : Nat :=
  match s.agenOf st.e st.ctx st.gslot st.col with | some g => g.pos (g.snap st.rbase) (some st.rbase) | none => 0

/-- ROUND_PREPARE (R342): the ports of the k-th round translate its marked entries again. -/
def execRoundPrepare (k : Nat) (s : State) : Res :=
  .next (match nth? s.fab.rounds k with
    | none => s
    | some r =>
      if r.state == .complete && !r.voided && !s.voiding r && s.isOldest r && s.port.stores.all (fun st => !(st.of r && st.replay)) then
        let p := s.prepareAll r s.storePos s.port.stores
        if p.2 then p.1.putRound k { r with state := .prepared } else p.1
      else s)

/-- The code with which the peer answers a store that its LNK port sends at commit, if it does not write it (R329). -/
def State.peerRefuses (s : State) (st : Store) : Option Nat :=
  if spaceOf st.port = .peer then (match tget 0 s.mem.peerFail (st.pa / 65536) with | 0 => none | k => some k) else none
/-- Writes stores into memory in the order given; a failure at a peer is a fault of the store's activation (R329); they stay in the buffer, and hold their lines, until their round has committed (R356). -/
def State.writeStores (s : State) : List Store → State
  | [] => s
  | st :: l =>
    let s1 := if st.null || st.written then s
      else match s.peerRefuses st with
        | some k => s.raiseFault (st.info k (s.storePos st))
        | none => s.spaceWrite st.port st.key st.pa st.data st.sb
    let done := fun x : Store => if x.id == st.id then { x with written := true } else x
    ({ s1 with port := { s1.port with stores := s1.port.stores.map done } } : State).writeStores l
/-- The stores of a list before its first RELST entry. -/
def beforeRelease : List Store → List Store
  | [] => []
  | st :: l => if st.release then [] else st :: beforeRelease l
/-- The entries of a round at a port, in performed order. -/
def State.storesAt (s : State) (r : Round) (p : Nat) : List Store := s.port.stores.filter fun st => st.of r && st.port == p
/-- Behind the oldest iteration of a colour and load (R17). -/
def behind (o i : Nat) : Bool := decide (8388608 ≤ age o i)
/-- A round is committed: its entries leave the buffers, what is left of its read-ahead is discarded, and O moves to the first iteration after
it (R342); committed rounds that no longer lie behind O are forgotten. -/
def State.commitRound (s : State) (k : Nat) (r : Round) : State :=
  let o := (r.rbase + r.nr) % iterMod
  let mine := fun (e c col : Nat) => col == r.col && s.loadidAt e c == r.load
  let s1 := ((s.putRound k { r with state := .committed, room := [] }).dropStores fun st => st.of r).dropAhead fun h => mine h.e h.ctx h.col && r.holds h.iter
  let gone := fun q : Round => q.col == r.col && q.load == r.load && q.state == .committed && !behind o q.rbase
  let s2 : State := { s1 with
    fab := { s1.fab with rounds := s1.fab.rounds.filter fun q => !gone q },
    port := { s1.port with agens := s1.port.agens.map fun g => if mine g.e g.ctx g.col then { g with got := g.got.filter fun i => !r.holds i } else g } }
  s2.setColLoad { s2.colLoad r.col r.load with oldest := some o }
/-- A port has written its entries: when every port has, the round is committed. -/
def State.acked (s : State) (k : Nat) (r : Round) : State :=
  if r.ports.all (fun p => r.acked.contains p) && s.port.stores.all (fun st => !st.of r || st.null || st.written) then s.commitRound k r else s.putRound k r

/-- The ports of the rounds, round by round, each with the place of its round; a round without ports stands as one that has nothing to write. -/
def State.roundPorts (s : State) : List (Nat × Nat × Round) :=
  ((rangeFrom 0 s.fab.rounds.length).map fun i => match nth? s.fab.rounds i with
    | some r => (if r.ports.isEmpty then [0] else r.ports).map fun p => (i, p, r)
    | none => []).flatten
/-- ROUND_COMMIT (R342, R353): the k-th port of the rounds writes the entries of its prepared round, those before its first RELST entry if it
holds one, and acknowledges. -/
def execRoundCommit (k : Nat) (s : State) : Res :=
  .next (match nth? s.roundPorts k with
    | none => s
    | some (i, p, r) =>
      if (r.state == .phase1 || (r.state == .prepared && !r.voided && !s.voiding r)) && !r.acked.contains p then
        (s.writeStores (beforeRelease (s.storesAt r p))).acked i { r with state := .phase1, acked := p :: r.acked }
      else s)

/-- The ports whose acknowledgement of phase 1 a RELST's scope requires (R354): SCOPE lies in bits 9:8 of its word. -/
def State.releaseScope (s : State) (r : Round) (st : Store) : List Nat :=
  let scope := nfld ((s.slotWord st.e st.ctx st.slot).getD 0) 8 2
  r.ports.filter fun p => s.inScope scope st.e st.ctx p
/-- An entry performed before a RELST, at another port of its scope, has not been written (R355). -/
def State.relstWaits (s : State) (r : Round) (st : Store) : Bool :=
  st.release && s.port.stores.any fun x => x.of r && !x.null && !x.written && decide (x.id < st.id) && x.port != st.port && (s.releaseScope r st).contains x.port
/-- The entries of a list before the first RELST entry that must wait for another port. -/
def State.beforeWait (s : State) (r : Round) : List Store → List Store
  | [] => []
  | st :: l => if s.relstWaits r st then [] else st :: s.beforeWait r l
/-- RELEASE_PHASE (R353): once the ports of every RELST's scope have acknowledged phase 1, the k-th port of the rounds writes its first RELST
entry and those after it, in performed order, and acknowledges after the last; a RELST entry waits for the entries performed before it at other
ports of its scope, so that no access sees it before them (R355). -/
def execReleasePhase (k : Nat) (s : State) : Res :=
  .next (match nth? s.roundPorts k with
    | none => s
    | some (i, p, r) =>
      let need := ((s.port.stores.filter fun st => st.of r && st.release).map fun st => s.releaseScope r st).flatten
      if r.state == .phase1 && r.acked.contains p && need.all fun q => r.acked.contains q then (s.writeStores (s.beforeWait r (s.storesAt r p))).acked i r else s)

/-! ### Voiding (R344, R345) -/

/-- Voids a round and the younger ones: stores to the replay lists, read-ahead stopped, tokens parked; after it every AGEN asks for its
translation again (R334). -/
def State.voidRounds (s : State) (part col : Nat) (load : Word) (rb : Nat) : State :=
  let hit := fun r : Round => r.col == col && r.load == load && r.state != .committed && r.state != .phase1 && !r.voided &&
    decide (age rb r.rbase < 8388608)
  let rs := s.fab.rounds.filter hit
  let undo := fun r : Round => (s.port.stores.filter fun st => st.of r && !st.replay).foldl (fun (r : Round) st => r.uncount st.port st.e st.slot) r
  let vd := fun r : Round => if hit r then
      { undo r with voided := true, state := if r.ports.all (fun p => r.done.contains p) then .complete else .opened } else r
  let stop := fun h : Ahead => rs.any fun r => r.col == h.col && r.load == s.loadidAt h.e h.ctx && r.holds h.iter
  let gone := s.port.ahead.filter stop
  let s1 : State := { s with
    fab := { s.fab with rounds := s.fab.rounds.map vd },
    port := { s.port with
      stores := s.port.stores.map (fun st => if rs.any (fun r => st.of r) then { st with replay := true, prepared := false } else st),
      ahead := s.port.ahead.filter fun h => !stop h,
      agens := s.port.agens.map fun g => if g.col == col && s.loadidAt g.e g.ctx == load then { g with last := none } else g } }
  let s2 := gone.foldl (fun (s : State) h => s.endStarted h.started) s1
  let s3 := rs.foldl (fun (s : State) r => s.parkRange part col r.rbase ((r.rbase + r.nr - 1) % iterMod) (some load)) s2
  (s3.parkLinks fun tag l => tagCol tag == col && l == load && rs.any fun r => r.holds (tagIter tag)).1

/-- ROUND_VOID (R344): the k-th pending fault voids its round. -/
def execRoundVoid (k : Nat) (s : State) : Res :=
  .next (match nth? s.fab.faults k with
    | none => s
    | some f => match f.round with
      | none => s
      | some rb =>
        if f.done then s
        else
          let s1 := s.voidRounds f.part (nfld f.rcd 244 12) (fld f.rcd 320 64) rb
          { s1 with fab := { s1.fab with faults := setNth s1.fab.faults k { f with done := true } } })

/-- FAULT_RECORD_WRITE (R262, R345): the k-th pending fault's park has completed and a record is free. -/
def execFaultRecordWrite (k : Nat) (s : State) : Res :=
  .next (match nth? s.fab.faults k with
    | none => s
    | some f =>
      if !f.done then s
      else match s.writeRecord f.part f.rcd (if f.loadref then loadrefEvent f.rcd else faultEvent f.rcd f.tag) with
        | none => s
        | some s1 => { s1 with fab := { s1.fab with faults := dropNth s1.fab.faults k } })

/-! ### Resuming (R346) -/

/-- Applies one entry of a replay list to its port's buffer, where it counts again (R341, R346), and tells whether the port goes on: not while another
colour holds the line of an update, nor when the entry would need a 513th overflow line, which is a fault of its activation (R343). An update whose
page a shoot-down covered is translated again first; where that fails it waits for the prepare step to raise the fault (R336, R346). -/
def State.replayStore (s : State) (st : Store) : State × Bool :=
  match lfind (fun r => st.of r && r.state != .committed) s.fab.rounds with
  | none => (s, true)
  | some r =>
    let held := st.upd.isSome && s.port.stores.any fun x => x.port == st.port && !x.replay && !(x.col == st.col && x.load == st.load) && x.pa / 64 == st.pa / 64
    if held then (s, false)
    else match (if st.null then some 0 else s.entryFor st.port r (st.pa / 64) st.release) with
      | none => (s.raiseFault (st.info cConfig (s.storePos st)), false)
      | some n =>
        let moved := if st.upd.isSome && st.marked then (match s.retranslate st with | .ok v => some v | .error _ => none) else none
        let s := match moved with | some v => v.2 | none => s
        let st := match moved with | some v => { v.1 with prepared := false } | none => st
        let data := match st.upd with
          | some (v, w) => if st.marked then st.data else toBytes (updNew w (s.readDatum st.hist st.port st.key st.pa st.data.length).1 v).1 st.data.length
          | none => st.data
        let new := { st with replay := false, entry := n, data := data }
        let s1 : State := (s.setRound (r.count st.port st.e st.slot)).addStore new
        if n < 1024 then (s1, true)
        else match s1.spill st.col st.port r.half (n - 1024) st.pa data with
          | .error x => (s.failBasin st.col x, false)
          | .ok s2 => (s2, true)
/-- Applies replay lists in order; a port stops where an entry does not go on. -/
def State.replayAll (s : State) : List Store → List Nat → State
  | [], _ => s
  | st :: l, blocked =>
    if blocked.contains st.port then s.replayAll l blocked
    else
      let r := s.replayStore st
      r.1.replayAll l (if r.2 then blocked else st.port :: blocked)

/-- Read-ahead restarts at the oldest position of the oldest resumed round that was not delivered (R346); the first access after the rewind asks for
its translation (R334). -/
def Agen.rewind (g : Agen) (rs : List Round) : Agen :=
  match lfind (fun r => rs.all fun q => !behind r.rbase q.rbase) rs with
  | none => g
  | some r => { g with last := none, ra := (r.rbase + (firstKey (fun d => !g.got.contains ((r.rbase + d) % iterMod)) 0 (g.got.length + 1)).getD 0) % iterMod }

/-- Resumes the voided rounds of a colour whose parked tokens all lie in a range, oldest first (R346). -/
def State.resumeRounds (s : State) (c lo hi : Nat) : State :=
  let mine := fun (r : Round) (t : Token) => t.parked && tagCol t.tag == c && t.load == r.load && r.holds (tagIter t.tag)
  let hit := fun r : Round => r.col == c && r.voided && r.meets lo hi && (s.fab.tokens.filter (mine r)).all fun t => inRange lo hi (tagIter t.tag)
  let rs := s.fab.rounds.filter hit
  let s1 : State := { s with
    fab := { s.fab with rounds := s.fab.rounds.map fun r => if hit r then { r with voided := false } else r },
    port := { s.port with agens := s.port.agens.map fun g => if g.col == c then g.rewind (rs.filter fun r => r.load == s.loadidAt g.e g.ctx) else g } }
  s1.replayAll (s1.port.stores.filter fun st => st.replay && rs.any fun r => st.of r) []

/-- Entries of replay lists whose rounds have been resumed. -/
def State.replayLeft (s : State) : List Store := s.port.stores.filter fun st => st.replay && s.fab.rounds.any fun r => st.of r && !r.voided && r.state != .committed
/-- UPD_LINE_RELEASED (R206, R346): the k-th access, or beyond them the k-th replay entry, was held behind a line that no other colour
or load holds any more; the access waits for the replay list of its round (R346). -/
def execUpdLineReleased (k : Nat) (s : State) : Res :=
  .next (match nth? s.port.accesses k with
    | some a => if a.held && a.at_ < 100 && s.accessOpen a then ((s.setAccess { a with held := false }).perform { a with held := false }) else s
    | none => match nth? s.replayLeft (k - s.port.accesses.length) with
      | some st => s.replayAll (s.replayLeft.filter fun x => x.port == st.port) []
      | none => s)

end Sys2Proof.Machine
end

