-- ==== Sys2Proof/Machine/Vector.lean ====
section
/-! DEFINITION. Vector instructions (05 R165 to R175) and the noise of 02 R66. -/

namespace Sys2Proof.Machine

/-! ### Lane rules (R168 to R173) -/

/-- A lane rule: the result and the bits raised. -/
abbrev LaneFn := Nat → Nat → Nat → Nat × BitVec 8

/-- Applies a lane rule to every lane; a missing operand reads as 0. -/
def mapLanes (g : LaneFn) : List Nat → List Nat → List Nat → List Nat × BitVec 8
  | [], _, _ => ([], 0)
  | a :: as, bs, cs =>
    let r := g a (bs.headD 0) (cs.headD 0)
    let t := mapLanes g as bs.tail cs.tail
    (r.1 :: t.1, r.2 ||| t.2)

/-- An integer lane result: the low bits, or clamped under SAT (R168). -/
def intLane (ty : Ty) (sat : Bool) (i : Int) : Nat × BitVec 8 :=
  let r := if sat then clamped ty i else wrapped ty i
  (r.1.toNat % 2 ^ tyBits ty, r.2)
/-- The value of an integer lane. -/
def laneVal (ty : Ty) (a : Nat) : Int := tv ty (BitVec.ofNat 64 a)

/-- VADD, VSUB, VMUL. -/
def laneArith (o : Ops) (fp : Fmt → Nat → Nat → Nat × BitVec 8) (int : Int → Int → Int) : LaneFn := fun a b _ =>
  if isFp o.ty then fp (fmtOf o.ty) a b else intLane o.ty (satOf o) (int (laneVal o.ty a) (laneVal o.ty b))
/-- VMIN, VMAX. -/
def laneMinMax (ty : Ty) (wantMax : Bool) : LaneFn := fun a b _ =>
  if isFp ty then (fMinMax (fmtOf ty) wantMax a b, 0)
  else (if wantMax then (if laneVal ty a < laneVal ty b then b else a) else (if laneVal ty b < laneVal ty a then b else a), 0)
/-- VABS. -/
def laneAbs (ty : Ty) : LaneFn := fun a _ _ =>
  if isFp ty then (fAbs (fmtOf ty) a, 0) else intLane ty false (laneVal ty a).natAbs
/-- VCVT. -/
def laneCvt (src : Ty) (o : Ops) : LaneFn := fun a _ _ =>
  let r := fCvt src o.ty (rmOf o) (satOf o) (BitVec.ofNat 64 a)
  (r.1.toNat % 2 ^ tyBits o.ty, r.2)

/-- The rounded quotient of x / s as an integer, and whether it was inexact (R55). -/
def quotient (n1 : Bool) (m1 : Nat) (e1 : Int) (n2 : Bool) (m2 : Nat) (e2 : Int) : Int × Bool :=
  let e := e1 - e2
  let num := if 0 ≤ e then m1 * 2 ^ e.toNat else m1
  let den := if 0 ≤ e then m2 else m2 * 2 ^ (-e).toNat
  let k := num / den
  let r := num % den
  let up := decide (den < 2 * r) || (decide (2 * r = den) && k % 2 == 1)
  (signed (n1 ^^ n2) (if up then k + 1 else k), r != 0)
/-- VQNT of a value with FP16 scale s and zero point z into 0 to top (R55 to R57). -/
def quantise (x s : Fp) (z top : Nat) : Nat × BitVec 8 :=
  match x, s with
  | .nan, _ => (z, bIV)
  | _, .nan => (z, bIV)
  | _, .inf _ => (z, bIV)
  | .inf n, .fin g m _ => if m = 0 then (z, bIV) else (if n ^^ g then 0 else top, bOF)
  | .fin n m e, .fin g k h =>
    if k = 0 then (z, bIV)
    else
      let q := quotient n m e g k h
      let t := q.1 + z
      let ix : BitVec 8 := if q.2 then bIX else 0
      if t < 0 then (0, bOF ||| ix) else if (top : Int) < t then (top, bOF ||| ix) else (t.toNat, ix)
/-- s x (q - z) (R54). -/
def dequantise (s : Fp) (q z : Nat) : Fp × BitVec 8 := mulFp s (fpOfInt false ((q : Int) - z) 0)

/-- VCMP (R169). -/
def laneCmp (ty : Ty) (r : FRel) : LaneFn := fun a b _ =>
  let x := laneVal ty a; let y := laneVal ty b
  (b2n (if isFp ty then fCmp (fmtOf ty) r a b else match r with
    | .eq => a == b | .ne => a != b | .lt => decide (x < y) | .le => decide (x ≤ y) | .gt => decide (y < x) | .ge => decide (y ≤ x)
    | .un => false), 0)

/-- An exact sum under way (R170): a NaN lane, infinities of each sign, the sum m x 2^e, and whether every lane is a -0, or a +0. -/
structure FSum where
  nan : Bool
  pos : Bool
  neg : Bool
  m : Int
  e : Int
  allNeg : Bool
  allPos : Bool
  deriving DecidableEq, Repr
/-- The sum of no lanes. -/
def FSum.none : FSum := ⟨false, false, false, 0, 0, true, true⟩
/-- Adds a value. -/
def FSum.add (a : FSum) : Fp → FSum
  | .nan => { a with nan := true }
  | .inf n => if n then { a with neg := true } else { a with pos := true }
  | .fin n m e =>
    let g := if a.e ≤ e then a.e else e
    { a with m := a.m * 2 ^ (a.e - g).toNat + signed n m * 2 ^ (e - g).toNat, e := g,
             allNeg := a.allNeg && m == 0 && n, allPos := a.allPos && m == 0 && !n }
/-- The value of the sum, and the bits raised (R44, R59). -/
def FSum.val (a : FSum) (rm : Nat) : Fp × BitVec 8 :=
  if a.nan then (.nan, 0)
  else if a.pos && a.neg then (.nan, bIV)
  else if a.pos then (.inf false, 0)
  else if a.neg then (.inf true, 0)
  else (fpOfInt (a.allNeg || (!a.allPos && rm == 2)) a.m a.e, 0)

/-- The reductions of VRED, VSCAN and TRED. -/
inductive Red where
  | sum | min | max
  deriving DecidableEq, Repr

/-- A reduction under way. -/
structure RedState where
  fs : FSum
  int : Int
  /-- Minimum or maximum so far. -/
  best : Option Nat
  deriving DecidableEq, Repr
/-- No lanes yet. -/
def RedState.none : RedState := ⟨.none, 0, Option.none⟩
/-- Takes one more lane. -/
def RedState.add (ty : Ty) (r : Red) (a : RedState) (v : Nat) : RedState :=
  match r with
  | .sum => if isFp ty then { a with fs := a.fs.add ((fmtOf ty).read v) } else { a with int := a.int + laneVal ty v }
  | m => { a with best := some (match a.best with | some b => (laneMinMax ty (m == .max) b v 0).1 | Option.none => v) }
/-- The reduction of the lanes so far (R170). -/
def RedState.val (ty : Ty) (r : Red) (rm : Nat) (sat : Bool) (a : RedState) : Nat × BitVec 8 :=
  match r with
  | .sum => if isFp ty then (fmtOf ty).fin rm sat (a.fs.val rm) else intLane ty sat a.int
  | _ =>
    let v := a.best.getD 0
    (if isFp ty && (fmtOf ty).read v == .nan then (fmtOf ty).nan else v, 0)
/-- The reduction of a list of lanes. -/
def reduce (ty : Ty) (r : Red) (rm : Nat) (sat : Bool) (l : List Nat) : Nat × BitVec 8 :=
  (l.foldl (RedState.add ty r) .none).val ty r rm sat
/-- Every prefix reduction (R171). -/
def scanFrom (ty : Ty) (r : Red) (rm : Nat) (sat : Bool) : RedState → List Nat → List Nat × BitVec 8
  | _, [] => ([], 0)
  | a, v :: l =>
    let a' := a.add ty r v
    let x := a'.val ty r rm sat
    let t := scanFrom ty r rm sat a' l
    (x.1 :: t.1, x.2 ||| t.2)

/-- The highest-ranking pair of the lanes from lane i on (R172). -/
def maxLane (ty : Ty) (ord : Bool) (base : Nat) : Nat → Option (Nat × Nat) → List Nat → Option (Nat × Nat)
  | _, b, [] => b
  | i, b, v :: l =>
    let p := ((base + i) % 2 ^ 32, v)
    maxLane ty ord base (i + 1) (some (match b with | some q => maxPair ty ord q p | none => p)) l

/-- The Gumbel noise of R66, in f32. -/
def gumbel (seed : Word) (p v : Nat) : Nat :=
  let h0 := seed ^^^ BitVec.ofNat 64 (p * 2 ^ 32) ^^^ BitVec.ofNat 64 v
  let h := mixRound 2 (mixRound 1 (mixRound 0 h0))
  let n := nfld h 40 24
  let f := fmtF32
  let u := (f.round 0 false false (2 * n + 1) (-25) false).1
  let ln2 := 0x3F317218
  let a := (fLog2 f 0 false u).1
  let b := (fMul f 0 false a ln2).1
  let d := (fLog2 f 0 false (fNeg f b)).1
  let e := (fMul f 0 false d ln2).1
  if n = 0xFFFFFF then f.max false else fNeg f e
/-- VNOISE's lane: x + g rounded once under RNE (R173). -/
def laneNoise (o : Ops) (x g : Nat) : Nat × BitVec 8 := (fmtOf o.ty).fin 0 (satOf o) (addFp 0 ((fmtOf o.ty).read x) (fmtF32.read g))

/-! ### Meanings -/

/-- Lanes as a result without a header (R158). -/
def lanesRes (ty : Ty) (r : List Nat × BitVec 8) : SlotRes := ⟨packLanes (tyBits ty) r.1, false, 0, 0, r.2⟩
/-- The operands of a vector node: lane types of A, B and C, holds from bits 5 to 7 of IMM (Table 5.6). -/
def State.vargs (s : State) (f : Firing) (o : Ops) (ta tb tc : Ty) : List Arg :=
  let g := fun t x (h : Nat) => if x = Opnd.none then [] else [s.arg f t x (bit o.imm h)]
  g ta o.a 5 ++ g tb o.b 6 ++ g tc o.c 7
/-- The i-th operand; a scalar zero where the word names none. -/
def argAt (l : List Arg) (i : Nat) : Arg := nth (scalarArg ⟨0, 0⟩) l i

/-- A lane-wise node: N from operand A in its own lane type (R167). -/
def State.laneNode (s : State) (o : Ops) (ta tb tc tr : Ty) (g : LaneFn) : Res := s.flow fun f =>
  let l := s.vargs f o ta tb tc
  let n := (argAt l 0).count ta
  let body := match (argAt l 0).lanes ta n, (argAt l 1).lanes tb n, (argAt l 2).lanes tc n with
    | some a, some b, some c => some (lanesRes tr (mapLanes g a b c))
    | _, _, _ => none
  s.slotNode f o l 0 (tyBits o.ty) 0 body
/-- A lane-wise node whose operands and result have the lane type TY. -/
def State.laneSame (s : State) (o : Ops) (g : LaneFn) : Res := s.laneNode o o.ty o.ty o.ty o.ty g

def execVadd (o : Ops) (s : State) : Res := s.laneSame o (laneArith o (fun f => fAdd f (rmOf o) (satOf o)) fun a b => a + b)
def execVsub (o : Ops) (s : State) : Res := s.laneSame o (laneArith o (fun f => fSub f (rmOf o) (satOf o)) fun a b => a - b)
def execVmul (o : Ops) (s : State) : Res := s.laneSame o (laneArith o (fun f => fMul f (rmOf o) (satOf o)) fun a b => a * b)
def execVfma (o : Ops) (s : State) : Res := s.laneSame o fun a b c => fFma (fmtOf o.ty) (rmOf o) (satOf o) a b c
def execVmin (o : Ops) (s : State) : Res := s.laneSame o (laneMinMax o.ty false)
def execVmax (o : Ops) (s : State) : Res := s.laneSame o (laneMinMax o.ty true)
def execVabs (o : Ops) (s : State) : Res := s.laneSame o (laneAbs o.ty)
def execVexp2 (o : Ops) (s : State) : Res := s.laneSame o fun a _ _ => fExp2 (fmtOf o.ty) (rmOf o) (satOf o) a
def execVlog2 (o : Ops) (s : State) : Res := s.laneSame o fun a _ _ => fLog2 (fmtOf o.ty) (rmOf o) (satOf o) a
def execVrcp (o : Ops) (s : State) : Res := s.laneSame o fun a _ _ => fRcp (fmtOf o.ty) (rmOf o) (satOf o) a
def execVrsq (o : Ops) (s : State) : Res := s.laneSame o fun a _ _ => fRsq (fmtOf o.ty) (rmOf o) (satOf o) a
/-- SRCT of Table 5.6. -/
def srct (o : Ops) : Ty := tyOf (fld o.imm 8 4)
def execVcvt (o : Ops) (s : State) : Res := s.laneNode o (srct o) o.ty o.ty o.ty (laneCvt (srct o) o)

/-- A node with a lane operand and two scalar operands, whose literals stand for their numbers in the type TY (R69; DEDUCED, log entry 47). -/
def State.laneScalars (s : State) (o : Ops) (ta : Ty) (g : Firing → Nat → Nat → List Nat → List Nat × BitVec 8) : Res := s.flow fun f =>
  let a := s.arg f ta o.a (bit o.imm 5)
  let b := s.opVal o.ty o.imm o.b
  let c := s.opVal o.ty o.imm o.c
  let body := (a.lanes ta (a.count ta)).map fun l => lanesRes o.ty (g f b.v.toNat c.v.toNat l)
  s.slotNode f o [a, scalarArg b, scalarArg c] 0 (tyBits o.ty) 0 body

/-- VQNT (R55 to R57, R168): SAT and RM do not act. -/
def execVqnt (o : Ops) (s : State) : Res := s.laneScalars o (srct o) fun _ b c l =>
  let top := 2 ^ tyBits o.ty - 1
  mapLanes (fun x _ _ => quantise ((fmtOf (srct o)).read x) (fmtF16.read b) (c % (top + 1)) top) l [] []
/-- VDQNT (R54, R168). -/
def execVdqnt (o : Ops) (s : State) : Res := s.laneScalars o (srct o) fun _ b c l =>
  mapLanes (fun q _ _ => (fmtOf o.ty).fin (rmOf o) (satOf o) (dequantise (fmtF16.read b) q (c % 2 ^ tyBits (srct o)))) l [] []

def execVcmpEq (o : Ops) (s : State) : Res := s.laneNode o o.ty o.ty o.ty .u8 (laneCmp o.ty .eq)
def execVcmpNe (o : Ops) (s : State) : Res := s.laneNode o o.ty o.ty o.ty .u8 (laneCmp o.ty .ne)
def execVcmpLt (o : Ops) (s : State) : Res := s.laneNode o o.ty o.ty o.ty .u8 (laneCmp o.ty .lt)
def execVcmpLe (o : Ops) (s : State) : Res := s.laneNode o o.ty o.ty o.ty .u8 (laneCmp o.ty .le)
def execVcmpGt (o : Ops) (s : State) : Res := s.laneNode o o.ty o.ty o.ty .u8 (laneCmp o.ty .gt)
def execVcmpGe (o : Ops) (s : State) : Res := s.laneNode o o.ty o.ty o.ty .u8 (laneCmp o.ty .ge)
def execVcmpUn (o : Ops) (s : State) : Res := s.laneNode o o.ty o.ty o.ty .u8 (laneCmp o.ty .un)
def execVsel (o : Ops) (s : State) : Res := s.laneNode o .u8 o.ty o.ty o.ty fun c a b => (if c % 2 = 1 then a else b, 0)

/-- A reduction to a scalar (R170). -/
def State.redNode (s : State) (o : Ops) (r : Red) : Res := s.flow fun f =>
  let a := s.arg f o.ty o.a (bit o.imm 5)
  let body := (a.lanes o.ty (a.count o.ty)).map fun l =>
    let x := reduce o.ty r (rmOf o) (satOf o) l
    (tyExtend o.ty x.1, x.2)
  s.scalarNode f o [a] (fun n => vecCycles (tyBits o.ty) n + 8) body
def execVredSum (o : Ops) (s : State) : Res := s.redNode o .sum
def execVredMin (o : Ops) (s : State) : Res := s.redNode o .min
def execVredMax (o : Ops) (s : State) : Res := s.redNode o .max

/-- A scan (R171). -/
def State.scanNode (s : State) (o : Ops) (r : Red) : Res := s.flow fun f =>
  let a := s.arg f o.ty o.a (bit o.imm 5)
  let body := (a.lanes o.ty (a.count o.ty)).map fun l => lanesRes o.ty (scanFrom o.ty r (rmOf o) (satOf o) .none l)
  s.slotNode f o [a] 0 (tyBits o.ty) 8 body
def execVscanSum (o : Ops) (s : State) : Res := s.scanNode o .sum
def execVscanMin (o : Ops) (s : State) : Res := s.scanNode o .min
def execVscanMax (o : Ops) (s : State) : Res := s.scanNode o .max

/-- VMAXI (R172). -/
def execVmaxi (o : Ops) (s : State) : Res := s.flow fun f =>
  let a := s.arg f o.ty o.a (bit o.imm 5)
  let b := s.opVal .u32 o.imm o.b
  let body := (a.lanes o.ty (a.count o.ty)).map fun l =>
    match maxLane o.ty (bit o.imm 12) (nfld b.v 0 32) 0 none l with
    | some p => (pairOut o.ty p, (0 : BitVec 8))
    | none => (0, 0)
  s.scalarNode f o [a, scalarArg b] (fun n => vecCycles (tyBits o.ty) n + 8) body

/-- Noise for every lane, from lane i on. -/
def noiseLanes (o : Ops) (seed : Word) (p vb : Nat) : Nat → List Nat → List Nat × BitVec 8
  | _, [] => ([], 0)
  | i, x :: l =>
    let r := laneNoise o x (gumbel seed p ((vb + i) % 2 ^ 32))
    let t := noiseLanes o seed p vb (i + 1) l
    (r.1 :: t.1, r.2 ||| t.2)
/-- VNOISE (R173). -/
def execVnoise (o : Ops) (s : State) : Res := s.laneScalars o o.ty fun f b c l =>
  noiseLanes o (s.colour (tagCol f.tag)).seed (b % 2 ^ 32) (c % 2 ^ 32) 0 l

/-- VBCAST (R174). -/
def execVbcast (o : Ops) (s : State) : Res := s.flow fun f =>
  let x := s.opVal o.ty o.imm o.a
  let l := s.opVal .u32 o.imm o.b
  let n := nfld l.v 0 32
  let size := match s.buf f.e f.ctx (nfld o.imm 0 5) with | some b => b.size | none => 0
  let body := if n = 0 ∨ size < n then none
    else some (lanesRes o.ty (List.replicate (n * 512 / tyBits o.ty) (x.v.toNat % 2 ^ tyBits o.ty), 0))
  s.slotNode f o [scalarArg x, scalarArg l] 0 (tyBits o.ty) 0 body

/-- VPERM (R174): N is the lane count of idx; a broadcast idx takes N from operand A (log entry 21). Operand A may hold any number of lanes, since
R174 tells the lanes of a from those of idx (DEDUCED, log entry 107). -/
def execVperm (o : Ops) (s : State) : Res := s.flow fun f =>
  let a := s.arg f o.ty o.a (bit o.imm 5)
  let x := s.arg f .u32 o.b (bit o.imm 6)
  let n := if x.ref.isSome then x.count .u32 else a.count o.ty
  let src := laneList (tyBits o.ty) (a.count o.ty) a.bytes
  let body := (x.lanes .u32 n).map fun l => lanesRes o.ty (l.map fun i => nth 0 src i, 0)
  s.slotNode f o [a, x] 0 (tyBits o.ty) 0 body

end Sys2Proof.Machine
end

