-- ==== Sys2Proof/Machine/Tile.lean ====
section
/-! DEFINITION. Accumulators and tile instructions (05 R176 to R191), with the sum orders of 02 R58 to R64. Effects on accumulators and
slot headers take place when a firing issues; its unit only delays what it sends and releases (log entry 22). -/

namespace Sys2Proof.Machine

/-! ### Grids -/

/-- Splits a list into `n` rows of `k`. -/
def gridRows (k : Nat) : Nat → List Nat → List (List Nat)
  | 0, _ => []
  | n + 1, l => l.take k :: gridRows k n (l.drop k)
/-- Columns of rows. -/
def gridCols (k : Nat) (g : List (List Nat)) : List (List Nat) := (rangeFrom 0 k).map fun j => g.map fun r => nth 0 r j
/-- Changes the first `n` values of a row, from column j on. -/
def mapRow (g : Nat → Nat → Nat × BitVec 8) : Nat → Nat → List Nat → List Nat × BitVec 8
  | j, n + 1, v :: l => let r := g j v; let t := mapRow g (j + 1) n l; (r.1 :: t.1, r.2 ||| t.2)
  | _, _, l => (l, 0)
/-- Changes the first `n` rows and `k` columns of a grid, from row i on. -/
def mapGrid (g : Nat → Nat → Nat → Nat × BitVec 8) (k : Nat) : Nat → Nat → List (List Nat) → List (List Nat) × BitVec 8
  | i, n + 1, r :: l => let x := mapRow (g i) 0 k r; let t := mapGrid g k (i + 1) n l; (x.1 :: t.1, x.2 ||| t.2)
  | _, _, l => (l, 0)

/-! ### Tiles and scale blocks -/

/-- The lane type of a tile format (Table 1.5). -/
def fmtTy (f : Nat) : Ty := match f with | 0 => .f32 | 1 => .bf16 | 2 => .f16 | 3 => .q8 | 4 => .q4 | 5 => .i32 | _ => .i8
/-- The format is f32, bf16 or f16. -/
def fmtFp (f : Nat) : Bool := f < 3
/-- The elements of a tile in row-major order (R32). -/
def tileElems (h : BitVec 256) (bytes : List Byte) : List Nat := laneList (fmtBits (hFmt h)) ((hNrow h + 1) * (hNcol h + 1)) bytes
/-- FP16 scale and zero point of an entry of a scale block (R33). -/
def scaleOf (b : BitVec 1024) (i : Nat) : Nat := nfld b (32 * i) 16
def zeroOf (b : BitVec 1024) (i : Nat) : Nat := nfld b (32 * i + 16) 8
/-- A tile as a result: a header with its shape and format set, and its elements. -/
def tileRes (h : BitVec 256) (fmt nrow ncol : Nat) (elems : List Nat) (scale : BitVec 1024) (bits : BitVec 8) : SlotRes :=
  ⟨packLanes (fmtBits fmt) elems, true,
    mkHdr (hTcol h) (hTrow h) (fmtBeats fmt nrow ncol) ncol nrow (hRax h) (hScl h) (hGrp h) fmt, scale, bits⟩
/-- TCVT's and TRED's conversion of a value of one format to another. -/
def fmtConv (src dst : Nat) (o : Ops) (v : Nat) : Nat × BitVec 8 :=
  let r := fCvt (fmtTy src) (fmtTy dst) (rmOf o) (satOf o) (BitVec.ofNat 64 v)
  (r.1.toNat % 2 ^ fmtBits dst, r.2)

/-! ### Accumulators (Table 5.7) -/

/-- An accumulator; a poisoned line of its DATA puts PZ into ASB (R22, R281). -/
def State.acc (s : State) (e c n : Nat) : Acc :=
  let a := tget Acc.reset (s.ctx e c).accs n
  if poolPoisoned (s.elem e) (accByte (s.ctx e c).partwd n) 4096 then { a with asb := a.asb ||| sbPoison } else a
def State.setAcc (s : State) (e c n : Nat) (a : Acc) : State :=
  let x := s.ctx e c
  s.setCtx e c { x with accs := tset Acc.reset x.accs n a }
/-- DATA as 32 rows of 32 values. -/
def State.accData (s : State) (e c n : Nat) : List (List Nat) :=
  gridRows 32 32 (byteLanes 4 1024 (mgetN (s.elem e).pool (accByte (s.ctx e c).partwd n) 4096))
/-- Writes DATA. -/
def State.setAccData (s : State) (e c n : Nat) (g : List (List Nat)) : State :=
  s.setElem e ((s.elem e).poolWrite (accByte (s.ctx e c).partwd n) ((g.flatten.map fun v => toBytes v 4).flatten))
/-- DATA with every value +0. -/
def zeroGrid : List (List Nat) := List.replicate 32 (List.replicate 32 0)
/-- The accumulator that a word names (R159). -/
def accOf (o : Ops) : Nat := match o.c with | .acc n => n.toNat | _ => 0

/-- A group is open. -/
def Acc.isOpen (a : Acc) : Bool := a.gleft != 0

/-- Completes an open group (R61, R62). -/
def closeGroup (a : Acc) (d : List (List Nat)) (sat : Bool) : Acc × List (List Nat) × BitVec 8 :=
  if a.isOpen then
    let sh := a.shape.getD (0, 0)
    let f := fmtF32
    let g := fun i j v =>
      let p := f.fin 0 false (mulFp (fmtF16.read (scaleOf a.ascale i)) (fmtF16.read (scaleOf a.bscale j)))
      let q := f.fin 0 sat (mulFp (fpOfInt false (nth 0 a.partials (32 * i + j)) 0) (f.read p.1))
      let r := f.fin 0 sat (addFp 0 (f.read v) (f.read q.1))
      (r.1, r.2 ||| q.2 ||| p.2)
    let x := mapGrid g sh.2 0 sh.1 d
    ({ a with gleft := 0, partials := [], ascale := 0, bscale := 0, asb := a.asb ||| x.2 }, x.1, x.2)
  else (a, d, 0)

/-- The owner of the accumulator is the firing's tag (R177). -/
def Acc.ownedBy (a : Acc) (tag : Word) : Bool := match a.owner with | some t => tagEq t tag | none => false

/-- The matrix queue of four has room (R191). -/
def State.matrixRoom (s : State) (e : Nat) : Bool := (s.fab.units.filter fun x => x.e == e && x.unit == 2).length < 5
/-- A firing for the accumulator waits in the queue or runs in the matrix unit (R191). -/
def State.matrixBusy (s : State) (e c n : Nat) : Bool := s.fab.units.any fun x => x.e == e && x.ctx == c && x.acc == some n
/-- What a product needs to be ready, beside room in the queue (R177). -/
def State.productReady (s : State) (f : Firing) (o : Ops) : Bool :=
  let a := s.arg f .tile o.a false
  let b := s.arg f .tile o.b false
  let c := s.acc f.e f.ctx (accOf o)
  c.ownedBy f.tag && (sbDead (argsSb [a, b]) || sbDead c.asb || (s.argsFault f [a, b]).isSome || !a.slot.hv || hTcol a.slot.hdr == c.kc)
/-- Readiness of the instructions that enter the matrix queue, and of TDRAIN (R161, R177, R184, R191). -/
def State.accReady (s : State) (f : Firing) (o : Ops) : Instr → Bool
  | .tmma _ => s.productReady f o && s.matrixRoom f.e
  | .tmmq _ => s.productReady f o && s.matrixRoom f.e
  | .tacc _ => (s.acc f.e f.ctx (accOf o)).ownedBy f.tag && s.matrixRoom f.e
  | .tclr _ => ((s.acc f.e f.ctx (accOf o)).owner.isNone || (s.acc f.e f.ctx (accOf o)).ownedBy f.tag) && s.matrixRoom f.e
  | .tdrain _ =>
    let a := s.acc f.e f.ctx (accOf o)
    let sb := sbOr [a.asb, (s.opVal .x64 0 o.a).sb]
    a.ownedBy f.tag && !s.matrixBusy f.e f.ctx (accOf o) && (sbDead sb || s.destReady f.e f.ctx (nfld o.imm 0 5))
  | _ => true

/-- Ends a firing into an accumulator: the new state, and KC to its optional targets (R179). -/
def State.accDone (s : State) (f : Firing) (o : Ops) (args : List Arg) (cycles : Nat) (sb : BitVec 8) (a : Acc) (d : Option (List (List Nat))) :
    State :=
  let n := accOf o
  let s1 := s.setAcc f.e f.ctx n a
  let s2 := match d with | some g => s1.setAccData f.e f.ctx n g | none => s1
  s2.toUnitOf f o 2 (some n) cycles (outBoth o (outOf 0 f.tag (if sbDead sb then 0 else BitVec.ofNat 64 a.kc, sb))) none args sb

/-- KC after a product. -/
def Acc.kcNext (a : Acc) : Nat := (a.kc + 1) % 65536

/-- Runs a product node: readiness, reference checks, and the firings that skip the arithmetic (R181, R182). A body of none raises
BUFFER; it yields the new state, DATA, the bits raised and the cycles. -/
def State.productNode (s : State) (f : Firing) (o : Ops) (body : Arg → Arg → Acc → Option (Acc × List (List Nat) × BitVec 8 × Nat)) : State :=
  let a := s.arg f .tile o.a (bit o.imm 5)
  let b := s.arg f .tile o.b (bit o.imm 6)
  let c := s.acc f.e f.ctx (accOf o)
  let sb := argsSb [a, b]
  if !(s.productReady f o && s.matrixRoom f.e) then s.unfire f
  else match s.argsFault f [a, b] with
    | some i => s.faultFiring f i
    | none =>
      if sbDead sb || sbDead c.asb then
        let c' : Acc := { c with kc := c.kcNext, asb := sbOr [c.asb, sb] }
        s.accDone f o [a, b] 4 sb c' none
      else if !(a.slot.hv && b.slot.hv) then s.faultFiring f (f.info cBuffer sb)
      else match body a b c with
        | none => s.faultFiring f (f.info cBuffer sb)
        | some r =>
          let sb' := sb ||| r.2.2.1
          let c' : Acc := { r.1 with kc := c.kcNext, idx := (hTrow a.slot.hdr, hTcol b.slot.hdr), asb := sbOr [r.1.asb, sb'] }
          s.accDone f o [a, b] r.2.2.2 sb' c' (some r.2.1)

/-- The exact sum of one block of products (R58, R59); fewer than 32 products leave room for a +0. -/
structure Dot where
  nan : Bool
  iv : Bool
  sum : FSum
  deriving DecidableEq, Repr
/-- Takes one product. -/
def Dot.add (d : Dot) (a b : Fp) : Dot :=
  if a = .nan ∨ b = .nan then { d with nan := true }
  else
    let p := mulFp a b
    if p.1 = .nan then { d with iv := true } else { d with sum := d.sum.add p.1 }
/-- Takes the products of two lists. -/
def Dot.addAll : Dot → List Fp → List Fp → Dot
  | d, a :: as, b :: bs => (d.add a b).addAll as bs
  | d, _, _ => d
/-- The block sum and the bits that it raises. -/
def Dot.val (d : Dot) (k : Nat) : Fp × BitVec 8 :=
  if d.nan then (.nan, 0)
  else if d.iv then (.nan, bIV)
  else ({ d.sum with allNeg := d.sum.allNeg && k == 32, allPos := d.sum.allPos }).val 0
/-- No products yet. -/
def Dot.none : Dot := ⟨false, false, .none⟩

/-- The sum of products of signed integers. -/
def intDot : List Int → List Int → Int
  | a :: as, b :: bs => a * b + intDot as bs
  | _, _ => 0

/-- Column j of the B tile as values; q8 and q4 are dequantised (R63). -/
def weightCol (h : BitVec 256) (scale : BitVec 1024) (j : Nat) (col : List Nat) : List (Fp × BitVec 8) :=
  if fmtFp (hFmt h) then col.map fun v => ((fmtOf (fmtTy (hFmt h))).read v, 0)
  else col.map fun q => dequantise (fmtF16.read (scaleOf scale j)) q (zeroOf scale j)

/-- The shape and index checks of R181. -/
def shapeOk (a b : BitVec 256) (c : Acc) (m : AMode) : Bool :=
  hNcol a == hNrow b && hTcol a == hTrow b && (c.mode == .unset || c.mode == m) &&
  (match c.shape with | none => true | some sh => sh == (hNrow a + 1, hNcol b + 1))

/-- TMMA's arithmetic (R58 to R60, R63, R181). -/
def mmaBody (sat : Bool) (data : List (List Nat)) (a b : Arg) (c : Acc) : Option (Acc × List (List Nat) × BitVec 8 × Nat) :=
  let ha := a.slot.hdr; let hb := b.slot.hdr
  let fa := hFmt ha; let fb := hFmt hb
  let int := fa == 6
  let m : AMode := if int then .integer else .float
  if !(shapeOk ha hb c m && (fmtFp fa || fa == 6) && (fmtFp fb || fb == 3 || fb == 4 || fb == 6) && (fb == 6) == int &&
       (!(fb == 3 || fb == 4) || hRax hb == 1)) then none
  else
    let rows := hNrow ha + 1; let k := hNcol ha + 1; let cols := hNcol hb + 1
    let cl := closeGroup c data sat
    let ra := gridRows k rows (tileElems ha a.bytes)
    let cb := gridCols cols (gridRows cols k (tileElems hb b.bytes))
    let c' : Acc := { cl.1 with mode := m, shape := some (rows, cols) }
    if int then
      let g := fun i j (v : Nat) =>
        let n := intDot ((nth [] ra i).map fun x => sval 8 x) ((nth [] cb j).map fun x => sval 8 x)
        (wrapInt 32 ((v : Int) + n), (0 : BitVec 8))
      some (c', (mapGrid g cols 0 rows cl.2.1).1, cl.2.2, 16)
    else
      let fr := fmtF32
      let va := ra.map fun r => r.map fun x => (fmtOf (fmtTy fa)).read x
      let vb := (rangeFrom 0 cols).map fun j => weightCol hb b.slot.scale j (nth [] cb j)
      let raised := vb.foldl (fun x l => l.foldl (fun y v => y ||| v.2) x) 0
      let wb := vb.map fun l => l.map fun v => v.1
      let g := fun i j v =>
        let s := (Dot.none.addAll (nth [] va i) (nth [] wb j)).val k
        let r := fr.fin 0 sat (addFp 0 (fr.read v) s.1)
        (r.1, r.2 ||| s.2)
      let x := mapGrid g cols 0 rows cl.2.1
      some (c', x.1, x.2 ||| raised ||| cl.2.2, if fa == 0 || fb == 0 then 128 else 32)

/-- TMMA (R181). -/
def execTmma (o : Ops) (s : State) : Res := s.flow fun f =>
  s.productNode f o (mmaBody (satOf o) (s.accData f.e f.ctx (accOf o)))

/-- Tiles that a group spans (R182). -/
def groupTiles (g : Nat) : Nat := match g with | 1 => 1 | 2 => 2 | _ => 4
/-- Adds to the exact partials of the outputs within a shape. -/
def addPartials (rows cols : Nat) (p : List Int) (g : Nat → Nat → Int) : List Int :=
  (rangeFrom 0 1024).map fun n => if n / 32 < rows ∧ n % 32 < cols then nth 0 p n + g (n / 32) (n % 32) else nth 0 p n

/-- TMMQ's arithmetic (R61, R62, R182). -/
def mmqBody (sat : Bool) (data : List (List Nat)) (a b : Arg) (c : Acc) : Option (Acc × List (List Nat) × BitVec 8 × Nat) :=
  let ha := a.slot.hdr; let hb := b.slot.hdr
  let r := hTcol ha
  let g := groupTiles (hGrp ha)
  let opens := r % g == 0
  let same := a.slot.scale == c.ascale && b.slot.scale == c.bscale
  if !(shapeOk ha hb c .float && (hFmt ha == 3 || hFmt ha == 4) && hFmt hb == hFmt ha && hRax ha == 0 && hRax hb == 1 && hGrp ha != 0 &&
       hGrp ha == hGrp hb && (opens || (c.isOpen && same))) then none
  else
    let rows := hNrow ha + 1; let k := hNcol ha + 1; let cols := hNcol hb + 1
    let cl := if opens then closeGroup c data sat else (c, data, 0)
    let ra := gridRows k rows (tileElems ha a.bytes)
    let cb := gridCols cols (gridRows cols k (tileElems hb b.bytes))
    let za := fun i => (nth [] ra i).map fun (q : Nat) => (q : Int) - zeroOf a.slot.scale i
    let zb := fun j => (nth [] cb j).map fun (q : Nat) => (q : Int) - zeroOf b.slot.scale j
    let old := if opens then List.replicate 1024 0 else cl.1.partials
    let left := g - r % g
    let c1 : Acc := { cl.1 with mode := .float, shape := some (rows, cols), partials := addPartials rows cols old fun i j => intDot (za i) (zb j),
                                ascale := a.slot.scale, bscale := b.slot.scale, gleft := left }
    let done := if (r + 1) % g == 0 then closeGroup c1 cl.2.1 sat else ({ c1 with gleft := left - 1 }, cl.2.1, 0)
    some (done.1, done.2.1, cl.2.2 ||| done.2.2, if hFmt ha == 3 then 16 else 8)

/-- TMMQ (R182). -/
def execTmmq (o : Ops) (s : State) : Res := s.flow fun f =>
  s.productNode f o (mmqBody (satOf o) (s.accData f.e f.ctx (accOf o)))

/-- TCLR (R180). The exception bits of completing an open group join the result's, also under NL or PZ (DESIGN CHOICE, log entry 94). -/
def execTclr (o : Ops) (s : State) : Res := s.flow fun f =>
  let t := s.opVal .x64 o.imm o.a
  let c := s.acc f.e f.ctx (accOf o)
  if !s.accReady f o (.tclr o) then s.unfire f
  else
    let bits := (closeGroup c (s.accData f.e f.ctx (accOf o)) (satOf o)).2.2
    let c' : Acc := { Acc.reset with owner := some (tagClean f.tag), kc := o.imm.toNat, asb := t.sb, idx := c.idx }
    s.accDone f o [scalarArg t] 4 (sbOr [t.sb, bits]) c' (some zeroGrid)

/-- TACC's arithmetic (R183). -/
def taccBody (sat : Bool) (data : List (List Nat)) (a : Arg) (c : Acc) : Option (Acc × List (List Nat) × BitVec 8) :=
  let h := a.slot.hdr
  let fa := hFmt h
  let m : AMode := if fa == 5 then .integer else .float
  let sh := (hNrow h + 1, hNcol h + 1)
  if !(a.slot.hv && (fmtFp fa || fa == 5) && (c.mode == .unset || c.mode == m) && (c.shape.isNone || c.shape == some sh)) then none
  else
    let cl := closeGroup c data sat
    let rows := gridRows sh.2 sh.1 (tileElems h a.bytes)
    let fr := fmtF32
    let g := fun i j v =>
      let x := nth 0 (nth [] rows i) j
      if fa == 5 then ((v + x) % 2 ^ 32, (0 : BitVec 8)) else fr.fin 0 sat (addFp 0 (fr.read v) ((fmtOf (fmtTy fa)).read x))
    let x := mapGrid g sh.2 0 sh.1 cl.2.1
    some ({ cl.1 with mode := m, shape := some sh }, x.1, x.2 ||| cl.2.2)

/-- TACC (R183): an open group is completed first, also under NL or PZ, which do no arithmetic otherwise (DEDUCED, log entry 48). -/
def execTacc (o : Ops) (s : State) : Res := s.flow fun f =>
  let a := s.arg f .tile o.a (bit o.imm 5)
  let c := s.acc f.e f.ctx (accOf o)
  if !s.accReady f o (.tacc o) then s.unfire f
  else match s.argsFault f [a] with
    | some i => s.faultFiring f i
    | none =>
      if sbDead a.sb then
        let cl := closeGroup c (s.accData f.e f.ctx (accOf o)) (satOf o)
        let sb := sbOr [a.sb, cl.2.2]
        s.accDone f o [a] 4 sb { cl.1 with asb := sbOr [cl.1.asb, sb] } (some cl.2.1)
      else match taccBody (satOf o) (s.accData f.e f.ctx (accOf o)) a c with
        | none => s.faultFiring f (f.info cBuffer a.sb)
        | some r =>
          let sb := a.sb ||| r.2.2
          let c' : Acc := { r.1 with asb := sbOr [r.1.asb, sb] }
          s.accDone f o [a] 4 sb c' (some r.2.1)

/-- The tile that TDRAIN writes (R184); none when the format does not fit the mode. RAX is 0 (log entry 23), and an unset mode takes the
formats of float mode and i32 (log entry 97; both DESIGN CHOICE). -/
def drainBody (o : Ops) (c : Acc) (data : List (List Nat)) : Option SlotRes :=
  let fmt := nfld o.imm 8 4
  let ok := match c.mode with | .unset => fmtFp fmt || fmt == 5 | .float => fmtFp fmt | .integer => fmt == 5
  if !ok then none
  else
    let sh := c.shape.getD (1, 1)
    let vals := if c.shape.isNone then [0] else ((data.take sh.1).map fun r => r.take sh.2).flatten
    let conv := fun v => if fmt == 5 then (v, (0 : BitVec 8)) else fpConv fmtF32 (fmtOf (fmtTy fmt)) (rmOf o) (satOf o) v
    let l := vals.map conv
    let h := mkHdr c.idx.2 c.idx.1 0 0 0 0 0 0 0
    some (tileRes h fmt (sh.1 - 1) (sh.2 - 1) (l.map fun x => x.1) 0 (l.foldl (fun b x => b ||| x.2) 0))

/-- TDRAIN (R184). -/
def execTdrain (o : Ops) (s : State) : Res := s.flow fun f =>
  let t := s.opVal .x64 o.imm o.a
  let n := accOf o
  let c := s.acc f.e f.ctx n
  if !s.accReady f o (.tdrain o) then s.unfire f
  else
    let cl := closeGroup c (s.accData f.e f.ctx n) (satOf o)
    let c' : Acc := if bit o.imm 5 then { cl.1 with owner := none } else cl.1
    let body := drainBody o cl.1 cl.2.1
    let fits := match s.buf f.e f.ctx (nfld o.imm 0 5), body with | some b, some r => decide (r.lines ≤ b.size) | _, _ => false
    let extra := sbOr [cl.1.asb]
    if sbDead (sbOr [t.sb, extra]) || fits then
      let s1 := s.setAcc f.e f.ctx n c'
      let s2 := if c.isOpen then s1.setAccData f.e f.ctx n cl.2.1 else s1
      s2.slotNode f o [scalarArg t] extra (fmtBits (nfld o.imm 8 4)) 0 body
    else s.faultFiring f (f.info cBuffer (sbOr [t.sb, extra]))

/-- A node that reads one tile and writes one; an invalid header or a body of none raises BUFFER. -/
def State.tileNode (s : State) (o : Ops) (body : Firing → Arg → Option SlotRes) : Res := s.flow fun f =>
  let a := s.arg f .tile o.a (bit o.imm 5)
  let r := if a.slot.hv then body f a else none
  s.slotNode f o [a] 0 (fmtBits (hFmt a.slot.hdr)) 0 r

/-- TTRN (R185). -/
def execTtrn (o : Ops) (s : State) : Res := s.tileNode o fun _ a =>
  let h := a.slot.hdr
  let rows := gridRows (hNcol h + 1) (hNrow h + 1) (tileElems h a.bytes)
  let h' := mkHdr (hTrow h) (hTcol h) 0 0 0 (1 - hRax h) (hScl h) (hGrp h) 0
  some (tileRes h' (hFmt h) (hNcol h) (hNrow h) (gridCols (hNcol h + 1) rows).flatten a.slot.scale 0)

/-- The format is a float or i32 (R185). -/
def fmtPlain (f : Nat) : Bool := fmtFp f || f == 5

/-- TCVT (R185). -/
def execTcvt (o : Ops) (s : State) : Res := s.tileNode o fun _ a =>
  let h := a.slot.hdr
  let fmt := nfld o.imm 8 4
  if !(fmtPlain (hFmt h) && fmtPlain fmt) then none
  else
    let l := (tileElems h a.bytes).map (fmtConv (hFmt h) fmt o)
    some (tileRes h fmt (hNrow h) (hNcol h) (l.map fun x => x.1) a.slot.scale (l.foldl (fun b x => b ||| x.2) 0))

/-- The header that THDR writes (Table 5.9); none when it breaks R31, R34 or the lines of the slot (R186). -/
def thdrHeader (w : Word) (scl : Bool) (lines : Nat) : Option (BitVec 256) :=
  let fmt := nfld w 42 4; let grp := nfld w 46 2
  let q := fmt == 3 || fmt == 4
  let beats := fmtBeats fmt (nfld w 32 5) (nfld w 37 5)
  if nfld w 49 15 != 0 || fmtBits fmt == 0 || (q && !(scl && grp != 0)) || (!q && (scl || grp != 0)) || decide (lines < beats) then none
  else some (mkHdr (nfld w 16 16) (nfld w 0 16) beats (nfld w 37 5) (nfld w 32 5) (nfld w 48 1) (b2n scl) grp fmt)

/-- THDR (R186): the slot of a is never emptied (R162), and its lines are not read.
 Its cycles take the lane width of the header word's FMT (DESIGN CHOICE, log entry
46). -/
def execThdr (o : Ops) (s : State) : Res := s.flow fun f =>
  let a := { s.arg f .tile o.a true with sb := (s.opVal .x64 o.imm o.a).sb }
  let w := s.opVal .x64 o.imm o.b
  let sc := if o.c = .none then [] else [s.arg f .tile o.c (bit o.imm 7)]
  let args := [a, scalarArg w] ++ sc
  let sb := argsSb args
  match s.argsFault f args with
  | some i => s.faultFiring f i
  | none =>
    let cycles := vecCycles (fmtBits (nfld w.v 42 4)) (if (argAt sc 0).ref.isSome then 2 else 0)
    if sbDead sb then s.toUnitOf f o 1 none cycles (outBoth o (refOut f sb 0)) none ({ a with hold := false } :: sc) sb
    else match thdrHeader w.v (!sc.isEmpty) a.lines, a.ref with
      | some h, some r =>
        if !sc.isEmpty && (argAt sc 0).lines < 2 then s.faultFiring f (f.info cBuffer sb)
        else
          let blk : BitVec 1024 := BitVec.ofNat 1024 (ofBytes ((argAt sc 0).bytes.take 128))
          let upd := fun q : Slot => { q with hv := true, hdr := h, scale := if sc.isEmpty then q.scale else blk }
          (s.modSlot f.e f.ctx r.1 r.2 upd).toUnitOf f o 1 none cycles
            (outBoth o (refOut f sb (mkRef r.1 r.2 a.lines))) none args sb
      | _, _ => s.faultFiring f (f.info cBuffer sb)

/-- a x h + x with one rounding into a format, as FFMA (R187). -/
def recStep (f : Fmt) (rm : Nat) (sat : Bool) (a h x : Fp) : Nat × BitVec 8 :=
  if a = .nan ∨ h = .nan ∨ x = .nan then (f.nan, 0)
  else
    let p := mulFp a h
    if p.1 = .nan then (f.nan, p.2) else f.fin rm sat (addFp rm p.1 x)
/-- TREC's elements. -/
def recElems (g : Nat → Nat → Nat → Nat × BitVec 8) : List Nat → List Nat → List Nat → List Nat × BitVec 8
  | a :: as, h :: hs, x :: xs => let r := g a h x; let t := recElems g as hs xs; (r.1 :: t.1, r.2 ||| t.2)
  | _, _, _ => ([], 0)

/-- TREC (R187). -/
def execTrec (o : Ops) (s : State) : Res := s.flow fun f =>
  let a := s.arg f .tile o.a (bit o.imm 5)
  let h := s.arg f .tile o.b (bit o.imm 6)
  let x := s.arg f .tile o.c (bit o.imm 7)
  let fmt := nfld o.imm 8 4
  let shape := fun y : Arg => (hNrow y.slot.hdr, hNcol y.slot.hdr)
  let ok := fun y : Arg => y.slot.hv && fmtFp (hFmt y.slot.hdr) && shape y == shape x
  let rd := fun (y : Arg) v => (fmtOf (fmtTy (hFmt y.slot.hdr))).read v
  let body := if !(ok a && ok h && ok x && fmtFp fmt) then none
    else
      let el := fun y : Arg => tileElems y.slot.hdr y.bytes
      let r := recElems (fun u v w => recStep (fmtOf (fmtTy fmt)) (rmOf o) (satOf o) (rd a u) (rd h v) (rd x w)) (el a) (el h) (el x)
      some (tileRes x.slot.hdr fmt (hNrow x.slot.hdr) (hNcol x.slot.hdr) r.1 0 r.2)
  s.slotNode f o [a, h, x] 0 (fmtBits fmt) 0 body

/-- One reduction of TRED into a format (R188): a sum rounds its exact value once; a minimum or maximum is converted. -/
def tredOne (src dst : Nat) (r : Red) (o : Ops) (l : List Nat) : Nat × BitVec 8 :=
  let st := l.foldl (RedState.add (fmtTy src) r) .none
  match r with
  | .sum => if fmtFp src then (fmtOf (fmtTy dst)).fin (rmOf o) (satOf o) (st.fs.val (rmOf o)) else intLane .i32 (satOf o) st.int
  | _ => fmtConv src dst o (st.val (fmtTy src) r 0 false).1

/-- TRED (R188); TROW, TCOL and RAX of the result are those of a (log entry 23). -/
def execTred (o : Ops) (s : State) : Res := s.tileNode o fun _ a =>
  let h := a.slot.hdr
  let fmt := nfld o.imm 8 4
  let r : Red := match nfld o.imm 12 2 with | 0 => .sum | 1 => .max | _ => .min
  if !((fmtFp (hFmt h) && fmtFp fmt) || (hFmt h == 5 && fmt == 5)) then none
  else
    let rows := gridRows (hNcol h + 1) (hNrow h + 1) (tileElems h a.bytes)
    let byCol := bit o.imm 14
    let l := (if byCol then gridCols (hNcol h + 1) rows else rows).map (tredOne (hFmt h) fmt r o)
    some (tileRes h fmt (if byCol then 0 else hNrow h) (if byCol then hNcol h else 0) (l.map fun x => x.1) 0
      (l.foldl (fun b x => b ||| x.2) 0))

/-- Inserts an index by descending key, ties to the lower index (R189). -/
def raceInsert (k i : Nat) : List (Nat × Nat) → List (Nat × Nat)
  | [] => [(k, i)]
  | (m, j) :: l => if m < k then (k, i) :: (m, j) :: l else (m, j) :: raceInsert k i l
/-- The indices of lanes ranked best first. -/
def raceRank : Nat → List Nat → List (Nat × Nat) → List (Nat × Nat)
  | _, [], b => b
  | i, v :: l, b => raceRank (i + 1) l (raceInsert (rankKey fmtBf16 v) i b)
/-- The payload of RACE: indices in fields of six bits, and the count (R189). -/
def racePay (l : List Nat) : Word :=
  BitVec.ofNat 64 (l.foldr (fun i n => i % 64 + 64 * n) 0 + l.length * 2 ^ 48)

/-- RACE (R189). -/
def execRace (o : Ops) (s : State) : Res := s.flow fun f =>
  let a := s.arg f .bf16 o.a (bit o.imm 5)
  let n := s.opVal .u32 o.imm o.b
  let m := nfld n.v 0 32
  let k := nfld o.imm 8 4
  let body := if m < 1 ∨ 64 < m ∨ a.lines * 32 < m then none
    else some (racePay (((raceRank 0 (laneList 16 m a.bytes) []).take k).map fun x => x.2), (0 : BitVec 8))
  s.scalarNode f o [a, scalarArg n] (fun _ => 17) body

/-- TSEND (R190). It reads the lines that its reference counts (DESIGN CHOICE, log entry 109). -/
def execTsend (o : Ops) (s : State) : Res := s.flow fun f =>
  let a := s.arg f .tile o.a (bit o.imm 5)
  let sb := a.sb
  let dslot := tagIter f.tag % (nfld o.imm 6 4 + 1)
  let addr := fun h => hdrAddr h (tagClean f.tag) sb (nfld o.imm 0 5) dslot
  let out := fun p : TilePkt => outBoth o ⟨0, sb, .tile, 0, some p, f.tag, []⟩
  match s.argsFault f [a] with
  | some i => s.faultFiring f i
  | none =>
    if sbDead sb then s.toUnitOf f o 1 none (vecCycles 32 (argLines [a])) (out ⟨addr 0, 0, []⟩) none [a] sb
    else if !a.slot.hv then s.faultFiring f (f.info cBuffer sb)
    else
      let h := a.slot.hdr
      let beats := fmtBeats (hFmt h) (hNrow h) (hNcol h)
      let h' := setFld h 90 7 beats
      let pkt : TilePkt := ⟨addr h', if hScl h = 1 then a.slot.scale else 0, tileBody h a.bytes⟩
      s.toUnitOf f o 1 none (vecCycles (fmtBits (hFmt h)) a.lines) (out pkt) none [a] sb

end Sys2Proof.Machine
end

