-- ==== Sys2Proof/Machine/Match.lean ====
section
/-! DEFINITION. The element's cycle: tokens on the mesh and into matching (08 R266 to R272), candidates and their readiness (R273, 09
R295), the choice of a firing (R274), the completion of units (R276), tile packets (01 R35, 10 R322), exit queues (09 R292), basins
(R298 to R303), credit (R295, R296) and the sentinel (R307). -/

namespace Sys2Proof.Machine

/-! ### Nodes -/

/-- The row of a node's word; an empty position has none. -/
def rowOf (w : SlotWord) : Option Sig := match decode w with | .ok i => sig i | .error _ => none
/-- The word that a token finds in an active context slot. -/
def State.nodeWord (s : State) (e c n : Nat) : Option SlotWord := if (s.ctx e c).active then s.slotWord e c n else none
/-- The node names one token port (R272). -/
def nodeOnePort (g : Sig) : Bool := (portsOf g.o).length == 1
/-- Each token of the node fires alone: one token port, or MERGE (R118). -/
def nodeAlone (g : Sig) : Bool := g.opc == 0x03 || nodeOnePort g
/-- The node takes the tokens of a colour in their order of arrival: MERGE and ITER (R118, R123; DEDUCED, log entry 38). -/
def nodeFifo (g : Sig) : Bool := g.opc == 0x03 || g.opc == 0x08
/-- Which operands of a row take references from a port (R27, R111, R159). -/
def nodeRoles (g : Sig) : Bool × Bool × Bool :=
  let tile := g.o.ty == .tile
  if g.opc < 0x10 then (tile, tile && g.opc == 0x03, false)
  else if 0x80 ≤ g.opc ∧ g.opc ≤ 0x8A then
    (g.opc != 0x89, g.opc == 0x80 || g.opc == 0x83 || g.opc == 0x84 || g.opc == 0x8A, g.opc == 0x80 || g.opc == 0x84)
  else match g.opc with
    | 0xA0 => (true, true, false) | 0xA1 => (true, true, false) | 0xA3 => (true, false, false) | 0xA5 => (true, false, false)
    | 0xA6 => (true, false, false) | 0xA7 => (true, false, true) | 0xA8 => (true, true, true) | 0xA9 => (true, false, false)
    | 0xAA => (true, false, false) | 0xAB => (true, false, false)
    | 0xB7 => (g.fn == 4, false, false)
    | 0xD0 => (nfld g.o.imm 0 2 == 2, false, false) | 0xD2 => (true, false, false) | 0xD3 => (tile, false, false)
    | _ => (false, false, false)
/-- The payload kind that a port accepts; none where the node does not name it. -/
def portKind (g : Sig) (n : Nat) : Option TKind :=
  let is := fun x : Opnd => match x with | .port m => m.toNat == n | _ => false
  let r := nodeRoles g
  if is g.o.a then some (if r.1 then .ref else .scalar)
  else if is g.o.b then some (if r.2.1 then .ref else .scalar)
  else if is g.o.c then some (if r.2.2 then .ref else .scalar)
  else none

/-- The elements of a list with the least key. -/
def least {α : Type} (key : α → Nat) (l : List α) : List α :=
  let m := l.foldl (fun b x => match b with | some n => some (Nat.min n (key x)) | none => some (key x)) (none : Option Nat)
  l.filter fun x => some (key x) == m
/-- The first number of a list from n on, round a circle of m numbers. -/
def nextFrom (n m : Nat) (l : List Nat) : Option Nat := (least (fun x => (x + m - n) % m) l).head?

/-- SENTINEL_EXPIRY (R307): the count has reached SENTLIM. -/
def execSentinelExpiry (e col : Nat) (s : State) : Res :=
  let el := s.elem e
  let x := tget ⟨0, false⟩ el.sentinels col
  let lim := (s.colour col).sentlim
  if !el.halted && s.holdsAny e col && !x.sent && lim != 0 && decide (lim ≤ s.cycle - x.since) then
    let spilt := s.fab.tokens.filter fun t => t.spilled && t.elem == some e && tagCol t.tag == col
    let tag := (s.oldestTag e col).getD (match oldestOf spilt with | some t => t.tag | none => 0)
    let s1 := s.setElem e { el with sentinels := tset ⟨0, false⟩ el.sentinels col { x with sent := true } }
    .next (s1.sendEvent ((s.partOfElem e).getD 0) (mkEvent 3 5 0 (tagCtx tag) col e 0 (tagClean tag).toNat (s.holds e col) lim))
  else .next s

/-! ### Arrival (R268, R272) -/

/-- Replaces the k-th token. -/
def State.putToken (s : State) (k : Nat) (t : Token) : State := s.setTokens (setNth s.fab.tokens k t)
/-- The next arrival number of an element; a hub port element is 2,304 plus its die. -/
def State.nextSeq (s : State) (e : Nat) : Nat × State := ((s.elem e).seq.toNat, s.setElem e { s.elem e with seq := (s.elem e).seq + 1 })
/-- The fault of a token at a node: CONFIG for an empty position has REASON 0 (R26, R27, R84, R322). -/
def Token.info (t : Token) (e code reason : Nat) : FaultInfo :=
  { faultInfo0 with code := code, reason := reason, slot := t.slotOf, e := e, tag := t.tag, sb := t.sb }
/-- A token that a PURGE covers is removed where it arrives, and a slot that only it referred to is emptied (R241, R242). -/
def State.purgeToken (s : State) (k : Nat) (t : Token) : State :=
  (((s.setTokens (dropNth s.fab.tokens k)).wipeSlots [t]).inflDown (tagCol t.tag) 1).countPurged t.tag t.load 1
/-- Tokens in the spill queue of an element. -/
def State.spillCount (s : State) (e : Nat) : Nat := (s.fab.tokens.filter fun t => t.place == .spill && t.elem == some e).length

/-- Where a token on the mesh leaves it: an element, or a port element. -/
def Token.gate (t : Token) : Dst := match t.dst with | .node e _ _ => .node e 0 0 | d => d
/-- The token left a sender for the gate of another on the same virtual network (R269). -/
def Token.goesWith (t u : Token) (src : Nat) : Bool :=
  u.gate == t.gate && (u.kind == .tile) == (t.kind == .tile) && (match u.place with | .mesh _ x => x == src | _ => false)
/-- A reference from elsewhere is parked at the element's input, and raises BUFFER unless a park holds its iteration (R26, R244). -/
def State.foreignRef (s : State) (k e src : Nat) (t : Token) : State :=
  let q := s.nextSeq e
  let s1 := q.2.putToken k { t with place := .foreign src, parked := true, seq := q.1 }
  if s.parkedFor t.tag t.load then s1
  else s1.raiseFault (t.info e cBuffer (match s.nodeWord e (tagCtx t.tag) t.slotOf with | some w => wOpc w | none => 0))
/-- FLIT_DELIVERY (R268, R269, R299): the k-th token has reached its destination, after those that its sender sent there before it. -/
def execFlitDelivery (k : Nat) (s : State) : Res :=
  .next (match nth? s.fab.tokens k with
    | none => s
    | some t => match t.place with
      | .mesh due src =>
        if s.cycle < due ∨ (s.fab.tokens.take k).any fun u => t.goesWith u src then s
        else match t.elem with
          | none => s.putToken k { t with place := .port }
          | some e =>
            if t.kind ≠ .tile ∧ 16 ≤ s.spillCount e then s
            else if s.purgedAt e t.tag then s.purgeToken k t
            else if t.isRef then s.foreignRef k e src t
            else s.putToken k { t with place := .input (s.cycle + 1) }
      | _ => s)

/-- The index of the token that matching takes next at an element, with it: the one due first; tokens that an UNPARK returned are due at cycle 0
and go by their SEQ (R245). -/
def nextInput (e now : Nat) : List Token → Nat → Option (Nat × Nat × Token) → Option (Nat × Nat × Token)
  | [], _, b => b
  | t :: l, i, b =>
    let x := match t.place with
      | .input due => if due ≤ now && t.elem == some e && !t.parked && t.kind != .tile then some due else none
      | _ => none
    nextInput e now l (i + 1) (match x, b with
      | some d, some (_, d', u) => if d < d' || (d == 0 && d' == 0 && t.before u) then some (i, d, t) else b
      | some d, none => some (i, d, t)
      | none, b => b)

/-- Where matching puts a token (R272, R303); none while the spill queue is full. One that an older token of its port, spilled or in a bundle,
goes before waits behind it. -/
def State.matchPlace (s : State) (e : Nat) (g : Sig) (t : Token) : Option Place :=
  let now := s.cycle + 1
  let mine := s.fab.tokens.filter fun u => u.mate t
  let l := mine.filter Token.inEntry
  let here := (l.filter fun u => u.portOf == t.portOf).length
  let older := mine.any fun u => (u.spilled || u.inBundle) && (nodeAlone g || u.portOf == t.portOf)
  let spill := if s.spillCount e < 16 then some Place.spill else none
  if (nodeOnePort g) && !(s.fab.tokens.any fun u => u.waits && u.isAt e (tagCtx t.tag) t.slotOf) then some (.cand now)
  else if older then spill
  else if here < entriesOf l t then some (.entry now)
  else if s.roomFor e t then some (.entry now)
  else spill

/-- TOKEN_MATCH (R272): the element takes its next token into matching, or back to the queue of the entry port where an UNPARK returned it (R245); one that no node takes raises CONFIG (R27, R84, R113), and one that
comes after a PARK is parked (R244). -/
def execTokenMatch (e : Nat) (s : State) : Res :=
  .next (match nextInput e s.cycle s.fab.tokens 0 none with
    | none => s
    | some (k, due, _) => match nth? s.fab.tokens k with
      | none => s
      | some t =>
        let c := tagCtx t.tag
        let q := s.nextSeq e
        let held := q.2.putToken k { t with place := .cand s.cycle, parked := true, seq := q.1 }
        let bad := fun reason : Nat => held.raiseFault (t.info e cConfig reason)
        if s.purgedAt e t.tag then s.purgeToken k t
        else if s.parkedFor t.tag t.load then held
        else match s.nodeWord e c t.slotOf with
          | none => bad 0
          | some w => match rowOf w with
            | none => bad 0
            | some g =>
              if g.opc = 0 then bad 0
              else if g.opc = 0x0D ∧ due = 0 then s.putToken k { t with place := .entryq (nfld w 0 16) }
              else if portKind g t.portOf ≠ some t.kind then bad (wOpc w)
              else match s.matchPlace e g t with
                | none => s
                | some p =>
                  let s1 := match p with | .cand _ => q.2 | _ => q.2.touch e (tagCol t.tag)
                  s1.putToken k { t with place := p, seq := q.1 })

/-! ### Tile packets (R35, R322) -/

/-- A packet is well formed (R34, R35). -/
def tileOk (p : TilePkt) : Bool :=
  let h := p.hdr
  let dead := sbDead (hSb h)
  let q := hFmt h == 3 || hFmt h == 4
  nfld h 160 96 == 0 && nfld h 121 7 == 0 && nfld h 97 15 == 0 && fmtOk (hFmt h) &&
  (if dead then hBeats h == 0 else hBeats h == fmtBeats (hFmt h) (hNrow h) (hNcol h)) && (if q then hScl h == 1 && hGrp h != 0 else hScl h == 0 && hGrp h == 0)
/-- Writes a well-formed packet into the slot that its header names; the payload of its reference, or none where R322 refuses it. -/
def State.tileWrite (s : State) (e c : Nat) (p : TilePkt) : Option (State × Word) :=
  let b := hDbuf p.hdr; let i := hDslot p.hdr
  match s.buf e c b with
  | none => none
  | some x =>
    if x.depth ≤ i ∨ (x.slot i).full ∨ x.size < hBeats p.hdr then none
    else
      let s1 := s.setElem e ((s.elem e).poolWrite (x.slotByte i) p.body)
      let s2 := s1.slotWritten e c b i false fun q => { q with full := true, hv := true, hdr := p.hdr, scale := p.scale, lines := hBeats p.hdr }
      some (s2, mkRef b i (hBeats p.hdr))
/-- ADDR of the fault of a packet (R322). -/
def TilePkt.addr (p : TilePkt) : Nat := packNat [(0, 5, hDbuf p.hdr), (5, 4, hDslot p.hdr)]
/-- A tile token lands at its element: the reference that enters matching, or the BUFFER fault of the packet (R35, R322). -/
def State.tileLand (s : State) (e : Nat) (t : Token) (p : TilePkt) (reason : Nat) : State :=
  let fault := fun s : State => (s.inflDown (tagCol t.tag) 1).raiseFault { t.info e cBuffer reason with addr := p.addr, acc := 1 }
  let ref := fun pay : Word => { t with sb := hSb p.hdr &&& 0x7F, kind := .ref, pay := pay, pkt := none, place := .input (s.cycle + 1) }
  if !tileOk p then fault s
  else if sbDead (hSb p.hdr) then s.addToken (ref 0)
  else match s.tileWrite e (tagCtx t.tag) p with
    | none => fault s
    | some (s1, pay) => s1.addToken (ref pay)
/-- TILE_PACKET_ARRIVAL (R35): an element takes its next tile packet. -/
def execTilePacketArrival (e : Nat) (s : State) : Res :=
  .next (match findIdx? (fun t => t.kind == .tile && t.elem == some e && (match t.place with | .input due => decide (due ≤ s.cycle) | _ => false)) s.fab.tokens 0 with
    | none => s
    | some k => match nth? s.fab.tokens k with
      | none => s
      | some t =>
        if s.purgedAt e t.tag then s.purgeToken k t
        else (s.setTokens (dropNth s.fab.tokens k)).tileLand e t (t.pkt.getD ⟨0, 0, []⟩) 0xAB)

/-! ### Exit queues (R292) -/

/-- The token is bound for an exit port. -/
def Token.isExit (t : Token) : Bool := match t.dst with | .exit _ => true | _ => false
/-- The exit queues of a die have room for a token of a colour (R292). -/
def State.exitRoom (s : State) (d c : Nat) : Bool :=
  let here := s.fab.tokens.filter fun u => u.place == .exitq && s.exitDie u == d
  decide (here.length < 512) && decide ((here.filter fun u => tagCol u.tag == c).length < (s.colour c).cap)
/-- EXIT_QUEUE_ARRIVAL (R292): the k-th token reaches its exit queue, or goes to its basin when the queue is full for it; one that comes after
a PARK is parked there (R244). One that an UNPARK returned keeps its SEQ and goes before every later arrival (R245). -/
def execExitQueueArrival (k : Nat) (s : State) : Res :=
  .next (match nth? s.fab.tokens k with
    | none => s
    | some t => match t.place with
      | .exitIn due src =>
        let c := tagCol t.tag
        let d := s.exitDie t
        let mate := fun u : Token => s.exitDie u == d && tagCol u.tag == c
        let ahead := fun u : Token => match u.place with
          | .exitIn n x => if n = 0 then mate u && (due != 0 || u.before t) else due != 0 && x == src && s.exitDie u == d
          | _ => false
        if s.cycle < due ∨ (s.fab.tokens.take k).any ahead ∨ (s.fab.tokens.drop (k + 1)).any (fun u => u.place == .exitIn 0 0 && ahead u) then s
        else
          let behind := s.fab.tokens.any fun u => u.inBasin && u.isExit && mate u && (due != 0 || u.before t)
          let q := if due = 0 then (t.seq, s) else s.nextSeq (2304 + d)
          let u := { t with seq := q.1, parked := s.parkedFor t.tag t.load }
          let rest := fun u : Token => q.2.setTokens (dropNth s.fab.tokens k ++ [u])
          if !behind && s.exitRoom d c then rest { u with place := .exitq }
          else
            let i := s.basinFree c
            match (rest { u with place := .basin i }).basinStore c i u.basinEntry with
            | .ok s1 => s1
            | .error x => s.failBasin c x
      | _ => s)

/-! ### Basins (R299 to R303) -/

/-- Moves a token of the list. -/
def State.moveToken (s : State) (t : Token) (p : Place) : State := s.setTokens (s.fab.tokens.map fun u => if u = t then { u with place := p } else u)
/-- Writes a token into its colour's basin. -/
def State.toBasin (s : State) (t : Token) : State :=
  let c := tagCol t.tag
  let i := s.basinFree c
  match (s.moveToken t (.basin i)).basinStore c i t.basinEntry with
  | .ok s1 => s1
  | .error x => s.failBasin c x
/-- The die whose basin engine serves an element, or a hub port element (R299). -/
def engineDie (e : Nat) : Nat := if e < 2304 then dieOf e else e - 2304
/-- Elements of a die with a spilled token. -/
def State.spillers (s : State) (d : Nat) : List Nat :=
  s.fab.tokens.filterMap fun t => match t.place, t.elem with
    | .spill, some e => if dieOf e == d then some e else none
    | _, _ => none
/-- BASIN_ENGINE_TURN (R299): the oldest token of an element's spill queue goes to its basin, when the turn of the engine of its die comes to
the element. -/
def execBasinEngineTurn (e : Nat) (s : State) : Res :=
  let d := dieOf e
  .next (if nextFrom (tget 0 s.fab.spillTurn d) 2304 (s.spillers d) != some e then s
    else match oldestOf (s.fab.tokens.filter fun t => t.place == .spill && t.elem == some e) with
      | some t => ({ s with fab := { s.fab with spillTurn := tset 0 s.fab.spillTurn d ((e + 1) % 2304) } } : State).toBasin t
      | none => s)
/-- Tokens come back from the basin to a place. -/
def State.fromBasin (s : State) (l : List Token) (p : Place) : State :=
  match s.basinFails l with
  | some x => s.failBasin x.1 x.2
  | none => l.foldl (fun (s : State) t => s.moveToken t p) (s.basinClear l)
/-- The oldest token of each port of a node and tag, when every port has one. -/
def complete (ports : List Nat) (l : List Token) : Option (List Token) :=
  let r := ports.map fun p => oldestOf (l.filter fun u => u.portOf == p)
  if r.all (fun x => x.isSome) then some (r.filterMap id) else none
/-- The ports whose tokens one firing takes. -/
def nodeNeed (g : Sig) (t : Token) : List Nat := if (nodeAlone g) then [t.portOf] else portsOf g.o
/-- A complete bundle of a colour in the basin, of which the element holds nothing (Table 9.5). -/
def State.bundleOf (s : State) (e c : Nat) : Option (List Token) :=
  let l := s.fab.tokens.filter fun t => t.inBasin && t.elem == some e && tagCol t.tag == c
  ((mates l).filterMap fun t => match s.nodeWord e (tagCtx t.tag) t.slotOf with
    | none => none
    | some w => match rowOf w with
      | none => none
      | some g =>
        let mine := l.filter fun u => u.mate t
        let first := (oldestOf mine).getD t
        if s.fab.tokens.any fun u => u.mate t && u.waits && !u.inBasin then none else complete (nodeNeed g first) mine).head?
/-- A spilled partner of a colour for an empty port of an entry of the element (Table 9.5): the oldest of its port. -/
def State.probe (s : State) (e c : Nat) : Option Token :=
  let l := s.fab.tokens.filter fun t => t.inEntry && t.elem == some e
  let fits := fun t : Token =>
    let mine := l.filter fun u => u.mate t
    decide ((mine.filter fun u => u.portOf == t.portOf).length < entriesOf mine t)
  let first := fun t : Token => !s.fab.tokens.any fun u => u.mate t && u.portOf == t.portOf && u.spilled && u.before t
  oldestOf (s.fab.tokens.filter fun t => t.inBasin && t.elem == some e && tagCol t.tag == c && fits t && first t)
/-- The oldest spilled token of a colour for an element, when an entry is free for it, or for the hub port element 2,304 + d, when the exit
queues of die d have room (Table 9.5). -/
def State.refill (s : State) (e c : Nat) : Option Token :=
  let mine := fun t : Token => tagCol t.tag == c && if e < 2304 then t.elem == some e else t.isExit && 2304 + s.exitDie t == e
  match oldestOf (s.fab.tokens.filter fun t => t.spilled && mine t) with
  | some t => if t.inBasin && (if e < 2304 then s.roomFor e t else s.exitRoom (e - 2304) c) then some t else none
  | none => none
/-- Colours whose spilled tokens the basin engine of a die can return (R303). -/
def State.basinWork (s : State) (d : Nat) : List Nat :=
  s.fab.tokens.filterMap fun t =>
    let e := t.elem.getD (2304 + s.exitDie t)
    let c := tagCol t.tag
    if t.inBasin && engineDie e == d && ((s.bundleOf e c).isSome || (s.probe e c).isSome || (s.refill e c).isSome) then some c else none
/-- The engine returns tokens of a colour, and its turn goes on to the next (R303). -/
def State.engineReturn (s : State) (e c : Nat) (l : List Token) (p : Place) : State :=
  ({ s with fab := { s.fab with basinTurn := tset 0 s.fab.basinTurn (engineDie e) ((c + 1) % 4096) } } : State).fromBasin l p
/-- The colour whose turn it is at the basin engine of an element's die. -/
def State.basinCol (s : State) (e : Nat) : Nat := (nextFrom (tget 0 s.fab.basinTurn (engineDie e)) 4096 (s.basinWork (engineDie e))).getD 0
/-- BASIN_BUNDLE_RETURN (R302, R303). -/
def execBasinBundleReturn (e : Nat) (s : State) : Res :=
  .next (match s.bundleOf e (s.basinCol e) with
    | some l => s.engineReturn e (s.basinCol e) l (.bundle (s.cycle + 1))
    | none => s)
/-- BASIN_PROBE_REPLY (R302, R303). -/
def execBasinProbeReply (e : Nat) (s : State) : Res :=
  .next (match s.probe e (s.basinCol e) with
    | some t => s.engineReturn e (s.basinCol e) [t] (.entry (s.cycle + 1))
    | none => s)
/-- BASIN_REFILL (R302, R303, R310): the colour's oldest spilled token of the element takes a free entry; that of a hub port element, 2,304
plus its die, returns to its exit queue. -/
def execBasinRefill (e col : Nat) (s : State) : Res :=
  .next (if s.basinCol e ≠ col then s
    else match s.refill e col with
      | some t => s.engineReturn e col [t] (if e < 2304 then .entry (s.cycle + 1) else .exitq)
      | none => s)

/-! ### Credit (R294 to R297) -/

/-- An element returns its unspent credit of a colour (R296). -/
def State.giveBack (s : State) (e c : Nat) : State := (s.inflDown c (s.credit e c).units).setCredit e c ⟨0, 0⟩
/-- Makes a credit place for a colour: with 32 colours at the element, the one longest without an entry gives its credit back (R295, R296;
DEDUCED, log entry 43). -/
def State.creditPlace (s : State) (e c : Nat) : State :=
  let held := (s.elem e).credits.filter fun y => y.2.units != 0
  if held.length < 32 || held.any fun y => y.1 == c then s
  else match (least (fun y => y.2.idle) held).head? with
    | some y => s.giveBack e y.1
    | none => s
/-- CREDIT_GRANT (R295): the colour's counter answers the first request in the order of its arbiter. -/
def execCreditGrant (e col : Nat) (s : State) : Res :=
  .next (match lfind (fun a : Ask => a.col == col) s.fab.asks with
    | some a =>
      if a.e = e ∧ (s.colour col).inflt + a.n ≤ (s.colour col).basinlen then
        let s1 := ({ s with fab := { s.fab with asks := s.fab.asks.erase a } } : State).creditPlace e col
        (s1.inflUp col a.n).setCredit e col ⟨(s1.credit e col).units + a.n, s.cycle⟩
      else s
    | none => s)
/-- CREDIT_RETURN (R296): after 1,024 cycles without an entry of the colour. -/
def execCreditReturn (e col : Nat) (s : State) : Res :=
  let x := s.credit e col
  if 0 < x.units ∧ 1024 ≤ s.cycle - x.idle ∧ s.holds e col = 0 then .next (s.giveBack e col) else .next s
/-- An element asks a colour's counter for credit, once: 16 units, or the expansion when that is larger (R295). -/
def State.askCredit (s : State) (e c n : Nat) : State :=
  if s.fab.asks.any fun a => a.e == e && a.col == c then s
  else { s with fab := { s.fab with asks := s.fab.asks ++ [⟨c, e, Nat.max 16 n⟩] } }

/-! ### Candidates (R272 to R274) -/

/-- What a choice issues. -/
inductive Pick where
  | fire (f : Firing) (toks : List Token)
  /-- The next iteration of a stream. -/
  | issue (x : Stream)
  deriving DecidableEq, Repr

/-- A candidate. -/
structure Cand where
  ctx : Nat
  slot : Nat
  tag : Word
  since : Nat
  urgent : Bool
  pick : Pick
  deriving DecidableEq, Repr

/-- A candidate of a node. -/
def mkCand (e c n : Nat) (w : SlotWord) (tag : Word) (since : Nat) (toks : List Token) : Cand :=
  let ops := toks.foldl (fun m t => tset none m t.portOf (some t)) ([] : Tbl (Option Token))
  ⟨c, n, tag, since, bit w 27, .fire ⟨e, c, n, w, tagClean tag, ops⟩ toks⟩
/-- The latest cycle from which the tokens of a firing may be taken. -/
def sinceOf (l : List Token) : Nat := l.foldl (fun m t => Nat.max m t.since) 0
/-- The candidates of a node and tag among tokens of one sort: of a node whose tokens fire alone, its oldest token, behind those of its colour
where it takes them in order; else a full set. -/
def State.candsOf (s : State) (e : Nat) (l : List Token) : List Cand :=
  (mates l).filterMap fun t =>
    let c := tagCtx t.tag
    match s.nodeWord e c t.slotOf with
    | none => none
    | some w => match rowOf w with
      | none => none
      | some g =>
        let mine := l.filter fun u => u.mate t
        let first := (oldestOf mine).getD t
        let peer := fun u : Token => if (nodeFifo g) then u.isAt e c t.slotOf && tagCol u.tag == tagCol t.tag else u.mate t
        let blocked := (nodeAlone g) && s.fab.tokens.any fun u => peer u && u.waits && u.before first
        if blocked then none
        else match complete (nodeNeed g first) mine with
          | some toks => some (mkCand e c t.slotOf w t.tag (sinceOf toks) toks)
          | none => none
/-- A hold of a BAR whose iteration NEXT has reached or passed (R121, R145). -/
def State.holdDue (s : State) (e : Nat) (t : Token) : Bool :=
  let o := s.oldest (tagCol t.tag) t.load
  t.place == .barHold && decide (age o (tagIter t.tag) ≤ age o (s.barNext e t.slotOf (tagCol t.tag) t.load))
/-- The first admitted token of each colour at each ENTRY node (R129, R291). -/
def firstEntries : List Token → List Token → List Token
  | [], _ => []
  | t :: l, seen =>
    if seen.any fun u => u.dst == t.dst && tagCol u.tag == tagCol t.tag && tagCtx u.tag == tagCtx t.tag then firstEntries l seen else t :: firstEntries l (t :: seen)
/-- A colour is bound to the load in a context slot (R235, R288). -/
def State.colBound (s : State) (e c col : Nat) : Bool :=
  match s.loadAt e c with
  | some l => (s.part l.part).bind.any fun b => b.1 / 256 == c && bit b.2 12 && nfld b.2 0 12 == col
  | none => false
/-- Key of a sequence number: peer identity and channel (R453). -/
def seqKey (peer chan : Nat) : Nat := 512 * peer + chan
/-- The packet that an LRECV word takes next: the one next in sequence of the peer of its link port and its channel (R235, R453). -/
def State.recvNext (s : State) (w : SlotWord) : Option LinkIn :=
  let peer := (s.link (nfld w 8 4)).peer.toNat
  lfind (fun p : LinkIn => p.src == peer && p.chan == nfld w 0 8 && p.seq == tget 0 s.port.rxSeq (seqKey peer (nfld w 0 8))) s.port.linkIn
/-- LRECV firings: the next packet on the channel of each LRECV word (R235). -/
def State.recvCands (s : State) (e : Nat) : List Cand :=
  ((s.elem e).ctxs.map fun x => if !x.2.active then [] else x.2.words.filterMap fun y => match y.2 with
    | some w => if wOpc w == 0xD4 then (s.recvNext w).map fun p => mkCand e x.1 y.1 w (tagWithCtx (fld p.head 0 64) x.1) 0 []
      else none
    | none => none).flatten
/-- Every candidate of an element. -/
def State.cands (s : State) (e : Nat) : List Cand :=
  let here := s.fab.tokens.filter fun t => t.elem == some e && !t.parked
  let q := here.filter fun t => match t.place with | .entryq _ => true | _ => false
  s.candsOf e (here.filter (s.holdDue e)) ++ s.candsOf e (here.filter fun t => t.inEntry || (match t.place with | .cand _ => true | _ => false)) ++
  s.candsOf e (here.filter Token.inBundle) ++
  ((firstEntries q []).filterMap fun t => (s.nodeWord e (tagCtx t.tag) t.slotOf).map fun w => mkCand e (tagCtx t.tag) t.slotOf w t.tag 0 [t]) ++
  ((s.fab.streams.filter fun x => x.e == e && !x.parked).map fun x =>
    let u := match s.slotWord e (tagCtx x.tag) x.slot with | some w => bit w 27 | none => false
    ⟨tagCtx x.tag, x.slot, tagWithIter x.tag ((tagIter x.tag + x.k) % iterMod), 0, u, .issue x⟩) ++
  s.recvCands e

/-- Tokens that a firing consumes and sends (R294). -/
def State.flowOf (s : State) (f : Firing) (g : Sig) : Nat × Nat :=
  let n := (if g.o.t0 = 0 then 0 else 1) + (if g.o.t1 = 0 then 0 else 1)
  match g.opc with
  | 0x02 => (f.count, if sbDead (f.portVal 1).sb || sbPZ f.p0.sb then n else 1)
  | 0x05 => (f.count, 0)
  | 0x07 =>
    match lfind (fun j => j.e == f.e && j.slot == f.slot && tagEq j.tag f.tag) s.fab.joins with
    | some j => (2, if j.count + 1 < g.o.imm.toNat then 1 else n)
    | none => (1, if 1 < g.o.imm.toNat then 1 else n)
  | 0x08 => (1, 1)
  | 0x0B => (f.count, 1)
  | 0x0E => (1, 1)
  | 0x0F => let b := s.barPlan f; if b.pass then (1, n) else (1 + b.out.length, b.out.length * n + 1)
  | 0xB0 => (f.count, 0)
  | 0xD0 => (f.count, 1)
  | 0xD1 => (f.count, 1)
  | 0xD2 => (f.count, 1)
  | 0xD3 => (f.count, 1)
  | 0xD4 => (0, if !s.colBound f.e f.ctx (tagCol f.tag) then 0 else match s.recvNext f.word with
    | some p => if (nfld p.head 72 2 == 2) != (g.o.ty == .tile) then 1 else n
    | none => 0)
  | _ => (f.count, n)
/-- Units by which a choice expands. -/
def State.expands (s : State) (p : Pick) : Nat :=
  match p with
  | .issue x => if x.k < x.n then 1 else 0
  | .fire f _ => match rowOf f.word with | some g => let r := s.flowOf f g; r.2 - r.1 | none => 0

/-- The destination buffer whose next slot the firing must find empty (R161, R230). -/
def nodeDest (g : Sig) : Option Nat :=
  if 0x80 ≤ g.opc ∧ g.opc ≤ 0x8A then (if g.opc = 0x85 ∨ g.opc = 0x87 then none else some (nfld g.o.imm 0 5))
  else match g.opc with
    | 0xA5 => some (nfld g.o.imm 0 5) | 0xA6 => some (nfld g.o.imm 0 5) | 0xA8 => some (nfld g.o.imm 0 5) | 0xA9 => some (nfld g.o.imm 0 5)
    | 0xD0 => if nfld g.o.imm 0 2 = 1 then some (nfld g.o.imm 4 5) else none
    | 0xD2 => some (nfld g.o.imm 0 5)
    | _ => none
/-- An operand of the firing is null or poisoned: its token, its register line or the lines of its slot (R22, R164, R281). -/
def State.deadOperand (s : State) (f : Firing) (g : Sig) : Bool :=
  let r := nodeRoles g
  let dead := fun (x : Opnd) (ref : Bool) => sbDead (if ref then (s.arg f g.o.ty x false).sb else (s.opVal .x64 g.o.imm x).sb)
  (f.ops.any fun x => match x.2 with | some t => sbDead t.sb | none => false) || dead g.o.a r.1 || dead g.o.b r.2.1 || dead g.o.c r.2.2
/-- The firing runs on the vector unit (R175, R191). -/
def nodeVector (g : Sig) : Bool := (0x80 ≤ g.opc && g.opc ≤ 0x8A) || (0xA4 ≤ g.opc && g.opc ≤ 0xAB)
/-- A firing of node state needs an entry of its own, or takes its operand's (R120 to R123). -/
def State.stateRoom (s : State) (f : Firing) : Bool := f.p0.inEntry || s.roomFor f.e f.p0
/-- What an instruction asks of the element beside credit (R120 to R123, R161, R177, R191, R196, R217, R273, R276).
-/
def State.readyFor (s : State) (f : Firing) (g : Sig) (i : Instr) : Bool :=
  let load := s.loadidAt f.e f.ctx
  (match nodeDest g with | some b => s.deadOperand f g || s.destReady f.e f.ctx b | none => true) && s.accReady f g.o i &&
  (!nodeVector g || decide (s.unitFree f.e 1 ≤ s.cycle)) &&
  (match g.opc with
    | 0x07 => decide (g.o.imm.toNat ≤ 1) || s.fab.joins.any (fun j => j.e == f.e && j.slot == f.slot && tagEq j.tag f.tag) || s.stateRoom f
    | 0x08 => !s.fab.streams.any (fun x => x.e == f.e && x.slot == f.slot && tagCol x.tag == tagCol f.tag && x.load == load) && s.stateRoom f
    | 0x0F => (let b := s.barPlan f; b.pass || 0 < b.out.length || s.stateRoom f)
    | 0xB1 => 2 ≤ g.fn || (match s.agenOf f.e f.ctx (nfld g.o.imm 0 7) (tagCol f.tag) with | some a => a.region.isSome | none => false)
    | 0xB7 => g.fn != 3 || s.bfwrReady f g.o
    | _ => true)
/-- A stream may issue its next iteration, or end (R122, R123, R124, R360). -/
def State.streamReady (s : State) (x : Stream) : Bool :=
  let c := tagCol x.tag
  let i := (tagIter x.tag + x.k) % iterMod
  let inWin := decide (age (s.oldest c x.load) i < s.window c (s.loadAt x.e (tagCtx x.tag)))
  let mine := fun r : Round => r.col == c && r.load == x.load && r.state != .committed
  if x.k < x.n then
    inWin && (!x.rc || s.fab.rounds.any fun r => mine r && decide (age r.rbase i < r.nr) && r.state != .opening)
  else inWin && (!x.rc || !s.fab.rounds.any fun r => mine r && r.iter == (x.e, x.slot))
/-- The choice lacks nothing but its turn; credit aside. -/
def State.fit (s : State) (p : Pick) : Bool :=
  match p with
  | .issue x => s.streamReady x
  | .fire f _ => match decode f.word with
    | .ok i => match sig i with
      | some g => ({ s with focus := .node f } : State).readyFor f g i
      | none => false
    | .error _ => false
/-- The element holds the credit that the choice spends (R295). -/
def State.paid (s : State) (e : Nat) (x : Cand) : Bool := decide (s.expands x.pick ≤ (s.credit e (tagCol x.tag)).units)
/-- The candidate is ready. -/
def State.ready (s : State) (e : Nat) (x : Cand) : Bool := decide (x.since ≤ s.cycle) && s.fit x.pick && s.paid e x

/-! ### Selection (R274) -/

/-- The record of a ready firing (R274). -/
def Ready.is (r : Ready) (x : Cand) : Bool := r.ctx == x.ctx && r.slot == x.slot && r.tag == x.tag
/-- The cycle at which a candidate became ready, as its element's selections have seen it (R274; DEDUCED, log entry 37). -/
def State.readySince (s : State) (e : Nat) (x : Cand) : Nat := match lfind (fun r => r.is x) (s.elem e).ready with | some r => r.since | none => s.cycle
/-- The element notes which of its firings are ready. -/
def State.noteReady (s : State) (e : Nat) (l : List Cand) : State :=
  s.setElem e { s.elem e with ready := l.map fun x => ⟨x.ctx, x.slot, x.tag, s.readySince e x⟩ }
/-- The firing that an element issues of its ready ones (R274). -/
def State.choose (s : State) (e : Nat) (l : List Cand) : Option Cand :=
  let pr := fun x : Cand => (s.ctx e x.ctx).prio
  let l1 := least (fun x => 15 - pr x) (l.filter fun x => pr x != 0)
  let l2 := if l1.any fun x => x.urgent then l1.filter fun x => x.urgent else l1
  let l3 := least (fun x => (tagCol x.tag + 4095 - (s.elem e).turn.toNat) % 4096) l2
  let l4 := least (fun x => age (s.oldest (tagCol x.tag) (s.loadidAt e x.ctx)) (tagIter x.tag)) l3
  (least (fun x => tagId x.tag) (least (s.readySince e) (least (fun x => x.slot) (least (fun x => x.ctx) l4)))).head?

/-- An unready candidate of a node with one token port, in its first cycle, takes an entry, or goes to the spill queue while that has a place;
a bundle likewise (R273). While neither has a place the next cycle counts as its first. -/
def State.retain (s : State) (e : Nat) (x : Cand) : State :=
  match x.pick with
  | .issue _ => s
  | .fire _ toks =>
    let loose := fun t : Token => match t.place with | .cand _ => true | .bundle _ => true | _ => false
    match toks.filter loose with
    | [] => s
    | t :: ts =>
      let go := fun p : Place => (t :: ts).foldl (fun (s : State) u => s.moveToken u p) (s.touch e (tagCol t.tag))
      let later := fun u : Token => match u.place with | .bundle _ => s.moveToken u (.bundle (s.cycle + 1)) | _ => s.moveToken u (.cand (s.cycle + 1))
      if x.since ≠ s.cycle then s
      else if s.roomFor e t then go (.entry s.cycle)
      else if s.spillCount e + (t :: ts).length ≤ 16 then go .spill
      else later t
/-- An element looks at its candidates, once in each cycle: those that are not ready in their first cycle are retained, those that lack only credit
ask for it, and the credit of a colour that holds an entry is not idle (R273, R295, R296). -/
def State.examine (s : State) (e : Nat) : State :=
  if (s.elem e).examined = s.cycle + 1 then s
  else
    let l := (s.cands e).filter fun x => decide (x.since ≤ s.cycle) && !s.ready e x
    let s1 := l.foldl (fun (s : State) x => s.retain e x) (s.noteHeld e)
    let s2 := l.foldl (fun (s : State) x => if s.fit x.pick && !s.paid e x then s.askCredit e (tagCol x.tag) (s.expands x.pick) else s) s1
    s2.setElem e { s2.elem e with examined := s.cycle + 1 }
/-- The element's ready firings, and the state in which it has noted them. -/
def State.readyFirings (s : State) (e : Nat) : List Cand × State :=
  let s1 := s.examine e
  let l := (s1.cands e).filter fun x => s1.ready e x
  (l, s1.noteReady e l)
/-- Removes tokens, each once. -/
def takeTokens (l : List Token) (ts : List Token) : List Token := ts.foldl (fun m t => m.erase t) l

/-- The stream's next token, which is a firing (R110, R282), or its end (R122), whose done token the latch does not see (DESIGN CHOICE, log entry
105). -/
def State.issueStream (s : State) (x : Stream) : State :=
  let c := tagCtx x.tag
  match s.slotWord x.e c x.slot with
  | none => s
  | some w =>
    let i := (tagIter x.tag + x.k) % iterMod
    let out : Out := ⟨0, x.sb, .scalar, BitVec.ofNat 64 x.k, none, tagWithIter x.tag i, x.hist⟩
    let unit := fun (s : State) (outs : List Out) =>
      ({ s with fab := { s.fab with units := s.fab.units ++ [⟨x.e, c, x.slot, out.tag, s.cycle + 1, 0, none, outs, none, [], []⟩] } } : State)
    let rest := s.fab.streams.filter fun y => y != x
    if x.k < x.n then
      let s1 := ({ s with fab := { s.fab with streams := rest ++ [{ x with k := x.k + 1 }] } } : State).spendCredit x.e (tagCol x.tag) 1
      unit (match rowOf w with | some g => s1.latch ⟨x.e, c, x.slot, w, out.tag, []⟩ g.o x.sb | none => s1) (outTo (wT0 w) out)
    else
      let outs := outTo (wT1 w) out
      let s1 := ({ s with fab := { s.fab with streams := rest } } : State).touch x.e (tagCol x.tag)
      unit (s1.inflDown (tagCol x.tag) (1 - outCount outs)) outs

/-- Banks that a range of pool lines lies in. -/
def lineBanks (line n : Nat) : List Nat := if n = 0 then [] else rangeFrom (line / 32) ((line + n - 1) / 32 + 1 - line / 32)
/-- Banks of an operand: the bank of a register, the two of an accumulator, and those of the slot that a reference names (R278). -/
def State.opndBanks (s : State) (f : Firing) (ref : Bool) (x : Opnd) : List Nat :=
  let w := (s.ctx f.e f.ctx).partwd
  match x with
  | .reg n => [regByte w n.toNat / 2048]
  | .acc n => [accByte w n.toNat / 2048, accByte w n.toNat / 2048 + 1]
  | .port n => match ref, f.tok n.toNat with
    | true, some t => match s.buf f.e f.ctx (refBuf t.pay) with
      | some b => if sbDead t.sb then [] else lineBanks (b.slotByte (refSlot t.pay) / 64) (refLines t.pay)
      | none => []
    | _, _ => []
  | _ => []
/-- Banks that a choice uses: those of its operands, of the slot that it writes, and of the slots that a BFWR or RENEW names (R281). -/
def State.pickBanks (s : State) (p : Pick) : List Nat :=
  match p with
  | .issue _ => []
  | .fire f _ => match rowOf f.word with
    | none => []
    | some g =>
      let r := nodeRoles g
      let slot := fun b i => match s.buf f.e f.ctx b with | some x => lineBanks (x.slotByte (i x)) x.size | none => []
      let pos := (({ s with focus := .node f } : State).opVal .x64 g.o.imm g.o.b).v
      s.opndBanks f r.1 g.o.a ++ s.opndBanks f r.2.1 g.o.b ++ s.opndBanks f r.2.2 g.o.c ++
      (match nodeDest g with | some b => slot b fun x => x.widx | none => []) ++
      (if g.opc != 0xB7 then [] else if g.fn = 3 then slot (nfld g.o.imm 0 5) fun _ => posSlot pos
        else if g.fn = 6 then (match s.buf f.e f.ctx (nfld g.o.imm 0 5) with | some x => lineBanks x.base (x.size * x.depth) | none => []) else [])
/-- A firing that an element has issued still runs in a unit that works over several cycles (R175, R191, R220). -/
def State.unitOf (s : State) (e : Nat) (u : Use) : Bool :=
  s.fab.units.any fun v => v.e == e && v.ctx == u.ctx && v.slot == u.slot && tagEq v.tag u.tag && (v.unit != 0 || !v.renews.isEmpty)

/-- Issues a choice: the turn moves to its colour, and the sentinel of a colour that is served from an entry or a bundle, or whose node
state advances, returns to 0 (R274, R307). What the element held stays in force for the tokens of this cycle (R298). -/
def State.issue (s : State) (e : Nat) (x : Cand) : State :=
  let el := s.elem e
  let s1 := s.setElem e { el with
    turn := BitVec.ofNat 12 (tagCol x.tag), issued := s.cycle + 1, start := ⟨s.cycle, s.entries e⟩, ready := el.ready.filter fun r => !r.is x,
    uses := ⟨s.cycle, x.ctx, x.slot, tagClean x.tag, s.pickBanks x.pick⟩ :: el.uses.filter fun u => s.unitOf e u }
  match x.pick with
  | .issue y => (s1.resetSentinel e (tagCol x.tag)).issueStream y
  | .fire f toks =>
    let op := wOpc f.word
    let s2 := (s1.setTokens (takeTokens s1.fab.tokens toks)).touch e (tagCol x.tag)
    let advances := op == 0x07 || op == 0x08 || (op == 0x0F && !(s2.barPlan f).out.isEmpty)
    let served := (toks.any fun t => t.inEntry || t.inBundle) || advances
    { (if served then s2.resetSentinel e (tagCol x.tag) else s2) with focus := .node f }

/-- The element may issue in this cycle: once, not while it is halted (R460), and not in a quiesced partition (R256). -/
def State.canIssue (s : State) (e : Nat) : Bool :=
  !(s.elem e).halted && decide ((s.elem e).issued ≤ s.cycle) && (match s.partOfElem e with | some p => (s.part p).cut != .quiesced | none => true)
/-- FIRE_SELECTION (R274): the element examines its candidates and notes which are ready, halted or not (R460), and issues one ready firing. -/
def execFireSelection (e : Nat) (s : State) : Res :=
  let r := s.readyFirings e
  .next (if !r.2.canIssue e then r.2 else match r.2.choose e r.1 with
    | some x => r.2.issue e x
    | none => r.2)
/-- ITER_ISSUE (R122, R123): the k-th stream issues, when the element's choice falls on it. -/
def execIterIssue (k : Nat) (s : State) : Res :=
  .next (match nth? s.fab.streams k with
    | none => s
    | some x =>
      if !s.canIssue x.e then s
      else
        let r := s.readyFirings x.e
        match r.2.choose x.e r.1 with
        | some y => if y.pick = .issue x then r.2.issue x.e y else r.2
        | none => r.2)

/-! ### Completion of units (R161, R162, R276) -/

/-- The slot write of a completed firing (R161, R315). -/
def State.writeSlot (s : State) (u : UnitOp) (w : SlotWrite) : State :=
  match s.buf u.e u.ctx w.buf with
  | none => s
  | some b =>
    let s1 := s.setElem u.e ((s.elem u.e).poolWrite (b.slotByte w.slot) w.data)
    s1.slotWritten u.e u.ctx w.buf w.slot w.keep fun q => { q with full := true, hv := w.hv, hdr := w.hdr, scale := w.scale, lines := w.lines }
/-- The firing of an element that completes first. -/
def firstUnit (e : Nat) : List UnitOp → Option UnitOp
  | [] => none
  | u :: l => match firstUnit e l with
    | some v => if u.e == e && decide (u.due ≤ v.due) then some u else some v
    | none => if u.e == e then some u else none
/-- Ends a firing in its unit: its slot is written, its operand slots are released, and its results leave; what a PURGE covers is removed
(R241, R242). -/
def State.endUnit (s : State) (u : UnitOp) : State :=
  let s1 : State := { s with fab := { s.fab with units := s.fab.units.erase u } }
  let s2 := ((match u.write with | some w => s1.writeSlot u w | none => s1).releaseAll u.e u.ctx u.release).renewAll u.e u.ctx u.renews
  if s.purgedAt u.e u.tag then
    let n := outCount u.outs
    let s3 := (s2.inflDown (tagCol u.tag) n).countPurged u.tag (s.loadidAt u.e u.ctx) n
    match u.write with | some w => s3.modSlot u.e u.ctx w.buf w.slot Slot.wiped | none => s3
  else s2.sendOuts u.e u.ctx 0 u.outs
/-- UNIT_COMPLETION (R276). -/
def execUnitCompletion (e : Nat) (s : State) : Res :=
  .next (match firstUnit e s.fab.units with
    | some u => if u.due ≤ s.cycle then s.endUnit u else s
    | none => s)

end Sys2Proof.Machine
end

