-- ==== Sys2Proof/Machine/Residency.lean ====
section
/-! DEFINITION. The adapter residency table (15 R402 to R405): claims, the order in which waiting rows are served, and the release of a
row's claim (R404). -/

namespace Sys2Proof.Machine

/-- COL of a launch record (Table 16.2). -/
def lrCol (r : BitVec 1024) : Nat := nfld r 656 12

/-! ### Claims (Table 15.2) -/

/-- The slot that holds an adapter of an address space. -/
def Part.holderOf (x : Part) (adp : Word) (asid : Nat) : Option Nat := tfind (fun _ e => e.state != 0 && e.adp == adp && e.asid == asid) x.resident
/-- The slot of no users of least AGE. -/
def leastAge : List (Nat × Resident) → Option (Nat × Resident)
  | [] => none
  | x :: l => match leastAge l with
    | none => some x
    | some y => if x.2.age ≤ y.2.age then some x else some y
/-- What a claim comes to. -/
inductive ClaimRes where
  | slot (n : Nat)
  | busy
  | wait
/-- The outcome of a claim (Table 15.2). -/
def Part.claimOutcome (x : Part) (adp : Word) (asid pin : Nat) : ClaimRes :=
  match x.holderOf adp asid with
  | some n => if (tget Resident.free x.resident n).users < 65535 then .slot n else .wait
  | none =>
    if pin ≠ 65535 then
      if x.nres ≤ pin ∨ (tget Resident.free x.resident pin).users ≠ 0 then .busy else .slot pin
    else match firstKey (fun n => (tget Resident.free x.resident n).state == 0) 0 x.nres with
      | some n => .slot n
      | none => match leastAge (x.resident.filter fun e => decide (e.1 < x.nres) && e.2.users == 0) with
        | some e => .slot e.1
        | none => .wait
/-- A claim takes a slot: shared where it holds the adapter, else granted. -/
def Part.claim (x : Part) (adp : Word) (asid n : Nat) : Part :=
  let e := tget Resident.free x.resident n
  let f : Resident := if e.state ≠ 0 ∧ e.adp = adp ∧ e.asid = asid then { e with users := e.users + 1, age := x.age } else ⟨adp, asid, 1, x.age, 1⟩
  { x with resident := tset Resident.free x.resident n f, age := (x.age + 1) % 16777216 }

/-! ### Rows (R403, R404) -/

/-- A launch gets the slot of its next row. -/
def State.giveClaim (s : State) (who : Option (Nat × Nat)) (n : Nat) : State :=
  { s with host := { s.host with launches := s.host.launches.map fun l => if who == some (l.qslot, l.n) then { l with claims := l.claims ++ [n] } else l } }
/-- A claim is granted slot n: its row holds it. -/
def State.grantClaim (s : State) (p : Nat) (w : ClaimWait) (n : Nat) : State :=
  let x := (s.part p).claim w.adp w.asid n
  (s.setPart p { x with claims := x.claims.filter (fun v => v != w), rows := x.rows ++ [(w.tag, n)] }).giveClaim w.who n
/-- LOADID of the load of a partition that a tag's context slot holds. -/
def State.tagLoad (s : State) (p : Nat) (tag : Word) : Word := match s.loadIn p (tagCtx tag) fun _ => true with | some l => dLoadid l.desc | none => 0
/-- The row of a claim is of an older iteration of its colour (R16). -/
def State.olderRow (s : State) (p : Nat) (v w : ClaimWait) : Bool :=
  let o := s.oldest (tagCol w.tag) (s.tagLoad p w.tag)
  tagCol v.tag == tagCol w.tag && decide (age o (tagIter v.tag) < age o (tagIter w.tag))
/-- Waiting claims in the order in which they are served: the colours as their claims came, and of a colour the oldest iteration first (R403). -/
def State.claimOrder (s : State) (p : Nat) : Nat → List ClaimWait → List ClaimWait
  | 0, l => l
  | _ + 1, [] => []
  | n + 1, w :: ws =>
    let m := ws.foldl (fun b x => if s.olderRow p x b then x else b) w
    m :: s.claimOrder p n ((w :: ws).erase m)
/-- Serves a list of waiting claims. -/
def State.serveList (s : State) (p : Nat) : List ClaimWait → State
  | [] => s
  | w :: ws => match (s.part p).claimOutcome w.adp w.asid w.pin with
    | .slot n => (s.grantClaim p w n).serveList p ws
    | _ => s.serveList p ws
/-- Serves the claims that wait (R403). -/
def State.serveClaims (s : State) (p : Nat) : State := s.serveList p (s.claimOrder p (s.part p).claims.length (s.part p).claims)
/-- A claim on a slot is released, and the claims that wait are served (R404). -/
def State.releaseClaim (s : State) (p n : Nat) : State :=
  let x := s.part p
  let e := tget Resident.free x.resident n
  if e.users = 0 then s
  else (s.setPart p { x with resident := tset Resident.free x.resident n { e with users := e.users - 1, age := x.age }, age := (x.age + 1) % 16777216 }).serveClaims p
/-- A claim is made: granted, put to wait, or refused. -/
def State.makeClaim (s : State) (p : Nat) (w : ClaimWait) : Option State :=
  match (s.part p).claimOutcome w.adp w.asid w.pin with
  | .slot n => some (s.grantClaim p w n)
  | .wait => some (s.setPart p { s.part p with claims := (s.part p).claims ++ [w] })
  | .busy => none

/-- A launch whose row of an iteration loses its claim: the row is claimed for again unless it has been offered. -/
def Launch.lose (l : Launch) (it : Nat) : Launch :=
  if l.stage = .rows ∧ l.i ≤ it then { l with claims := l.claims.take l.i } else { l with claims := setNth l.claims it 65536 }
/-- Releases the claims of the rows that a test of tag and slot selects (R404). -/
def State.releaseRows (s : State) (p : Nat) (hit : Word → Nat → Bool) : State :=
  let x := s.part p
  let gone := x.rows.filter fun r => hit r.1 r.2
  let lose := fun l : Launch => if l.part == p then (gone.filter fun r => tagCol r.1 == lrCol l.rcd).foldl (fun l r => l.lose (tagIter r.1)) l else l
  let s1 : State := { s.setPart p { x with rows := x.rows.filter fun r => !hit r.1 r.2 } with host := { s.host with launches := s.host.launches.map lose } }
  gone.foldl (fun (s : State) r => s.releaseClaim p r.2) s1
/-- Something of an iteration of a colour is left in the partition (R293). -/
def State.iterLeft (s : State) (tag : Word) : Bool :=
  let mine := fun t : Word => tagCol t == tagCol tag && tagIter t == tagIter tag
  (s.fab.tokens.any fun t => mine t.tag) || (s.fab.joins.any fun j => mine j.tag) || (s.fab.units.any fun u => mine u.tag) ||
  (s.fab.streams.any fun x => tagCol x.tag == tagCol tag && (tagIter x.tag == tagIter tag || (decide (x.k ≤ age (tagIter x.tag) (tagIter tag)) && decide (age (tagIter x.tag) (tagIter tag) < x.n)))) ||
  (s.port.walks.any fun w => match w.who with | .xlat outs => outs.any fun x => mine x.tag | _ => false) || (s.port.accesses.any fun a => mine a.tag) || (s.port.engines.any fun g => mine (fld g.pkt 0 64)) || (s.port.colls.any fun g => mine g.tag) ||
  s.port.linkOut.any fun x => x.counted && mine (fld x.head 0 64)
/-- A row of a launch has been offered; one of another sender is taken to have been (DESIGN CHOICE, log entry 102). -/
def State.rowOffered (s : State) (p : Nat) (tag : Word) : Bool :=
  s.host.launches.all fun l => !(l.part == p && lrCol l.rcd == tagCol tag && l.stage == .rows && decide (l.i ≤ tagIter tag))
/-- The last exit token of a row has been taken (R404). -/
def State.rowOver (s : State) (p : Nat) (tag : Word) : Bool := s.rowOffered p tag && !s.iterLeft tag

end Sys2Proof.Machine
end

