-- ==== Sys2Proof/Machine/Views.lean ====
section
/-! DEFINITION. View instructions (06 R221 to R227), the Trimmers that perform them (14 R378 to R395), page frees and shoot-downs
(06 R210, 07 R254, 11 R336). -/

namespace Sys2Proof.Machine

/-! ### At the element -/

/-- Runs a view instruction: its operands and its chain go to the Trimmer of the region's die. -/
def State.viewNode (s : State) (f : Firing) (o : Ops) (k : AKind) (a ext : Val) (ch : Opnd) (region : Nat) : State :=
  let chain : Option Token := if bit o.imm 7 then (match ch with | .port n => f.tok n.toNat | _ => none) else none
  let sb := sbOr [a.sb, ext.sb]
  let hist := match chain with | some t => t.hist | none => []
  let outs := accessOuts f.word ⟨0, sb, .scalar, 0, none, f.tag, []⟩ (chain.map fun t => chainOut f.tag t.sb hist)
  if sbDead sb then s.fire f o 1 outs sb
  else
    let d := if regionDie region < 4 then regionDie region else 0
    let x : Access := ⟨s.port.next, k, 128 + d, f.e, f.ctx, f.slot, f.word, f.tag, sb, a.v, ext.v, 0, chain.map fun t => t.sb, hist, 0x7F, none, none,
      s.cycle + 1, false, false, f.ops, Nat.max f.count (outCount outs), s.loadidAt f.e f.ctx⟩
    let s1 := s.settleHeld f.e (tagCol f.tag) f.count (outCount outs)
    { s1 with port := { s1.port with accesses := s1.port.accesses ++ [x], next := s1.port.next + 1 }, focus := .thread 0 }

/-- VIEWMK (R222). -/
def execViewmk (o : Ops) (s : State) : Res := s.flow fun f =>
  let a := s.opVal .u32 o.imm o.a
  s.viewNode f o .viewmk a (s.opVal .x64 o.imm o.b) .none (nfld a.v 0 32)
/-- VIEWDUP (R223). -/
def execViewdup (o : Ops) (s : State) : Res := s.flow fun f =>
  let a := s.opVal .x64 o.imm o.a
  s.viewNode f o .viewdup a (s.opVal .x64 o.imm o.b) .none (hRegion a.v)
/-- NARROW (R224). -/
def execNarrow (o : Ops) (s : State) : Res := s.flow fun f =>
  let a := s.opVal .x64 o.imm o.a
  s.viewNode f o .narrow a (s.opVal .x64 o.imm o.b) o.c (hRegion a.v)
/-- VIEWQ (R225). -/
def execViewq (o : Ops) (s : State) : Res := s.flow fun f =>
  let a := s.opVal .x64 o.imm o.a
  s.viewNode f o .viewq a noVal o.b (hRegion a.v)
/-- VIEWDROP (R225). -/
def execViewdrop (o : Ops) (s : State) : Res := s.flow fun f =>
  let a := s.opVal .x64 o.imm o.a
  s.viewNode f o .viewdrop a noVal o.b (hRegion a.v)

/-! ### Changes of views (R382 to R389) -/

/-- lo and hi of an extent word. -/
def extLo (w : Word) : Nat := nfld w 0 32
def extHi (w : Word) : Nat := nfld w 32 32
/-- The free view entry of lowest index of a region's Trimmer. -/
def State.freeView (s : State) (r : Nat) : Option Nat := firstKey (fun i => !(s.view (viewKey r i)).v) 0 1048576
/-- A page of the list is covered by 65,535 views (R386). -/
def State.countFull (s : State) (r : Nat) (ps : List Nat) : Bool := ps.any fun p => (s.page r p).count == 65535
/-- Zeroes a frame under a key slot (R381). -/
def Mem.zeroFrame (m : Mem) (key frame : Nat) : Mem :=
  let out := fun a : Nat => !(decide (frame ≤ a) && decide (a < frame + 65536))
  let outL := fun l : Nat => !(decide (frame / 64 ≤ l) && decide (l < frame / 64 + 1024))
  { m with mem := m.mem.filter (fun e => out e.1), sbits := m.sbits.filter (fun e => out e.1), poison := m.poison.filter outL,
           keys := (rangeFrom (frame / 64) 1024).foldl (fun t l => tset noKey t l key) m.keys }
/-- Allocates the pages of a list that hold no frame, from the partition's pool (R381). -/
def State.allocPages (s : State) (r : Nat) : List Nat → State
  | [] => s
  | p :: ps =>
    let g := s.region r
    let x := s.page r p
    if x.alloc then s.allocPages r ps
    else match (s.part g.part).frames with
      | [] => s.allocPages r ps
      | fr :: rest =>
        let s1 := s.setPart g.part { s.part g.part with frames := rest }
        let s2 := (s1.setMem (s1.mem.zeroFrame g.keyslot fr)).writeLeaf g.asid (g.va p) (coveredLeaf fr)
        (s2.setPage r p { x with alloc := true, frame := fr }).allocPages r ps
/-- Makes a view entry over an extent; its handle. -/
def State.newView (s : State) (r i lo hi : Nat) : State × Word :=
  let k := viewKey r i
  let v := s.view k
  let e := if lo < hi then (lo, hi) else (0, 0)
  let s1 := (s.setView k { v with v := true, region := r, lo := e.1, hi := e.2 }).countUp r (pagesOf lo hi)
  let s2 := s1.setRegion r { s1.region r with views := (s1.region r).views + 1 }
  (s2, s2.handle (s2.region r).part r i v.gen)

/-- What a change comes to: a fault code, a wait, or a new state with its result. -/
inductive Change where
  | fault (code : Nat)
  | wait
  | done (s : State) (v : Word)

/-- Makes a root view (R222, R387). -/
def State.viewMake (s : State) (asid r lo hi : Nat) : Change :=
  let g := s.region r
  if 65536 ≤ r ∨ !g.v ∨ g.dying ∨ g.asid ≠ asid ∨ hi ≤ lo ∨ g.npage * 1024 < hi then .fault cProtection
  else
    let ps := pagesOf lo hi
    if ps.any fun p => (s.page r p).pend then .wait
    else match s.freeView r with
      | none => .fault cConfig
      | some i =>
        if s.countFull r ps then .fault cConfig
        else if (s.part g.part).frames.length < (ps.filter fun p => !(s.page r p).alloc).length then .fault cConfig
        else let x := (s.allocPages r ps).newView r i lo hi; .done x.1 x.2
/-- The extent of a view holds [lo, hi): an empty one lies in every extent, and nothing lies in that of a dropped view (R221, R225). -/
def View.admits (v : View) (lo hi : Nat) : Bool := decide (v.lo < v.hi) && (decide (lo = hi) || (decide (lo < hi) && decide (v.lo ≤ lo) && decide (hi ≤ v.hi)))
/-- Makes a child view (R223). -/
def State.viewDup (s : State) (k lo hi : Nat) : Change :=
  let v := s.view k
  if !v.admits lo hi then .fault cWidening
  else match s.freeView v.region with
    | none => .fault cConfig
    | some i => if s.countFull v.region (pagesOf lo hi) then .fault cConfig else let x := s.newView v.region i lo hi; .done x.1 x.2
/-- Sets a view's extent to a part of it; an empty one drops the view (R224, R225, R389). -/
def State.viewCut (s : State) (k lo hi : Nat) (res : Word) : Change :=
  let v := s.view k
  let e := if lo < hi then (lo, hi) else (0, 0)
  let keep := pagesOf lo hi
  match s.uncover v.region ((pagesOf v.lo v.hi).filter fun p => !keep.contains p) with
  | none => .wait
  | some s1 => .done (s1.setView k { v with lo := e.1, hi := e.2 }) res
/-- The change that a view instruction asks for (R222 to R227). -/
def State.viewChange (s : State) (a : Access) : Change :=
  let part := (s.partOfElem a.e).getD 0
  let asid := (s.colour (tagCol a.tag)).asid
  let lo := extLo a.dat; let hi := extHi a.dat
  match a.kind with
  | .viewmk => s.viewMake asid (nfld a.idx 0 32) lo hi
  | kd => match s.viewOf part asid a.idx with
    | none => .fault cProtection
    | some k =>
      let v := s.view k
      match kd with
      | .viewdup => s.viewDup k lo hi
      | .narrow => if v.admits lo hi then s.viewCut k lo hi a.idx else .fault cWidening
      | .viewq => .done s (pack 64 [(32, 32, v.hi), (0, 32, v.lo)])
      | _ => s.viewCut k 0 0 0

/-- The Trimmer of a region's die has taken a view instruction, which a region request waits behind (R390). -/
def State.trimmerHolds (s : State) (r : Nat) : Bool :=
  s.port.accesses.any fun a => a.at_ == 128 + regionDie r && decide (a.since ≤ s.cycle) && s.accessOpen a
/-- TRIMMER_CHANGE (R389, R390): the Trimmer of a die performs the instruction that it has taken, or takes the oldest whose round is open, whole; one
that must wait stays taken. -/
def execTrimmerChange (d : Nat) (s : State) : Res :=
  let mine := s.port.accesses.filter fun a => a.at_ == 128 + d && (a.held || (decide (a.since ≤ s.cycle) && s.accessOpen a))
  .next (match (match lfind (fun a => a.held) mine with | some a => some a | none => mine.head?) with
    | none => s
    | some a => match s.viewChange a with
      | .wait => s.setAccess { a with held := true }
      | .fault c => s.failAccess a c a.dat.toNat false
      | .done s1 v => s1.reply a ⟨0, a.sb, .scalar, v, none, a.tag, []⟩ a.hist)

/-! ### Frees (R380, R381, R389, R395) -/

/-- Epochs from EOLD up to an epoch hold no started access. -/
def Region.drained (r : Region) (epoch : Nat) : Bool := (rangeFrom 0 ((epoch + 4 - r.eold) % 4 + 1)).all fun i => r.started ((r.eold + i) % 4) == 0
/-- PAGE_FREE (R389): the leaf of a page whose epochs have drained is cleared, and its shoot-down leaves. -/
def execPageFree (r p : Nat) (s : State) : Res :=
  let g := s.region r
  let x := s.page r p
  if x.pend && g.drained x.epoch && !s.cov.freeing.any fun f => f.2.2.1 == r && f.2.2.2 == p then
    let s1 := s.writeLeaf g.asid (g.va p) 0
    let s2 : State := { s1 with cov := { s1.cov with freeing := s1.cov.freeing ++ [(g.part, x.frame, r, p)] } }
    .next (s2.shoot none g.part 0 g.asid (g.va p))
  else .next s
/-- A region that is being destroyed ends when its last page is freed: its view entries are freed (R382, R395). -/
def State.endRegion (s : State) (r : Nat) : State :=
  let g := s.region r
  if g.v && g.dying && !s.cov.pages.any fun x => x.1 / 2 ^ 22 == r && x.2.alloc then
    let free := fun x : Nat × View => if x.2.v && x.2.region == r then (x.1, { View.reset with gen := (x.2.gen + 1) % 4096 }) else x
    let s1 : State := { s with cov := { s.cov with views := (s.cov.views.map free).filter (fun x => x.2 != View.reset),
                                                   pages := s.cov.pages.filter fun x => x.1 / 2 ^ 22 != r } }
    s1.setRegion r Region.reset
  else s
/-- The shoot-down of a freed page is complete: the frame returns to the pool (R381). -/
def State.freeDone (s : State) (h : Shoot) : State :=
  let mine := fun f : Nat × Nat × Nat × Nat => f.1 == h.part && (s.region f.2.2.1).asid == h.asid && (s.region f.2.2.1).va f.2.2.2 == h.va
  match lfind mine s.cov.freeing with
  | none => s
  | some (p, fr, r, pg) =>
    let s1 : State := { s with cov := { s.cov with freeing := s.cov.freeing.filter fun f => !(f.2.2.1 == r && f.2.2.2 == pg) } }
    let s2 := (s1.setPart p { s1.part p with frames := (s1.part p).frames ++ [fr] }).setPage r pg { s1.page r pg with alloc := false, pend := false, frame := 0 }
    ((s2.advanceOld r 3).uncoverDying r).endRegion r

/-! ### Shoot-downs (R210, R254, R336) -/

/-- A shoot-down reaches an element's XLAT. -/
def State.shootElem (s : State) (h : Shoot) (e : Nat) : State :=
  let el := s.elem e
  let s1 := s.setElem e { el with xlat := el.xlat.filter fun x => !s.shootHits h x }
  let hit := fun g : Agen => g.e == e && (match g.last with | some x => s.shootHits h x | none => false)
  { s1 with port := { s1.port with agens := s1.port.agens.map fun g => if hit g then { g with last := none } else g } }
/-- ASIDs that a shoot-down covers. -/
def State.shootAsid (s : State) (h : Shoot) (a : Nat) : Bool := if h.kind < 2 then a == h.asid else asidIn (s.part h.part).desc a
/-- A shoot-down reaches a page walker: it forgets the tables that it had cached. -/
def State.shootWalk (s : State) (h : Shoot) (p : Nat) : State :=
  { s with port := { s.port with wcache := s.port.wcache.filter fun w => !(w.port == p && s.shootAsid h w.asid) } }
/-- A shoot-down reaches a port: accesses that have not begun drop their frames, the AGENs bound to it forget the page last used, read-ahead
is discarded and buffered stores are marked. -/
def State.shootAt (s : State) (h : Shoot) (p : Nat) : State :=
  let mine := s.shootAsid h
  let frame := fun x : Option Xent => match x with | some y => s.shootHits h y | none => false
  let stale := fun a : Ahead => a.port == p && (frame a.frame || (a.code != 0 && mine (s.colour a.col).asid))
  let gone := s.port.ahead.filter stale
  let s1 := gone.foldl (fun (s : State) a => s.endStarted a.started) s
  let here := fun g : Agen => wPort ((s1.slotWord g.e g.ctx g.slot).getD 0) == p && frame g.last
  { s1 with port := { s1.port with
      agens := s1.port.agens.map (fun g => if here g then { g with last := none } else g),
      accesses := s1.port.accesses.map (fun a => if a.at_ == p && frame a.frame then { a with frame := none } else a),
      ahead := s1.port.ahead.filter (fun a => !stale a),
      stores := s1.port.stores.map fun st => if st.port == p && !st.written && frame st.frame then { st with marked := true } else st } }
/-- Replaces the k-th shoot-down. -/
def State.putShoot (s : State) (k : Nat) (h : Shoot) : State := { s with port := { s.port with shoots := setNth s.port.shoots k h } }
/-- SHOOTDOWN_ARRIVAL (R210): the k-th shoot-down reaches the next walker, XLAT or port. -/
def execShootdownArrival (k : Nat) (s : State) : Res :=
  .next (match nth? s.port.shoots k with
    | some h => match h.todo with
      | x :: rest =>
        let s1 := if x < shootPort then s.shootElem h x else if x < shootWalker then s.shootAt h (x - shootPort) else s.shootWalk h (x - shootWalker)
        s1.putShoot k { h with todo := rest, open_ := h.open_ ++ [x] }
      | [] => s
    | none => s)
/-- A stalled system instruction is done. -/
def State.sysDone (s : State) (t : Nat) (d : Option Nat) (v : Word) : State := s.setThread t { ((s.thread t).setDest d v).advance with stall := .none }
/-- An XLAT or port may acknowledge. -/
def State.shootQuiet (s : State) (h : Shoot) (x : Nat) : Bool :=
  let frame := fun y : Option Xent => match y with | some y => s.shootHits h y | none => false
  if x < shootPort then !s.port.accesses.any fun a => a.e == x && frame a.frame
  else !s.port.stores.any fun st => st.port + shootPort == x && st.prepared && !st.written && frame st.frame
/-- Ends the k-th shoot-down when every XLAT and port has acknowledged. -/
def State.shootEnd (s : State) (k : Nat) (h : Shoot) : State :=
  if h.todo.isEmpty && h.open_.isEmpty then
    let s1 : State := { s with port := { s.port with shoots := dropNth s.port.shoots k } }
    match h.thread with | some t => s1.sysDone t none 0 | none => s1.freeDone h
  else s.putShoot k h
/-- SHOOTDOWN_ACK (R210): the first that the k-th shoot-down has reached acknowledges, once nothing there uses what it removed. -/
def execShootdownAck (k : Nat) (s : State) : Res :=
  .next (match nth? s.port.shoots k with
    | some h => match h.open_ with
      | x :: rest => if s.shootQuiet h x then s.shootEnd k { h with open_ := rest } else s
      | [] => s.shootEnd k h
    | none => s)

end Sys2Proof.Machine
end

