-- ==== Sys2Proof/Machine/System.lean ====
section
/-! DEFINITION. System instructions (07 R237 to R255, R263): PURGE, PARK, UNPARK, colour settings, configuration, RAISE and DROP, TLBI,
GENRET and FLTRD, and the towpath messages that carry them to the elements (R239, R240, R242). -/

namespace Sys2Proof.Machine

/-! ### Operands and checks (R237 to R240) -/

/-- Fields of a colour word (Table 7.2). -/
def cwCol (w : Word) : Nat := nfld w 0 12
def cwGen (w : Word) : Nat := nfld w 12 4
def cwLo (w : Word) : Nat := nfld w 16 24
def cwHi (w : Word) : Nat := nfld w 40 24
/-- Fields of an element selector (Table 7.3): its element, context slot and WORD. -/
def selElem (w : Word) : Nat := nfld w 0 6 + 48 * nfld w 8 6
def selCtx (w : Word) : Nat := nfld w 16 2
def selWord (w : Word) : Nat := nfld w 24 8
/-- An element selector is in its limits. -/
def selOk (w : Word) : Bool := nfld w 6 2 == 0 && nfld w 14 2 == 0 && nfld w 18 6 == 0 && nfld w 32 32 == 0 && decide (nfld w 0 6 < 48) && decide (nfld w 8 6 < 48)

/-- The value of a register operand. -/
def State.wv (s : State) (o : Ops) (x : Opnd) : Word := (s.opVal .x64 o.imm x).v
/-- Runs a system instruction: in user mode it traps as PRIVILEGE (R237). -/
def State.sys (s : State) (g : Nat → Nat → State) : Res := s.onThread fun t th => if th.super then g t (s.partOfThread t) else s.trapPrivilege t

/-- The colour of a system operation. -/
def SysKind.col? (k : SysKind) : Option Nat := match k with | .purge _ c _ _ _ => some c | .park c _ _ => some c | _ => none
/-- The context slot of a system operation. -/
def SysKind.ctx? (k : SysKind) : Option Nat := match k with | .prio c _ => some c | .raise d _ => some (dCtx d) | _ => none
/-- An operation on the colour is in progress (R240). -/
def State.colBusy (s : State) (p c : Nat) : Bool := s.fab.sysops.any fun q => q.part == p && q.kind.col? == some c
/-- An operation on the context slot is in progress (R240). -/
def State.ctxBusy (s : State) (p x : Nat) : Bool := s.fab.sysops.any fun q => q.part == p && q.kind.ctx? == some x
/-- The element lies in a load's rectangle. -/
def inFoot (d : BitVec 512) (e : Nat) : Bool :=
  dFx0 d ≤ e % 48 && e % 48 < dFx0 d + dFw d && dFy0 d ≤ e / 48 && e / 48 < dFy0 d + dFh d
/-- A RAISE that configures the element is in progress (R240). -/
def State.elemBusy (s : State) (p e : Nat) : Bool :=
  s.fab.sysops.any fun q => q.part == p && (match q.kind with | .raise d _ => inFoot d e | _ => false)

/-- Runs an instruction on a colour: one outside the range traps, and one in use waits (R238, R240). -/
def State.onCol (s : State) (t p c : Nat) (k : State) : State :=
  if !colIn (s.part p).desc c then s.trapProtection t else if s.colBusy p c then s else k
/-- Runs an instruction on a context slot of an element. -/
def State.onSel (s : State) (t p : Nat) (w : Word) (k : State) : State :=
  if !(inRect (s.part p).desc (selElem w) && bit (pCtxmask (s.part p).desc) (selCtx w)) then s.trapProtection t
  else if s.elemBusy p (selElem w) then s else k

/-- Starts an operation on the towpath: the thread stalls (R239). -/
def State.startOp (s : State) (q : SysOp) : State :=
  let s1 := s.setThread q.thread { s.thread q.thread with stall := .system }
  { s1 with fab := { s1.fab with sysops := s1.fab.sysops ++ [q] } }

/-! ### Tokens of a colour (R241 to R245) -/

/-- PURGE: what its variants share; `bad` is a field that the variant does not use. -/
def State.purgeSys (s : State) (o : Ops) (v : Nat) (bad : Word → Bool) : Res := s.sys fun t p =>
  let w := s.wv o o.a
  if bad w then s.trapIllegal t
  else s.onCol t p (cwCol w) (s.startOp ⟨t, p, .purge v (cwCol w) (cwGen w) (cwLo w) (cwHi w), rectElems (s.part p).desc, 0, [], stewDest o.t0⟩)
/-- PURGE.col. -/
def execPurgeCol (o : Ops) (s : State) : Res := s.purgeSys o 0 fun w => nfld w 12 52 != 0
/-- PURGE.gen. -/
def execPurgeGen (o : Ops) (s : State) : Res := s.purgeSys o 1 fun w => nfld w 16 48 != 0
/-- PURGE.iter. -/
def execPurgeIter (o : Ops) (s : State) : Res := s.purgeSys o 2 fun w => cwGen w != 0

/-- PARK (R244). -/
def execPark (o : Ops) (s : State) : Res := s.sys fun t p =>
  let w := s.wv o o.a
  if cwGen w ≠ 0 then s.trapIllegal t
  else s.onCol t p (cwCol w) (s.startOp ⟨t, p, .park (cwCol w) (cwLo w) (cwHi w), rectElems (s.part p).desc, 0, [], stewDest o.t0⟩)

/-- The active load where a token of a context slot returns to: at its element, or in its partition. -/
def State.homeLoad (s : State) (p : Nat) (e : Option Nat) (c : Nat) : Option Load :=
  match e with | some e => s.loadAt e c | none => s.loadIn p c fun _ => true
/-- What an UNPARK would return: element, context slot and LOADID of each token and node state it covers. -/
def State.parkedHomes (s : State) (c lo hi : Nat) : List (Option Nat × Nat × Word) :=
  let hit := fun tag : Word => tagCol tag == c && inRange lo hi (tagIter tag)
  ((s.fab.tokens.filter fun t => t.parked && hit t.tag).map fun t => (t.elem, tagCtx t.tag, t.load)) ++
  ((s.fab.joins.filter fun j => j.parked && hit j.tag).map fun j => (some j.e, tagCtx j.tag, j.load)) ++
  ((s.port.engines.filter fun g => g.parked && hit g.tag).map fun g => (some g.e, tagCtx g.tag, g.load)) ++
  ((s.fab.streams.filter fun x => x.parked && hit x.tag).map fun x => (some x.e, tagCtx x.tag, x.load))
/-- The status of an UNPARK (R245); `dctx` with MV = 1. -/
def State.unparkStatus (s : State) (p c lo hi : Nat) (dctx : Option Nat) : Nat :=
  let hs := s.parkedHomes c lo hi
  let home := fun h : Option Nat × Nat × Word => s.homeLoad p h.1 (dctx.getD h.2.1)
  let named := match dctx with | some x => (s.loadIn p x fun _ => true).isNone | none => false
  if named || hs.any (fun h => (home h).isNone) then 1
  else if hs.any fun h => (match home h with | some l => dLoadid l.desc != h.2.2 | none => false) then 2 else 0
/-- Rounds, stores and accesses of a colour move to a context slot with their tokens (R245). -/
def State.moveRounds (s : State) (c x : Nat) (loads : List Word) : State :=
  { s with
    fab := { s.fab with rounds := s.fab.rounds.map fun r => if r.col == c && loads.contains r.load then { r with ctx := x } else r },
    port := { s.port with stores := s.port.stores.map fun st => if st.col == c && loads.contains st.load then { st with ctx := x } else st } }
/-- How a request that stands goes on: it is checked if it has not been; a copy runs at its CURSOR (R231), a Weir request waits for a
context (R374). -/
def Engine.goOn (g : Engine) : EState := if g.base.isNone then .sent else if g.opc = 0xD1 then .waiting else .running
/-- Suspended engine requests of a range whose round is not voided, or has been resumed, go on in the context slot that the UNPARK names
(R373), and those of a round that the UNPARK resumes wherever in it their iteration lies (R373, R374). What is left of a refused copy goes on
holding the reconfiguration token until its firing, which returns, is issued again (R236). -/
def State.resumeEngines (s : State) (resumed : Engine → Bool) (c lo hi : Nat) (dctx : Option Nat) : State :=
  let voided := fun g : Engine => match s.heldRound c g.load (tagIter g.tag) with | some r => r.voided | none => false
  let hit := fun g : Engine => g.parked && tagCol g.tag == c && (inRange lo hi (tagIter g.tag) || resumed g) && !voided g
  let pkt := fun w : BitVec 384 => match dctx with
    | some x => setFld (setFld w 270 2 x) 0 64 (tagWithCtx (fld w 0 64) x).toNat
    | none => w
  let go := fun g : Engine => if !hit g then g else match g.state with
    | .suspended => { g with state := if g.refused then .suspended else g.goOn, parked := false, since := s.cycle, pkt := pkt g.pkt }
    | _ => { g with parked := false, pkt := pkt g.pkt }
  { s with port := { s.port with engines := s.port.engines.map go } }
/-- Returns the parked tokens of a colour's range: the rounds that they complete are resumed first, from their replay lists, and then the tokens
return (R245, R346). -/
def State.unpark (s : State) (c lo hi : Nat) (dctx : Option Nat) : State :=
  let s1 := match dctx with | some x => s.moveRounds c x ((s.parkedHomes c lo hi).map fun (h : Option Nat × Nat × Word) => h.2.2) | none => s
  let s2 := s1.resumeRounds c lo hi
  let voided := fun (s : State) (g : Engine) => match s.heldRound c g.load (tagIter g.tag) with | some r => r.voided | none => false
  s.guarded (s.parkedHits c lo hi) ((s2.resumeEngines (fun g => voided s1 g && !voided s2 g) c lo hi dctx).unparkColour c lo hi dctx)
/-- UNPARK (R245). -/
def execUnpark (o : Ops) (s : State) : Res := s.sys fun t p =>
  let w := s.wv o o.a; let d := s.wv o o.b
  if cwGen w ≠ 0 ∨ nfld d 3 61 ≠ 0 then s.trapIllegal t
  else if bit d 2 && !bit (pCtxmask (s.part p).desc) (nfld d 0 2) then s.trapProtection t
  else
    let dctx := if bit d 2 then some (nfld d 0 2) else none
    let n := s.unparkStatus p (cwCol w) (cwLo w) (cwHi w) dctx
    let busy := (s.parkedHomes (cwCol w) (cwLo w) (cwHi w)).any fun h => s.ctxBusy p (dctx.getD h.2.1)
    let s1 := if n = 0 then s.unpark (cwCol w) (cwLo w) (cwHi w) dctx else s
    s.onCol t p (cwCol w) (if busy then s else s1.finishWord t (stewDest o.t0) (BitVec.ofNat 64 n))

/-! ### Colour and context settings (R246 to R249) -/

/-- QSET (R246). -/
def execQset (o : Ops) (s : State) : Res := s.sys fun t p =>
  let w := s.wv o o.a; let q := s.wv o o.b
  if nfld w 12 52 ≠ 0 ∨ nfld q 44 20 ≠ 0 ∨ nfld q 32 12 = 0 ∨ 2048 < nfld q 32 12 then s.trapIllegal t
  else
    let c := cwCol w
    let x := s.colour c
    s.onCol t p c (if x.basinlen < nfld q 0 32 then s.finishWord t (stewDest o.t0) 1
      else (s.setColour c { x with quota := nfld q 0 32, cap := nfld q 32 12 }).finishWord t (stewDest o.t0) 0)

/-- PRIO (R247). -/
def execPrio (o : Ops) (s : State) : Res := s.sys fun t p =>
  let w := s.wv o o.a; let q := s.wv o o.b
  if nfld w 2 62 ≠ 0 ∨ nfld q 4 60 ≠ 0 then s.trapIllegal t
  else if !bit (pCtxmask (s.part p).desc) (nfld w 0 2) then s.trapProtection t
  else if s.ctxBusy p (nfld w 0 2) then s
  else s.startOp ⟨t, p, .prio (nfld w 0 2) q.toNat, rectElems (s.part p).desc, 0, [], none⟩

/-- WINSET (R248). -/
def execWinset (o : Ops) (s : State) : Res := s.sys fun t p =>
  let w := s.wv o o.a; let v := (s.wv o o.b).toNat
  if nfld w 12 52 ≠ 0 ∨ v = 0 ∨ 8388608 < v then s.trapIllegal t
  else s.onCol t p (cwCol w) ((s.setColour (cwCol w) { s.colour (cwCol w) with window := v }).finishWord t none 0)

/-- Restarts the sentinel counts of a colour (R248). -/
def State.restartSentinels (s : State) (c : Nat) : State :=
  let re := fun e : Nat × Elem =>
    let x : Sentinel := if s.holdsAny e.1 c then ⟨s.cycle, false⟩ else ⟨0, false⟩
    let el := { e.2 with sentinels := tset ⟨0, false⟩ e.2.sentinels c x }
    if el = Elem.reset then none else some (e.1, el)
  { s with fab := { s.fab with elems := s.fab.elems.filterMap re } }
/-- SENTL (R248). -/
def execSentl (o : Ops) (s : State) : Res := s.sys fun t p =>
  let w := s.wv o o.a; let v := (s.wv o o.b).toNat
  if nfld w 12 52 ≠ 0 ∨ (v ≠ 0 ∧ v < 1024) ∨ 2 ^ 32 ≤ v then s.trapIllegal t
  else s.onCol t p (cwCol w) (((s.setColour (cwCol w) { s.colour (cwCol w) with sentlim := v }).restartSentinels (cwCol w)).finishWord t none 0)

/-- Credit of a colour that elements hold and have not spent. -/
def State.creditOut (s : State) (c : Nat) : Nat := s.fab.elems.foldl (fun m e => m + (tget ⟨0, 0⟩ e.2.credits c).units) 0
/-- The colour has a token in flight or parked. -/
def State.colLive (s : State) (c : Nat) : Bool := decide (s.creditOut c < (s.colour c).inflt)
/-- The value of a COLSET field is within its limits (Table 7.4). -/
def colsetOk (field : Nat) (v : Word) : Bool :=
  match field with
  | 0 => nfld v 0 6 == 0 && nfld v 57 7 == 0
  | 1 => nfld v 32 32 == 0
  | 2 => true
  | 3 => nfld v 8 56 == 0
  | 4 => nfld v 16 48 == 0
  | 5 => nfld v 20 44 == 0
  | _ => nfld v 4 60 == 0
/-- The entry with a field written (Table 7.4). -/
def Colour.write (x : Colour) (field : Nat) (v : Word) : Colour :=
  match field with
  | 0 => { x with basin := v }
  | 1 => { x with basinlen := v.toNat }
  | 2 => { x with seed := v }
  | 3 => { x with keyslot := v.toNat }
  | 4 => { x with asid := v.toNat }
  | 5 => { x with pasid := v.toNat }
  | _ => { x with cprio := v.toNat }
/-- COLSET (R249). Status 1 goes before status 2 (DESIGN CHOICE, log entry 113). -/
def execColset (o : Ops) (s : State) : Res := s.sys fun t p =>
  let w := s.wv o o.a; let v := s.wv o o.b
  let f := nfld o.imm 0 4
  let d := (s.part p).desc
  let c := cwCol w
  let n := if f = 1 ∧ v.toNat < (s.colour c).quota then 1 else if f ≠ 2 ∧ f ≠ 6 ∧ s.colLive c then 2 else 0
  let s1 := if n = 0 then s.setColour c ((s.colour c).write f v) else s
  if nfld w 12 52 ≠ 0 ∨ !colsetOk f v then s.trapIllegal t
  else if (f = 3 ∧ !keyIn d v.toNat) ∨ (f = 4 ∧ !asidIn d v.toNat) then s.trapProtection t
  else s.onCol t p c (s1.finishWord t (stewDest o.t0) (BitVec.ofNat 64 n))

/-! ### Configuration (R250, R251) -/

/-- The PARTWD may be written into a context slot of an element (R277). -/
def State.partwOk (s : State) (e c : Nat) (w : Word) : Bool :=
  partwdOk w && (s.elem e).ctxs.all fun x => x.1 == c || !banksOverlap w x.2.partwd
/-- PARTW (R250). Status 1 goes before status 2 (DESIGN CHOICE, log entry 113). -/
def execPartw (o : Ops) (s : State) : Res := s.sys fun t p =>
  let w := s.wv o o.a; let v := s.wv o o.b
  let e := selElem w; let c := selCtx w
  if !selOk w ∨ selWord w ≠ 0 then s.trapIllegal t
  else s.onSel t p w (if (s.ctx e c).active then s.finishWord t (stewDest o.t0) 1
    else if !s.partwOk e c v then s.finishWord t (stewDest o.t0) 2
    else (s.setCtx e c { s.ctx e c with partwd := v }).finishWord t (stewDest o.t0) 0)

/-- The context slot with a word or descriptor written; a word of zeros is a word (log entry 18). -/
def Ctx.write (x : Ctx) (n : Nat) (lo hi : Word) : Ctx :=
  if n < 128 then { x with touched := true, words := tset none x.words n (some (pack 128 [(0, 64, lo.toNat), (64, 64, hi.toNat)])) }
  else { x with touched := true, descs := tset none x.descs (n - 128) (some lo) }
/-- CFGW (R251). -/
def execCfgw (o : Ops) (s : State) : Res := s.sys fun t p =>
  let w := s.wv o o.a; let lo := s.wv o o.b; let hi := s.wv o o.c
  let e := selElem w; let c := selCtx w; let n := selWord w
  if !selOk w ∨ 160 ≤ n ∨ (128 ≤ n ∧ hi ≠ 0) then s.trapIllegal t
  else s.onSel t p w (if (s.ctx e c).active then s.finishWord t (stewDest o.t0) 1
    else (s.setCtx e c ((s.ctx e c).write n lo hi)).finishWord t (stewDest o.t0) 0)

/-- The word that CFGRD reads; an empty position reads as zero. -/
def Ctx.read (x : Ctx) (n : Nat) : BitVec 128 :=
  if n < 128 then (tget none x.words n).getD 0 else ((tget none x.descs (n - 128)).getD 0).zeroExtend 128
/-- CFGRD (R251). -/
def execCfgrd (o : Ops) (s : State) : Res := s.sys fun t p =>
  let w := s.wv o o.a
  let v := (s.ctx (selElem w) (selCtx w)).read (selWord w)
  let d := nfld o.t0 0 6
  if !selOk w ∨ 160 ≤ selWord w then s.trapIllegal t
  else s.onSel t p w (s.setThread t (((s.thread t).setReg d (fld v 0 64)).setReg (d + 1) (fld v 64 64)).advance)

/-! ### RAISE (R252) -/

/-- Reads bytes for a system instruction as LD would: the bytes, the trap code, or an address that is no memory. -/
def State.sysRead (s : State) (t va n : Nat) : Except (Nat ⊕ Nat) (List Byte) :=
  if va / 2 ^ 57 ≠ 0 then .error (.inl cTranslation)
  else if windowOf va ≠ .none then .error (.inl cProtection)
  else match s.stewPhys t va false with
    | .error x => .error x
    | .ok (pa, key) => if s.mem.bad pa n then .error (.inl cPoison) else .ok (s.mem.read key pa n)

/-- Descriptor fields are in range (Table 7.5). -/
def descOk (d : BitVec 512) : Bool :=
  nfld d 0 197 == 0 && dDepth d != 0 && decide (1 ≤ dWindow d) && decide (dWindow d ≤ 8388608) && decide (1 ≤ dRound d) && decide (dRound d ≤ 4096) &&
  decide (1 ≤ dFh d) && decide (dFh d ≤ 48) && decide (1 ≤ dFw d) && decide (dFw d ≤ 48) && decide (3 ≤ dVersion d) && decide (dVersion d ≤ 5)
/-- The rectangle of a load lies in the partition. -/
def footIn (p d : BitVec 512) : Bool :=
  decide (pX0 p ≤ dFx0 d) && decide (dFx0 d + dFw d ≤ pX0 p + pW p) && decide (pY0 p ≤ dFy0 d) && decide (dFy0 d + dFh d ≤ pY0 p + pH p)
/-- The footprint: elements of the rectangle whose slot has received a CFGW since it was last inactive, lowest y and then x first. -/
def State.footOf (s : State) (d : BitVec 512) : List Nat :=
  (rangeFrom 0 2304).filter fun e => inFoot d e && (s.ctx e (dCtx d)).touched

/-- A target of kind 0b10 names a port element outside a port mask (R443). -/
def portBarred (p : BitVec 512) (w : SlotWord) : Bool :=
  [wT0 w, wT1 w].any fun t => match targetPnum t with | some n => !bit (pPortmask p) n | none => false
/-- A word of the load names a barred port element. -/
def State.footBarred (s : State) (p d : BitVec 512) (foot : List Nat) : Bool :=
  foot.any fun e => (s.ctx e (dCtx d)).words.any fun x => match x.2 with | some w => portBarred p w | none => false

/-- Registers and accumulators that operands name exist (R82). -/
def operandsExist (partwd : Word) (g : Sig) : Bool :=
  [g.o.a, g.o.b, g.o.c].all fun x => match x with
    | .reg n => regExists partwd n.toNat
    | .acc n => accExists partwd n.toNat
    | _ => true
/-- The node's GSLOT names an AGEN of its class (R203); PARAM takes either. -/
def gslotOk (x : Ctx) (w : SlotWord) : Bool :=
  if wOpc w == 0xB1 || wOpc w == 0xB2 || wOpc w == 0xB3 || wOpc w == 0xB6 then
    match tget none x.words (nfld w 0 7) with
    | some a => wOpc a == 0xB0 && (wOpc w == 0xB6 || isStreamAgen a == isStreamNode w)
    | none => false
  else true
/-- Targets of kind 0b00 stay in the footprint (R74). -/
def targetsIn (e : Nat) (foot : List Nat) (w : SlotWord) : Bool :=
  [wT0 w, wT1 w].all fun t => match fabTarget t with
    | some (.elem dx dy _ _) => (match targetElem e dx dy with | some f => foot.contains f | none => false)
    | _ => true
/-- The key store marks a key as a system key (R196, R480). -/
def State.sysKey (s : State) (id : Nat) : Bool :=
  s.mgmt.keystore.any fun k => nfld k.2 0 32 == id && bit k.2 64 && bit k.2 65 && !bit k.2 66
/-- A second XLAT of the element (R210). -/
def secondXlat (el : Elem) (c n : Nat) : Bool :=
  (el.ctxs.any fun x => x.1 != c && x.2.active && x.2.words.any fun w => match w.2 with | some v => wOpc v == 0xB5 | none => false) ||
  (tget Ctx.reset el.ctxs c).words.any fun w => decide (w.1 < n) && (match w.2 with | some v => wOpc v == 0xB5 | none => false)
/-- A word of the load passes the checks of RAISE that name its slot. -/
def State.wordOk (s : State) (d : BitVec 512) (foot : List Nat) (e n : Nat) (w : SlotWord) : Bool :=
  let x := s.ctx e (dCtx d)
  match decode w with
  | .error _ => false
  | .ok i => match sig i with
    | none => false
    | some g => legal (dVersion d) .fabric i && operandsExist x.partwd g && gslotOk x w && targetsIn e foot w &&
      (wOpc w != 0xB0 || spaceOf (wPort w) != .config || s.sysKey (dKeyid d)) && (wOpc w != 0xB5 || !secondXlat (s.elem e) (dCtx d) n)
/-- The words of a load: element, slot and word, in record order. -/
def State.loadWords (s : State) (d : BitVec 512) (foot : List Nat) : List (Nat × Nat × SlotWord) :=
  (foot.map fun e => (s.ctx e (dCtx d)).words.filterMap fun x => x.2.map fun w => (e, x.1, w)).flatten
/-- A node of a load needs a round source (R338, Table 11.5). -/
def needsRounds (w : SlotWord) : Bool :=
  (0xB1 ≤ wOpc w && wOpc w ≤ 0xB3) || wOpc w == 0xB8 || (0xD0 ≤ wOpc w && wOpc w ≤ 0xD3)
/-- The load as a whole obeys R130 and R338. -/
def wholeOk (d : BitVec 512) (l : List (Nat × Nat × SlotWord)) : Bool :=
  let es := l.filterMap fun x => entryPort x.2.2
  let rc := (l.filter fun x => isRcIter x.2.2).length
  let exitsOk := l.all fun x => [wT0 x.2.2, wT1 x.2.2].all fun t => match fabTarget t with | some (.exit n) => bit (dExitmask d) n.toNat | _ => true
  (rangeFrom 0 16).all (fun n => (es.filter fun m => m == n).length == b2n (bit (dEntrymask d) n)) && exitsOk &&
  rc == b2n (l.any fun x => needsRounds x.2.2)

/-- A failed check: element, slot word, reason, and the buffer. -/
abbrev RaiseFail := Nat × Nat × Nat × Nat
/-- Allocates the descriptors of a context slot in ascending order, each with what those before it have taken; the buffer of the first that
fails (R97, R279). A descriptor that does not name the buffer at whose place it stands fails with the buffer that it names: the spec states no
check for one that CFGW wrote at another WORD (DESIGN CHOICE, log entry 103). -/
def allocAll (el : Elem) (c : Nat) : Ctx → List (Nat × Option Word) → Except Nat Ctx
  | x, [] => .ok x
  | x, (n, d) :: l => match allocDesc { el with ctxs := tset Ctx.reset el.ctxs c x } x (d.getD 0) with
    | .ok m b => if m = n then allocAll el c { x with bufs := tset none x.bufs m (some b) } l else .error m
    | _ => .error (nfld (d.getD 0) 0 5)
/-- Buffers of the slot once its descriptors are allocated. -/
def State.raisedCtx (s : State) (e c : Nat) : Except Nat Ctx := allocAll (s.elem e) c { s.ctx e c with bufs := [] } (s.ctx e c).descs
/-- The first check of RAISE that fails (R252). -/
def State.raiseFails (s : State) (d : BitVec 512) (foot : List Nat) : Option RaiseFail :=
  let c := dCtx d
  match foot with
  | [] => some (dFx0 d + 48 * dFy0 d, 0x7F, 9, 0)
  | e0 :: _ =>
    match lfind (fun e => (s.ctx e c).active) foot with
    | some e => some (e, 0x7F, 9, 0)
    | none => match lfind (fun e => !s.partwOk e c (s.ctx e c).partwd) foot with
      | some e => some (e, 0x7F, 9, 0)
      | none =>
        let l := s.loadWords d foot
        match lfind (fun x => !s.wordOk d foot x.1 x.2.1 x.2.2) l with
        | some x => some (x.1, x.2.1, 9, 0)
        | none =>
          if !wholeOk d l then some (e0, 0x7F, 9, 0)
          else match lfind (fun e => match s.raisedCtx e c with | .error _ => true | .ok _ => false) foot with
            | some e => some (e, 0x7F, 10, match s.raisedCtx e c with | .error n => n | .ok _ => 0)
            | none => none
/-- The fault record and LOADREF event of a failed RAISE (R252). -/
def State.raiseRecord (s : State) (p : Nat) (d : BitVec 512) (r : RaiseFail) : State :=
  let info : FaultInfo := { faultInfo0 with code := cConfig, reason := r.2.2.1, slot := r.2.1, e := r.1, addr := r.2.2.2, tag := mkTag 0 (dCtx d) 0 0 0 }
  let rcd := mkRecord info p (dLoadid d)
  match s.writeRecord p rcd (loadrefEvent rcd) with
    | some s1 => s1
    | none => { s with fab := { s.fab with faults := s.fab.faults ++ [(⟨p, rcd, info.tag, none, true, true⟩ : PendFault)] } }

/-- The configuration digest of a load (R477). -/
def State.configDigest (s : State) (d : BitVec 512) (foot : List Nat) : BitVec 512 :=
  let one := fun e : Nat =>
    let x := s.ctx e (dCtx d)
    bvBytes x.partwd 8 ++ (x.descs.map fun b => bvBytes (b.2.getD 0) 8).flatten ++ (x.words.map fun w => bvBytes (w.2.getD 0) 16).flatten
  Config.sha512 (bvBytes d 64 ++ (foot.map one).flatten)
/-- Extends a measurement slot (R477). -/
def Mgmt.extend (m : Mgmt) (n : Nat) (x : BitVec 512) : Mgmt :=
  { m with slots := tset 0 m.slots n (Config.sha512 (bvBytes (tget 0 m.slots n) 64 ++ bvBytes x 64)) }

/-- A trap of a system instruction's memory access. -/
def State.sysFail (s : State) (t va : Nat) (x : Nat ⊕ Nat) : Res := match x with | .inl c => .next (s.trapAt t c va) | .inr a => .fault (.noMemory a)
/-- Takes the buffers of a load that is being raised, so that no other slot takes their lines while the wave travels (R97). -/
def State.reserveBufs (s : State) (c : Nat) (foot : List Nat) : State :=
  foot.foldl (fun (s : State) e => match s.raisedCtx e c with | .ok x => s.setCtx e c x | .error _ => s) s
/-- The digest that extends the measurement slot at a RAISE: with IMG the 64 bytes after the descriptor (R477). -/
def State.raiseDigest (s : State) (t va : Nat) (d : BitVec 512) (foot : List Nat) : Except (Nat ⊕ Nat) (BitVec 512) :=
  if dImg d then (match s.sysRead t (va + 64) 64 with | .ok bs => .ok (BitVec.ofNat 512 (ofBytes bs)) | .error x => .error x) else .ok (s.configDigest d foot)
/-- A RAISE whose descriptor at `va` has been read: it traps, waits, fails or sends the raise wave. -/
def State.raiseWith (s : State) (t p : Nat) (dest : Option Nat) (va : Nat) (d : BitVec 512) : Res :=
  let pd := (s.part p).desc
  let foot := s.footOf d
  if !descOk d then .next (s.trapIllegal t)
  else if !footIn pd d ∨ !bit (pCtxmask pd) (dCtx d) ∨ s.footBarred pd d foot then .next (s.trapProtection t)
  else if s.ctxBusy p (dCtx d) ∨ foot.any (fun e => s.elemBusy p e) then .next s
  else match s.raiseFails d foot with
    | some r => .next ((s.raiseRecord p d r).finishWord t dest 1)
    | none => match s.raiseDigest t va d foot with
      | .error x => s.sysFail t (va + 64) x
      | .ok h => .next ((s.reserveBufs (dCtx d) foot).startOp ⟨t, p, .raise d h, foot, 0, [], dest⟩)
/-- RAISE. -/
def execRaise (o : Ops) (s : State) : Res :=
  match s.focus with
  | .node _ => .next { s with focus := .thread 0 }
  | .thread t =>
    let va := (s.wv o o.a).toNat
    if !(s.thread t).super then .next (s.trapPrivilege t)
    else if va % 64 ≠ 0 then .next (s.trapIllegal t)
    else match s.sysRead t va 64 with
      | .error x => s.sysFail t va x
      | .ok bs => s.raiseWith t (s.partOfThread t) (stewDest o.t0) va (BitVec.ofNat 512 (ofBytes bs))

/-- Every footprint element has acknowledged: the load becomes active (R252). -/
def State.raiseDone (s : State) (q : SysOp) (d img : BitVec 512) (foot : List Nat) : State :=
  let c := dCtx d
  let up := fun (s : State) (e : Nat) =>
    let x := match s.raisedCtx e c with | .ok y => y | .error _ => s.ctx e c
    let s1 := s.setCtx e c { x with active := true, prio := dPrio d, accs := [] }
    s1.setElem e ((s1.elem e).poolWrite (2048 * (wFirst x.partwd + wRbk x.partwd)) (List.replicate (2048 * wAbk x.partwd) 0))
  let s1 := foot.foldl up s
  { s1 with fab := { s1.fab with loads := s1.fab.loads ++ [⟨q.part, d, foot, s1.fab.raises, true⟩], raises := s1.fab.raises + 1 },
            mgmt := s1.mgmt.extend (8 + q.part) img }

/-! ### DROP (R253) -/

/-- Parked tokens of a context slot that the basin engine has not yet written (R437); a reference to another element stays where it was parked
(log entry 90). -/
def Token.unwritten (t : Token) : Bool :=
  t.parked && match t.place with
    | .entry _ => true | .cand _ => true | .bundle _ => true | .spill => true | .exitq => true | .emitWait => true | .barHold => true
    | .entryq _ => true | .marked _ => true | .input _ => t.kind != .tile
    | _ => false
/-- An engine request has drained: completed, suspended or stopped (R236). -/
def Engine.drained (g : Engine) : Bool := !g.busy || (g.state == .finished && g.parked)
/-- DROP must wait: an engine request of the slot runs, or a parked token is not yet in its basin. -/
def State.dropWaits (s : State) (foot : List Nat) (c : Nat) (ids : List Word) : Bool :=
  (s.port.engines.any fun g => foot.contains g.e && nfld g.pkt 270 2 == c && !g.drained) ||
  (s.port.colls.any fun g => foot.contains g.e && g.ctx == c) || (s.port.linkOut.any fun x => x.counted && foot.contains x.e && x.ctx == c) ||
  s.fab.tokens.any fun t => t.unwritten && match t.elem with | some e => foot.contains e && tagCtx t.tag == c | none => t.isExit && ids.contains t.load
/-- Something of the loads lies unparked in the slot or the exit queues. -/
def State.dropRefused (s : State) (foot : List Nat) (c : Nat) (ids : List Word) : Bool :=
  let at_ := fun (e : Nat) (tag : Word) => foot.contains e && tagCtx tag == c
  (s.fab.tokens.any fun t => !t.parked && match t.elem with | some e => at_ e t.tag | none => t.isExit && ids.contains t.load) ||
  (s.fab.joins.any fun j => !j.parked && at_ j.e j.tag) || (s.fab.streams.any fun x => !x.parked && at_ x.e x.tag) ||
  (s.fab.units.any fun u => at_ u.e u.tag) || s.port.accesses.any fun a => at_ a.e a.tag
/-- A round or an engine request of a load is left (R236, R359). -/
def State.leftOf (s : State) (l : Load) : Bool :=
  let mine := fun (ctx : Nat) (load : Word) => ctx == dCtx l.desc && load == dLoadid l.desc
  (s.fab.rounds.any fun r => r.state != .committed && mine r.ctx r.load) || (s.port.engines.any fun g => mine (nfld g.pkt 270 2) g.load) ||
    (s.port.colls.any fun g => mine g.ctx g.load) || s.port.linkOut.any fun x => x.counted && mine x.ctx x.load
/-- What DROP does: the slot is emptied at the elements, and its loads are no longer active. -/
def State.dropDone (s : State) (foot : List Nat) (c : Nat) (ids : List Word) (mine : Load → Bool) : State :=
  let s1 := s.emptyCtxs c foot
  let keep := fun r : Round => !(ids.contains r.load && r.ctx == c && r.state == .committed)
  let gone := s.fab.loads.filter mine
  { s1 with fab := { s1.fab with
      loads := s1.fab.loads.filter (fun l => !mine l), rounds := s1.fab.rounds.filter keep, dropped := (s.fab.dropped ++ gone.map fun l => (l, s.passed l)).filter fun l => s.leftOf l.1,
      passages := s1.fab.passages.filter fun x => !gone.any fun l => l.order == x.2.1 } }
/-- DROP once its descriptor has been read. -/
def State.dropWith (s : State) (t p : Nat) (dest : Option Nat) (d : BitVec 512) : State :=
  let pd := (s.part p).desc
  let c := dCtx d
  let foot := s.footOf d
  let mine := fun l : Load => l.part == p && dCtx l.desc == c && l.foot.any fun e => foot.contains e
  let ids := (s.fab.loads.filter mine).map fun l => dLoadid l.desc
  if !descOk d then s.trapIllegal t
  else if !footIn pd d ∨ !bit (pCtxmask pd) c then s.trapProtection t
  else if s.ctxBusy p c ∨ foot.any (fun e => s.elemBusy p e) ∨ s.dropWaits foot c ids then s
  else if s.dropRefused foot c ids then s.finishWord t dest 1
  else (s.dropDone foot c ids mine).finishWord t dest 0
/-- DROP. -/
def execDrop (o : Ops) (s : State) : Res :=
  match s.focus with
  | .node _ => .next { s with focus := .thread 0 }
  | .thread t =>
    let va := (s.wv o o.a).toNat
    if !(s.thread t).super then .next (s.trapPrivilege t)
    else if va % 64 ≠ 0 then .next (s.trapIllegal t)
    else match s.sysRead t va 64 with
      | .error x => s.sysFail t va x
      | .ok bs => .next (s.dropWith t (s.partOfThread t) (stewDest o.t0) (BitVec.ofNat 512 (ofBytes bs)))

/-! ### Translations, generations and fault records (R254, R255, R263) -/

/-- TLBI (R254). -/
def execTlbi (o : Ops) (s : State) : Res := s.sys fun t p =>
  let a := s.wv o o.a; let b := s.wv o o.b
  let k := nfld o.imm 0 2
  if nfld a 16 48 ≠ 0 ∨ (k = 1 ∧ b ≠ 0) ∨ (k = 2 ∧ (a ≠ 0 ∨ b ≠ 0)) then s.trapIllegal t
  else if k ≠ 2 ∧ !asidIn (s.part p).desc a.toNat then s.trapProtection t
  else (s.setThread t { s.thread t with stall := .system }).shoot (some t) p k a.toNat b.toNat

/-- A token, node-state entry, firing or request of a colour and load carries a generation. -/
def State.carries (s : State) (c : Nat) (l : Load) (g : Nat) : Bool :=
  let id := dLoadid l.desc
  let hit := fun tag : Word => tagCol tag == c && tagGen tag == g
  let mine := fun (e : Nat) (tag : Word) => hit tag && s.loadidAt e (tagCtx tag) == id
  (s.fab.tokens.any fun t => hit t.tag && t.load == id) || (s.fab.joins.any fun j => hit j.tag && j.load == id) ||
  (s.fab.streams.any fun x => hit x.tag && x.load == id) || (s.fab.units.any fun u => mine u.e u.tag && decide (0 < outCount u.outs)) ||
  (s.port.accesses.any fun a => hit a.tag && a.load == id) || (s.port.engines.any fun q => hit q.tag && q.load == id) ||
  (s.port.colls.any fun q => hit q.tag && q.load == id) || (s.port.linkOut.any fun x => x.counted && hit x.tag && x.load == id) ||
  s.port.walks.any fun w => match w.who with | .xlat outs => outs.any fun x => mine w.e x.tag | .access _ => false
/-- GENRET (R255); with no active load in the slot the spec gives no value, and the free value stands for it. -/
def execGenret (o : Ops) (s : State) : Res := s.sys fun t p =>
  let w := s.wv o o.a; let x := s.wv o o.b
  let c := cwCol w
  if nfld w 12 52 ≠ 0 ∨ nfld x 2 62 ≠ 0 then s.trapIllegal t
  else if !bit (pCtxmask (s.part p).desc) (nfld x 0 2) then s.trapProtection t
  else s.onCol t p c (if s.ctxBusy p (nfld x 0 2) then s else match s.loadIn p (nfld x 0 2) fun _ => true with
    | none => s.free.2.finishWord t (stewDest o.t0) s.free.1
    | some l =>
      let y := s.colLoad c (dLoadid l.desc)
      if s.carries c l (y.egen + 1).toNat then s.finishWord t (stewDest o.t0) ones64
      else (s.setColLoad { y with egen := y.egen + 1 }).finishWord t (stewDest o.t0) ((y.egen + 1).zeroExtend 64))

/-- Releases a record of the ring (R262, R263). -/
def Part.release (x : Part) (i : Nat) : Part := { x with ring := tset none x.ring i none, order := x.order.filter fun j => j != i }
/-- FLTRD (R263). -/
def execFltrd (o : Ops) (s : State) : Res := s.sys fun t p =>
  let i := (s.wv o o.a).toNat; let j := (s.wv o o.b).toNat
  let x := s.part p
  let v := match tget none x.ring i with | some r => dword r j | none => ones64
  let s1 := if bit o.imm 0 then s.setPart p (x.release i) else s
  if 64 ≤ i ∨ 8 ≤ j then s.trapIllegal t else s1.finishWord t (stewDest o.t0) v

/-! ### Messages on the towpath (R239, R242) -/

/-- Replaces the k-th operation. -/
def State.putOp (s : State) (k : Nat) (q : SysOp) : State := { s with fab := { s.fab with sysops := setNth s.fab.sysops k q } }
/-- A message reaches an element. -/
def State.towArrive (s : State) (k : Nat) (q : SysOp) (e : Nat) : State :=
  let q1 := { q with todo := q.todo.filter fun f => f != e }
  match q.kind with
  | .purge _ c _ _ _ =>
    let r := s.purgeAt q.kind c e
    s.guarded (s.fab.tokens.filter fun t => t.elem == some e && q.kind.covers t.tag) (r.1.putOp k { q1 with count := q.count + r.2.1, hits := q.hits ++ r.2.2 })
  | .prio c n => (s.setPrio e c n).putOp k q1
  | _ => s.putOp k q1
/-- The tag of a fault record. -/
def rcdTag (r : BitVec 512) : Word := mkTag (nfld r 244 12) (nfld r 242 2) (nfld r 238 4) (nfld r 256 16) (nfld r 296 24)
/-- Releases the fault records of suspended copies that a PURGE ends (R242). -/
def State.releaseCopies (s : State) (p : Nat) (k : SysKind) : State :=
  let hit := fun r : BitVec 512 => bit r 181 && k.covers (rcdTag r)
  let x := s.part p
  let gone := x.order.filter fun i => match tget none x.ring i with | some r => hit r | none => false
  let s1 := s.setPart p (gone.foldl (fun x i => x.release i) x)
  { s1 with fab := { s1.fab with faults := s1.fab.faults.filter fun f => !(f.part == p && hit f.rcd) } }
/-- A PURGE waits for the copies and collectives that covered tokens have sent and that have begun, or whose round lets them begin, to complete
or suspend (R242); it ends Weir requests itself (R373), and what waits in a link queue. -/
def State.purgeHeld (s : State) (k : SysKind) : Bool :=
  (s.port.engines.any fun g => k.covers g.tag && g.busy && g.opc == 0xD0 && (g.base.isSome || s.iterOpen (tagCol g.tag) g.load (tagIter g.tag))) ||
  s.port.colls.any fun g => k.covers g.tag && s.iterOpen (tagCol g.tag) g.load (tagIter g.tag)
/-- Every element has acknowledged: the operation ends when nothing else holds it, and the thread goes on. -/
def State.sysFinish (s : State) (k : Nat) (q : SysOp) : State :=
  let off := fun s : State => ({ s with fab := { s.fab with sysops := dropNth s.fab.sysops k } } : State)
  match q.kind with
  | .purge _ c _ _ _ =>
    if s.purgeHeld q.kind then s
    else
      let r := s.purgeRest q.kind c q.hits
      let n := q.count + r.2
      s.guarded (s.fab.tokens.filter fun t => q.kind.covers t.tag)
        ((((off r.1).releaseCopies q.part q.kind).releaseRows q.part fun tag _ => q.kind.covers tag).sysDone q.thread q.dest (BitVec.ofNat 64 (if n < 2 ^ 32 then n else 2 ^ 32 - 1)))
  | .park c lo hi => let r := s.parkColour q.part c lo hi; s.guarded (s.parkMoves c lo hi) ((off r.1).sysDone q.thread q.dest (BitVec.ofNat 64 r.2))
  | .prio _ _ => (off s).sysDone q.thread none 0
  | .raise d img => ((off s).raiseDone q d img (s.footOf d)).sysDone q.thread q.dest 0
/-- TOWPATH_MESSAGE_ARRIVAL (R242): the message of the k-th operation reaches an element; after the last the operation completes. -/
def execTowpathMessageArrival (k e : Nat) (s : State) : Res :=
  .next (match nth? s.fab.sysops k with
    | none => s
    | some q =>
      let s1 := if q.todo.contains e then s.towArrive k q e else s
      match nth? s1.fab.sysops k with
      | some q1 => if q1.todo.isEmpty && q1.thread == q.thread && q1.kind == q.kind then s1.sysFinish k q1 else s1
      | none => s1)

/-- PARKED_TOKEN_WRITEBACK (R437): the basin engine writes the k-th token, marked parked, into its colour's basin, or sets P where it lies there
(R300). -/
def execParkedTokenWriteback (k : Nat) (s : State) : Res :=
  .next (match nth? s.fab.tokens k with
    | none => s
    | some t => match t.place with
      | .marked i =>
        if !t.parked then s
        else match (s.moveToken t (.basin i)).basinStore (tagCol t.tag) i t.basinEntry with
          | .ok s1 => s1
          | .error x => s.failBasin (tagCol t.tag) x
      | _ => if t.unwritten then s.toBasin t else s)

/-- TRAP (R259): both modes may run it. -/
def execTrap (o : Ops) (s : State) : Res := s.onThread fun t th => s.takeTrap t cTrap 0 o.imm.toNat (th.pc + 1)
/-- RETT (R259). -/
def execRett (_ : Ops) (s : State) : Res := s.sys fun t _ => s.returnTrap t

end Sys2Proof.Machine
end

