-- ==== Sys2Proof/Machine/Image.lean ====
section
/-! DEFINITION. Records of a machine's state in memory: the eviction record (17 R440), the sections of the state image (19 R466 to R470)
and the image with its header (R467), and the reading and writing of virtual memory by the partition. -/

namespace Sys2Proof.Machine

/-! ### Virtual memory of a partition -/

/-- Lists of 64 bytes; `fuel` is at least the length. -/
def chunk64 : Nat → List Byte → List (List Byte)
  | 0, _ => []
  | n + 1, l => if l.isEmpty then [] else l.take 64 :: chunk64 n (l.drop 64)
/-- Physical address and key slot of an address of an ASID, if it is present and not covered. -/
def State.virtPhys (s : State) (p asid va : Nat) (write : Bool) : Option (Nat × Nat) :=
  if windowOf va ≠ .none then none else match s.walkPlain asid va write with
  | .ok x => if x.cv then none else some (x.phys va, s.keyFor p x va (s.stewKey p asid))
  | _ => none
/-- Writes lines from a multiple of 64 upward; a line that does not translate is not written. -/
def State.virtWrite (s : State) (p asid va : Nat) : List (List Byte) → State
  | [] => s
  | l :: ls =>
    let s1 := match s.virtPhys p asid va true with
      | some (pa, key) => s.setMem ((s.mem.write key pa l).clearSb pa l.length)
      | none => s
    s1.virtWrite p asid (va + 64) ls
/-- Reads lines from a multiple of 64 upward; a line that does not translate reads as zeros. -/
def State.virtRead (s : State) (p asid va : Nat) : Nat → List Byte
  | 0 => []
  | n + 1 => (match s.virtPhys p asid va false with
      | some (pa, key) => s.mem.read key pa 64
      | none => List.replicate 64 0) ++ s.virtRead p asid (va + 64) n

/-- Bytes with zero bytes up to a multiple of 8. -/
def pad8 (l : List Byte) : List Byte := l ++ List.replicate ((8 - l.length % 8) % 8) 0
/-- Bytes with their CRC-32C and padding (R96, R468). -/
def withCrc (l : List Byte) : List Byte := pad8 (l ++ bvBytes (crc32c l) 4)

/-! ### The eviction record (R440) -/

/-- The first slot word of a context slot, and one past the last. -/
def wordSpan (x : Ctx) : Nat × Nat := (match x.words with | [] => 0 | w :: _ => w.1, match x.words.getLast? with | some w => w.1 + 1 | none => 1)
/-- The record of an element (Table 17.2). -/
def State.elemRecord (s : State) (e c : Nat) : List Byte :=
  let x := s.ctx e c
  let sp := wordSpan x
  let nreg := 256 * wRbk x.partwd
  let head : BitVec 128 := pack 128 [(64, 64, x.partwd.toNat), (40, 11, nreg), (32, 8, x.descs.length), (24, 8, sp.2 - sp.1), (16, 8, sp.1), (8, 8, e / 48), (0, 8, e % 48)]
  withCrc (bvBytes head 16 ++ (x.descs.map fun d => bvBytes (d.2.getD 0) 8).flatten ++
    ((rangeFrom sp.1 (sp.2 - sp.1)).map fun n => bvBytes (x.read n) 16).flatten ++ mgetN (s.elem e).pool (regByte x.partwd 0) (8 * nreg))
/-- The eviction record of a load. -/
def State.evictRecord (s : State) (l : Load) : List Byte := bvBytes l.desc 64 ++ (l.foot.map fun e => s.elemRecord e (dCtx l.desc)).flatten

/-! ### Sections (R466 to R470) -/

/-- A section: head, body, CRC and padding (R468). -/
def sectionOf (id count : Nat) (body : List Byte) : List Byte :=
  withCrc (bvBytes (pack 128 [(0, 8, id), (32, 32, count), (64, 64, body.length)] : BitVec 128) 16 ++ body)
/-- Loads of a partition. -/
def State.loadsOf (s : State) (p : Nat) : List Load := s.fab.loads.filter fun l => l.part == p
/-- Tokens that a JOINN count is written as: one for each token counted (R120). -/
def joinTokens (j : Join) : List Token :=
  (rangeFrom 0 j.count).map fun i => ⟨j.tag, if i = 0 then j.sb else 0, .scalar, if i = 0 then j.sum else 0, none, .node j.e j.slot 0, .cand 0, true, 0, j.load, j.hist⟩
/-- A colour's entry in an image: credit that elements hold is returned, a JOINN count stands as its tokens, and an engine request as one. -/
def State.imageColour (s : State) (c : Nat) : BitVec 512 :=
  let x := s.colour c
  let more := (s.fab.joins.filter fun j => tagCol j.tag == c).foldl (fun n j => n + (j.count - 1)) 0
  let ops := (s.port.engines.filter fun g => g.col == c).foldl (fun n g => n + (g.held - 1)) 0
  Colour.entry { x with inflt := x.inflt - s.creditOut c - ops + more }

/-- A node record (Table 19.7). -/
def nodeRecord (e slot nk : Nat) (sb : BitVec 8) (a b c gen key : Nat) : List Byte :=
  bvBytes (pack 128 [(122, 6, e % 48), (116, 6, e / 48), (109, 7, slot), (108, 1, nk), (100, 8, sb.toNat), (72, 24, a), (48, 24, b), (24, 24, c), (20, 4, gen), (4, 16, key)] : BitVec 128) 16
/-- The Rounds record of a colour and load (R470). -/
def State.roundsRecord (s : State) (l : Load) (x : ColLoad) : List Byte :=
  let rs := s.openRounds x.col x.load
  let old := lfind (fun r => rs.all fun q => decide (age r.rbase q.rbase < 8388608)) rs
  let young := match old with | some r => lfind (fun q => q != r) rs | none => none
  let ns := ((s.fab.streams.filter fun y => tagCol y.tag == x.col && y.load == x.load).map fun y => nodeRecord y.e y.slot 0 y.sb (tagIter y.tag) y.n y.k (tagGen y.tag) (tagKey y.tag)) ++
    (((s.loadWords l.desc l.foot).filter fun y => wOpc y.2.2 == 0x0F && x.first.isSome).map fun y =>
      nodeRecord y.1 y.2.1 1 0 (s.barNext y.1 y.2.1 x.col x.load) 0 0 0 0)
  let rb := fun r : Option Round => (r.map fun q => q.rbase).getD 0
  let nr := fun r : Option Round => (r.map fun q => q.nr).getD 0
  let vd := fun r : Option Round => b2n ((r.map fun q => q.voided).getD false)
  bvBytes (pack 256 [(192, 64, x.load.toNat), (180, 12, x.col), (178, 2, dCtx l.desc), (174, 4, x.egen.toNat), (150, 24, x.first.getD 0), (148, 2, rs.length),
    (124, 24, rb old), (111, 13, nr old), (110, 1, vd old), (86, 24, rb young), (73, 13, nr young), (72, 1, vd young), (56, 16, ns.length)] : BitVec 256) 32 ++ ns.flatten

/-- A pool slot record (R469). -/
def State.slotRecord (s : State) (e c b i : Nat) (q : Slot) : List Byte :=
  let now := (s.elem e).retcnt
  let exp := q.exp || q.runOut (s.copying e c b i) now
  let lines := if exp then 0 else q.lines
  let at_ := match s.buf e c b with | some x => x.slotByte i | none => 0
  bvBytes (pack 128 [(64, 16, lines), (55, 9, if q.kept && !exp then Nat.max 1 (q.remain now) else q.remain now), (50, 1, b2n q.hv), (49, 1, b2n exp), (48, 1, b2n q.kept), (47, 1, b2n q.full), (43, 4, i), (38, 5, b), (36, 2, c),
    (8, 8, e / 48), (0, 8, e % 48)] : BitVec 128) 16 ++ bvBytes (hdrAddr q.hdr 0 0 0 0) 32 ++ bvBytes q.scale 128 ++ mgetN (s.elem e).pool at_ (64 * lines)
/-- An accumulator record (R470). -/
def State.accRecord (s : State) (e c n : Nat) (a : Acc) : List Byte :=
  let w := (s.ctx e c).partwd
  let tag := (a.owner.map tagClean).getD 0
  let sh := a.shape.getD (0, 0)
  bvBytes (pack 256 [(250, 6, e % 48), (244, 6, e / 48), (242, 2, c), (238, 4, n), (237, 1, b2n a.owner.isSome), (221, 16, a.kc), (220, 1, b2n a.shape.isSome),
    (215, 5, sh.1 - 1), (210, 5, sh.2 - 1), (208, 2, match a.mode with | .unset => 0 | .float => 1 | .integer => 2), (207, 1, b2n (0 < a.gleft)), (205, 2, a.gleft),
    (189, 16, a.idx.1), (173, 16, a.idx.2), (165, 8, a.asb.toNat), (80, 1, 1), (0, 64, tag.toNat)] : BitVec 256) 32 ++
  mgetN (s.elem e).pool (accByte w n) 4096 ++
  (if 0 < a.gleft then ((rangeFrom 0 1024).map fun i => toBytes (wrapInt 32 (nth 0 a.partials i)) 4).flatten ++ bvBytes a.ascale 128 ++ bvBytes a.bscale 128 else [])
/-- Pool records of an element and context slot. -/
def State.poolRecords (s : State) (e c : Nat) : List (List Byte) :=
  (((s.elem e).slots.filter fun x => x.1 == c && x.2.2.2.data).map fun x => s.slotRecord e c x.2.1 x.2.2.1 x.2.2.2) ++
  (((s.ctx e c).accs.filter fun a => a.2.owner.isSome).map fun a => s.accRecord e c a.1 a.2)

/-- Parked tokens of a colour, those in its basin first and in its order. -/
def State.imageTokens (s : State) (c : Nat) : List Token :=
  let mine := s.fab.tokens.filter fun t => t.parked && tagCol t.tag == c
  let pos := fun t : Token => t.place.basinAt
  let last := mine.foldl (fun n t => match pos t with | some i => Nat.max n (i + 1) | none => n) 0
  ((rangeFrom 0 last).filterMap fun i => lfind (fun t => pos t == some i) mine) ++ mine.filter (fun t => (pos t).isNone) ++
    ((s.fab.joins.filter fun j => tagCol j.tag == c).map joinTokens).flatten
/-- An engine record (Table 19.4). -/
def engineRecord (g : Engine) : List Byte :=
  bvBytes (BitVec.ofNat 64 g.port) 8 ++ bvBytes (setFld g.pkt 320 32 g.cursor) 48 ++
  ((rangeFrom 0 g.keeps).map fun i => bvBytes (nth (ones64, 0) g.copy i).1 8).flatten
/-- A replay record: LOADID, line address, mask, RBASE, COL, PNUM and side-band, then the line's data (log entry 26). -/
def State.replayRecord (s : State) (st : Store) : List Byte :=
  let va := match st.started with | some x => (s.region x.1).vbase + st.va | none => st.va
  let o := va % 64
  let n := if st.null then 0 else st.data.length
  bvBytes (pack 256 [(0, 64, st.load.toNat), (64, 64, va - o), (128, 64, (2 ^ n - 1) * 2 ^ o), (192, 24, st.rbase), (216, 12, st.col), (228, 7, st.port), (235, 8, st.sb.toNat)] : BitVec 256) 32 ++
  ((List.replicate o 0 ++ st.data).take 64 ++ List.replicate (64 - (o + st.data.length)) 0)

/-- A region entry (Table 14.1). -/
def Region.entry (g : Region) : BitVec 256 :=
  pack 256 [(240, 16, g.s3), (224, 16, g.s2), (208, 16, g.s1), (192, 16, g.s0), (190, 2, g.ecur), (188, 2, g.eold), (128, 8, g.keyslot), (65, 41, g.vbase / 65536),
    (43, 22, g.npage - 1), (39, 4, g.part), (23, 16, g.asid), (2, 21, g.views), (1, 1, b2n g.dying), (0, 1, b2n g.v)]
/-- A view entry (Table 14.2). -/
def View.entry (v : View) : BitVec 128 := pack 128 [(96, 32, v.hi), (64, 32, v.lo), (48, 16, v.region), (36, 12, v.gen), (0, 1, b2n v.v)]
/-- A page record (Table 14.3). -/
def PageRec.entry (x : PageRec) : BitVec 32 := pack 32 [(16, 16, x.count), (2, 2, x.epoch), (1, 1, b2n x.pend), (0, 1, b2n x.alloc)]
/-- Regions of a partition. -/
def State.regionsOf (s : State) (p : Nat) : List (Nat × Region) := s.cov.regions.filter fun r => r.2.v && r.2.part == p
/-- One past the highest view index of a die that a partition uses; entries up to it are written, those of others as zero. -/
def State.viewRun (s : State) (p d : Nat) : Nat :=
  s.cov.views.foldl (fun n v => if v.1 / 2 ^ 20 == d && (s.region v.2.region).part == p && v.2.v then Nat.max n (v.1 % 2 ^ 20 + 1) else n) 0
/-- The body of the Covered section. -/
def State.coveredBody (s : State) (p : Nat) : List Byte :=
  let rs := s.regionsOf p
  let mine := fun v : View => if v.v && (s.region v.region).part == p then v else View.reset
  let views := fun d : Nat => bvBytes (BitVec.ofNat 64 (s.viewRun p d)) 8 ++ ((rangeFrom 0 (s.viewRun p d)).map fun i => bvBytes (mine (s.view (2 ^ 20 * d + i))).entry 16).flatten
  let pages := fun r : Nat × Region => ((rangeFrom 0 r.2.npage).map fun i => bvBytes (s.page r.1 i).entry 4).flatten
  let data := fun r : Nat × Region => ((rangeFrom 0 r.2.npage).map fun i => if (s.page r.1 i).alloc then s.mem.read r.2.keyslot (s.page r.1 i).frame 65536 else []).flatten
  (rs.map fun r => bvBytes (BitVec.ofNat 64 r.1) 8 ++ bvBytes r.2.entry 32).flatten ++ ((rangeFrom 0 4).map views).flatten ++ (rs.map pages).flatten ++ (rs.map data).flatten

/-- An engine request belongs to a partition. -/
def State.engineOf (s : State) (p : Nat) (g : Engine) : Bool := s.partOfElem g.e == some p
/-- Sections 1 to 11 of a partition's image. -/
def State.sections (s : State) (p : Nat) : List (List Byte) :=
  let x := s.part p
  let cs := partCols x.desc
  let ls := s.loadsOf p
  let prio := fun l : Load => match l.foot with | e :: _ => (s.ctx e (dCtx l.desc)).prio | [] => 0
  let rr := (ls.map fun l => (s.fab.colLoads.filter fun y => y.load == dLoadid l.desc && colIn x.desc y.col).map fun y => s.roundsRecord l y).flatten
  let pool := (ls.map fun l => (l.foot.map fun e => s.poolRecords e (dCtx l.desc)).flatten).flatten
  let toks := (cs.map s.imageTokens).flatten
  let eng := s.port.engines.filter fun g => s.engineOf p g && !g.refused
  let rep := s.port.stores.filter fun st => st.replay && s.partOfElem st.e == some p
  [sectionOf 1 1 (bvBytes (setFld x.desc 155 32 x.frames.length) 64),
   sectionOf 2 cs.length (cs.map fun c => bvBytes (s.imageColour c) 64).flatten,
   sectionOf 3 1 ((rangeFrom 0 1024).map fun i => bvBytes (tget 0 x.bind i) 8).flatten,
   sectionOf 4 ls.length (ls.map fun l => bvBytes (pack 64 [(0, 2, dCtx l.desc), (4, 4, prio l)] : Word) 8 ++ s.evictRecord l).flatten,
   sectionOf 5 rr.length rr.flatten,
   sectionOf 6 pool.length pool.flatten,
   sectionOf 7 toks.length (toks.map fun t => bvBytes t.basinEntry 32).flatten,
   sectionOf 8 eng.length (eng.map engineRecord).flatten,
   sectionOf 9 rep.length (rep.map s.replayRecord).flatten,
   sectionOf 10 (s.regionsOf p).length (s.coveredBody p),
   sectionOf 11 (x.events ++ x.held).length (((x.events ++ x.held).map fun ev => bvBytes ev 32).flatten ++ (x.order.map fun i => bvBytes ((tget none x.ring i).getD 0) 64).flatten)]

/-- The header of an image (Table 19.3) with a digest and a signature. -/
def imageHeader (qseq tot part : Nat) (digest : BitVec 512) (sig : BitVec 1056) : BitVec 2048 :=
  pack 2048 [(992, 1056, sig.toNat), (480, 512, digest.toNat), (192, 64, qseq), (128, 64, tot), (96, 32, Config.devId.toNat), (80, 1, 1), (76, 4, part), (64, 8, 12), (48, 16, 256),
    (32, 16, 2), (0, 32, 0x4E4D4E47)]
/-- The state image of a partition (R467). -/
def State.imageOf (s : State) (p : Nat) : List Byte :=
  let x := s.part p
  let secs := (s.sections p).flatten
  let sealedLen := 16 + 60 + 4
  let tot := 256 + secs.length + sealedLen
  let h0 := bvBytes (imageHeader x.qseq tot p 0 0) 256
  let key : BitVec 8 := BitVec.ofNat 8 (pKey0 x.desc)
  let body := secs ++ sectionOf 12 1 ((Config.sealSection x.viewKey key (h0.take 60)).take 60)
  let digest := Config.sha512 (h0 ++ body)
  let h1 := bvBytes (imageHeader x.qseq tot p digest 0) 256
  bvBytes (imageHeader x.qseq tot p digest (Config.attestSign (h1.take 124))) 256 ++ body

/-- A pending access of a partition goes back to its operand tokens, parked. -/
def State.recallAccess (s : State) (a : Access) : State :=
  let toks := recalled a.ops
  let s1 := (s.dropAccess a.id).endStarted a.started
  if a.ops.isEmpty then s1.countAccess a
  else (s1.inflDown (tagCol a.tag) (a.outs - toks.length)).setTokens (s1.fab.tokens ++ toks)
/-- What a PARK of every colour of a partition marks. -/
def State.cutMoves (s : State) (p : Nat) : List Token := ((partCols (s.part p).desc).map fun c => s.parkMoves c 0 0xFFFFFF).flatten
/-- The PARK of a cut: every colour of the range (R464); accesses that wait in voided rounds are parked with them. -/
def State.parkCut (s : State) (p : Nat) : State :=
  let mine := s.port.accesses.filter fun a => s.partOfElem a.e == some p
  let s1 := mine.foldl (fun (s : State) a => s.recallAccess a) s
  (partCols (s.part p).desc).foldl (fun (s : State) c => (s.parkColour p c 0 0xFFFFFF).1) s1
/-- QSIZE (Table 7.7): bytes of the image were the cut taken now (log entry 10). -/
def State.qsize (s : State) (p : Nat) : Nat := ((s.parkCut p).imageOf p).length

end Sys2Proof.Machine
end

