-- ==== Sys2Proof/Machine/Quiesce.lean ====
section
/-! DEFINITION. The cut of a partition and its restore (07 R256, R257, 19 R464 to R474), and the control registers (07 R261). -/

namespace Sys2Proof.Machine

/-! ### The cut (R464) -/

/-- QUIESCE (R256). -/
def execQuiesce (o : Ops) (s : State) : Res := s.sys fun t p =>
  let va := (s.wv o o.a).toNat; let len := (s.wv o o.b).toNat
  let x := s.part p
  if va % 64 ≠ 0 then s.trapIllegal t
  else if x.cut ≠ .idle then s.finishWord t (stewDest o.t0) 2
  else if len < s.qsize p then s.finishWord t (stewDest o.t0) 1
  else (s.setPart p { x with cut := .draining, qseq := x.qseq + 1, qarea := (va, len, (s.thread t).asid.toNat), qstart := s.cycle }).finishWord t (stewDest o.t0) 0

/-- CUT_DRAIN_TIMEOUT (R464): the drain bound of the k-th round has passed, and it is voided with the younger ones, without a record. -/
def execCutDrainTimeout (p k : Nat) (s : State) : Res :=
  .next (match nth? s.fab.rounds k with
    | none => s
    | some r =>
      let l := s.loadById p r.load
      let bound := s.window r.col l * (match l with | some x => dDepth x.desc | none => 0)
      let open_ := r.state != .committed && r.state != .phase1 && !r.voided
      if (s.part p).cut = .draining ∧ colIn (s.part p).desc r.col ∧ open_ ∧ bound ≤ s.cycle - (s.part p).qstart then s.voidRounds p r.col r.load r.rbase else s)

/-- CUT_ENGINE_STOP (R464): the k-th engine request stops at its next chunk; a b2m copy that stops is no longer in progress (R433, R466). -/
def execCutEngineStop (k : Nat) (s : State) : Res :=
  .next (match nth? s.port.engines k with
    | none => s
    | some g => match s.partOfElem g.e with
      | none => s
      | some p =>
        let runs := (g.state = .sent ∨ g.state = .waiting ∨ g.state = .running) ∧ (0 < g.keeps ∨ g.pairs.isEmpty)
        if (s.part p).cut = .draining ∧ runs then
          ({ s with port := { s.port with engines := setNth s.port.engines k { g with state := .stopped } } } : State).copyStops g
        else s)

/-- The rounds of a partition have committed or are voided, and its engine requests have completed or stopped. -/
def State.cutDrained (s : State) (p : Nat) : Bool :=
  let d := (s.part p).desc
  (s.fab.rounds.all fun r => !colIn d r.col || r.voided || r.state == .committed) && (s.port.engines.all fun g => !s.engineOf p g || g.drained) &&
  s.port.colls.all (fun g => g.part != p) && s.port.linkOut.all fun x => x.part != p || !x.counted
/-- Nothing of the partition's colours moves any more: every token is parked and in its basin, or holds its place (R437). -/
def State.cutWritten (s : State) (p : Nat) : Bool :=
  let d := (s.part p).desc
  let still := fun t : Token => t.parked && !t.unwritten && !t.place.onWay
  (s.fab.tokens.all fun t => !colIn d (tagCol t.tag) || still t) && (s.fab.units.all fun u => !colIn d (tagCol u.tag)) &&
  s.fab.faults.all fun f => f.part != p || f.done
/-- STATE_IMAGE_WRITE (R464, R467): once the cut has drained its colours are parked; once their tokens are in their basins the image is
written and QDONE is sent. -/
def execStateImageWrite (p : Nat) (s : State) : Res :=
  let x := s.part p
  .next (match x.cut with
    | .draining => if s.cutDrained p then let s1 := s.parkCut p; s.guarded (s.cutMoves p) (s1.setPart p { s1.part p with cut := .parked }) else s
    | .parked =>
      if s.cutWritten p then
        let img := s.imageOf p
        let s1 := s.virtWrite p x.qarea.2.2 x.qarea.1 (chunk64 img.length img)
        (s1.setPart p { s1.part p with cut := .quiesced }).sendEvent p (mkEvent 6 0 0 0 0 0 0 img.length 0 0)
      else s
    | _ => s)

/-! ### Reading an image (R468 to R472) -/

/-- A part of a list of bytes, and its number. -/
def btake (l : List Byte) (off n : Nat) : List Byte := (l.drop off).take n
def bnat (l : List Byte) (off n : Nat) : Nat := ofBytes (btake l off n)
/-- Length up to a multiple of 8. -/
def up8 (n : Nat) : Nat := 8 * ceilDiv n 8
/-- The sections of an image in the order given: COUNT and body of each; none where one is out of order or its CRC fails. -/
def parseSections : List Nat → List Byte → Option (List (Nat × Nat × List Byte))
  | [], _ => some []
  | id :: ids, l =>
    let len := bnat l 8 8
    if bnat l 0 4 ≠ id ∨ l.length < 16 + len + 4 ∨ bnat l (16 + len) 4 ≠ (crc32c (l.take (16 + len))).toNat then none
    else (parseSections ids (l.drop (up8 (16 + len + 4)))).map fun r => (id, bnat l 4 4, btake l 16 len) :: r
/-- Body and COUNT of a section; an absent one is empty. -/
def secBody (ss : List (Nat × Nat × List Byte)) (id : Nat) : List Byte := match lfind (fun x => x.1 == id) ss with | some x => x.2.2 | none => []
def secCount (ss : List (Nat × Nat × List Byte)) (id : Nat) : Nat := match lfind (fun x => x.1 == id) ss with | some x => x.2.1 | none => 0

/-- An element record that was read: element, context slot contents and registers. -/
abbrev ElemRec := Nat × Ctx × List Byte
/-- Descriptors by their buffer number, from those read before; a second one of a buffer takes a free place, where RAISE refuses it (R97). -/
def readDescs (l : List Byte) (t : Tbl (Option Word)) : Nat → Tbl (Option Word)
  | 0 => t
  | n + 1 =>
    let d : Word := BitVec.ofNat 64 (bnat l 0 8)
    let k := if (tget none t (nfld d 0 5)).isNone then nfld d 0 5 else (firstKey (fun i => (tget none t i).isNone) 0 32).getD 0
    readDescs (l.drop 8) (tset none t k (some d)) n
/-- Slot words from an index on; in a record that CFGRD has filled a word of zeros is an empty position (R251). -/
def readWords (holes : Bool) (l : List Byte) : Nat → Nat → Tbl (Option SlotWord)
  | _, 0 => []
  | i, n + 1 =>
    let w : SlotWord := BitVec.ofNat 128 (bnat l 0 16)
    tset none (readWords holes (l.drop 16) (i + 1) n) i (if holes && w == 0 then none else some w)
/-- Element records of a load, in ascending order, while their heads and CRCs hold (R96, R440). -/
def parseElems (holes : Bool) (d : BitVec 512) : Nat → Nat → List Byte → List ElemRec × List Byte
  | 0, _, l => ([], l)
  | n + 1, lo, l =>
    let x := bnat l 0 1; let y := bnat l 1 1; let e := 48 * y + x
    let first := bnat l 2 1; let nw := bnat l 3 1; let nbuf := bnat l 4 1; let nreg := bnat l 5 2 % 2048
    let len := 16 + 8 * nbuf + 16 * nw + 8 * nreg
    if l.length < len + 4 ∨ e < lo ∨ 48 ≤ x ∨ !inFoot d e ∨ bnat l len 4 ≠ (crc32c (l.take len)).toNat then ([], l)
    else
      let c : Ctx := { Ctx.reset with
        partwd := BitVec.ofNat 64 (bnat l 8 8), touched := true, descs := readDescs (l.drop 16) [] nbuf, words := readWords holes (l.drop (16 + 8 * nbuf)) first nw }
      let r := parseElems holes d n (e + 1) (l.drop (up8 (len + 4)))
      ((e, c, btake l (16 + 8 * nbuf + 16 * nw) (8 * nreg)) :: r.1, r.2)
/-- A load that was read: its priority, context slot, descriptor and element records. -/
abbrev LoadRec := Nat × Nat × BitVec 512 × List ElemRec
/-- The raise descriptor under which a load is restored into a context slot: PRIO 0, and no image digest follows it (R441, R473, R477). -/
def restoredDesc (d : BitVec 512) (c : Nat) : BitVec 512 := setFld (setFld (setFld d 234 2 c) 198 4 0) 197 1 0
/-- The records of the Loads section. -/
def parseLoads : Nat → List Byte → List LoadRec
  | 0, _ => []
  | n + 1, l =>
    let w : Word := BitVec.ofNat 64 (bnat l 0 8)
    let d := restoredDesc (BitVec.ofNat 512 (bnat l 8 64)) (nfld w 0 2)
    let r := parseElems true d 2304 0 (l.drop 72)
    (nfld w 4 4, nfld w 0 2, d, r.1) :: parseLoads n r.2

/-- The Covered section read: regions, views by key, page records by key and the bytes of each allocated page. -/
structure CovRec where
  regions : List (Nat × Region)
  views : List (Nat × View)
  pages : List (Nat × Nat × PageRec)
  data : List Byte

/-- A region entry read back; counts of started accesses are those of the target, none. -/
def regionOfEntry (w : BitVec 256) (part : Nat) : Region :=
  ⟨true, bit w 1, nfld w 2 21, nfld w 23 16, part, nfld w 43 22 + 1, 65536 * nfld w 65 41, nfld w 128 8, nfld w 188 2, nfld w 190 2, 0, 0, 0, 0⟩
/-- Region entries. -/
def readRegions (part : Nat) (l : List Byte) : Nat → List (Nat × Region)
  | 0 => []
  | n + 1 => (bnat l 0 8, regionOfEntry (BitVec.ofNat 256 (bnat l 8 32)) part) :: readRegions part (l.drop 40) n
/-- View entries of a die. -/
def readViews (d : Nat) (l : List Byte) : Nat → Nat → List (Nat × View)
  | _, 0 => []
  | i, n + 1 =>
    let w : BitVec 128 := BitVec.ofNat 128 (bnat l 0 16)
    (2 ^ 20 * d + i, ⟨bit w 0, nfld w 36 12, nfld w 48 16, nfld w 64 32, nfld w 96 32⟩) :: readViews d (l.drop 16) (i + 1) n
/-- View entries of the dies from one on. -/
def readDies : List Nat → List Byte → List (Nat × View) × List Byte
  | [], l => ([], l)
  | d :: ds, l =>
    let n := bnat l 0 8
    let r := readDies ds (l.drop (8 + 16 * n))
    (readViews d (l.drop 8) 0 n ++ r.1, r.2)
/-- Page records of the regions. -/
def readPages : List (Nat × Region) → List Byte → List (Nat × Nat × PageRec) × List Byte
  | [], l => ([], l)
  | (r, g) :: rs, l =>
    let one := fun i : Nat => let w : BitVec 32 := BitVec.ofNat 32 (bnat l (4 * i) 4); (r, i, (⟨nfld w 16 16, nfld w 2 2, bit w 1, bit w 0, 0⟩ : PageRec))
    let t := readPages rs (l.drop (4 * g.npage))
    ((rangeFrom 0 g.npage).map one ++ t.1, t.2)
/-- Reads the Covered section. -/
def readCovered (part n : Nat) (l : List Byte) : CovRec :=
  let rs := readRegions part l n
  let v := readDies [0, 1, 2, 3] (l.drop (40 * n))
  let p := readPages rs v.2
  ⟨rs, v.1.filter (fun x => x.2.v), p.1, p.2⟩

/-! ### Checks of a restore (R472) -/

/-- The partition fields that must agree (check 5). -/
def sameShape (a b : BitVec 512) : Bool :=
  pX0 a == pX0 b && pY0 a == pY0 b && pW a == pW b && pH a == pH b && pCtxmask a == pCtxmask b && pCol0 a == pCol0 b && pNcol a == pNcol b &&
  pAsid0 a == pAsid0 b && pNasid a == pNasid b && pRegion0 a == pRegion0 b && pNregion a == pNregion b
/-- The key that an image's signature verifies under (check 3). -/
def State.imageKey (s : State) (dev : Nat) : Option (BitVec 1056) :=
  if dev = Config.devId.toNat then some Config.attestKey
  else match lfind (fun k => nfld k.2 0 32 == dev && bit k.2 64 && !bit k.2 66) s.mgmt.keystore with
    | some k => some (fld k.2 96 1056)
    | none => none
/-- A word names a port element outside a port mask (check 6): by a target, an XLAT its walker (R209), an LRECV its link port (R235). -/
def portUnset (p : BitVec 512) (w : SlotWord) : Bool :=
  portBarred p w || (wOpc w == 0xB5 && !bit (pPortmask p) (nfld w 0 7)) || (wOpc w == 0xD4 && !bit (pPortmask p) (80 + nfld w 8 4))
/-- A basin lies in pages that are present and writable (check 9). -/
def State.basinThere (s : State) (w : BitVec 512) : Bool :=
  let len := 32 * nfld w 312 32; let at_ := nfld w 248 64; let asid := nfld w 148 16
  len == 0 || (rangeFrom 0 ((at_ + len - 1) / 65536 - at_ / 65536 + 1)).all fun i =>
    match s.walkPlain asid (65536 * (at_ / 65536 + i)) true with | .ok x => !x.cv | _ => false
/-- The sections of an image and its view key, once every check has passed. -/
def State.checkImage (s : State) (p len : Nat) (img : List Byte) : Option (List (Nat × Nat × List Byte) × BitVec 256) :=
  let h : BitVec 2048 := BitVec.ofNat 2048 (ofBytes (img.take 256))
  let x := s.part p
  let ver := nfld h 32 16
  let zeroed := bvBytes (setFld (setFld h 480 512 0) 992 1056 0) 256
  let signed := !bit h 80 || (match s.imageKey (nfld h 96 32) with
    | some k => Config.ecdsaVerify k (img.take 124) (fld h 992 1056)
    | none => false)
  if nfld h 0 32 ≠ 0x4E4D4E47 ∨ nfld h 48 16 ≠ 256 ∨ len < nfld h 128 64 then none
  else if ver ≠ 1 ∧ ver ≠ 2 then none
  else if Config.sha512 (zeroed ++ img.drop 256) ≠ fld h 480 512 ∨ !signed then none
  else match parseSections (if ver = 1 then [1, 2, 3, 4, 5, 6, 7, 8, 9, 11] else [1, 2, 3, 4, 5, 6, 7, 8, 9, 10, 11, 12]) (img.drop 256) with
    | none => none
    | some ss =>
      let ls := parseLoads (secCount ss 4) (secBody ss 4)
      let cov := readCovered p (secCount ss 10) (secBody ss 10)
      let need := (cov.pages.filter fun g => g.2.2.alloc).length
      let key := Config.openSection (secBody ss 12) (BitVec.ofNat 8 (pKey0 x.desc)) (img.take 60)
      let basins := (rangeFrom 0 (secCount ss 2)).all fun i => s.basinThere (BitVec.ofNat 512 (bnat (secBody ss 2) (64 * i) 64))
      if !sameShape (BitVec.ofNat 512 (bnat (secBody ss 1) 0 64)) x.desc then none
      else if ls.any fun l => l.2.2.2.any fun r => r.2.1.words.any fun w => (match w.2 with | some v => portUnset x.desc v | none => false) then none
      else if x.frames.length < need then none
      else if ver = 2 ∧ key.isNone then none
      else if !basins then none
      else some (ss, key.getD x.viewKey)

/-! ### Restore (R473, R474) -/

/-- A colour table entry read back. -/
def colourOfEntry (w : BitVec 512) : Colour :=
  ⟨nfld w 480 32, nfld w 416 32, nfld w 392 24, nfld w 388 4, nfld w 376 12, nfld w 344 32, nfld w 312 32, fld w 248 64, fld w 184 64, nfld w 164 20, nfld w 148 16,
    nfld w 140 8, nfld w 128 7⟩
/-- Writes element records into a context slot: PARTW, CFGW and the registers (R422). -/
def State.putRecords (s : State) (c : Nat) (l : List ElemRec) : State :=
  let put := fun (s : State) (r : ElemRec) =>
    let s1 := s.setCtx r.1 c { r.2.1 with prio := (s.ctx r.1 c).prio }
    s1.setElem r.1 ((s1.elem r.1).poolWrite (regByte r.2.1.partwd 0) r.2.2)
  l.foldl put s
/-- Places the records of a load into its context slot and raises it with priority 0; none where PARTW, CFGW or RAISE refuses. -/
def State.placeLoad (s : State) (p : Nat) (d : BitVec 512) (l : List ElemRec) : Option State :=
  let c := dCtx d
  if l.any fun r => (s.ctx r.1 c).active || !s.partwOk r.1 c r.2.1.partwd then none
  else
    let s1 := s.putRecords c l
    let foot := l.map fun r => r.1
    if (s1.raiseFails d foot).isSome then none
    else
      some (s1.raiseDone ⟨0, p, .raise d 0, [], 0, [], none⟩ d (s1.configDigest d foot) foot)
/-- Places a list of loads. -/
def State.placeLoads (s : State) (p : Nat) : List LoadRec → Option State
  | [] => some s
  | (_, _, d, r) :: ls => match s.placeLoad p d r with | some s1 => s1.placeLoads p ls | none => none

/-- The RC ITER of a load: element and slot. -/
def State.rcIter (s : State) (l : Load) : Nat × Nat :=
  match lfind (fun x => isRcIter x.2.2) (s.loadWords l.desc l.foot) with | some x => (x.1, x.2.1) | none => (0, 0)
/-- A round read back; the image carries no counts of its accesses, so it is complete when nothing of its iterations is left (log entry 114). -/
def State.roundBack (s : State) (l : Load) (col rb nr : Nat) (vd : Bool) : State :=
  let ps := s.loadPorts l
  let r : Round := ⟨col, dLoadid l.desc, dCtx l.desc, rb, nr, .opened, vd, ps, ps.filter (fun q => (s.countedAt l q).isEmpty), [], s.rcIter l, true,
    s.cycle, ps.map fun p => (p, s.roomAt p), [], s.freeHalf col (dLoadid l.desc)⟩
  { s with fab := { s.fab with rounds := r :: s.fab.rounds } }
/-- Node records of a Rounds record. -/
def State.restoreNodes (s : State) (load : Word) (col ctx : Nat) (l : List Byte) : Nat → State
  | 0 => s
  | n + 1 =>
    let w : BitVec 128 := BitVec.ofNat 128 (bnat l 0 16)
    let e := nfld w 122 6 + 48 * nfld w 116 6; let slot := nfld w 109 7
    let s1 : State := if bit w 108 then { s with fab := { s.fab with bars := ⟨e, load, slot, col, nfld w 72 24⟩ :: s.fab.bars.filter fun b => !(b.e == e && b.slot == slot && b.col == col && b.load == load) } }
      else
        let rc := match s.slotWord e ctx slot with | some v => bit v 25 | none => false
        let x : Stream := ⟨e, slot, mkTag col ctx (nfld w 20 4) (nfld w 4 16) (nfld w 72 24), fld w 100 8, nfld w 48 24, nfld w 24 24, rc, load, true, [], 0⟩
        { s with fab := { s.fab with streams := s.fab.streams ++ [x] } }
    s1.restoreNodes load col ctx (l.drop 16) n
/-- An image holds tokens of a colour in a context slot. -/
def tokensHold (toks : List Byte) (n col ctx : Nat) : Bool := (rangeFrom 0 n).any fun i => let t : Word := BitVec.ofNat 64 (bnat toks (32 * i + 16) 8); tagCol t == col && tagCtx t == ctx
/-- The Rounds section. An O of 0 with nothing of the colour in the load is an O that is not set: the image does not tell the two apart (log entry
115). -/
def State.restoreRounds (s : State) (p : Nat) (held : Nat → Nat → Bool) (l : List Byte) : Nat → State
  | 0 => s
  | n + 1 =>
    let w : BitVec 256 := BitVec.ofNat 256 (bnat l 0 32)
    let id : Word := fld w 192 64; let col := nfld w 180 12; let ctx := nfld w 178 2
    let unset := nfld w 150 24 == 0 && nfld w 148 2 == 0 && nfld w 56 16 == 0 && !held col ctx
    let s1 := s.setColLoad ⟨col, id, fld w 174 4, if unset then none else some (nfld w 150 24), false, nfld w 150 24⟩
    let s1 : State := { s1 with fab := { s1.fab with bars := s1.fab.bars.filter (fun b => !(b.col == col && b.load == id)), streams := s1.fab.streams.filter fun x => !(tagCol x.tag == col && x.load == id) } }
    let s2 := match s1.loadIn p ctx (fun x => dLoadid x.desc == id) with
      | none => s1
      | some x =>
        let a := if 1 ≤ nfld w 148 2 then s1.roundBack x col (nfld w 124 24) (nfld w 111 13) (bit w 110) else s1
        if 2 ≤ nfld w 148 2 then a.roundBack x col (nfld w 86 24) (nfld w 73 13) (bit w 72) else a
    (s2.restoreNodes id col ctx (l.drop 32) (nfld w 56 16)).restoreRounds p held (l.drop (32 + 16 * nfld w 56 16)) n
/-- Reads the slot record at the head of a list: the state, and the record's length (R469, R474). -/
def State.restoreSlot (s : State) (ver : Nat) (l : List Byte) : State × Nat :=
  let w : BitVec 128 := BitVec.ofNat 128 (bnat l 0 16)
  let e := bnat l 0 1 + 48 * bnat l 1 1; let c := nfld w 36 2; let b := nfld w 38 5; let i := nfld w 43 4
  let exp := bit w 49; let lines := nfld w 64 16
  let h := if ver = 1 then 0 else 32
  let keep := match s.buf e c b with | some x => x.keep | none => false
  let q : Slot := ⟨(s.elem e).stampAt (nfld w 55 9), bit w 50, exp, bit w 48, true, bit w 47 || exp, BitVec.ofNat 256 (bnat l 16 h), BitVec.ofNat 1024 (bnat l (16 + h) 128), lines, false,
    bit w 48 && !keep, none⟩
  let s1 := match s.buf e c b with
    | some x => (s.setElem e ((s.elem e).poolWrite (x.slotByte i) (btake l (144 + h) (64 * lines)))).setBuf e c b (some (x.setSlot i q))
    | none => s
  (s1, 144 + h + 64 * lines)
/-- Reads the accumulator record at the head of a list (R470). -/
def State.restoreAcc (s : State) (l : List Byte) : State × Nat :=
  let w : BitVec 256 := BitVec.ofNat 256 (bnat l 0 32)
  let e := nfld w 250 6 + 48 * nfld w 244 6; let c := nfld w 242 2; let n := nfld w 238 4
  let go := bit w 207
  let x := s.ctx e c
  let parts := if go then (rangeFrom 0 1024).map fun i => sval 32 (bnat l (4128 + 4 * i) 4) else []
  let mode : AMode := match nfld w 208 2 with | 0 => .unset | 1 => .float | _ => .integer
  let a : Acc := ⟨if bit w 237 then some (fld w 0 64) else none, nfld w 221 16, if bit w 220 then some (nfld w 215 5 + 1, nfld w 210 5 + 1) else none, mode,
    if go then nfld w 205 2 else 0, parts, BitVec.ofNat 1024 (if go then bnat l 8224 128 else 0), BitVec.ofNat 1024 (if go then bnat l 8352 128 else 0), (nfld w 189 16, nfld w 173 16),
    fld w 165 8⟩
  let s1 := s.setCtx e c { x with accs := tset Acc.reset x.accs n a }
  (s1.setElem e ((s1.elem e).poolWrite (accByte x.partwd n) (btake l 32 4096)), if go then 8480 else 4128)
/-- The Pool section. -/
def State.restorePool (s : State) (ver : Nat) (l : List Byte) : Nat → State
  | 0 => s
  | n + 1 =>
    let r := if bit (BitVec.ofNat 128 (bnat l 0 16) : BitVec 128) 80 then s.restoreAcc l else s.restoreSlot ver l
    r.1.restorePool ver (l.drop r.2) n
/-- Covered pages: fresh frames, zeroed and then filled, and leaves (R380). -/
def State.restorePages (s : State) (p : Nat) : List (Nat × Nat × PageRec) → List Byte → State
  | [], _ => s
  | (r, i, g) :: ps, l =>
    if !g.alloc then (s.setPage r i g).restorePages p ps l
    else match (s.part p).frames with
      | [] => s.restorePages p ps (l.drop 65536)
      | fr :: rest =>
        let x := s.region r
        let s1 := s.setPart p { s.part p with frames := rest }
        let s2 := s1.setMem ((s1.mem.zeroFrame x.keyslot fr).write x.keyslot fr (l.take 65536))
        ((s2.setPage r i { g with frame := fr }).writeLeaf x.asid (x.va i) (coveredLeaf fr)).restorePages p ps (l.drop 65536)
/-- The Covered section; every region of the partition that the image does not name is out of use. -/
def State.restoreCovered (s : State) (p : Nat) (c : CovRec) : State :=
  let old := (s.regionsOf p).map fun r => r.1
  let s1 : State := { s with cov := { s.cov with
    regions := s.cov.regions.filter (fun r => !old.contains r.1), views := s.cov.views.filter (fun v => !old.contains v.2.region), pages := s.cov.pages.filter fun x => !old.contains (x.1 / 2 ^ 22) } }
  let s2 := c.regions.foldl (fun (s : State) r => s.setRegion r.1 r.2) s1
  let s3 := c.views.foldl (fun (s : State) v => s.setView v.1 v.2) s2
  s3.restorePages p c.pages c.data
/-- A token read back from a basin entry (Table 9.4), parked in entry `i` of its basin; one that waits for an ENTRY node waits there. -/
def State.tokenBack (s : State) (p i : Nat) (w : BitVec 256) : Token :=
  let tag : Word := fld w 128 64
  let c := tagCtx tag
  let e := nfld w 69 6 + 48 * nfld w 63 6; let n := nfld w 77 7
  let dst : Dst := if bit w 84 then .exit (nfld w 59 4) else .node e n (nfld w 75 2)
  let load := if bit w 84 then (match s.loadIn p c fun _ => true with | some l => dLoadid l.desc | none => 0) else s.loadidAt e c
  let place : Place := match (if bit w 84 then none else s.slotWord e c n) with
    | some v => (match entryPort v with | some x => .entryq x | none => .basin i)
    | none => .basin i
  ⟨tag, fld w 88 8, if nfld w 86 2 = 1 then .ref else .scalar, fld w 192 64, none, dst, place, true, nfld w 96 32, load, []⟩
/-- The Tokens section: each token takes the next entry of its colour's basin; none when a basin cannot be written. -/
def State.restoreTokens (s : State) (p : Nat) (l : List Byte) : Nat → Option State
  | 0 => some s
  | n + 1 =>
    let w : BitVec 256 := BitVec.ofNat 256 (bnat l 0 32)
    let c := tagCol (fld w 128 64)
    let t := s.tokenBack p (s.basinFree c) w
    match t.place with
    | .basin i => match (s.addToken t).basinStore c i t.basinEntry with
      | .ok s1 => s1.restoreTokens p (l.drop 32) n
      | .error _ => none
    | _ => (s.addToken t).restoreTokens p (l.drop 32) n
/-- The runs of set bits of a byte mask: first byte and length. -/
def maskRuns (m : Nat) : Nat → Nat → Option (Nat × Nat) → List (Nat × Nat)
  | _, 0, b => match b with | some r => [r] | none => []
  | i, n + 1, b =>
    if m / 2 ^ i % 2 = 1 then maskRuns m (i + 1) n (some (match b with | some r => (r.1, r.2 + 1) | none => (i, 1)))
    else (match b with | some r => [r] | none => []) ++ maskRuns m (i + 1) n none
/-- The start of a store that lies in a covered page: its view's region counts it again (R388). -/
def State.startReplay (s : State) (asid va : Nat) : State × Option (Nat × Nat) :=
  match s.walkPlain asid va true with
  | .ok x => if x.cv then match s.regionOf asid va with
      | some r => (let y := s.restartAccess r; (y.1, some y.2))
      | none => (s, none)
    else (s, none)
  | _ => (s, none)
/-- A replay entry read back; its address is translated again at prepare (R336). -/
def State.restoreReplay (s : State) (p : Nat) (l : List Byte) : State :=
  let w : BitVec 256 := BitVec.ofNat 256 (bnat l 0 32)
  let id : Word := fld w 0 64; let col := nfld w 216 12; let pn := nfld w 228 7; let va := nfld w 64 64
  match s.loadById p id with
  | none => s
  | some x =>
    let c := s.colour col
    let sp := spaceOf pn
    let asid := if sp = .host then hostAsid c.pasid else c.asid
    let moved := sp = .global ∨ sp = .host
    let frame : Option Xent := if moved then some ⟨asid, 0, 0, 0, false, false, false, false⟩ else none
    let one := fun (s : State) (k : Nat) (r : Nat × Nat) =>
      let st := if sp = .global then s.startReplay c.asid (va + r.1) else (s, none)
      let at_ := match st.2 with | some y => va + r.1 - (s.region y.1).vbase | none => va + r.1
      let e : Store := ⟨s.port.next, pn, col, dCtx x.desc, id, nfld w 192 24, k, at_, c.asid, frame, va + r.1, btake l (32 + r.1) r.2, fld w 235 8, false,
        moved, true, false, st.2, c.keyslot, x.foot.headD 0, 0x7F, 0x7F, mkTag col (dCtx x.desc) 0 0 (nfld w 192 24), nfld w 192 24, none, [], r.2 == 0, false⟩
      { st.1 with port := { st.1.port with stores := st.1.port.stores ++ [e], next := st.1.port.next + 1 } }
    let rs := maskRuns (nfld w 128 64) 0 64 none
    let rs := if rs.isEmpty then [(0, 0)] else rs
    (rangeFrom 0 rs.length).foldl (fun (s : State) k => one s k (nth (0, 0) rs k)) s
/-- The Replay section. -/
def State.restoreReplays (s : State) (p : Nat) (l : List Byte) : Nat → State
  | 0 => s
  | n + 1 => (s.restoreReplay p l).restoreReplays p (l.drop 96) n
/-- A target of the same element. -/
def hereTarget (slot port : Nat) : BitVec 24 := pack 24 [(23, 1, 1), (21, 2, 3), (2, 7, slot), (0, 2, port)]
/-- An engine request read back, suspended; it is a Weir request when its MODE is 0 and its control word is one (log entry 26). -/
def engineBack (id port opc cycle : Nat) (ty : Ty) (slot : Nat) (load : Word) (w : BitVec 384) (kept : List (Word × BitVec 8)) : Engine :=
  let e := nfld w 258 6 + 48 * nfld w 264 6
  let dir := nfld w 224 2
  let b := if opc = 0xD1 then none else if dir = 1 then some (nfld w 228 5, nfld w 128 4) else if dir = 2 then some (nfld w 64 5, nfld w 69 4) else none
  ⟨id, port, opc, ty, e, slot, w, hereTarget (nfld w 272 7) (nfld w 279 2), .suspended, nfld w 320 32, b, [], kept, kept, 0, none, none, true, none, cycle, false,
    fld w 250 8, false, load, [], 1⟩
/-- The engine node of an element and context slot with this completion target: its OPC, type and slot word. -/
def State.engineNode (s : State) (e c : Nat) (w : BitVec 384) : Option (Nat × Ty × Nat) :=
  match lfind (fun x => match x.2 with
      | some v => (wOpc v == 0xD0 || wOpc v == 0xD1) && nfld (wT1 v) 2 7 == (if wOpc v = 0xD1 then nfld w 283 5 else nfld w 272 7)
      | none => false) (s.ctx e c).words with
  | some (n, some v) => some (wOpc v, wTy v, n)
  | _ => none
/-- A view through which a request that moved bytes before the cut goes on: it counts as started, with no check against today's extent (R388). -/
def State.restartView (s : State) (g : Engine) (v : Bool) (h : Nat) : State × Option (Nat × Nat) × Option Nat :=
  if !v then (s, none, some h)
  else match s.viewOf ((s.partOfElem g.e).getD 0) (s.colour g.col).asid (BitVec.ofNat 64 h) with
    | none => (s, none, none)
    | some k =>
      let x := s.view k
      let y := s.restartAccess x.region
      (y.1, some y.2, some ((s.region x.region).vbase + 64 * x.lo))
/-- The slot that a copy into a buffer had reserved is reserved again (R161). -/
def State.reserveAgain (s : State) (g : Engine) : State :=
  match (if g.dir = 1 then g.bslot else none) with
  | none => s
  | some (b, i) => match s.buf g.e g.ctx b with
    | some x => s.setBuf g.e g.ctx b (some (x.setSlot i { x.slot i with full := true }))
    | none => s
/-- Puts a request back: one that has moved bytes or read candidates stays started through its views, one that has not is checked afresh (R388, log
entry 114). -/
def State.putBack (s : State) (g : Engine) : State :=
  let s := s.reserveAgain g
  let src := nfld g.pkt 64 64; let dst := nfld g.pkt 128 64
  let a := if g.cursor = 0 then (s, none, none) else s.restartView g (if g.opc = 0xD1 then g.vw else g.sv) src
  let b := if g.cursor = 0 ∨ g.opc = 0xD1 then (a.1, none, some 0) else a.1.restartView g g.dv dst
  let h : Engine := { g with started := a.2.1, startedB := b.2.1, base := match a.2.2, b.2.2 with | some x, some y => some (x, y) | _, _ => none }
  { b.1 with port := { b.1.port with engines := b.1.port.engines ++ [h], next := b.1.port.next + 1 } }
/-- The Engines section. -/
def State.restoreEngines (s : State) (l : List Byte) : Nat → State
  | 0 => s
  | n + 1 =>
    let w : BitVec 384 := BitVec.ofNat 384 (bnat l 8 48)
    let node := (s.engineNode (nfld w 258 6 + 48 * nfld w 264 6) (nfld w 270 2) w).getD (0xD0, .x64, 0x7F)
    let k := if node.1 = 0xD1 then nfld (fld w 128 64) 5 7 else 0
    let kept := ((rangeFrom 0 k).map fun i => ((BitVec.ofNat 64 (bnat l (56 + 8 * i) 8) : Word), (0 : BitVec 8))).filter fun x => x.1 != ones64
    let load := s.loadidAt (nfld w 258 6 + 48 * nfld w 264 6) (nfld w 270 2)
    let g := engineBack s.port.next (bnat l 0 8) node.1 s.cycle node.2.1 node.2.2 load w kept
    (s.putBack g).restoreEngines (l.drop (56 + 8 * k)) n
/-- Wide values read in order. -/
def readWide (n : Nat) (l : List Byte) : Nat → List (BitVec n)
  | 0 => []
  | k + 1 => BitVec.ofNat n (bnat l 0 (n / 8)) :: readWide n (l.drop (n / 8)) k
/-- The Events section; reserved bits read as zero. -/
def State.restoreEvents (s : State) (p : Nat) (l : List Byte) (n : Nat) : State :=
  let x := s.part p
  let rs := (readWide 512 (l.drop (32 * n)) ((l.length - 32 * n) / 64)).map fun r => setFld r 0 160 0
  let evs := (readWide 256 l n).map fun v => setFld v 8 2 0
  let ring := (rangeFrom 0 rs.length).foldl (fun t i => tset none t i (some (nth 0 rs i))) ([] : Tbl (Option (BitVec 512)))
  s.setPart p { x with events := evs.take 256, held := evs.drop 256, ring := ring, order := rangeFrom 0 rs.length }

/-- Unparks every parked token of a partition's colours that has a home, and opens the entry ports (R257); stopped requests go on. -/
def State.reopen (s : State) (p : Nat) : State :=
  let up := fun (s : State) (c : Nat) => if s.unparkStatus p c 0 0xFFFFFF none = 0 then s.unpark c 0 0xFFFFFF none else s
  let s1 := (partCols (s.part p).desc).foldl up s
  let go := fun g : Engine => if s.engineOf p g && g.state == .stopped then
      { g with state := g.goOn, since := s.cycle } else g
  let s2 : State := { s1 with port := { s1.port with engines := s1.port.engines.map go } }
  s2.setPart p { s2.part p with cut := .idle }
/-- Restores the cut (R473); none where a step fails. -/
def State.restore (s : State) (p ver : Nat) (ss : List (Nat × Nat × List Byte)) (key : BitVec 256) : Option State :=
  let x := s.part p
  let cols := (rangeFrom 0 (secCount ss 2)).foldl (fun (s : State) i => s.setColour (pCol0 x.desc + i) (colourOfEntry (BitVec.ofNat 512 (bnat (secBody ss 2) (64 * i) 64)))) s
  let bind := (rangeFrom 0 1024).foldl (fun t i => tset 0 t i (BitVec.ofNat 64 (bnat (secBody ss 3) (8 * i) 8 % 2 ^ 13))) ([] : Tbl Word)
  let s1 := cols.setPart p { cols.part p with viewKey := key, bind := bind }
  let ls := parseLoads (secCount ss 4) (secBody ss 4)
  match s1.placeLoads p ls with
  | none => none
  | some s2 =>
    let s3 := (s2.restoreRounds p (tokensHold (secBody ss 7) (secCount ss 7)) (secBody ss 5) (secCount ss 5)).restorePool ver (secBody ss 6) (secCount ss 6)
    let s4 := s3.restoreCovered p (readCovered p (secCount ss 10) (secBody ss 10))
    match s4.restoreTokens p (secBody ss 7) (secCount ss 7) with
    | none => none
    | some s5 =>
      let s6 := ((s5.restoreReplays p (secBody ss 9) (secCount ss 9)).restoreEngines (secBody ss 8) (secCount ss 8)).restoreEvents p (secBody ss 11) (secCount ss 11)
      let prio := fun (s : State) (l : LoadRec) => l.2.2.2.foldl (fun (s : State) r => s.setCtx r.1 l.2.1 { s.ctx r.1 l.2.1 with prio := l.1 }) s
      some ((ls.foldl prio s6).reopen p)
/-- RESUME (R257). -/
def execResume (o : Ops) (s : State) : Res := s.sys fun t p =>
  let va := (s.wv o o.a).toNat; let len := (s.wv o o.b).toNat
  let asid := (s.thread t).asid.toNat
  let done := fun (s : State) (n : Word) => s.finishWord t (stewDest o.t0) n
  if va % 64 ≠ 0 ∨ (va = 0 ∧ len ≠ 0) then s.trapIllegal t
  else if s.fab.sysops.any fun q => q.part == p then s
  else if (s.part p).cut ≠ .quiesced then done s 1
  else if va = 0 then done (s.reopen p) 0
  else
    let tot := nfld (BitVec.ofNat 2048 (ofBytes (s.virtRead p asid va 4)) : BitVec 2048) 128 64
    let img := (s.virtRead p asid va (ceilDiv (if tot ≤ len then tot else 256) 64)).take tot
    match s.checkImage p len img with
    | none => done s 2
    | some (ss, key) =>
      match s.restore p (bnat img 4 2) ss key with
      | some s1 => done s1 0
      | none => s.failPart p cConfig faultInfo0 0

/-! ### Control registers (R261, Table 7.7) -/

/-- Bits of STATUS that are defined. -/
def statusMask : Word := 0x75F
/-- Reads a control register. -/
def State.csrRead (s : State) (t n : Nat) : Option Word :=
  let th := s.thread t
  let p := s.partOfThread t
  let x := s.part p
  let d := x.desc
  match n with
  | 0x000 => some th.status
  | 0x001 => some th.tvec
  | 0x002 => some th.epc
  | 0x003 => some th.ecause
  | 0x004 => some th.eval
  | 0x005 => some th.scratch
  | 0x006 => some (th.asid.zeroExtend 64)
  | 0x007 => some th.evtx0
  | 0x008 => some th.evtx1
  | 0x009 => some (BitVec.ofNat 64 t)
  | 0x100 => some (BitVec.ofNat 64 p)
  | 0x101 => some (pack 64 [(0, 8, pX0 d), (8, 8, pY0 d), (16, 8, pW d), (24, 8, pH d)])
  | 0x102 => some (pack 64 [(0, 12, pCol0 d), (16, 12, pNcol d)])
  | 0x103 => some (BitVec.ofNat 64 x.events.length)
  | 0x104 => some (pack 64 [(0, 7, x.order.length), (8, 6, x.order.headD 0)])
  | 0x105 => some (BitVec.ofNat 64 x.expwarn)
  | 0x106 => some (BitVec.ofNat 64 (s.qsize p))
  | n => if 0x200 ≤ n ∧ n ≤ 0x25F then some (tget 0 s.mem.fuse (n - 0x200))
    else if 0x300 ≤ n ∧ n ≤ 0x30F then some (tget 0 x.topo (n - 0x300))
    else none
/-- A value of TOPO n is within its fields (Table 7.7). -/
def topoFields (v : Word) : Bool := nfld v 8 24 == 0 && decide (nfld v 4 4 ≤ 11)
/-- A TOPO entry obeys its rule (R261). -/
def topoOk (n : Nat) (v : Word) : Bool := if n = 0 then nfld v 0 4 == 0 else decide (nfld v 0 4 < n)
/-- Writes a control register and goes on with the next word: the state, or the trap code. -/
def State.csrWrite (s : State) (t n : Nat) (v : Word) : Except Nat State :=
  let th := s.thread t
  let p := s.partOfThread t
  let x := s.part p
  match n with
  | 0x000 => .ok (s.setThread t (Thread.advance { th with status := v &&& statusMask }))
  | 0x001 => .ok (s.setThread t (Thread.advance { th with tvec := v }))
  | 0x002 => .ok (s.setThread t (Thread.advance { th with epc := v }))
  | 0x003 => .ok (s.setThread t (Thread.advance { th with ecause := v &&& 0xFFFF000F }))
  | 0x004 => .ok (s.setThread t (Thread.advance { th with eval := v }))
  | 0x005 => .ok (s.setThread t (Thread.advance { th with scratch := v }))
  | 0x006 => if asidIn x.desc v.toNat then .ok (s.setThread t (Thread.advance { th with asid := v.truncate 16 })) else .error cProtection
  | 0x105 => if 1 ≤ v.toNat ∧ v.toNat ≤ 400 then .ok ((s.setPart p { x with expwarn := v.toNat }).setThread t th.advance) else .error cIllegal
  | n => if 0x300 ≤ n ∧ n ≤ 0x30F then
      if !topoFields v then .error cIllegal
      else if !topoOk (n - 0x300) v then .error cTopology
      else .ok ((s.setPart p { x with topo := tset 0 x.topo (n - 0x300) v }).setThread t th.advance)
    else .error cIllegal
/-- CSRR. -/
def execCsrr (o : Ops) (s : State) : Res := s.sys fun t _ =>
  match s.csrRead t o.imm.toNat with
  | some v => s.finishWord t (stewDest o.t0) v
  | none => s.trapIllegal t
/-- CSRW. -/
def execCsrw (o : Ops) (s : State) : Res := s.sys fun t _ =>
  match s.csrWrite t o.imm.toNat (s.wv o o.a) with
  | .ok s1 => s1
  | .error c => if c = cIllegal then s.trapIllegal t else s.trapAt t c 0

end Sys2Proof.Machine
end

