-- ==== Sys2Proof/Machine/Engines.lean ====
section
/-! DEFINITION. Engines: the transfer units (06 R228 to R231, 17 R433) and the Weirs (06 R232, R233, 13 R362 to R377). -/

namespace Sys2Proof.Machine

/-! ### Requests -/

/-- What is left of a refused copy ends when its firing is issued again (R236). -/
def State.clearStub (s : State) (f : Firing) : State :=
  let stub := fun g : Engine => g.refused && !g.parked && g.e == f.e && g.slot == f.slot && tagEq g.tag f.tag
  { s with port := { s.port with engines := s.port.engines.filter fun g => !stub g } }
/-- Sends a request packet to the port that T0 names; its operand tokens stay counted until it has been checked there, since they can come back,
and then it counts as one token (R293, R297). -/
def State.sendReq (s : State) (f : Firing) (o : Ops) (pkt : BitVec 384) (target : BitVec 24) (bslot : Option (Nat × Nat)) (sb : BitVec 8) : State :=
  let p := wPort f.word
  let g : Engine := ⟨s.port.next, p, wOpc f.word, o.ty, f.e, f.slot, pkt, target, .sent, 0, bslot, [], [], [], 0, none, none, false, none,
    s.cycle + 1 + s.toPort f.e p, false, sb, bit o.fl 5, s.loadidAt f.e f.ctx, f.ops, Nat.max f.count 1⟩
  let s1 := ((s.clearStub f).latch f o sb).settleHeld f.e (tagCol f.tag) f.count 1
  { s1 with port := { s1.port with engines := s1.port.engines ++ [g], next := s1.port.next + 1 }, focus := .thread 0 }
/-- A completion or result leaves the port of a request. -/
def State.engineSend (s : State) (g : Engine) (o : Out) : State := s.sendFrom (some g.port) g.e g.ctx 1 [o]
/-- The fault of a request: its address and what it did there. -/
def Engine.info (g : Engine) (code addr acc : Nat) : FaultInfo :=
  { faultInfo0 with code := code, reason := g.opc, addr := addr, cursor := if g.cursor = 0 then none else some g.cursor, slot := g.slot,
                    pnum := g.port, e := g.e, tag := g.tag, sb := g.sb, acc := acc }

/-- Translates an address for an engine, by its port's own walker (R229, R362): the address in the port's space and its key slot, or a
fault code. -/
def State.enginePhys (s : State) (g : Engine) (view write : Bool) (va : Nat) : State × Except Nat (Nat × Nat) :=
  let c := s.colour g.col
  let part := (s.partOfElem g.e).getD 0
  let host := spaceOf g.port = .host
  if 2 ^ 57 ≤ va then (s, .error cTranslation)
  else if !host && windowOf va != .none then (s, .error cProtection)
  else
    let w := if host then (s.hostWalk c.pasid va write, s) else s.walkPort g.port c.asid va write
    match w with
    | (.ok x, s1) =>
      if x.cv != view || (write && !x.wr) then (s1, .error cProtection)
      else (s1, .ok (x.phys va, if host then 0 else s1.keyFor part x va c.keyslot))
    | (.fail k, s1) => (if host ∧ k = 1 then s1.pageRequest part c.pasid va else s1, .error (frameCode k))
    | (.nowhere _, s1) => (s1, .error cTranslation)

/-- The address that a fault record gives: the offset in the region for an access through a view. -/
def State.recordAddr (s : State) (x : Option (Nat × Nat)) (va : Nat) : Nat := match x with | some r => va - (s.region r.1).vbase | none => va

/-! ### XFER: what the element does (R228 to R230) -/

/-- The copy request packet (Table 6.10). -/
def xferPkt (o : Ops) (f : Firing) (sb : BitVec 8) (src dst len : Nat) : BitVec 384 :=
  let d : Nat × Nat × Nat := match fabTarget o.t1 with
    | some (.here n p) => (f.e, n.toNat, p.toNat)
    | some (.elem dx dy n p) => ((targetElem f.e dx dy).getD f.e, n.toNat, p.toNat)
    | _ => (f.e, 0, 0)
  pack 384 [(279, 2, d.2.2), (272, 7, d.2.1), (270, 2, f.ctx), (264, 6, d.1 / 48), (258, 6, d.1 % 48), (250, 8, sb.toNat),
    (224, 10, nfld o.imm 0 10), (192, 32, len), (128, 64, dst), (64, 64, src), (0, 64, f.tag.toNat)]
/-- A scalar completion sent at once, to a target. -/
def State.xferNow (s : State) (f : Firing) (o : Ops) (target : BitVec 24) (sb : BitVec 8) : State :=
  (s.clearStub f).fire f o 1 (outTo target { outOf 0 f.tag (0, sb) with hist := [fromEngine] }) sb
/-- XFER m2m. -/
def execXferM2m (o : Ops) (s : State) : Res := s.flow fun f =>
  let a := s.opVal .x64 o.imm o.a; let b := s.opVal .x64 o.imm o.b; let c := s.opVal .x64 o.imm o.c
  let sb := sbOr [a.sb, b.sb, c.sb]
  if sbPZ sb then s.faultFiring f { f.info cPoison sb with pnum := wPort f.word }
  else if sbNL sb ∨ nfld c.v 0 32 = 0 then s.xferNow f o o.t1 sb
  else s.sendReq f o (xferPkt o f sb a.v.toNat b.v.toNat c.v.toNat) o.t1 none sb
/-- XFER m2b: the slot is reserved when the firing issues. -/
def execXferM2b (o : Ops) (s : State) : Res := s.flow fun f =>
  let a := s.opVal .x64 o.imm o.a; let c := s.opVal .x64 o.imm o.c
  let sb := sbOr [a.sb, c.sb]
  let n := nfld o.imm 4 5
  let len := nfld c.v 0 32
  let null := fun sb : BitVec 8 => (s.clearStub f).fire f o 1 (outTo o.t1 (refOut f sb 0)) sb
  if sbPZ sb then s.faultFiring f { f.info cPoison sb with pnum := wPort f.word }
  else if sbNL sb then null sb
  else match s.buf f.e f.ctx n with
    | none => s.faultFiring f (f.info cBuffer sb)
    | some b =>
      if b.size * 64 < len then s.faultFiring f (f.info cBuffer sb)
      else if len = 0 then null (sbOr [sb, sbNull])
      else if (b.slot b.widx).full then s.unfire f
      else (s.reserveSlot f.e f.ctx n b).sendReq f o (xferPkt o f sb a.v.toNat b.widx len) o.t1 (some (n, b.widx)) sb
/-- XFER b2m: the slot stays as it is until the copy has read its last line (R433). -/
def execXferB2m (o : Ops) (s : State) : Res := s.flow fun f =>
  let a := s.arg f .x64 o.a (bit o.imm 9)
  let t := match o.a with | .port n => f.portVal n.toNat | _ => ⟨0, 0⟩
  let b := s.opVal .x64 o.imm o.b; let c := s.opVal .x64 o.imm o.c
  let sb := sbOr [t.sb, b.sb, c.sb]
  let len := nfld c.v 0 32
  match s.argFault f a with
  | some i => s.faultFiring f i
  | none =>
    if sbPZ sb then s.faultFiring f { f.info cPoison sb with pnum := wPort f.word }
    else if sbNL sb then (s.releaseAll f.e f.ctx (releases [a])).xferNow f o o.t1 sb
    else if a.lines * 64 < len then s.faultFiring f (f.info cBuffer sb)
    else if len = 0 then (s.releaseAll f.e f.ctx (releases [a])).xferNow f o o.t1 sb
    else match a.ref with
      | none => s.xferNow f o o.t1 sb
      | some (n, i) =>
        s.sendReq f o (xferPkt o f sb (nfld t.v 0 9) b.v.toNat len) o.t1 (some (n, i)) sb

/-! ### The transfer unit (R230, R231, R433) -/

/-- Gives back the reservation of a copy that was refused. -/
def State.unreserve (s : State) (g : Engine) : State :=
  match g.bslot with
  | none => s
  | some (b, i) =>
    if g.dir ≠ 1 then s
    else match s.buf g.e g.ctx b with
      | none => s
      | some x =>
        let y := x.setSlot i { x.slot i with full := false }
        s.setBuf g.e g.ctx b (some { y with widx := if x.widx = (i + 1) % x.depth then i else x.widx })
/-- A copy that fails before any byte has moved ends: its operand tokens are parked, and its firing is issued afresh when they return. Until
then it holds the reconfiguration token (R236). -/
def State.refuseCopy (s : State) (g : Engine) (f : FaultInfo) : State :=
  let toks := recalled g.ops
  let h := { g with state := .suspended, parked := true, held := 0, ops := [], base := none, bslot := none, started := none, startedB := none }
  let s1 := (((s.endViews g).unreserve g).setEngine h).copyStops g
  ((s1.inflDown g.col (g.held - toks.length)).setTokens (s1.fab.tokens ++ toks)).raiseFault f
/-- A copy that fails later suspends at the boundary of the chunk; it is parked with its activation (R231). -/
def State.suspendCopy (s : State) (g : Engine) (f : FaultInfo) : State :=
  ((s.setEngine { g with state := .suspended, parked := true }).copyStops g).raiseFault f
/-- The fault of a copy. -/
def State.failCopy (s : State) (g : Engine) (f : FaultInfo) : State :=
  if g.cursor = 0 ∧ !g.ops.isEmpty then s.refuseCopy g f
  else s.suspendCopy (if g.cursor = 0 then { g with started := none, startedB := none, base := none } else g) f |> fun s1 =>
    if g.cursor = 0 then s1.endViews g else s1

/-- A range as pieces that lie in one 64 KiB page each, for ranges of at most 64 KiB. -/
def pagePieces (va n : Nat) : List (Nat × Nat) :=
  let m := 65536 - va % 65536
  if n ≤ m then [(va, n)] else [(va, m), (va + m, n - m)]
/-- What a list of pieces yields, up to the first failure: its code and address. -/
structure Pieces where
  st : State
  /-- Bytes read, or places to write: address, key slot and length. -/
  bytes : List Byte
  places : List (Nat × Nat × Nat)
  bad : Option (Nat × Nat)
/-- Translates pieces for a copy, and reads them unless they are to be written. -/
def State.copyPieces (s : State) (g : Engine) (view write : Bool) : List (Nat × Nat) → Pieces
  | [] => ⟨s, [], [], none⟩
  | (va, n) :: l =>
    let va := va % 2 ^ 64
    match s.enginePhys g view write va with
    | (s1, .error k) => ⟨s1, [], [], some (k, va)⟩
    | (s1, .ok (pa, key)) =>
      if !write && s1.spaceBad g.port pa n then ⟨s1, [], [], some (cPoison, va)⟩
      else
        let r := s1.copyPieces g view write l
        { r with bytes := (if write then [] else s1.spaceRead g.port key pa n) ++ r.bytes, places := (pa, key, n) :: r.places }
/-- Writes bytes to places, as far as both reach. -/
def State.writePlaces (s : State) (port : Nat) : List Byte → List (Nat × Nat × Nat) → State
  | _, [] => s
  | bs, (pa, key, n) :: l =>
    let s1 := if bs.isEmpty then s else s.spaceWrite port key pa (bs.take n) 0
    s1.writePlaces port (bs.drop n) l
/-- The bytes of a chunk of a b2m copy, or the fault. -/
def State.slotChunk (s : State) (g : Engine) (n : Nat) : Except FaultInfo (List Byte) :=
  let q := g.bslot.getD (0, 0)
  match s.buf g.e g.ctx q.1 with
  | none => .error (g.info cBuffer 0 0)
  | some b =>
    let a := b.slotByte q.2 + g.cursor
    if (b.slot q.2).exp then .error { g.info cStale (packNat [(0, 5, q.1), (5, 4, q.2), (32, 32, (b.slot q.2).stamp.toNat)]) 0 with pnum := 0x7F }
    else if poolPoisoned (s.elem g.e) a n then .error (g.info cPoison 0 0)
    else .ok (mgetN (s.elem g.e).pool a n)
/-- Cycles that a port takes to move bytes at 320 GB/s and 1.3 GHz (R488). -/
def moveCycles (n : Nat) : Nat := ceilDiv (13 * n) 3200
/-- One chunk of a running copy. Of a chunk that fails, some bytes may have been written: how many is free (R231). -/
def State.copyStep (s : State) (g : Engine) (src dst : Nat) : State :=
  let n := Nat.min 4096 (g.len - g.cursor)
  let rd : Pieces × Option FaultInfo :=
    if g.dir = 2 then match s.slotChunk g n with
      | .ok bs => (⟨s, bs, [], none⟩, none)
      | .error f => (⟨s, [], [], none⟩, some f)
    else
      let r := s.copyPieces g g.sv false (pagePieces (src + g.cursor) n)
      (r, r.bad.map fun x => g.info x.1 (r.st.recordAddr g.started x.2) 0)
  let wr : Pieces × Option FaultInfo :=
    if g.dir = 1 then (⟨rd.1.st, [], [], none⟩, none)
    else
      let r := rd.1.st.copyPieces g g.dv true (pagePieces (dst + g.cursor) n)
      (r, r.bad.map fun x => g.info x.1 (r.st.recordAddr g.startedB x.2) 1)
  match (match rd.2 with | some f => some f | none => wr.2) with
  | some f =>
    let k := wr.1.st.free
    let some_ := if g.dir = 1 ∨ g.cursor = 0 then k.2 else k.2.writePlaces g.port (rd.1.bytes.take (k.1.toNat % (rd.1.bytes.length + 1))) wr.1.places
    some_.failCopy g f
  | none =>
    let s1 := (wr.1.st.writePlaces g.port rd.1.bytes wr.1.places).stands g
    s1.setEngine { g.one with cursor := g.cursor + n, data := if g.dir = 1 then g.data ++ rd.1.bytes else [],
                              state := if g.len ≤ g.cursor + n then .finished else .running, since := s.cycle + moveCycles n }
/-- COPY_CHUNK (R231): the transfer unit takes the k-th request's next chunk of 4 KiB. -/
def execCopyChunk (k : Nat) (s : State) : Res :=
  .next (match nth? s.port.engines k with
    | none => s
    | some g =>
      if g.opc ≠ 0xD0 ∨ !s.reqOpen g then s
      else match g.state, g.base with
        | .sent, _ => match s.resolveCopy g with
          | .error x => s.failCopy g (g.info x.1 x.2.1 x.2.2)
          | .ok none => s
          | .ok (some (s1, h)) =>
            let b := h.base.getD (0, 0)
            (s1.setEngine h).copyStep h b.1 b.2
        | .running, some b =>
          s.copyStep g b.1 b.2
        | _, _ => s)
/-- XFER_COMPLETION (R230): the k-th copy is done and its completion leaves the port. -/
def execXferCompletion (k : Nat) (s : State) : Res :=
  .next (match nth? s.port.engines k with
    | none => s
    | some g =>
      if g.opc ≠ 0xD0 ∨ g.state ≠ .finished ∨ s.cycle < g.since then s
      else
        let c := g.col
        let s1 := ((((s.dropEngine g).endViews g).copyStops g).discardAhead c g.ctx g.e 2)
        match g.bslot with
        | none => s1.engineSend g ⟨g.target, g.sb, .scalar, BitVec.ofNat 64 g.len, none, g.tag, [fromEngine]⟩
        | some (b, i) =>
          if g.dir = 2 then
            let s2 := if g.ha then s1 else s1.releaseAll g.e g.ctx [(b, i)]
            s2.engineSend g ⟨g.target, g.sb, .scalar, BitVec.ofNat 64 g.len, none, g.tag, [fromEngine]⟩
          else
            let lines := ceilDiv g.len 64
            match s1.buf g.e g.ctx b with
            | none => (s1.inflDown c 1).raiseFault (g.info cBuffer 0 3)
            | some x =>
              if !(x.slot i).full then (s1.inflDown c 1).raiseFault (g.info cBuffer 0 3)
              else
                let bytes := g.data ++ List.replicate (64 * lines - g.data.length) 0
                let s2 := s1.setElem g.e ((s1.elem g.e).poolWrite (x.slotByte i) bytes)
                let s3 := s2.slotWritten g.e g.ctx b i g.kp fun q => { q with full := true, hv := false, lines := lines }
                s3.engineSend g ⟨g.target, g.sb, .ref, mkRef b i lines, none, g.tag, []⟩)

/-! ### WEIR: what the element does (R232, R233, R367, R368) -/

/-- The Weir request packet (Table 13.2). -/
def weirPkt (o : Ops) (f : Firing) (sb : BitVec 8) (base ctl thr : Word) : BitVec 384 :=
  pack 384 [(288, 32, nfld thr 32 32), (283, 5, nfld o.t1 2 7), (281, 2, nfld o.t1 0 2), (279, 2, nfld o.imm 7 2), (272, 7, nfld o.imm 0 7),
    (270, 2, f.ctx), (264, 6, f.e / 48), (258, 6, f.e % 48), (250, 8, sb.toNat), (192, 32, nfld thr 0 32), (128, 64, ctl.toNat),
    (64, 64, base.toNat), (0, 64, f.tag.toNat)]
/-- WEIR. -/
def execWeir (o : Ops) (s : State) : Res := s.flow fun f =>
  let a := s.opVal .x64 o.imm o.a; let b := s.opVal .x64 o.imm o.b; let c := s.opVal .x64 o.imm o.c
  let sb := sbOr [a.sb, b.sb, c.sb]
  let done := hereTarget (nfld o.imm 0 7) (nfld o.imm 7 2)
  if sbPZ sb then s.faultFiring f { f.info cPoison sb with pnum := wPort f.word }
  else if sbNL sb then s.xferNow f o done sb
  else s.sendReq f o (weirPkt o f sb a.v b.v c.v) done none sb

/-! ### The Weir (R362 to R376) -/

/-- A candidate qualifies (Table 13.1). -/
def Engine.qualifies (g : Engine) (x : Nat) : Bool :=
  let f := fmtOf g.ty
  let k := rankKey f
  let t := k g.thrLo
  if g.pred = 0 then true
  else if f.read x = .nan then false
  else match g.pred with
    | 1 => decide (t ≤ k x)
    | 2 => decide (t < k x)
    | 3 => decide (k x ≤ t)
    | 4 => decide (k x < t)
    | 5 => k x == t
    | 6 => k x != t
    | 7 => decide (t ≤ k x) && decide (k x ≤ k g.thrHi)
    | _ => decide (t ≤ k (x % 2 ^ (f.bits - 1)))
/-- Parks a request that stands: it gives its context up. -/
def Engine.parkedAs (g : Engine) (saved : Bool) : Engine := { g with state := .suspended, parked := true, saved := saved }
/-- A request that fails its checks is parked as one token of its activation (R363). -/
def State.refuseScan (s : State) (g : Engine) (code addr : Nat) : State :=
  ((s.stands g).setEngine (g.one.parkedAs false)).raiseFault { g.info code addr 0 with cursor := none }
/-- WEIR_REQUEST_ARRIVAL (R363): the k-th request is checked at its port. -/
def execWeirRequestArrival (k : Nat) (s : State) : Res :=
  .next (match nth? s.port.engines k with
    | none => s
    | some g =>
      if g.opc ≠ 0xD1 ∨ g.state ≠ .sent ∨ s.cycle < g.since then s
      else match s.resolveScan g with
        | .error x => s.refuseScan g x.1 x.2
        | .ok none => s
        | .ok (some (s1, h)) => (s1.stands h).setEngine h.one)

/-- A request at a Weir holds a context. -/
def Engine.inContext (g : Engine) : Bool := g.opc == 0xD1 && (g.state == .running || g.state == .finished)
/-- The request may take a context once one is free: its round is open, and its colour has fewer than four others at the Weir (R369). -/
def State.mayTake (s : State) (g : Engine) : Bool :=
  let held := s.port.engines.filter fun x => x.port == g.port && x.id != g.id && x.col == g.col && x.opc == 0xD1 && (x.inContext || x.saved)
  g.opc == 0xD1 && g.state == .waiting && s.reqOpen g && decide (held.length < 4)
/-- WEIR_CONTEXT_TAKE (R369): the k-th request, the first to arrive of those that may, takes a free context. -/
def execWeirContextTake (k : Nat) (s : State) : Res :=
  .next (match nth? s.port.engines k with
    | none => s
    | some g =>
      let used := (s.port.engines.filter fun x => x.port == g.port && x.inContext).length
      let first := s.port.engines.all fun x => x.id == g.id || x.port != g.port || !s.mayTake x || decide (g.since < x.since) || (g.since == x.since && decide (g.id < x.id))
      if s.mayTake g && decide (used < 8) && first then s.setEngine { g with state := .running } else s)

/-! #### Save records (R343, R374) -/

/-- Address of a save record in the Weir save slice of a port. -/
def State.saveAt (s : State) (g : Engine) (i : Nat) : Nat :=
  let x := s.colour g.col
  ceilDiv (x.basin.toNat + 32 * x.basinlen) 65536 * 65536 + 65536 * 128 + 4096 * g.port + 1024 * i
/-- The lowest save record of a request's colour at the Weir that no other request holds. -/
def State.saveFree (s : State) (g : Engine) : Nat :=
  let used := (s.port.engines.filter fun x => x.port == g.port && x.col == g.col && x.saved && x.id != g.id).filterMap fun x => x.bslot.map fun q => q.2
  (firstKey (fun i => !used.contains i) 0 4).getD 0
/-- Number of the save record that a request holds. -/
def Engine.saveIdx (g : Engine) : Nat := match g.bslot with | some q => q.2 | none => 0
/-- The save record. -/
def Engine.saveRecord (g : Engine) : List Byte :=
  bvBytes (setFld g.pkt 320 32 g.cursor) 48 ++ ((rangeFrom 0 g.keeps).map fun i => bvBytes (nth (ones64, 0) g.copy i).1 8).flatten
/-- Physical address and key slot of a save record, or the failure that resets the partition (R301). -/
def State.savePhys (s : State) (g : Engine) (va : Nat) (write : Bool) : Except (Nat × Nat) (Nat × Nat) :=
  let c := s.colour g.col
  if windowOf va != .none then .error (cProtection, va) else match s.walkPlain c.asid va write with
  | .ok x => if x.cv then .error (cProtection, va) else .ok (x.phys va, s.keyFor (s.partOfCol g.col) x va c.keyslot)
  | .fail k => .error (if k = 2 then cProtection else cTranslation, va)
  | .nowhere _ => .error (cTranslation, va)
/-- Suspends a request at the start of the chunk that failed (R372, R374). -/
def State.suspendScan (s : State) (g : Engine) (code va : Nat) : State :=
  let h := { g.parkedAs true with bslot := some (0, s.saveFree g) }
  let s1 := (s.setEngine h).raiseFault { g.info code (s.recordAddr g.started va) 0 with cursor := some g.cursor }
  let at_ := s1.saveAt h h.saveIdx
  match s1.savePhys h at_ true with
  | .error x => s1.failBasin g.col x
  | .ok (pa, key) => s1.setMem ((s1.mem.write key pa h.saveRecord).clearSb pa h.saveRecord.length)
/-- WEIR_RESUME (R374): the k-th request, in a context again, reloads its save record, in the context slot that it has returned to (R245). -/
def execWeirResume (k : Nat) (s : State) : Res :=
  .next (match nth? s.port.engines k with
    | none => s
    | some g =>
      if g.opc ≠ 0xD1 ∨ g.state ≠ .running ∨ !g.saved then s
      else match s.savePhys g (s.saveAt g g.saveIdx) false with
        | .error x => s.failBasin g.col x
        | .ok (pa, key) =>
          if s.mem.bad pa (48 + 8 * g.keeps) then s.failBasin g.col (cPoison, s.saveAt g g.saveIdx)
          else
          let l := s.mem.read key pa 560
          let words := ((rangeFrom 0 g.keeps).map fun i => (BitVec.ofNat 64 (bnat l (48 + 8 * i) 8) : Word)).filter fun w => w != ones64
          let bits := fun w : Word => match lfind (fun x : Word × BitVec 8 => x.1 == w) g.copy with | some x => x.2 | none => 0
          let ps := words.map fun w => (w, bits w)
          let pkt := setFld (setFld (setFld (BitVec.ofNat 384 (bnat l 0 48)) 320 32 0) 270 2 g.ctx) 0 64 g.tag.toNat
          s.setEngine { g with pkt := pkt, cursor := bnat l 40 4, pairs := ps, copy := ps, saved := false })

/-! #### Chunks, results and completion (R364 to R366, R372) -/

/-- What the candidates of a chunk yield: qualifying pairs in ascending order, or the first failure. -/
structure Scan where
  st : State
  pairs : List (Word × BitVec 8)
  bad : Option (Nat × Nat)
/-- Reads the candidates of a list, each of which adds to the heat of its window (R348); the page last walked is kept. -/
def State.scanList (s : State) (g : Engine) (base : Nat) : List Nat → Option (Nat × Nat × Nat) → Scan
  | [], _ => ⟨s, [], none⟩
  | c :: l, page =>
    let va := (base + c * g.stride * g.width) % 2 ^ 64
    let pg := va / 65536 * 65536
    let tr : State × Except Nat (Nat × Nat) := match page with
      | some (v, pa, key) => if v = pg then (s, .ok (pa, key)) else s.enginePhys g g.vw false pg
      | none => s.enginePhys g g.vw false pg
    match tr with
    | (s1, .error k) => ⟨s1, [], some (k, va)⟩
    | (s1, .ok (p0, key)) =>
      let pa := p0 + va % 65536
      if s1.mem.bad pa g.width then ⟨s1, [], some (cPoison, va)⟩
      else
        let v := ofBytes (s1.mem.read key pa g.width)
        let r := (s1.heatUp g.port pa 1 0).scanList g base l (some (pg, p0, key))
        if g.qualifies v then { r with pairs := (mkPair c v, sbExc (tget 0 s1.mem.sbits pa)) :: r.pairs } else r
/-- Puts a pair into a list in rank order; among equal keys the lower index ranks higher (R365). -/
def rankPair (ty : Ty) (x : Word × BitVec 8) : List (Word × BitVec 8) → List (Word × BitVec 8)
  | [] => [x]
  | y :: l =>
    let f := fmtOf ty
    let above := outranks f true (pairVal ty x.1) (pairVal ty y.1) || (!outranks f true (pairVal ty y.1) (pairVal ty x.1) && decide (pairIdx x.1 < pairIdx y.1))
    if above then x :: y :: l else y :: rankPair ty x l
/-- The comparator takes a list of pairs, keeping the K best. -/
def keepBest (ty : Ty) (k : Nat) (best : List (Word × BitVec 8)) : List (Word × BitVec 8) → List (Word × BitVec 8)
  | [] => best
  | x :: l => keepBest ty k ((rankPair ty x best).take k) l
/-- WEIR_CHUNK (R372): the Weir reads the next 1,024 candidates of the k-th request. -/
def execWeirChunk (k : Nat) (s : State) : Res :=
  .next (match nth? s.port.engines k with
    | none => s
    | some g => match g.base with
      | none => s
      | some b =>
        if g.opc ≠ 0xD1 ∨ g.state ≠ .running ∨ g.saved ∨ (g.keeps = 0 ∧ !g.pairs.isEmpty) ∨ g.count ≤ g.cursor then s
        else
          let n := Nat.min 1024 (g.count - g.cursor)
          let r := s.scanList g b.1 (rangeFrom g.cursor n) none
          match r.bad with
          | some x => r.st.suspendScan g x.1 x.2
          | none =>
            let ps := if g.keeps = 0 then r.pairs else keepBest g.ty g.keeps g.pairs r.pairs
            r.st.setEngine { g with cursor := g.cursor + n, pairs := ps, copy := if g.keeps = 0 then [] else ps,
                                    state := if g.count ≤ g.cursor + n then .finished else .running })
/-- Number of the Weir of a port among the holders of credit. -/
def weirNum (p : Nat) : Nat := 2400 + p
/-- WEIR_RESULT_SEND (R365, R366, R369): the next pair of the k-th request leaves, for a unit of the credit that its Weir holds of the colour; a
Weir that holds none asks for it as an element does (R295). -/
def execWeirResultSend (k : Nat) (s : State) : Res :=
  .next (match nth? s.port.engines k with
    | none => s
    | some g => match g.pairs with
      | [] => s
      | (p, b) :: ps =>
        let c := g.col
        let w := weirNum g.port
        if !g.inContext ∨ (0 < g.keeps ∧ g.state ≠ .finished) then s
        else if (s.credit w c).units = 0 then s.askCredit w c 1
        else
          let out : Out := ⟨hereTarget (nfld g.pkt 283 5) (nfld g.pkt 281 2), g.sb ||| b, .scalar, pairOut g.ty (pairIdx p, pairVal g.ty p), none, g.tag, []⟩
          ((s.setCredit w c ⟨(s.credit w c).units - 1, s.cycle⟩).setEngine { g with pairs := ps, sent := g.sent + 1 }).engineSend g out)
/-- WEIR_COMPLETION (R367): after the last pair of the k-th request, its count leaves for CSLOT and CPORT. -/
def execWeirCompletion (k : Nat) (s : State) : Res :=
  .next (match nth? s.port.engines k with
    | none => s
    | some g =>
      if g.opc = 0xD1 ∧ g.state = .finished ∧ g.pairs.isEmpty then
        let s1 := ((s.dropEngine g).endViews g).discardAhead g.col g.ctx g.e 2
        s1.engineSend g ⟨g.target, g.sb, .scalar, BitVec.ofNat 64 g.sent, none, g.tag, [fromEngine]⟩
      else s)

end Sys2Proof.Machine
end

