-- ==== Sys2Proof/Machine/Fetch.lean ====
section
/-! DEFINITION. What the step does around the execution of a word: fetching (R132), the passing of a cycle, the choice of what moves
next (log entry 1), and laying a word where the next step runs it. -/

namespace Sys2Proof.Machine

/-- The word at the program counter of a thread; none outside its image (R132). -/
def State.fetch (s : State) (t : Nat) : Option SlotWord :=
  let th := s.thread t
  let im := s.image th.image
  if th.pc.toNat < im.size then some (tget 0 im.words th.pc.toNat) else none

/-- The instruction that a thread runs next: the decoded word when it is legal in steward form (R83), else an illegal fetch (R85). -/
def State.fetched (s : State) (t : Nat) : Instr :=
  match s.fetch t with
  | none => .illegalWordFetch t
  | some w => match decode w with
    | .error _ => .illegalWordFetch t
    | .ok i => if legal (s.image (s.thread t).image).version .steward i then i else .illegalWordFetch t

/-- The thread can run a word, or looks again at what its WAITT waits for. -/
def State.runnable (s : State) (t : Nat) : Bool :=
  let th := s.thread t
  th.started && !th.halted && decide (th.busy ≤ s.cycle) && (match th.stall with | .none => true | .waitt _ => true | _ => false)

/-- The lowest thread that can run. -/
def State.nextThread (s : State) : Option Nat := tfind (fun _ th => th.started && !th.halted && th.stall == .none && decide (th.busy ≤ s.cycle)) s.stew.threads

/-- The cycle count rises; THROTTLE counts cycles below step 0 (Table 20.5). -/
def State.clock (s : State) : State :=
  { s with cycle := s.cycle + 1,
           mgmt := if 0 < s.mgmt.fclk ∧ s.mgmt.throttle ≠ BitVec.allOnes 64 then { s.mgmt with throttle := s.mgmt.throttle + 1 } else s.mgmt }

/-- The state in which a thread runs its next word. -/
def State.focusOn (s : State) (t : Nat) : State := { s with focus := .thread t }

/-- The instruction of an issued firing. -/
def Firing.instr (f : Firing) : Option Instr := match decode f.word with | .ok i => some i | .error _ => none

/-- Operand tokens of a firing laid for a single word: one null-free zero token for every port it names. -/
def layOps (ty : Ty) (ps : List Nat) : Tbl (Option Token) :=
  (ps.foldl (fun t p => tset none t p (some ⟨0, 0, if ty = .tile then .ref else .scalar, 0, none, .node 0 0 p, .cand 0, false, 0, 0, []⟩)) [])

/-- Lays a word where the next step runs it: at thread 0's program counter when it is legal there, else as an issued firing. -/
def State.placeWord (s : State) (w : SlotWord) : State :=
  match decode w with
  | .error _ => s
  | .ok i =>
    if legal 5 .steward i || (sig i).isNone then
      let th := s.thread 0
      let im := s.image th.image
      let pc := th.pc.toNat
      let im' : Image := ⟨im.version, tset 0 im.words pc w, if pc < im.size then im.size else pc + 1, im.hdr, im.crc⟩
      { (s.setThread 0 { th with started := true, halted := false, stall := .none, busy := 0 }) with
          focus := .thread 0, agenda := .run 0 :: s.agenda,
          stew := { (s.setThread 0 { th with started := true, halted := false, stall := .none, busy := 0 }).stew with
                      images := tset Image.none s.stew.images th.image im' } }
    else
      let o := match sig i with | some g => g.o | none => ⟨.x64, .none, .none, .none, 0, 0, 0, 0⟩
      { s with focus := .node ⟨0, 0, 0, w, 0, layOps o.ty (portsOf o)⟩ }

end Sys2Proof.Machine
end

