-- ==== Sys2Proof/Machine/Links.lean ====
section
/-! DEFINITION. Link tokens and collectives: LSEND, LRECV and COLL (06 R234, R235), and the links (18 R452 to R456). -/

namespace Sys2Proof.Machine

/-- Cycles of a number of microseconds (R6). -/
def usCycles (n : Nat) : Nat := 1300 * n

/-! ### Topology and spray sets (R453, R455) -/

/-- Peer identity of a topology entry; 0 is unused. -/
def peerIn (t : Tbl Word) (n : Nat) : BitVec 32 := fld (tget 0 t n) 32 32
def State.peerOf (s : State) (p n : Nat) : BitVec 32 := peerIn (s.part p).topo n
/-- PARENT of a topology entry. -/
def parentIn (t : Tbl Word) (n : Nat) : Nat := nfld (tget 0 t n) 0 4
/-- This device's topology entry. -/
def State.ownEntry (s : State) (p : Nat) : Nat := (firstKey (fun n => s.peerOf p n == Config.devId) 0 16).getD 0
/-- The link port towards the chip of a topology entry, this chip's parent or child (R455). -/
def linkTo (t : Tbl Word) (n : Nat) : Nat := 80 + nfld (tget 0 t n) 4 4
/-- The spray set of a peer identity: trained links of the partition's PORTMASK with that far end (R453). -/
def State.sprayed (s : State) (p : Nat) (peer : BitVec 32) : List Nat :=
  (rangeFrom 0 12).filter fun l => (s.link l).trained && (s.link l).peer == peer && bit (pPortmask (s.part p).desc) (80 + l)

/-! ### Packets (Table 6.12) -/

/-- The head of a link token. -/
def linkHead (src chan kind : Nat) (sb : BitVec 8) (tag : Word) : BitVec 128 :=
  pack 128 [(82, 4, src), (74, 8, chan), (72, 2, kind), (64, 8, sb.toNat), (0, 64, (tagClean tag).toNat)]
/-- A packet that the link accepts takes the next sequence number of its peer and channel, and stays until it is acknowledged (R453). -/
def State.numbered (s : State) (x : LinkPkt) : LinkPkt × State :=
  let k := seqKey x.peer.toNat x.chan
  let n := tget 0 s.port.txSeq k
  ({ x with seq := n, counted := false, done := [], ops := [], release := [] }, { s with port := { s.port with txSeq := tset 0 s.port.txSeq k ((n + 1) % 2 ^ 32) } })
/-- Hands a packet of a collective to a link port, which accepts it. -/
def State.linkSend (s : State) (p port : Nat) (peer : BitVec 32) (chan : Nat) (head : BitVec 128) (pkt : TilePkt) (e ctx : Nat) : State :=
  let r := s.numbered ⟨port, peer, chan, 0, head, 0, some pkt, p, [], e, ctx, s.loadidAt e ctx, false, [], [], s.cycle⟩
  { r.2 with port := { r.2.port with linkOut := r.2.port.linkOut ++ [r.1] } }

/-! ### LSEND and LRECV (R235) -/

/-- The tile packet of a slot with the token's tag and side-band. -/
def slotPacket (a : Arg) (tag : Word) : TilePkt :=
  let h := a.slot.hdr
  let n := fmtBeats (hFmt h) (hNrow h) (hNcol h)
  ⟨setFld (setFld (setFld h 0 64 (tagClean tag).toNat) 64 8 a.sb.toNat) 90 7 n, if hScl h = 1 then a.slot.scale else 0, tileBody h a.bytes⟩
/-- A null tile packet. -/
def nullPacket (sb : BitVec 8) (tag : Word) : TilePkt := ⟨pack 256 [(0, 64, (tagClean tag).toNat), (64, 8, sb.toNat)], 0, []⟩
/-- LSEND: its packet waits in the queue of its link port as one token, until the link accepts it (DESIGN CHOICE, log entry 29). -/
def execLsend (o : Ops) (s : State) : Res := s.flow fun f =>
  let t := f.p0
  let p := (s.partOfElem f.e).getD 0
  let chan := nfld o.imm 0 8
  let tile := o.ty == .tile
  let a := if tile then s.arg f .tile o.a (bit o.imm 12) else scalarArg ⟨t.pay, t.sb⟩
  let sb := a.sb &&& 0x7F
  let done := outTo o.t1 { outOf 0 f.tag (0, sb) with hist := [fromEngine] }
  let go := fun (pkt : Option TilePkt) =>
    let head := linkHead (s.ownEntry p) chan (if tile then 2 else 0) sb f.tag
    let s1 := (s.latch f o sb).settleHeld f.e (tagCol f.tag) f.count 1
    let x : LinkPkt := ⟨wPort f.word, s.peerOf p (nfld o.imm 8 4), chan, 0, head, if sbDead sb then 0 else t.pay, pkt, p, done, f.e, f.ctx, s.loadidAt f.e f.ctx, true, f.ops,
      releases [a], s.cycle + 1 + s.toPort f.e (wPort f.word)⟩
    ({ s1 with port := { s1.port with linkOut := s1.port.linkOut ++ [x] }, focus := .thread 0 } : State)
  match s.argFault f a with
  | some i => s.faultFiring f i
  | none =>
    if sbPZ sb then s.faultFiring f { f.info cPoison sb with pnum := wPort f.word }
    else if !tile then go none
    else if sbNL sb then go (some (nullPacket sb f.tag))
    else if !a.slot.hv then s.faultFiring f (f.info cBuffer sb)
    else go (some (slotPacket a f.tag))

/-- LRECV: takes the next packet of its peer and channel. One whose colour is not bound to the load is dropped and counted; one of
another kind than TY raises CONFIG, and stands parked as a token of its activation. -/
def execLrecv (o : Ops) (s : State) : Res := s.flow fun f =>
  match s.recvNext f.word with
  | none => { s with focus := .thread 0 }
  | some p =>
    let k := seqKey p.src p.chan
    let l := p.port - 80
    let s1 : State := { s with port := { s.port with linkIn := s.port.linkIn.erase p, rxSeq := tset 0 s.port.rxSeq k ((p.seq + 1) % 2 ^ 32) } }
    let sb := fld p.head 64 8 &&& 0x7F
    let c := tagCol f.tag
    let tile := o.ty == .tile
    if !s.colBound f.e f.ctx c then
      { s1.setLink l { s1.link l with drops := (s1.link l).drops + 1 } with focus := .thread 0 }
    else
      let tok : Token := ⟨f.tag, sb, if nfld p.head 72 2 = 2 then .tile else .scalar, p.pay, p.pkt, .node f.e f.slot 0, .cand s.cycle, true, 0, s.loadidAt f.e f.ctx, []⟩
      let fault := fun (i : FaultInfo) (keep : Bool) =>
        let s2 := if keep then (s1.spendCredit f.e c 1).addToken tok else s1
        ({ s2 with focus := .thread 0 } : State).raiseFault i
      if (nfld p.head 72 2 == 2) != tile then fault (f.info cConfig sb) true
      else if !tile then s1.fire f o 1 (outBoth o ⟨0, sb, .scalar, if sbDead sb then 0 else p.pay, none, f.tag, []⟩) sb
      else
        let q := p.pkt.getD ⟨0, 0, []⟩
        let bad : FaultInfo := { f.info cBuffer sb with addr := q.addr, acc := 1 }
        if !tileOk q then fault bad false
        else if sbDead (hSb q.hdr) then s1.fire f o 1 (outBoth o (refOut f (hSb q.hdr &&& 0x7F) 0)) sb
        else match s1.tileWrite f.e f.ctx q with
          | none => fault bad false
          | some (s2, pay) => s2.fire f o 1 (outBoth o (refOut f (hSb q.hdr &&& 0x7F) pay)) sb

/-! ### The links (R452 to R454) -/

/-- Unacknowledged packets on a link that is in no spray set of theirs go to a member (R454). -/
def State.moveHeld (s : State) : State :=
  let go := fun x : LinkPkt => match s.sprayed x.part x.peer with
    | m :: ms => if (m :: ms).contains (x.port - 80) then x else { x with port := 80 + m }
    | [] => x
  { s with port := { s.port with linkOut := s.port.linkOut.map go } }
/-- LINK_TRAINING (R452), from boot stage 6 on (R475): the far end supports versions up to `v`, from 1. -/
def execLinkTraining (l v : Nat) (peer : BitVec 32) (s : State) : Res :=
  .next (if 12 ≤ l ∨ v = 0 ∨ s.mgmt.boot < 6 then s
    else (s.setLink l { s.link l with trained := true, version := Nat.min v 3, peer := peer, stopped := [] }).moveHeld)

/-- The tile packet of a payload. -/
def packetOf (l : List Byte) : TilePkt :=
  let h : BitVec 256 := BitVec.ofNat 256 (bnat l 0 32)
  let n := if hScl h = 1 then 128 else 0
  ⟨h, BitVec.ofNat 1024 (bnat l 32 n), btake l (32 + n) (64 * hBeats h)⟩
/-- LINK_PACKET_ARRIVAL (R453): a packet reaches link l; a duplicate is dropped by its sequence number, and one ahead of its turn waits. -/
def execLinkPacketArrival (l seq : Nat) (head : BitVec 128) (payload : List Byte) (s : State) : Res :=
  .next (
    let x := s.link l
    let peer := x.peer.toNat
    let chan := nfld head 74 8
    let old := 2 ^ 31 ≤ (seq + 2 ^ 32 - tget 0 s.port.rxSeq (seqKey peer chan)) % 2 ^ 32
    let twice := s.port.linkIn.any fun p => p.src == peer && p.chan == chan && p.seq == seq
    if 12 ≤ l ∨ !x.trained ∨ 2 ^ 32 ≤ seq ∨ old ∨ twice then s
    else
      let kind := nfld head 72 2
      let p : LinkIn := ⟨80 + l, peer, chan, seq, head, BitVec.ofNat 64 (bnat payload 0 8), if kind = 2 then some (packetOf payload) else none⟩
      { s with port := { s.port with linkIn := s.port.linkIn ++ [p] } })

/-- A packet leaves its link queue: its slot is emptied (R235), its token is gone and its done token is sent, with NL where the packet is
discarded (R454). -/
def State.linkDone (s : State) (x : LinkPkt) (null : Bool) : State :=
  if !x.counted then s
  else
    let s1 := (s.releaseAll x.e x.ctx x.release).inflDown (tagCol x.tag) (1 - outCount x.done)
    s1.sendFrom (some x.port) x.e x.ctx 1 (if null then x.done.map fun d => { d with sb := sbOr [d.sb, sbNull] } else x.done)
/-- Lane class of a packet (R452). -/
def LinkPkt.cls (x : LinkPkt) : Nat := if x.pkt.isSome then 1 else 0
/-- The link can accept a packet that waits: it has reached its port, a member of its peer's spray set takes its lane class, and its round is open
and not voided (R344, R352, R452, R453). -/
def State.canAccept (s : State) (x : LinkPkt) : Bool :=
  let c := tagCol x.tag
  let voided := match s.heldRound c x.load (tagIter x.tag) with | some r => r.voided | none => false
  x.counted && decide (x.since ≤ s.cycle) && (s.sprayed x.part x.peer).any (fun l => !(s.link l).stopped.contains x.cls) && s.iterOpen c x.load (tagIter x.tag) && !voided
/-- The link accepts the i-th packet if it can. -/
def State.acceptLink (s : State) (i : Nat) : State :=
  match nth? s.port.linkOut i with
  | none => s
  | some x =>
    if !s.canAccept x then s
    else
      let r := s.numbered x
      ({ r.2 with port := { r.2.port with linkOut := setNth r.2.port.linkOut i r.1 } } : State).linkDone x false
/-- The links accept the packets that they can, in order. -/
def State.acceptLinks (s : State) : State := (rangeFrom 0 s.port.linkOut.length).foldl State.acceptLink s
/-- One fabric cycle passes, in which the links accept what waits for them (R235, R453). -/
def State.tick (s : State) : State := s.starve.clock.acceptLinks
/-- LINK_ACKNOWLEDGEMENT (R453): the peer of link l acknowledges a packet that the link had accepted; bits 31:0 of `seq` are its sequence number, and
its channel stands above them. -/
def execLinkAcknowledgement (l seq : Nat) (s : State) : Res :=
  .next (match findIdx? (fun x : LinkPkt => !x.counted && x.peer == (s.link l).peer && x.chan == seq / 2 ^ 32 && x.seq == seq % 2 ^ 32) s.port.linkOut 0 with
    | none => s
    | some i => if (s.link l).trained then { s with port := { s.port with linkOut := dropNth s.port.linkOut i } } else s)
/-- LINK_LOSS (R454): link l leaves every spray set, and its packets go to another member. -/
def execLinkLoss (l : Nat) (s : State) : Res :=
  .next (
    (s.setLink l { s.link l with trained := false, lost := s.cycle }).moveHeld)

/-! ### Collectives (R234, R456) -/

/-- Formats that COLL accepts. -/
def collFmt (f : Nat) : Bool := f == 0 || f == 1 || f == 2 || f == 5
/-- COLL. -/
def execColl (o : Ops) (s : State) : Res := s.flow fun f =>
  let a := s.arg f .tile o.a (bit o.imm 5)
  let sb := a.sb
  let p := (s.partOfElem f.e).getD 0
  let g := tget 0 (s.part p).groups (nfld o.imm 8 8)
  let n := nfld o.imm 0 5
  match s.argFault f a with
  | some i => s.faultFiring f i
  | none =>
    if sbPZ sb then s.faultFiring f { f.info cPoison sb with pnum := wPort f.word }
    else if sbNL sb then s.fire f o 1 (outTo o.t1 (refOut f sb 0)) sb
    else if !bit g 16 then s.faultFiring f (f.info cConfig sb)
    else if !a.slot.hv ∨ !collFmt (hFmt a.slot.hdr) then s.faultFiring f (f.info cBuffer sb)
    else match s.buf f.e f.ctx n with
      | none => s.faultFiring f (f.info cBuffer sb)
      | some b =>
        if b.size < fmtBeats (hFmt a.slot.hdr) (hNrow a.slot.hdr) (hNcol a.slot.hdr) then s.faultFiring f (f.info cBuffer sb)
        else if (b.slot b.widx).full then s.unfire f
        else
          let x : Coll := ⟨p, nfld o.imm 8 8, f.e, f.ctx, f.slot, wPort f.word, f.tag, sb, nfld o.imm 6 2, bit o.fl 8, bit o.fl 5, n, b.widx, o.t1,
            s.loadidAt f.e f.ctx, s.ownEntry p, slotPacket a f.tag, [], fld g 0 16, nfld g 17 16, s.cycle + 1 + s.toPort f.e (wPort f.word), (s.part p).topo, false⟩
          let s1 := (((s.reserveSlot f.e f.ctx n b).latch f o sb).settle f.e (tagCol f.tag) f.count 1).releaseAll f.e f.ctx (releases [a])
          { s1 with port := { s1.port with colls := s1.port.colls ++ [x] }, focus := .thread 0 }

/-- The values of a contribution as FP32 numbers, or integers. -/
def tileValues (t : TilePkt) : List Nat :=
  let l := tileElems t.hdr t.body
  if hFmt t.hdr = 5 then l else l.map fun v => (fpConv (fmtOf (fmtTy (hFmt t.hdr))) fmtF32 0 false v).1
/-- Combines two values in FP32 or i32 (R50, R234). -/
def Coll.both (g : Coll) (int : Bool) (a b : Nat) : Nat × BitVec 8 :=
  if int then
    let x := sval 32 a; let y := sval 32 b
    match g.op with
    | 0 =>
      let z := x + y
      if g.sat then (if z < -2147483648 then (0x80000000, bOF) else if 2147483647 < z then (0x7FFFFFFF, bOF) else (wrapInt 32 z, 0)) else (wrapInt 32 z, 0)
    | 1 => (if x < y then b else a, 0)
    | _ => (if y < x then b else a, 0)
  else match g.op with
    | 0 => fAdd fmtF32 0 false a b
    | 1 => (fMinMax fmtF32 true a b, 0)
    | _ => (fMinMax fmtF32 false a b, 0)
/-- Combines two lists of values. -/
def Coll.zip (g : Coll) (int : Bool) : List Nat → List Nat → List Nat × BitVec 8
  | a :: as, b :: bs => let x := g.both int a b; let r := g.zip int as bs; (x.1 :: r.1, x.2 ||| r.2)
  | _, _ => ([], 0)
/-- Combines contributions in ascending rank (R234). -/
def Coll.fold (g : Coll) (int : Bool) : List Nat × BitVec 8 → List (List Nat) → List Nat × BitVec 8
  | acc, [] => acc
  | acc, l :: ls => let r := g.zip int acc.1 l; g.fold int (r.1, acc.2 ||| r.2) ls

/-- An entry lies in the subtree of another; `fuel` levels. -/
def leadsTo (t : Tbl Word) (own : Nat) : Nat → Nat → Bool
  | 0, n => n == own
  | k + 1, n => n == own || (n != 0 && parentIn t n != n && leadsTo t own k (parentIn t n))
/-- Members in the subtree of an entry, in the topology that the collective began with (R455). -/
def Coll.under (g : Coll) (c : Nat) : List Nat := (rangeFrom 0 16).filter fun n => bit g.members n && peerIn g.topo n != 0 && leadsTo g.topo c 16 n
/-- This chip's parent for a collective. -/
def Coll.parent (g : Coll) : Nat := parentIn g.topo g.own
/-- Topology entries whose contributions this chip waits for: its own, unless it only forwards, and those of its children with members below them; an
entry of identity 0 is unused (R455). -/
def Coll.awaited (g : Coll) : List Nat :=
  (rangeFrom 0 16).filter fun n => (n == g.own && !g.fwd) || (n != 0 && n != g.own && peerIn g.topo n != 0 && parentIn g.topo n == g.own && !(g.under n).isEmpty)
/-- What the chip has combined, as FP32 or i32 values, and the bits raised. -/
def Coll.combined (g : Coll) : List Nat × BitVec 8 :=
  let int := hFmt g.tile.hdr == 5
  let ts := g.awaited.filterMap fun n => if n = g.own ∧ !bit g.members n then none else tget none g.got n
  match ts.map tileValues with
  | [] => (tileValues g.tile, 0)
  | l :: ls => g.fold int (l, 0) ls
/-- Side-bands of the contributions. -/
def Coll.bits (g : Coll) : BitVec 8 := sbOr (g.sb :: g.got.map fun x => match x.2 with | some t => hSb t.hdr &&& 0x1F | none => 0)
/-- Replaces the k-th collective. -/
def State.putColl (s : State) (k : Nat) (g : Coll) : State := { s with port := { s.port with colls := setNth s.port.colls k g } }
/-- Ends the k-th collective with its result: sent down to the children, and written into DBUF with the contributor's own header, its
reference to T1. -/
def State.collEnd (s : State) (k : Nat) (g : Coll) (vals : List Nat) (bits : BitVec 8) : State :=
  let h := g.tile.hdr
  let fmt := fmtTy (hFmt h)
  let conv := fun v : Nat => if hFmt h = 5 then (v, (0 : BitVec 8)) else fpConv fmtF32 (fmtOf fmt) 0 g.sat v
  let rs := vals.map conv
  let sb := sbOr [g.bits, rs.foldl (fun b r => b ||| r.2) bits]
  let data := packLanes (fmtBits (hFmt h)) (rs.map fun r => r.1)
  let lines := ceilDiv data.length 64
  let t : TilePkt := ⟨setFld h 64 8 sb.toNat, 0, data⟩
  let down := fun (s : State) (c : Nat) => s.linkSend g.part (linkTo g.topo c) (peerIn g.topo c) 256 (linkHead g.own 0 2 g.sb g.tag) t g.e g.ctx
  let s0 := (g.awaited.filter fun c => c != g.own).foldl down { s with port := { s.port with colls := dropNth s.port.colls k } }
  if g.fwd then s0 else match s0.buf g.e g.ctx g.dbuf with
  | none => (s0.inflDown (tagCol g.tag) 1).raiseFault { faultInfo0 with code := cBuffer, reason := 0xD2, slot := g.slot, e := g.e, tag := g.tag, sb := g.sb }
  | some b =>
    let s1 := s0.setElem g.e ((s0.elem g.e).poolWrite (b.slotByte g.dslot) data)
    let s2 := s1.slotWritten g.e g.ctx g.dbuf g.dslot g.kp fun q => { q with full := true, hv := true, hdr := h, scale := 0, lines := lines }
    let s3 := match s2.slotWord g.e g.ctx g.slot with | some w => if bit w 26 then s2.setElem g.e ((s2.elem g.e).capture s2.cycle g.tag g.slot sb) else s2 | none => s2
    s3.sendFrom (some g.port) g.e g.ctx 1 [⟨g.target, sb, .ref, mkRef g.dbuf g.dslot lines, none, g.tag, []⟩]
/-- What a collective that has gathered this chip's part does: the root ends it; another chip sends its part to its parent (R456). -/
def State.collGathered (s : State) (k : Nat) (g : Coll) : State :=
  if !g.awaited.all fun n => (tget none g.got n).isSome then s
  else
    let r := g.combined
    if g.own = 0 then s.collEnd k g r.1 r.2
    else
      let h := g.tile.hdr
      let int := hFmt h == 5
      let up : TilePkt := ⟨setFld (setFld (setFld h 64 8 (sbOr [g.bits, r.2]).toNat) 72 4 (if int then 5 else 0)) 90 7 (fmtBeats 0 (hNrow h) (hNcol h)), 0, packLanes 32 r.1⟩
      s.linkSend g.part (linkTo g.topo g.parent) (peerIn g.topo g.parent) 256 (linkHead g.own 0 2 g.sb g.tag) up g.e g.ctx
/-- A contribution has the tag of the own tile but for CTX, which each chip sets itself (DEDUCED, log entry 29), its shape, and its format or
FP32 (R234). -/
def Coll.fits (g : Coll) (h : BitVec 256) (body : List Byte) : Bool :=
  let o := g.tile.hdr
  tagWithCtx (tagClean (fld h 0 64)) 0 == tagWithCtx (tagClean g.tag) 0 && hNrow h == hNrow o && hNcol h == hNcol o && (hFmt h == hFmt o || (hFmt h == 0 && hFmt o != 5)) && body.length == 64 * fmtBeats (hFmt h) (hNrow h) (hNcol h)
/-- The packet of a topology entry with a sequence number is the next of that peer's collectives (R453). -/
def State.collTurn (s : State) (t : Tbl Word) (n seq : Nat) : Bool := tget 0 s.port.rxSeq (seqKey (peerIn t n).toNat 256) == seq
/-- It has been taken. -/
def State.collTaken (s : State) (t : Tbl Word) (n : Nat) : State :=
  let k := seqKey (peerIn t n).toNat 256
  { s with port := { s.port with rxSeq := tset 0 s.port.rxSeq k ((tget 0 s.port.rxSeq k + 1) % 2 ^ 32) } }
/-- A contribution that reaches a chip which is no member and runs no COLL for it: the chip takes part in the collective to forward only. Which group of
which partition a packet belongs to the spec does not say, and the event names it (R456; DESIGN CHOICE, log entry 66). -/
def State.collForward (s : State) (p grp n seq : Nat) (t : TilePkt) : State :=
  let g := tget 0 (s.part p).groups grp
  let x : Coll := ⟨p, grp, 0, 0, 0, 0, tagClean (fld t.hdr 0 64), 0, 0, false, false, 0, 0, 0, 0, s.ownEntry p, t, tset none [] n (some t), fld g 0 16, nfld g 17 16, s.cycle, (s.part p).topo, true⟩
  let there := s.port.colls.any fun y => y.part == p && y.grp == grp && y.fits t.hdr t.body
  if !pV (s.part p).desc ∨ !bit g 16 ∨ bit x.members x.own ∨ !x.awaited.contains n ∨ there ∨ !s.collTurn x.topo n seq then s
  else
    let s1 := s.collTaken x.topo n
    ({ s1 with port := { s1.port with colls := s1.port.colls ++ [x] } } : State).collGathered s1.port.colls.length x
/-- COLL_CONTRIBUTION (R456): a contribution reaches this chip for its k-th collective: its own, or in the packet of a topology entry a child's, or the
result from its parent. Bits 3:0 of `n` are the entry, and the packet's sequence number stands above them; packets are taken in its order, and
duplicates dropped (R453). Beyond the collectives `k` names a group, 256 to a partition, that this chip only forwards for. -/
def execCollContribution (k n : Nat) (hdr : BitVec 256) (body : List Byte) (s : State) : Res :=
  .next (
    let m := n % 16
    match nth? s.port.colls k with
    | none => s.collForward ((k - s.port.colls.length) / 256) ((k - s.port.colls.length) % 256) m (n / 16) ⟨hdr, 0, body⟩
    | some g =>
      if m = g.own then
        if n ≠ m ∨ g.fwd ∨ (tget none g.got g.own).isSome ∨ s.cycle < g.since ∨ !s.iterOpen (tagCol g.tag) g.load (tagIter g.tag) then s
        else
          let h := { g with got := tset none g.got m (some g.tile), since := s.cycle }
          (s.putColl k h).collGathered k h
      else if !g.fits hdr body ∨ !s.collTurn g.topo m (n / 16) then s
      else if g.awaited.contains m then
        if (tget none g.got m).isSome then s
        else
          let h := { g with got := tset none g.got m (some ⟨hdr, 0, body⟩) }
          ((s.collTaken g.topo m).putColl k h).collGathered k h
      else if m = g.parent ∧ g.awaited.all (fun i => (tget none g.got i).isSome) then
        (s.collTaken g.topo m).collEnd k g (tileValues ⟨hdr, 0, body⟩) (hSb hdr &&& 0x1F)
      else s)
/-- The k-th collective fails: its reference is sent with NL and a COLLFAIL event names the members that contributed (R456). -/
def State.collFail (s : State) (k : Nat) (g : Coll) : State :=
  let here := g.awaited.filter fun n => (tget none g.got n).isSome
  let mask := (here.map fun n => if n = g.own then (if bit g.members n then [n] else []) else g.under n).flatten
  let s0 : State := { s with port := { s.port with colls := dropNth s.port.colls k } }
  if g.fwd then s0 else
  let s1 := s0.modSlot g.e g.ctx g.dbuf g.dslot fun q => { q with full := false }
  let s2 := s1.sendFrom (some g.port) g.e g.ctx 1 [⟨g.target, sbOr [g.sb, sbNull], .ref, 0, none, g.tag, []⟩]
  s2.sendEvent g.part (mkEvent 5 g.grp g.sb (tagCtx g.tag) (tagCol g.tag) g.e 0 (tagClean g.tag).toNat (mask.foldl (fun m n => m + 2 ^ n) 0) 0)
/-- COLL_TIMEOUT (R456): TMO microseconds after this chip's own contribution; a chip that only forwards forgets the collective TMO after it began there
(DESIGN CHOICE, log entry 66). -/
def execCollTimeout (k : Nat) (s : State) : Res :=
  .next (match nth? s.port.colls k with
    | none => s
    | some g => if ((tget none g.got g.own).isSome || g.fwd) && decide (usCycles g.tmo ≤ s.cycle - g.since) then s.collFail k g else s)

/-- Cycle from which a peer's spray set in a partition has been empty: that of the last loss among the links of its PORTMASK (R453). -/
def State.emptySince (s : State) (p : Nat) (peer : BitVec 32) : Nat :=
  s.port.links.foldl (fun n x => if x.2.peer == peer && bit (pPortmask (s.part p).desc) (80 + x.1) then Nat.max n x.2.lost else n) 0
/-- A peer's spray set has been empty for 100 µs (R454). -/
def State.sprayGone (s : State) (p : Nat) (peer : BitVec 32) : Bool := (s.sprayed p peer).isEmpty && decide (usCycles 100 ≤ s.cycle - s.emptySince p peer)
/-- The collective waits on a peer: a child or the parent with its identity has not answered. -/
def Coll.waitsOn (g : Coll) (peer : BitVec 32) : Bool :=
  (g.awaited.any fun n => (tget none g.got n).isNone && peerIn g.topo n == peer) || peerIn g.topo g.parent == peer
/-- Fails every collective of a partition that waits on a peer; `i` is the number of the first left to look at. -/
def State.collsFail (s : State) (p : Nat) (peer : BitVec 32) : Nat → Nat → State
  | _, 0 => s
  | i, n + 1 => match nth? s.port.colls i with
    | none => s
    | some g => if g.part = p ∧ g.waitsOn peer then (s.collFail i g).collsFail p peer i n else s.collsFail p peer (i + 1) n
/-- A peer is given up: its pending packets are discarded and counted, and the collectives that wait on it fail (R454). -/
def State.dropPeer (s : State) (p : Nat) (peer : BitVec 32) : State :=
  let hit := fun y : LinkPkt => y.part == p && y.peer == peer
  let s1 : State := { s with port := { s.port with linkOut := s.port.linkOut.filter fun y => !hit y } }
  let one := fun (s : State) (y : LinkPkt) =>
    let l := y.port - 80
    (s.setLink l { s.link l with drops := (s.link l).drops + 1 }).linkDone y true
  let s2 := (s.port.linkOut.filter hit).foldl one s1
  s2.collsFail p peer 0 s2.port.colls.length
/-- The first peer that a collective waits on whose spray set has been empty for 100 µs. -/
def State.lostPeer (s : State) (g : Coll) : Option (BitVec 32) :=
  lfind (fun q => q != 0 && g.waitsOn q && s.sprayGone g.part q) ((rangeFrom 0 16).map fun n => peerIn g.topo n)
/-- SPRAY_SET_TIMEOUT (R454): the spray set of the peer of the n-th pending packet, or beyond them of a peer that a collective waits on, has been empty
for 100 µs. -/
def execSpraySetTimeout (n : Nat) (s : State) : Res :=
  .next (match nth? s.port.linkOut n with
    | some x => if s.sprayGone x.part x.peer then s.dropPeer x.part x.peer else s
    | none => match nth? s.port.colls (n - s.port.linkOut.length) with
      | some g => (match s.lostPeer g with | some q => s.dropPeer g.part q | none => s)
      | none => s)

end Sys2Proof.Machine
end

