-- ==== Sys2Proof/Machine/Launch.lean ====
section
/-! DEFINITION. Queues, launches, loading and eviction (15 R402 to R407, 16 R412 to R425, 17 R436 to R441): what the hub firmware and the
steward firmware do, by whole steps of each procedure. -/

namespace Sys2Proof.Machine

/-! ### Launch records (Tables 16.2 to 16.4) -/

def lrSeed (r : BitVec 1024) : Word := fld r 960 64
def lrRowlist (r : BitVec 1024) : Nat := nfld r 896 64
def lrImglist (r : BitVec 1024) : Nat := nfld r 832 64
def lrGraphid (r : BitVec 1024) : Word := fld r 768 64
def lrQuota (r : BitVec 1024) : Nat := nfld r 736 32
def lrSentlim (r : BitVec 1024) : Nat := nfld r 704 32
def lrWindow (r : BitVec 1024) : Nat := nfld r 680 24
def lrCap (r : BitVec 1024) : Nat := nfld r 668 12
def lrPrio (r : BitVec 1024) : Nat := nfld r 652 4
def lrCprio (r : BitVec 1024) : Nat := nfld r 648 4
def lrNrows (r : BitVec 1024) : Nat := nfld r 632 16
def lrNload (r : BitVec 1024) : Nat := nfld r 624 8
def lrErow (r : BitVec 1024) : Nat := nfld r 620 4
def lrDonex (r : BitVec 1024) : Nat := nfld r 616 4
def lrNdone (r : BitVec 1024) : Nat := nfld r 600 16
def lrOh (r : BitVec 1024) : Bool := bit r 599
/-- View request i. -/
def lrView (r : BitVec 1024) (i : Nat) : BitVec 96 := fld r (400 + 96 * i) 96
/-- Entry port of PARAM i, and its value. -/
def lrPport (r : BitVec 1024) (i : Nat) : Nat := nfld r (384 + 4 * i) 4
def lrParam (r : BitVec 1024) (i : Nat) : Word := fld r (128 + 64 * i) 64
def lrId (r : BitVec 1024) : Nat := nfld r 64 64
def lrRsn (r : BitVec 1024) : Nat := nfld r 56 8
def lrRsx (r : BitVec 1024) : Nat := nfld r 52 4
def lrRsep (r : BitVec 1024) : Nat := nfld r 48 4
def lrRs (r : BitVec 1024) : Bool := bit r 47
def lrSvn (r : BitVec 1024) : Nat := nfld r 39 8
def lrSvx (r : BitVec 1024) : Nat := nfld r 35 4
def lrSvep (r : BitVec 1024) : Nat := nfld r 31 4
def lrSv (r : BitVec 1024) : Bool := bit r 30
def lrNparam (r : BitVec 1024) : Nat := nfld r 0 3

/-- The low bit of the first field that fails the check of a record (R418, R419), for a record from a virtual function's queue. -/
def State.recordFails (s : State) (p vf : Nat) (r : BitVec 1024) : Option Nat :=
  let checks : List (Nat × Bool) := [(592, nfld r 592 7 != 0), (576, nfld r 576 11 != 0), (480, nfld r 480 11 != 0), (3, nfld r 3 27 != 0),
    (656, !colIn (s.part p).desc (lrCol r) || (s.colour (lrCol r)).owner != vf), (624, lrNload r == 0 || decide (16 < lrNload r)),
    (0, decide (4 < lrNparam r)), (668, lrCap r == 0 || decide (2048 < lrCap r)), (652, lrPrio r == 0), (600, lrNdone r == 0)]
  (lfind (fun x => x.2) checks).map fun x => x.1

/-! ### Virtual queues (R412, R413, R415, R446) -/

/-- A queue waits for a slot: it is enabled, holds unconsumed records, and no slot holds it. -/
def State.vqWaits (s : State) (n : Nat) (v : Vq) : Bool :=
  bit v.ctl 31 && !v.closed && v.tail != v.next && !(s.host.qslots.any fun q => q.2.v && q.2.vq.toNat == n)
/-- VQPRIO. -/
def Vq.prio (v : Vq) : Nat := nfld v.ctl 16 4
/-- The waiting queue of highest VQPRIO that has waited longest. -/
def bestVq : List (Nat × Vq) → Option (Nat × Vq)
  | [] => none
  | x :: l => match bestVq l with
    | none => some x
    | some y => if y.2.prio < x.2.prio ∨ (y.2.prio = x.2.prio ∧ x.2.since ≤ y.2.since) then some x else some y
/-- Queues that wait. -/
def State.waitingVqs (s : State) : List (Nat × Vq) := s.host.vqs.filter fun x => s.vqWaits x.1 x.2
/-- QUEUE_RESIDENCY (R413): a free slot takes the waiting queue that comes first; its counts go on from where they stand. -/
def execQueueResidency (q : Nat) (s : State) : Res :=
  .next (if 48 ≤ q ∨ (s.qslot q).v then s
    else match bestVq s.waitingVqs with
      | none => s
      | some (n, _) =>
        s.setQslot q { s.qslot q with v := true, vq := BitVec.ofNat 16 n, part := (s.vf (n / 1024)).part, since := s.cycle, quantum := false })
/-- A slot may give up its queue (R413). -/
def State.slotYields (s : State) (q : Qslot) : Bool :=
  let v := s.vq q.vq.toNat
  q.adone == q.head && q.copied == q.adone &&
  (v.closed || v.tail == v.next || q.quantum || s.waitingVqs.any fun x => decide (v.prio < x.2.prio))
/-- QUEUE_QUANTUM_EXPIRY (R413): the quantum is over, and a slot that may give up its queue does. -/
def execQueueQuantumExpiry (q : Nat) (s : State) : Res :=
  .next (
    let x := s.qslot q
    let x1 := { x with quantum := x.quantum || decide (x.since + usCycles s.host.quantum ≤ s.cycle) }
    if !x.v then s
    else if s.slotYields x1 then
      let v := s.vq x.vq.toNat
      (s.setVq x.vq.toNat (if v.closed then Vq.reset else { v with since := s.cycle })).setQslot q { x1 with v := false, vq := 0, part := 0, since := 0, quantum := false, answers := [], records := [] }
    else s.setQslot q x1)

/-- The next record of a queue's ring, read under its function's PASID; none when the page does not translate (R446). -/
def State.ringRecord (s : State) (n : Nat) (v : Vq) : Option (List Byte) :=
  let len := nfld v.ctl 0 16
  let va := v.ringbase.toNat + 128 * (v.next.toNat % (if len = 0 then 1 else len))
  match s.hostWalk (s.vf (n / 1024)).pasid va false with
  | .ok x => some (mgetN s.mem.host (x.phys va) 128)
  | _ => none
/-- RECORD_PUBLISH (R415, R446): the hub firmware publishes the next record, or answers one that it cannot read, once every record published before
it has been answered; its LAUNCHID is not known, and is a free value. -/
def execRecordPublish (q : Nat) (s : State) : Res :=
  .next (
    let x := s.qslot q
    let n := x.vq.toNat
    let v := s.vq n
    if !x.v ∨ v.closed ∨ !bit v.ctl 31 ∨ v.tail = v.next ∨ 64 ≤ (x.head - x.adone).toNat then s
    else match s.ringRecord n v with
      | some bs => (s.setVq n { v with next := v.next + 1 }).setQslot q
          { x with records := msetN x.records (128 * (x.head.toNat % 64)) bs, head := x.head + 1 }
      | none =>
        if x.adone ≠ x.head ∨ x.copied ≠ x.adone then s
        else (s.free.2.setVq n { v with next := v.next + 1 }).answerRing n (bvBytes (answerWord s.free.1.toNat 0 0 0 5) 16))

/-! ### Answers (R418, R420) -/

/-- The launch of a record. -/
def Launch.same (l m : Launch) : Bool := l.qslot == m.qslot && l.n == m.n
/-- Replaces a launch. -/
def State.setLaunch (s : State) (l : Launch) : State :=
  { s with host := { s.host with launches := s.host.launches.map fun x => if x.same l then l else x } }
/-- ADONE passes the launches that are answered, in the order of their records (R415). -/
def State.passAnswered (s : State) (qi : Nat) : Nat → State
  | 0 => s
  | n + 1 =>
    let a := (s.qslot qi).adone
    let here := fun l : Launch => l.qslot == qi && l.n == a.toNat && l.stage == .answered
    if s.host.launches.any here then
      let s1 : State := { s with host := { s.host with launches := s.host.launches.filter fun l => !here l } }
      (s1.setAdone qi ((a + 1).zeroExtend 64)).passAnswered qi n
    else s
/-- Answers a launch (R418). -/
def State.answer (s : State) (l : Launch) (data reason code status : Nat) : State :=
  let q := s.qslot l.qslot
  let s1 := s.setQslot l.qslot { q with
    answers := msetN q.answers (16 * (l.n % 64)) (bvBytes (answerWord (lrId l.rcd) data reason code status) 16) }
  let mine := fun o : Offer => o.who == .launch l.qslot l.n
  (({ s1 with fab := { s1.fab with offers := s1.fab.offers.filter fun o => !mine o } } : State).setLaunch { l with stage := .answered, writing := none }).passAnswered l.qslot 64
/-- Writes a binding entry (Table 9.3). -/
def State.putBind (s : State) (p ctx sender : Nat) (v : Word) : State :=
  s.setPart p { s.part p with bind := tset 0 (s.part p).bind (256 * ctx + sender) v }
/-- The launch sender of a launch is unbound. -/
def State.unbind (s : State) (l : Launch) : State := if l.sender = 0 then s else s.putBind l.part l.ctx l.sender 0
/-- A launch ends: its sender is unbound and it is answered. -/
def State.endLaunch (s : State) (l : Launch) (data reason code status : Nat) : State := (s.unbind l).answer l data reason code status

/-! ### Admission (R419) -/

/-- O of a colour whose launch is admitted is set afresh at the colour's next admission into each load (R16, R339). -/
def State.freshOldest (s : State) (c : Nat) : State :=
  { s with fab := { s.fab with colLoads := s.fab.colLoads.map fun x => if x.col == c then { x with afresh := true } else x } }
/-- QSET, WINSET, SENTL and COLSET of an admission. -/
def State.admitColour (s : State) (l : Launch) : State :=
  let r := l.rcd; let c := lrCol r; let x := s.colour c
  let x1 : Colour := { x with quota := lrQuota r, cap := lrCap r }
  let x2 : Colour := if lrWindow r = 0 then x1 else { x1 with window := lrWindow r }
  if x.basinlen < lrQuota r then s.answer l 0 92 0 5
  else if 8388608 < lrWindow r then (s.setColour c x1).answer l 0 0 cIllegal 4
  else if lrSentlim r ≠ 0 ∧ lrSentlim r < 1024 then (s.setColour c x2).answer l 0 0 cIllegal 4
  else ((s.setColour c { x2 with sentlim := lrSentlim r, seed := lrSeed r, cprio := lrCprio r }).restartSentinels c).freshOldest c
/-- A thread that can take launches in: it runs in supervisor mode for the partition. -/
def State.stewardOf (s : State) (p t : Nat) : Bool :=
  (partThreads (s.part p).desc).contains t && (s.thread t).started && !(s.thread t).halted && (s.thread t).super
/-- The residency table of a partition that holds none is placed at the setup of a launch: NRES from 1 to 65,535 and KLO such that every KEY lies
from 1 to 0xFFFF, both free values, for R402 leaves them to system software (DESIGN CHOICE, log entry 101). -/
def State.placeTable (s : State) (p : Nat) : State :=
  let x := s.part p
  if x.resident.isEmpty && x.claims.isEmpty then
    let a := s.free; let b := a.2.free
    let n := 1 + a.1.toNat % 65535
    b.2.setPart p { x with nres := n, klo := 1 + b.1.toNat % (65536 - n) }
  else s
/-- LAUNCH_ADMISSION (R419): a supervisor thread takes the next record of a queue slot and admits its launch. -/
def execLaunchAdmission (t : Nat) (qi : Nat) (s : State) : Res :=
  .next (
    let q := s.qslot qi
    let r := s.recordOf qi q.take.toNat
    let l : Launch := ⟨qi, q.take.toNat, q.part, t, r, .place, 0, 0, 0, 0, 0, [], [], none, .idle, [], false⟩
    if !q.v ∨ q.take = q.head ∨ !s.stewardOf q.part t ∨ s.colBusy q.part (lrCol r) then s
    else
      let s1 := s.setTake qi ((q.take + 1).zeroExtend 64)
      let s2 : State := { s1 with host := { s1.host with launches := s1.host.launches ++ [l] } }
      match s.recordFails q.part (q.vq.toNat / 1024) r with
      | some b => s2.answer l 0 (b / 8) 0 5
      | none => (s2.placeTable q.part).admitColour l)

/-! ### Load images (R95 to R99, Table 3.15) -/

/-- Reads doublewords as LDs of a thread would (R138). -/
def State.ldWords (s : State) (t va : Nat) : Nat → Except (Nat ⊕ Nat) (List Byte)
  | 0 => .ok []
  | n + 1 =>
    if va % 8 ≠ 0 then .error (.inl cAlign)
    else match s.sysRead t va 8 with
      | .error x => .error x
      | .ok b => match s.ldWords t (va + 8) n with
        | .error x => .error x
        | .ok bs => .ok (b ++ bs)
/-- Checks 1 and 2 of Table 3.15, on which the rest of an image depends. -/
def imgHead (h : BitVec 2048) : Option (Nat × Nat) :=
  if nfld h 0 32 ≠ 0x444C5744 ∨ nfld h 48 16 ≠ 256 then some (cConfig, 1)
  else if nfld h 32 16 < 3 ∨ 5 < nfld h 32 16 then some (cVersion, 2)
  else none
/-- The image of a load of the launch: header and body. -/
def State.readImage (s : State) (l : Launch) (j : Nat) : Except (Nat ⊕ Nat) (BitVec 2048 × List Byte) :=
  match s.ldWords l.thread (lrImglist l.rcd + 8 * j) 1 with
  | .error x => .error x
  | .ok a => match s.ldWords l.thread (ofBytes a) 32 with
    | .error x => .error x
    | .ok hb =>
      let h : BitVec 2048 := BitVec.ofNat 2048 (ofBytes hb)
      let len := nfld h 288 32
      if (imgHead h).isSome then .ok (h, [])
      else match s.ldWords l.thread (ofBytes a + 256) (ceilDiv len 8) with
        | .error x => .error x
        | .ok b => .ok (h, b.take len)
/-- The raise descriptor that a header fills, with CTX and PRIO (R422). -/
def descOf (h : BitVec 2048) (c prio : Nat) : BitVec 512 :=
  pack 512 [(448, 64, nfld h 64 64), (384, 64, nfld h 128 64), (352, 32, nfld h 256 32), (320, 32, nfld h 384 32), (304, 16, nfld h 336 16),
    (288, 16, nfld h 320 16), (272, 16, nfld h 240 16), (264, 8, nfld h 216 8), (256, 8, nfld h 208 8), (248, 8, nfld h 200 8),
    (240, 8, nfld h 192 8), (236, 4, nfld h 32 4), (234, 2, c), (202, 32, nfld h 352 32), (198, 4, prio), (197, 1, 1)]
/-- Number of element records of a header. -/
def imgNrec (h : BitVec 2048) : Nat := nfld h 224 16
/-- Bytes of an element record before its CRC, and with its CRC and padding (R96). -/
def recBody (l : List Byte) : Nat := 16 + 8 * bnat l 4 1 + 16 * bnat l 3 1 + 8 * (bnat l 5 2 % 2048)
def recLen (l : List Byte) : Nat := up8 (recBody l + 4)
/-- The element records of a body. -/
def splitRecs : Nat → List Byte → List (List Byte)
  | 0, _ => []
  | n + 1, l => l.take (recLen l) :: splitRecs n (l.drop (recLen l))
/-- The CRC of a record matches. -/
def recCrc (l : List Byte) : Bool := bnat l (recBody l) 4 == (crc32c (l.take (recBody l))).toNat
/-- Fields of a buffer descriptor are in range (Table 3.14). -/
def bufFieldsOk (d : Word) : Bool :=
  nfld d 48 16 == 0 && nfld d 5 3 == 0 && decide (1 ≤ nfld d 38 9) && decide (nfld d 38 9 ≤ 400) && nfld d 21 13 != 0
/-- Records obey R96, and heads and descriptors obey Tables 3.13, 3.14 and 3.16. -/
def recsOk (d : BitVec 512) : Nat → List (List Byte) → Bool
  | _, [] => true
  | lo, l :: ls =>
    let x := bnat l 0 1; let y := bnat l 1 1
    let first := bnat l 2 1; let nw := bnat l 3 1; let nbuf := bnat l 4 1; let nreg := bnat l 5 3
    decide (x < 48) && decide (y < 48) && decide (lo ≤ 48 * y + x) && inFoot d (48 * y + x) && decide (nbuf ≤ 32) && decide (1 ≤ nw) &&
    (dVersion d != 3 || nbuf == 0) && (dVersion d == 5 || nreg == 0) && decide (first + nw ≤ 128) && decide (nreg ≤ 256 * bnat l 9 1) && decide (nreg < 2048) &&
    (rangeFrom 0 nbuf).all (fun i => bufFieldsOk (BitVec.ofNat 64 (bnat l (16 + 8 * i) 8))) &&
    (l.drop (recBody l + 4)).all (fun b => b == 0) && recsOk d (48 * y + x + 1) ls
/-- Header fields are in range (check 3). -/
def imgFields (h : BitVec 2048) (graph : Word) : Bool :=
  let fw := nfld h 208 8; let fh := nfld h 216 8
  nfld h 416 64 == 0 && decide (1 ≤ fw) && decide (1 ≤ fh) && decide (nfld h 192 8 + fw ≤ 48) && decide (nfld h 200 8 + fh ≤ 48) &&
  decide (1 ≤ imgNrec h) && decide (imgNrec h ≤ fw * fh) && decide (1 ≤ nfld h 240 16) && decide (nfld h 240 16 ≤ 4096) &&
  nfld h 256 32 != 0 && decide (1 ≤ nfld h 384 32) && decide (nfld h 384 32 ≤ 8388608) && fld h 128 64 == graph
/-- The first check of Table 3.15 that an image fails before RAISE: code and reason. -/
def State.imageFails (s : State) (h : BitVec 2048) (body : List Byte) (graph : Word) : Option (Nat × Nat) :=
  let recs := splitRecs (imgNrec h) body
  let zeroed := bvBytes (setFld (setFld h 480 512 0) 992 1056 0) 256
  match imgHead h with
  | some x => some x
  | none =>
    if !imgFields h graph || recs.foldl (fun n l => n + recLen l) 0 != nfld h 288 32 then some (cConfig, 3)
    else if Config.sha512 (zeroed ++ body) ≠ fld h 480 512 then some (cConfig, 4)
    else match lfind (fun k => nfld k.2 0 32 == nfld h 352 32 && bit k.2 64 && !bit k.2 66) s.mgmt.keystore with
      | none => some (cConfig, 5)
      | some k =>
        if !Config.ecdsaVerify (fld k.2 96 1056) (bvBytes h 256 |>.take 124) (fld h 992 1056) then some (cConfig, 6)
        else if recs.any fun l => !recCrc l then some (cConfig, 7)
        else if !recsOk (descOf h 0 0) 0 recs then some (cConfig, 8)
        else none

/-! ### Placing a load (R420, R422, R424) -/

/-- A launch that writes a load has reserved a context slot of an element (R422). -/
def State.reserved (s : State) (e c : Nat) : Bool :=
  s.host.launches.any fun m => match m.writing with | some w => dCtx w.desc == c && w.elems.contains e | none => false
/-- A context slot can take the records: inactive and in no one's use at each element, with banks beside the active slots'. -/
def State.slotFits (s : State) (c : Nat) (recs : List ElemRec) : Bool :=
  recs.all fun r => !(s.ctx r.1 c).active && !(s.ctx r.1 c).touched && !s.reserved r.1 c &&
    (s.elem r.1).ctxs.all fun x => x.1 == c || !x.2.active || !banksOverlap r.2.1.partwd x.2.partwd
/-- The lowest context slot of the partition that fits (R422). -/
def State.slotFor (s : State) (p : Nat) (recs : List ElemRec) : Option Nat :=
  lfind (fun c => bit (pCtxmask (s.part p).desc) c && s.slotFits c recs) [0, 1, 2, 3]
/-- Inactive slots give up the banks that a record takes. -/
def State.freeBanks (s : State) (c : Nat) (recs : List ElemRec) : State :=
  let clear := fun (w : Word) (e : Nat) (s : State) (x : Nat) =>
    if x ≠ c ∧ !(s.ctx e x).active ∧ banksOverlap w (s.ctx e x).partwd then s.setCtx e x { s.ctx e x with partwd := 0 } else s
  recs.foldl (fun (s : State) r => [0, 1, 2, 3].foldl (clear r.2.1.partwd r.1) s) s
/-- One step of the loader (R422 to R424): it writes the next element record, between which it may be paused, and after the last raises the load; a
failure empties what it wrote and answers the launch. Nothing runs from the slot until it is active. -/
def State.writeStep (s : State) (l : Launch) (w : Writing) : State :=
  let pd := (s.part l.part).desc
  let c := dCtx w.desc
  match w.left with
  | r :: rest =>
    if s.ctxBusy l.part c ∨ s.elemBusy l.part r.1 then s
    else ((s.freeBanks c [r]).putRecords c [r]).setLaunch { l with writing := some { w with left := rest } }
  | [] =>
    let foot := s.footOf w.desc
    if s.ctxBusy l.part c ∨ foot.any (fun e => s.elemBusy l.part e) then s
    else if !footIn pd w.desc ∨ s.footBarred pd w.desc foot then (s.emptyCtxs c w.elems).endLaunch l 0 0 cProtection 4
    else match s.raiseFails w.desc foot with
      | some r => ((s.raiseRecord l.part w.desc r).emptyCtxs c w.elems).endLaunch l 0 r.2.2.1 cConfig 1
      | none => (s.raiseDone ⟨l.thread, l.part, .raise w.desc w.digest, [], 0, [], none⟩ w.desc w.digest foot).setLaunch { l with writing := none }
/-- The resident load of a header's identities (R421 ff.). -/
def State.residentLoad (s : State) (p : Nat) (h : BitVec 2048) : Option Load :=
  lfind (fun x => x.part == p && x.live && dLoadid x.desc == fld h 64 64 && dGraphid x.desc == fld h 128 64) s.fab.loads
/-- An earlier launch waits for its first load (R420). -/
def State.queued (s : State) (l : Launch) : Bool :=
  match lfind (fun m => m.part == l.part && m.stage == .place && m.j == 0) s.host.launches with
  | some m => l.j == 0 && !m.same l
  | none => false
/-- A launch takes the lowest launch sender that is unbound in its load's context slot, or waits while none is (R419). -/
def State.bindSender (s : State) (l : Launch) (c : Nat) : State :=
  match firstKey (fun i => !bit (tget 0 (s.part l.part).bind (256 * c + i)) 12) 112 144 with
  | none => s
  | some i => (s.putBind l.part c i (BitVec.ofNat 64 (4096 + lrCol l.rcd))).setLaunch
      { l with ctx := c, sender := i, i := 0, stage := if l.j = 0 then .view else .param }
/-- Goes on with load j of a launch: it is written, or begun; what follows when it is resident is given. Every image must carry the record's GRAPHID
(Table 16.2). -/
def State.loadStep (s : State) (l : Launch) (j : Nat) (resident : Load → State) : Res :=
  match l.writing with
  | some w => .next (s.writeStep l w)
  | none =>
    if s.queued l then .next s
    else match s.readImage l j with
      | .error (.inl c) => .next (s.endLaunch l 0 0 c 4)
      | .error (.inr a) => .fault (.noMemory a)
      | .ok (h, body) => .next (match (if fld h 128 64 = lrGraphid l.rcd then s.residentLoad l.part h else none) with
        | some x => resident x
        | none => match s.imageFails h body (lrGraphid l.rcd) with
          | some x => s.endLaunch l 0 x.2 x.1 1
          | none =>
            let recs := (parseElems false (descOf h 0 0) (imgNrec h) 0 body).1
            match s.slotFor l.part recs with
            | some c => s.setLaunch { l with writing := some ⟨descOf h c (lrPrio l.rcd), fld h 480 512, recs.map fun r => r.1, recs⟩ }
            | none => s)
/-- Places the launch's next load, or binds to it when it is resident. -/
def State.placeStep (s : State) (l : Launch) : Res := s.loadStep l l.j fun x => s.bindSender l (dCtx x.desc)
/-- Places the load after the one that a launch runs (R425). -/
def State.placeAhead (s : State) (l : Launch) : Res :=
  let runs := l.stage == .view || l.stage == .param || l.stage == .rows || l.stage == .taking
  if runs && decide (l.j + 1 < lrNload l.rcd) then s.loadStep l (l.j + 1) fun _ => s else .next s
/-- Drops a load that no binding names (R253, R425). -/
def State.dropUnbound (s : State) (x : Load) : State :=
  let c := dCtx x.desc
  let bound := (s.part x.part).bind.any fun b => b.1 / 256 == c && bit b.2 12
  if bound ∨ s.ctxBusy x.part c ∨ s.dropWaits x.foot c [dLoadid x.desc] ∨ s.dropRefused x.foot c [dLoadid x.desc] then s
  else s.dropDone x.foot c [dLoadid x.desc] fun m => m.part == x.part && dCtx m.desc == c && dLoadid m.desc == dLoadid x.desc

/-! ### Adapter residency (R402 to R404) -/

/-- RESIDENCY_CLAIM (R403): a claim for the row of a tag, under the ASID of its colour. -/
def execResidencyClaim (p : Nat) (adp : Word) (tag : Word) (pin : Nat) (s : State) : Res :=
  .next ((s.makeClaim p ⟨adp, (s.colour (tagCol tag)).asid, pin, none, tag⟩).getD s)
/-- ADAPTER_RESIDENT (R403): the hub firmware has copied the adapter of slot n. -/
def execAdapterResident (p : Nat) (n : Nat) (s : State) : Res :=
  .next (
    let x := s.part p
    let e := tget Resident.free x.resident n
    if e.state = 1 then s.setPart p { x with resident := tset Resident.free x.resident n { e with state := 2 } } else s)
/-- CLAIM_RELEASE (R404): the claims on slot n of rows whose last exit token has been taken are released. -/
def execClaimRelease (p : Nat) (n : Nat) (s : State) : Res := .next (s.releaseRows p fun tag m => m == n && s.rowOver p tag)
/-- A launch that ends claims for no more rows; the claims of its rows are released as R404 says, each with its row's last exit token or by a PURGE. -/
def State.dropClaims (s : State) (l : Launch) : State :=
  s.setPart l.part { s.part l.part with claims := (s.part l.part).claims.filter fun w => w.who != some (l.qslot, l.n) }
/-- The tag of a launch's next row. -/
def State.rowTag (s : State) (l : Launch) : Word :=
  let g := match s.loadIn l.part l.ctx fun _ => true with | some x => (s.colLoad (lrCol l.rcd) (dLoadid x.desc)).egen.toNat | none => 0
  mkTag (lrCol l.rcd) l.ctx g 0 l.i

/-! ### The steps of a launch (R419) -/

/-- Makes an offer. -/
def State.makeOffer (s : State) (o : Offer) : State := { s with fab := { s.fab with offers := s.fab.offers ++ [o] } }
/-- The load that a launch runs. -/
def State.launchLoad (s : State) (l : Launch) : Word := match s.loadIn l.part l.ctx fun _ => true with | some x => dLoadid x.desc | none => 0
/-- A replayed input lies behind O, so that its iteration has committed: it is not offered again (R407; DESIGN CHOICE, log entry 116). -/
def State.committedInput (s : State) (l : Launch) (iter : Nat) : Bool := l.redo && behind (s.oldest (lrCol l.rcd) (s.launchLoad l)) iter
/-- Offers a token for a launch, which the port's arbiter decides with the other offers (R290, R291): refused for quota it is made again, refused
otherwise it ends the launch with a free REASON. -/
def State.launchOffer (s : State) (l : Launch) (eport key iter : Nat) (pay : Word) : State :=
  let o : Offer := ⟨l.thread, l.part, l.ctx, eport, l.sender, mkTag 0 l.ctx 0 key iter, pay, none, .fresh, s.cycle, .launch l.qslot l.n⟩
  let make := (s.makeOffer o).setLaunch { l with asked := .out }
  if s.committedInput l iter then s.setLaunch { l with i := l.i + 1 }
  else match l.asked with
    | .idle => make
    | .out => s
    | .got 0 => s.setLaunch { l with i := l.i + 1, asked := .idle }
    | .got 1 => make
    | .got _ => s.free.2.endLaunch l 0 (nfld s.free.1 0 8) 0 5
/-- View requests: each present one is made, then each handle is offered. -/
def State.viewReqStep (s : State) (l : Launch) : State :=
  let req := fun i => lrView l.rcd i
  let skip := s.setLaunch { l with i := l.i + 1 }
  if l.i < 2 then
    let q := req l.i
    if !bit q 95 then skip
    else if s.trimmerHolds (nfld q 64 16) then s
    else match s.viewMake (s.colour (lrCol l.rcd)).asid (nfld q 64 16) (nfld q 0 32) (nfld q 32 32) with
      | .wait => s
      | .fault c => s.endLaunch l 0 0 c 4
      | .done s1 v => s1.setLaunch { l with i := l.i + 1, handles := l.handles ++ [v] }
  else if l.i < 4 then
    let q := req (l.i - 2)
    if !bit q 95 then skip
    else s.launchOffer l (nfld q 91 4) 0 0 (nth 0 l.handles (if l.i = 3 then b2n (bit (req 0) 95) else 0))
  else s.setLaunch { l with i := 0, stage := .param }
/-- Parameters. -/
def State.paramStep (s : State) (l : Launch) : State :=
  if l.i < lrNparam l.rcd then s.launchOffer l (lrPport l.rcd l.i) 0 0 (lrParam l.rcd l.i)
  else s.setLaunch { l with i := if l.j = 0 then 0 else l.took.length, stage := if l.j = 0 then .rows else .taking }
/-- Rows: each is claimed for, and offered once its adapter is resident. -/
def State.rowStep (s : State) (l : Launch) : Res :=
  if lrNrows l.rcd ≤ l.i then .next (s.setLaunch { l with i := l.took.length, stage := .taking })
  else match s.ldWords l.thread (lrRowlist l.rcd + 32 * l.i) 4 with
    | .error (.inl c) => .next (s.endLaunch l 0 0 c 4)
    | .error (.inr a) => .fault (.noMemory a)
    | .ok bs =>
      let r : BitVec 256 := BitVec.ofNat 256 (ofBytes bs)
      let adp : Word := fld r 64 64
      let w : ClaimWait := ⟨adp, (s.colour (lrCol l.rcd)).asid, nfld r 128 16, some (l.qslot, l.n), s.rowTag l⟩
      .next (match nth? l.claims l.i with
        | none =>
          if adp = 0 ∨ s.committedInput l l.i then s.setLaunch { l with claims := l.claims ++ [65536] }
          else if (s.part l.part).claims.any fun v => v.who == w.who then s
          else match s.makeClaim l.part w with
            | some s1 => s1
            | none => (s.dropClaims l).endLaunch l l.i 0 0 2
        | some m =>
          if m = 65536 then s.launchOffer l (lrErow l.rcd) 0 l.i (fld r 0 64)
          else if (tget Resident.free (s.part l.part).resident m).state ≠ 2 then s
          else s.launchOffer l (lrErow l.rcd) ((s.part l.part).klo + m) l.i (fld r 0 64))
/-- The end of a load: NDONE tokens at DONEX, then the sender is unbound and the next load follows. -/
def State.takeStep (s : State) (l : Launch) : State :=
  let c := lrCol l.rcd
  if l.i < lrNdone l.rcd then
    match s.exitToken ⟨l.part, false, l.ctx, lrDonex l.rcd, some c⟩ c with
    | none => s
    | some k => match nth? s.fab.tokens k with
      | none => s
      | some t =>
        let s1 := (s.takeExit k c).releaseRows l.part fun tag _ => tagCol tag == c && tagIter tag == tagIter t.tag && (s.takeExit k c).rowOver l.part tag
        if sbPZ t.sb then s1.endLaunch l 0 0 cPoison 4 else s1.setLaunch { l with i := l.i + 1, last := t.pay, took := l.took ++ [tagIter t.tag] }
  else if l.j + 1 < lrNload l.rcd then (s.unbind l).setLaunch { l with j := l.j + 1, sender := 0, i := 0, stage := .place, took := [], redo := false }
  else (s.dropClaims l).endLaunch l (nfld l.last 0 32) 0 0 0
/-- The load of a launch is evicted or is being evicted: the launch waits for it (R439, R441). -/
def State.launchPaused (s : State) (l : Launch) : Bool :=
  l.sender != 0 && s.host.evicted.any fun v => (v.stage == .parked || v.stage == .out) && v.part == l.part && dCtx v.desc == l.ctx && v.cols.any fun x => x.1 == lrCol l.rcd
/-- LOAD_PLACEMENT (R419, R422, R425): the k-th launch goes on by one step; beyond them the next loads of the launches are placed ahead, and beyond
those the loads that no binding names are dropped. -/
def execLoadPlacement (k : Nat) (s : State) : Res :=
  let n := s.host.launches.length
  match nth? s.host.launches k with
  | none => match nth? s.host.launches (k - n) with
    | some l => if s.launchPaused l then .next s else s.placeAhead l
    | none => .next (match nth? s.fab.loads (k - n - n) with | some x => s.dropUnbound x | none => s)
  | some l =>
    if s.launchPaused l then .next s
    else match l.stage with
      | .place => s.placeStep l
      | .view => .next (s.viewReqStep l)
      | .param => .next (s.paramStep l)
      | .rows => s.rowStep l
      | .taking => .next (s.takeStep l)
      | .answered => .next s

/-! ### Orphans and replays (R308, R421, R407) -/

/-- A PURGE by the firmware, whole, once nothing holds it and nothing else uses the colour (R241, R242). -/
def State.purgeNow (s : State) (p : Nat) (k : SysKind) (c : Nat) : Option State :=
  if s.colBusy p c || s.purgeHeld k then none
  else
    let r := (rectElems (s.part p).desc).foldl (fun (a : State × List (Word × Nat)) e => let x := a.1.purgeAt k c e; (x.1, a.2 ++ x.2.2)) (s, [])
    some (s.guarded (s.fab.tokens.filter fun t => k.covers t.tag)
      (((r.1.purgeRest k c r.2).1.releaseCopies p k).releaseRows p fun tag _ => k.covers tag))
/-- Takes an event out of the queue, and a held event in. -/
def State.dropEvent (s : State) (p i : Nat) : State :=
  let x := s.part p
  match x.held with
  | [] => s.setPart p { x with events := dropNth x.events i }
  | h :: hs => s.setPart p { x with events := dropNth x.events i ++ [h], held := hs }
/-- The launch of a colour that is not yet answered. -/
def State.launchOf (s : State) (p c : Nat) : Option Launch := lfind (fun l => l.part == p && lrCol l.rcd == c && l.stage != .answered) s.host.launches
/-- ORPHAN_ANSWER (R308, R421): the oldest ORPHAN event of partition k is answered by the owner of its colour's launch; a colour without one is left as
it stands. -/
def execOrphanAnswer (k : Nat) (s : State) : Res :=
  .next (match findIdx? (fun ev : Event => nfld ev 60 4 == 3) (s.part k).events 0 with
    | none => s
    | some i =>
      let c := match nth? (s.part k).events i with | some ev => nfld ev 22 12 | none => 0
      match s.launchOf k c with
      | none => s
      | some l =>
        if lrOh l.rcd then (s.dropEvent k i).answer l 0 0 5 6
        else match (s.dropEvent k i).purgeNow k (.purge 0 c 0 0 0) c with
          | none => s
          | some s1 => (s1.dropClaims l).endLaunch l 0 0 5 3)
/-- A USER event by which a comparator reports a mismatch (R462). -/
def mismatchEvent (ev : Event) : Bool := nfld ev 60 4 == 1 && nfld ev 44 16 == 0xFFF0
/-- A FAULT event of code POISON, a COLLFAIL event or a mismatch, of a colour in a context slot (R458, R459, R462). -/
def failEvent (col ctx : Nat) (ev : Event) : Bool :=
  nfld ev 22 12 == col && nfld ev 34 2 == ctx && ((nfld ev 60 4 == 2 && nfld ev 44 4 == cPoison) || nfld ev 60 4 == 5 || mismatchEvent ev)
/-- What the firmware does about a failure: it replays the step, or ends its launch, after a PURGE or without one. -/
inductive FailAct where
  | replay | purge | answer
  deriving DecidableEq, Repr
/-- Notes the oldest failure of a colour in a context slot. The third of one iteration of a launch ends the launch after a PURGE (R458, R459);
the second mismatch of one iteration ends it (R462). -/
def State.noteFailure (s : State) (p col ctx : Nat) : State × FailAct :=
  match findIdx? (failEvent col ctx) (s.part p).events 0 with
  | none => (s, .replay)
  | some i =>
    let ev := (nth? (s.part p).events i).getD 0
    let s1 := s.dropEvent p i
    match s.launchOf p col with
    | none => (s1, .replay)
    | some l =>
      let k := (4294967296 * l.qslot + l.n, tagIter (fld ev 64 64))
      let x := s1.part p
      if mismatchEvent ev then
        let ms := x.mismatches ++ [k]
        (s1.setPart p { x with mismatches := ms }, if 2 ≤ (ms.filter fun y => y == k).length then .answer else .replay)
      else
        let ps := x.poisons ++ [k]
        (s1.setPart p { x with poisons := ps }, if 3 ≤ (ps.filter fun y => y == k).length then .purge else .replay)
/-- The offer of a launch that is still out is withdrawn. -/
def State.dropOffer (s : State) (l : Launch) : State :=
  { s with fab := { s.fab with offers := s.fab.offers.filter fun o => !(o.who == .launch l.qslot l.n) } }
/-- A replay: a new generation, a PURGE of the old one, and the inputs of the colour's launch offered again (R407). -/
def State.replay (s : State) (p col ctx : Nat) : State :=
  (match s.loadIn p ctx fun _ => true with
    | none => s
    | some l =>
      let y := s.colLoad col (dLoadid l.desc)
      if s.carries col l (y.egen + 1).toNat then s
      else match (s.setColLoad { y with egen := y.egen + 1 }).purgeNow p (.purge 1 col y.egen.toNat 0 0) col with
        | none => s
        | some s1 => match s1.launchOf p col with
          | some m =>
            if m.sender = 0 ∨ m.ctx ≠ ctx then s1
            else ((s1.dropClaims m).dropOffer m).setLaunch { m with
              claims := [], i := if m.j = 0 then 2 else 0, stage := if m.j = 0 then .view else .param, asked := .idle, redo := true,
              took := m.took.filter fun i => behind (s1.oldest col (dLoadid l.desc)) i }
          | none => s1)
/-- Ends the launch of a colour with POISON. -/
def State.failLaunch (s : State) (p col : Nat) : State :=
  match s.launchOf p col with
  | some l => (s.dropClaims l).endLaunch l 0 0 cPoison 4
  | none => s
/-- REPLAY (R407, R458, R459, R462): a step is replayed; after the failures that an iteration may have, its launch is answered with POISON. -/
def execReplay (p : Nat) (col : Nat) (ctx : Nat) (s : State) : Res :=
  .next (
    let r := s.noteFailure p col ctx
    match r.2 with
    | .replay => r.1.replay p col ctx
    | .answer => r.1.failLaunch p col
    | .purge => match r.1.purgeNow p (.purge 0 col 0 0 0) col with
      | none => s
      | some s1 => s1.failLaunch p col)

/-! ### Drains (R436) -/

/-- PARKs of whole colours by the firmware (R244, R301). -/
def State.parkNow (s : State) (p : Nat) (cols : List Nat) : State :=
  s.guarded ((cols.map fun c => s.parkMoves c 0 0xFFFFFF).flatten) (cols.foldl (fun (s : State) c => (s.parkColour p c 0 0xFFFFFF).1) s)
/-- The cycles W x DEPTH of a drain, with W as it stands before the QSET; where several loads share the context slot, the largest of those that hold
the colour (log entry 35). -/
def State.drainBound (s : State) (p c ctx : Nat) : Nat :=
  (s.fab.loads.filter fun l => l.part == p && dCtx l.desc == ctx && l.live).foldl (fun n l =>
    if s.fab.colLoads.any fun x => x.col == c && x.load == dLoadid l.desc then Nat.max n (s.window c (some l) * dDepth l.desc) else n) 0
/-- Starts the drain of a colour: QSET with QUOTA 0. -/
def State.drainStart (s : State) (p c ctx : Nat) : State :=
  let s1 := s.setColour c { s.colour c with quota := 0 }
  { s1 with host := { s1.host with drains := s1.host.drains ++ [(c, ctx, s.cycle, s.drainBound p c ctx)] } }
/-- The start and bound of a drain under way. -/
def State.drainOf (s : State) (c ctx : Nat) : Option (Nat × Nat) := (lfind (fun d => d.1 == c && d.2.1 == ctx) s.host.drains).map fun d => d.2.2
/-- A drain is over: nothing is in flight, or W x DEPTH cycles have passed. -/
def State.drainOver (s : State) (c : Nat) (d : Nat × Nat) : Bool := (s.colour c).inflt == 0 || decide (d.2 ≤ s.cycle - d.1)
/-- Forgets a drain. -/
def State.drainEnd (s : State) (c ctx : Nat) : State :=
  { s with host := { s.host with drains := s.host.drains.filter fun d => !(d.1 == c && d.2.1 == ctx) } }
/-- COLOUR_DRAIN (R436): admission closes, and the colour is parked once it has drained. -/
def execColourDrain (p : Nat) (col : Nat) (ctx : Nat) (s : State) : Res :=
  .next (match s.loadIn p ctx fun _ => true with
    | none => s
    | some _ =>
      if !colIn (s.part p).desc col ∨ s.colBusy p col then s
      else match s.drainOf col ctx with
        | none => s.drainStart p col ctx
        | some d => if s.drainOver col d then (s.parkNow p [col]).drainEnd col ctx else s)

/-! ### Eviction (R438, R439) and restore (R441) -/

/-- PRIO of a load's slots. -/
def prioOf (s : State) (l : Load) : Nat := match l.foot with | e :: _ => (s.ctx e (dCtx l.desc)).prio | [] => 0
/-- Loads from the lowest priority and the earliest raise on. -/
def firstVictim (s : State) : List Load → Option Load
  | [] => none
  | x :: l => match firstVictim s l with
    | none => some x
    | some y => if prioOf s x < prioOf s y ∨ (prioOf s x = prioOf s y ∧ x.order ≤ y.order) then some x else some y
/-- The victim of a launch whose next load finds no slot (R438). -/
def State.victimOf (s : State) (l : Launch) : Option Load :=
  match s.readImage l l.j with
  | .error _ => none
  | .ok (h, body) =>
    let recs := (parseElems false (descOf h 0 0) (imgNrec h) 0 body).1
    let fit := (s.slotFor l.part recs).isSome || (s.residentLoad l.part h).isSome || (s.imageFails h body (lrGraphid l.rcd)).isSome
    if l.stage != .place || l.writing.isSome || s.queued l || fit then none
    else firstVictim s (s.fab.loads.filter fun x => x.part == l.part && dGraphid x.desc != fld h 128 64 && x.foot.any fun e => recs.any fun r => r.1 == e)
/-- Colours bound in a context slot, with their senders (R288). -/
def State.boundIn (s : State) (p ctx : Nat) : List (Nat × Nat) :=
  ((s.part p).bind.filter fun b => b.1 / 256 == ctx && bit b.2 12).map fun b => (nfld b.2 0 12, b.1 % 256)
/-- A list without repeats. -/
def dedup : List Nat → List Nat
  | [] => []
  | x :: l => if l.contains x then dedup l else x :: dedup l
/-- Replaces an eviction, by partition, context slot and load. -/
def State.setEvicted (s : State) (v : Evicted) : State :=
  { s with host := { s.host with evicted := s.host.evicted.map fun x => if x.part == v.part && dCtx x.desc == dCtx v.desc && dLoadid x.desc == dLoadid v.desc then v else x } }
/-- The one token of a save or restore path, offered at the colour's iteration O (R439, R441). -/
def State.pathOffer (s : State) (l : Load) (c sender eport : Nat) : Offer :=
  ⟨0, l.part, dCtx l.desc, eport, sender, mkTag 0 (dCtx l.desc) 0 0 (s.oldest c (dLoadid l.desc)), 0, none, .fresh, s.cycle, .path (dLoadid l.desc)⟩
/-- How an eviction goes on with the offer of a colour's path, which takes `n` tokens when it is let in: refused for want of room or at a closed port
it is made again, and a path whose entry port is not the load's is left out (log entry 69). -/
def State.pathStep (s : State) (v : Evicted) (o : Offer) (c n : Nat) (rest : List (Nat × Bool × Nat)) : State × Evicted :=
  match v.asked with
  | .idle => (s.makeOffer o, { v with asked := .out })
  | .out => (s, v)
  | .got 0 => (s, { v with path := (c, true, n) :: rest, asked := .idle })
  | .got 2 => (s, { v with path := (c, true, 0) :: rest, asked := .idle })
  | .got _ => (s, { v with asked := .idle })
/-- The launch record of a colour. -/
def State.recordOfCol (s : State) (p c : Nat) : Option (BitVec 1024) := (s.launchOf p c).map fun l => l.rcd
/-- A colour's sender in an eviction. -/
def Evicted.senderOf (v : Evicted) (c : Nat) : Nat := match lfind (fun x => x.1 == c) v.cols with | some x => x.2.1 | none => 0
/-- The sentinel of a colour is turned off. -/
def State.sentlOff (s : State) (c : Nat) : State := (s.setColour c { s.colour c with sentlim := 0 }).restartSentinels c
/-- Sets PRIO of a context slot at every element of a partition (R247). -/
def State.prioAll (s : State) (p ctx n : Nat) : State :=
  (rectElems (s.part p).desc).foldl (fun (s : State) e => s.setPrio e ctx n) s
/-- One step of the drains and save paths of an eviction; it waits for operations in progress on the colours and the slot (R240). -/
def State.evictPath (s : State) (v : Evicted) (l : Load) : State :=
  let ctx := dCtx v.desc
  let cols := dedup (v.cols.map fun x => x.1)
  match v.path with
  | [] =>
    if s.ctxBusy v.part ctx ∨ cols.any (fun c => s.colBusy v.part c) then s
    else ((s.prioAll v.part ctx 0).parkNow v.part cols).setEvicted { v with stage := .parked }
  | (c, offered, left) :: rest =>
    let r := s.recordOfCol v.part c
    let done := fun s : State => if s.colBusy v.part c then s else ((s.drainEnd c ctx).sentlOff c).setEvicted { v with path := rest }
    if !offered then
      match s.drainOf c ctx with
      | none => if s.colBusy v.part c then s else s.drainStart v.part c ctx
      | some d =>
        if !s.drainOver c d then s
        else match r with
          | some w => if lrSv w then (let x := s.pathStep v (s.pathOffer l c (v.senderOf c) (lrSvep w)) c (lrSvn w) rest; x.1.setEvicted x.2) else done s
          | none => done s
    else if left = 0 then done s
    else
      let x := match r with | some w => lrSvx w | none => 0
      match s.exitToken ⟨v.part, false, ctx, x, some c⟩ c with
      | some k => (s.takeExit k c).setEvicted { v with path := (c, true, left - 1) :: rest }
      | none => s
/-- An eviction begins: the colours bound to the slot are noted. -/
def State.evictStart (s : State) (l : Load) : State :=
  let bound := s.boundIn l.part (dCtx l.desc)
  let cols := bound.map fun b => let x := s.colour b.1; (b.1, b.2, x.cap, x.quota, x.sentlim)
  let v : Evicted := ⟨l.part, l.desc, [], cols, dPrio l.desc, .draining, (dedup (bound.map fun b => b.1)).map fun c => (c, false, 0), .idle⟩
  { s with host := { s.host with evicted := s.host.evicted ++ [v] } }
/-- After the PARK: the record is written and the slot dropped; a DROP refused is preceded by another PARK. -/
def State.evictDrop (s : State) (v : Evicted) (l : Load) : State :=
  let ctx := dCtx v.desc
  if s.ctxBusy v.part ctx ∨ s.dropWaits l.foot ctx [dLoadid l.desc] then s
  else if s.dropRefused l.foot ctx [dLoadid l.desc] then
    (if v.cols.any fun x => s.colBusy v.part x.1 then s else s.parkNow v.part (dedup (v.cols.map fun x => x.1)))
  else
    (s.setEvicted { v with rcd := s.evictRecord l, stage := .out }).dropDone l.foot ctx [dLoadid l.desc]
      fun m => m.part == l.part && dCtx m.desc == ctx && dLoadid m.desc == dLoadid l.desc
/-- EVICTION (R438, R439): the load in a context slot is drained, saved, parked and dropped. -/
def execEviction (p : Nat) (ctx : Nat) (load : Word) (s : State) : Res :=
  .next (match s.loadIn p ctx fun l => dLoadid l.desc == load with
    | none => s
    | some l =>
      match lfind (fun v => v.part == p && dCtx v.desc == ctx && dLoadid v.desc == load) s.host.evicted with
      | some v => match v.stage with
        | .draining => s.evictPath v l
        | .parked => s.evictDrop v l
        | _ => s
      | none =>
        let wanted := s.host.launches.any fun m => m.part == p && (match s.victimOf m with | some x => x == l | none => false)
        if (s.part p).cut != .idle || !wanted then s else s.evictStart l)

/-- The launch senders of an evicted load's colours are bound in its new slot, and their launches go on there. -/
def State.rebind (s : State) (v : Evicted) (ctx : Nat) : List (Nat × Nat) → State
  | [] => s
  | (c, i) :: l =>
    let old := dCtx v.desc
    let b := tget 0 (s.part v.part).bind (256 * old + i)
    if i < 112 ∨ !bit b 12 ∨ nfld b 0 12 ≠ c then s.rebind v ctx l
    else
      let s1 := s.putBind v.part old i 0
      let j := if bit (tget 0 (s1.part v.part).bind (256 * ctx + i)) 12 then (firstKey (fun n => !bit (tget 0 (s1.part v.part).bind (256 * ctx + n)) 12) 112 144).getD i else i
      let s2 := s1.putBind v.part ctx j (BitVec.ofNat 64 (4096 + c))
      let go := fun m : Launch => if m.part == v.part && m.ctx == old && m.sender == i && lrCol m.rcd == c then { m with ctx := ctx, sender := j } else m
      ({ s2 with host := { s2.host with launches := s2.host.launches.map go } } : State).rebind v ctx l
/-- The record goes into the lowest free slot (R422), and its colours return to it. -/
def State.evictedPlace (s : State) (k : Nat) (v : Evicted) (ctx : Nat) : State :=
  let recs := (parseElems true v.desc 2304 0 (v.rcd.drop 64)).1
  let cols := dedup (v.cols.map fun x => x.1)
  if s.slotFor v.part recs ≠ some ctx ∨ s.ctxBusy v.part ctx ∨ cols.any (fun c => s.colBusy v.part c) then s
  else match (s.freeBanks ctx recs).placeLoad v.part (restoredDesc v.desc ctx) recs with
    | none => s
    | some s1 =>
      let back := fun (s : State) (c : Nat) => if s.unparkStatus v.part c 0 0xFFFFFF (some ctx) = 0 then s.unpark c 0 0xFFFFFF (some ctx) else s
      let s2 := cols.foldl back s1
      let s3 := s2.prioAll v.part ctx v.prio
      let s4 := s3.rebind v ctx (v.cols.map fun x => (x.1, x.2.1))
      { s4 with host := { s4.host with evicted := setNth s4.host.evicted k { v with stage := .back ctx, path := cols.map fun c => (c, false, 0) } } }
/-- One step of the restore paths; then the colours' settings are written back. -/
def State.evictedPath (s : State) (k : Nat) (v : Evicted) (ctx : Nat) : State :=
  let put := fun (s : State) (w : Evicted) => ({ s with host := { s.host with evicted := setNth s.host.evicted k w } } : State)
  match v.path with
  | [] =>
    if v.cols.any fun x => s.colBusy v.part x.1 then s else
    let one := fun (s : State) (x : Nat × Nat × Nat × Nat × Nat) =>
      (s.setColour x.1 { s.colour x.1 with cap := x.2.2.1, quota := x.2.2.2.1, sentlim := x.2.2.2.2 }).restartSentinels x.1
    let s1 := v.cols.foldl one s
    { s1 with host := { s1.host with evicted := dropNth s1.host.evicted k } }
  | (c, offered, left) :: rest =>
    let r := s.recordOfCol v.part c
    if !offered then match r, s.loadIn v.part ctx fun l => dLoadid l.desc == dLoadid v.desc with
      | some w, some l =>
        let i := match s.launchOf v.part c with | some m => m.sender | none => 0
        if lrRs w then (let x := s.pathStep v (s.pathOffer l c i (lrRsep w)) c (lrRsn w) rest; put x.1 x.2) else put s { v with path := rest }
      | _, _ => put s { v with path := rest }
    else if left = 0 then put s { v with path := rest }
    else
      let x := match r with | some w => lrRsx w | none => 0
      match s.exitToken ⟨v.part, false, ctx, x, some c⟩ c with
      | some t => put (s.takeExit t c) { v with path := (c, true, left - 1) :: rest }
      | none => s
/-- EVICTED_RESTORE (R441): the k-th evicted load returns to a free context slot. -/
def execEvictedRestore (k : Nat) (ctx : Nat) (s : State) : Res :=
  .next (match nth? s.host.evicted k with
    | none => s
    | some v => match v.stage with
      | .out => s.evictedPlace k v ctx
      | .back n => s.evictedPath k v n
      | _ => s)

end Sys2Proof.Machine
end

