-- ==== Sys2Proof/Machine/Host.lean ====
section
/-! DEFINITION. The host interface (11 R328, 18 R442 to R451): mailbox requests, virtual queues, function level resets, page responses
and invalidations; partition resets, hardware errors and debug halts (19 R457, R460). -/

namespace Sys2Proof.Machine

/-! ### Mailbox requests (R447) -/

/-- Number of the physical function. -/
def pf : Nat := 64
/-- The host interface is up (R476). -/
def State.hostUp (s : State) : Bool := s.mgmt.boot == 7
/-- The answer to a request: a status and a value. -/
def State.reqDone (s : State) (f status : Nat) (value : Word) : State :=
  s.setVf f { s.vf f with status := BitVec.ofNat 8 status, value := value }
/-- Submits a request of a code from a function: the code goes to doubleword 0 of its mailbox, and the request is performed. -/
def State.request (s : State) (f code : Nat) (k : State → State) : Res :=
  .next (if 64 < f ∨ !s.hostUp then s
    else
      let x := s.vf f
      k (s.setVf f { x with mailbox := tset 0 x.mailbox 0 (BitVec.ofNat 64 code) }))
/-- A request that only the physical function may make. -/
def State.pfRequest (s : State) (f code : Nat) (k : State → State) : Res :=
  s.request f code fun s => if f = pf then k s else s.reqDone f 1 0

/-- SETROOT (R332). -/
def execSetroot (f : Nat) (asid : Nat) (v : Word) (s : State) : Res :=
  s.pfRequest f 1 fun s =>
    if 65536 ≤ asid ∨ nfld v 1 13 ≠ 0 ∨ nfld v 52 12 ≠ 0 then s.reqDone f 2 0
    else ({ s with mem := { s.mem with asids := tset 0 s.mem.asids asid v } } : State).reqDone f 0 0

/-- The partition that owns an ASID. -/
def State.partOfAsid (s : State) (a : Nat) : Option Nat := tfind (fun _ p => pV p.desc && asidIn p.desc a) s.parts
/-- A function may ask for a partition: its own, or any for the physical function. -/
def State.mayAsk (s : State) (f p : Nat) : Bool := f == pf || (s.vf f).part == p
/-- Regions r to r + n - 1. -/
def State.regionsClash (s : State) (asid vbase npage : Nat) : Bool :=
  s.cov.regions.any fun g => g.2.v && g.2.asid == asid && decide (vbase < g.2.vbase + 65536 * g.2.npage) && decide (g.2.vbase < vbase + 65536 * npage)
/-- What RESREGION answers (R379, R447): a status, and for status 0 the free region of lowest number and its entry; its pages take the
partition's first key slot. -/
def State.regionAnswer (s : State) (f asid npage : Nat) (vbase : Word) : Nat × Option (Nat × Region) :=
  match s.partOfAsid asid with
  | none => (2, none)
  | some p =>
    let d := (s.part p).desc
    if !s.mayAsk f p then (1, none)
    else if npage = 0 ∨ 4194304 < npage ∨ nfld vbase 0 16 ≠ 0 ∨ 2 ^ 57 < vbase.toNat + 65536 * npage ∨ s.regionsClash asid vbase.toNat npage then (2, none)
    else match firstKey (fun r => !(s.region r).v) (pRegion0 d) (pNregion d) with
      | none => (3, none)
      | some r => (0, some (r, ⟨true, false, 0, asid, p, npage, vbase.toNat, pKey0 d, 0, 0, 0, 0, 0, 0⟩))
/-- RESREGION: it waits, the machine as it is, behind a view instruction of that region that the Trimmer has taken (R390). -/
def execResregion (f : Nat) (asid : Nat) (npage : Nat) (vbase : Word) (s : State) : Res :=
  let a := s.regionAnswer f asid npage vbase
  if a.2.any fun x => s.trimmerHolds x.1 then .next s
  else s.request f 2 fun s =>
    match a.2 with
    | none => s.reqDone f a.1 0
    | some x => (s.setRegion x.1 x.2).reqDone f a.1 (BitVec.ofNat 64 x.1)

/-- DESTREGION (R395): DYING is set, and the pages are freed as R389 lets them be; it waits behind what the Trimmer has taken (R390). -/
def execDestregion (f : Nat) (r : Nat) (s : State) : Res :=
  if s.trimmerHolds r then .next s
  else s.request f 3 fun s =>
    let g := s.region r
    if !g.v then s.reqDone f 2 0
    else if !s.mayAsk f g.part then s.reqDone f 1 0
    else if g.dying then s.reqDone f 0 0
    else (((s.setRegion r { g with dying := true }).uncoverDying r).endRegion r).reqDone f 0 0

/-- A colour or region names a key slot (R447). -/
def State.keyNamed (s : State) (n : Nat) : Bool :=
  (s.colours.any fun c => c.2.keyslot == n) || s.cov.regions.any fun g => g.2.v && g.2.keyslot == n
/-- LOADKEY (R447): what a line holds under the slot's old key is unrelated to what it reads as from then on (R451). -/
def execLoadkey (f : Nat) (n : Nat) (wrapped : List Byte) (s : State) : Res :=
  s.pfRequest f 4 fun s =>
    if n = 0 ∨ 256 ≤ n ∨ !Config.unwrapOk wrapped then s.reqDone f 2 0
    else if s.keyNamed n then s.reqDone f 3 0
    else
      let m := { s.mem with keys := s.mem.keys.map fun x => if x.2 = n then (x.1, 257 + n) else x }
      let ks := if s.host.keysLoaded.contains n then s.host.keysLoaded else s.host.keysLoaded ++ [n]
      ({ s with mem := m, host := { s.host with keysLoaded := ks } } : State).reqDone f 0 0

/-- SETGROUP (R456, Table 18.5); busy while a collective in flight names the entry. -/
def execSetgroup (f : Nat) (p : Nat) (g : Nat) (v : Word) (s : State) : Res :=
  s.pfRequest f 5 fun s =>
    if 16 ≤ p ∨ !pV (s.part p).desc ∨ 256 ≤ g ∨ nfld v 33 31 ≠ 0 ∨ (bit v 16 ∧ nfld v 17 16 = 0) then s.reqDone f 2 0
    else if s.port.colls.any fun c => c.part == p && c.grp == g then s.reqDone f 3 0
    else (s.setPart p { s.part p with groups := tset 0 (s.part p).groups g v }).reqDone f 0 0

/-! ### Partition descriptors (R442) -/

/-- Two ranges of numbers overlap. -/
def rangesMeet (a n b m : Nat) : Bool := n != 0 && m != 0 && decide (a < b + m) && decide (b < a + n)
/-- Two partitions overlap in something that R442 keeps apart. -/
def partsMeet (d e : BitVec 512) : Bool :=
  (rangesMeet (pX0 d) (pW d) (pX0 e) (pW e) && rangesMeet (pY0 d) (pH d) (pY0 e) (pH e)) ||
  rangesMeet (pCol0 d) (pNcol d) (pCol0 e) (pNcol e) || rangesMeet (pAsid0 d) (pNasid d) (pAsid0 e) (pNasid e) ||
  rangesMeet (pKey0 d) (pNkey d) (pKey0 e) (pNkey e) || rangesMeet (pShkey d) 1 (pKey0 e) (pNkey e) || rangesMeet (pKey0 d) (pNkey d) (pShkey e) 1 ||
  pShkey d == pShkey e || rangesMeet (pRegion0 d) (pNregion d) (pRegion0 e) (pNregion e) || (pCores d &&& pCores e) != 0
/-- Fields of a descriptor are in range (Table 18.1). -/
def partFieldsOk (d : BitVec 512) : Bool :=
  nfld d 295 217 == 0 && (!pV d || (decide (1 ≤ pW d) && decide (1 ≤ pH d) && decide (pX0 d + pW d ≤ 48) && decide (pY0 d + pH d ≤ 48) &&
    decide (pCol0 d + pNcol d ≤ 4096) && decide (pAsid0 d + pNasid d ≤ 65536) && decide (1 ≤ pKey0 d) && decide (pKey0 d + pNkey d ≤ 256) &&
    decide (pRegion0 d + pNregion d ≤ 65536) && decide (1 ≤ pShkey d) && !(decide (pKey0 d ≤ pShkey d) && decide (pShkey d < pKey0 d + pNkey d))))
/-- What a partition uses of each field group (R447). -/
def State.partBusy (s : State) (p : Nat) (d e : BitVec 512) : Bool :=
  let gone := !pV e
  let loads := s.fab.loads.any fun l => l.part == p
  let changed := fun (b : Bool) => b || gone
  (changed (pX0 d != pX0 e || pY0 d != pY0 e || pW d != pW e || pH d != pH e || pCtxmask d != pCtxmask e || pPortmask d != pPortmask e || pShkey d != pShkey e) && loads) ||
  (changed (pCol0 d != pCol0 e || pNcol d != pNcol e) && ((s.part p).bind.any (fun b => bit b.2 12) || s.colours.any fun c => colIn d c.1 && s.colLive c.1)) ||
  (changed (pAsid0 d != pAsid0 e || pNasid d != pNasid e) && ((s.mem.asids.any fun a => asidIn d a.1) || s.cov.regions.any fun g => g.2.v && g.2.part == p)) ||
  (changed (pKey0 d != pKey0 e || pNkey d != pNkey e) && ((s.colours.any fun c => keyIn d c.2.keyslot) || s.cov.regions.any fun g => g.2.v && g.2.part == p)) ||
  (changed (pRegion0 d != pRegion0 e || pNregion d != pNregion e) && s.cov.regions.any fun g => g.2.v && g.2.part == p) ||
  (changed (pCores d != pCores e) && (partThreads d).any fun t => (s.thread t).started && !(s.thread t).halted)
/-- A 256-bit view key from the device's random source (R384): four free values. -/
def State.randomKey (s : State) : State × BitVec 256 :=
  let a := s.free; let b := a.2.free; let c := b.2.free; let d := c.2.free
  (d.2, pack 256 [(0, 64, a.1.toNat), (64, 64, b.1.toNat), (128, 64, c.1.toNat), (192, 64, d.1.toNat)])
/-- Creates a partition: a view key, a frame pool, a zeroed measurement slot, colours at their reset values, and threads that
nothing has started (R258, R284, R381, R384, R477). -/
def State.createPart (s : State) (p : Nat) (v : BitVec 512) : State :=
  let k := s.randomKey
  let x : Part := { Part.reset with desc := v, viewKey := k.2, frames := Config.framePool p, kept := (s.part p).kept }
  let s0 := (partCols v).foldl (fun (s : State) c => s.returnCredit c) (k.1.setPart p x)
  let s1 := (partThreads v).foldl (fun (s : State) t => s.setThread t { Thread.reset with image := (s.thread t).image }) (s0.resetColours (partCols v))
  { s1 with mgmt := { s1.mgmt with slots := tset 0 s1.mgmt.slots (8 + p) 0 } }
/-- The threads of cores that a live partition gains are at their reset state, as those of a new one (R258). -/
def State.freshCores (s : State) (d w : BitVec 512) : State :=
  ((partThreads w).filter fun t => pV w && !(partThreads d).contains t).foldl (fun (s : State) t => s.setThread t { Thread.reset with image := (s.thread t).image }) s
/-- SETPART (R442, R447); FRAMES is read-only. -/
def execSetpart (f : Nat) (p : Nat) (v : BitVec 512) (s : State) : Res :=
  s.pfRequest f 6 fun s =>
    let d := (s.part p).desc
    let w := setFld v 155 32 0
    if 16 ≤ p ∨ !partFieldsOk w ∨ (pV w ∧ s.parts.any fun q => q.1 != p && pV q.2.desc && partsMeet w q.2.desc) then s.reqDone f 2 0
    else if pV d && s.partBusy p d w then s.reqDone f 3 0
    else if pV w && !pV d then (s.createPart p w).reqDone f 0 0
    else ((s.setPart p { s.part p with desc := w }).freshCores d w).reqDone f 0 0

/-! ### Key store requests (R480) -/

/-- The signature of an entry verifies under an entry of the key store. -/
def signedBy (k : BitVec 1152) (v : BitVec 1152) (sig : BitVec 1056) : Bool :=
  bit k 64 && !bit k 66 && Config.ecdsaVerify (fld k 96 1056) (bvBytes v 144) sig
/-- An entry is signed by a valid SYS entry; the first SYS entry by entry 0. -/
def State.keySigned (s : State) (v : BitVec 1152) (sig : BitVec 1056) : Bool :=
  if bit v 65 && !s.mgmt.keystore.any fun k => k.1 != 0 && bit k.2 64 && bit k.2 65 then signedBy (tget 0 s.mgmt.keystore 0) v sig
  else s.mgmt.keystore.any fun k => bit k.2 65 && signedBy k.2 v sig
/-- Writes a key store entry. -/
def State.putKey (s : State) (n : Nat) (v : BitVec 1152) : State := { s with mgmt := { s.mgmt with keystore := tset 0 s.mgmt.keystore n v } }
/-- ADDKEY: the free entry of lowest number from 1 on. -/
def execAddkey (f : Nat) (v : BitVec 1152) (sig : BitVec 1056) (s : State) : Res :=
  s.pfRequest f 7 fun s =>
    if !bit v 64 ∨ nfld v 67 29 ≠ 0 ∨ nfld v 32 32 ≠ 0 ∨ !s.keySigned v sig then s.reqDone f 2 0
    else if s.mgmt.keystore.any fun k => bit k.2 64 && nfld k.2 0 32 == nfld v 0 32 then s.reqDone f 3 0
    else match firstKey (fun n => !bit (tget 0 s.mgmt.keystore n) 64) 1 63 with
      | none => s.reqDone f 3 0
      | some n => (s.putKey n v).reqDone f 0 0
/-- REVKEY: sets REV of the entry; the signature is over the entry with REV set. -/
def execRevkey (f : Nat) (keyid : BitVec 32) (sig : BitVec 1056) (s : State) : Res :=
  s.pfRequest f 8 fun s =>
    match lfind (fun k => bit k.2 64 && fld k.2 0 32 == keyid) s.mgmt.keystore with
    | none => s.reqDone f 2 0
    | some k =>
      let v := setFld k.2 66 1 1
      if s.mgmt.keystore.any fun q => bit q.2 65 && signedBy q.2 v sig then (s.putKey k.1 v).reqDone f 0 0 else s.reqDone f 2 0

/-! ### Colours (R286) -/

/-- SETCOLOUR. -/
def execSetcolour (f : Nat) (d1 : Word) (d2 : Word) (d3 : Word) (d4 : Word) (d5 : Word) (d6 : Word) (s : State) : Res :=
  s.pfRequest f 9 fun s0 =>
    let m := s0.vf f
    let s := s0.setVf f { m with mailbox := [(1, d1), (2, d2), (3, d3), (4, d4), (5, d5), (6, d6)].foldl (fun t x => tset 0 t x.1 x.2) m.mailbox }
    let c := nfld d1 0 12; let p := nfld d1 12 4
    let d := (s.part p).desc
    let x := s.colour c
    let key := nfld d4 0 8; let asid := nfld d4 16 16; let owner := nfld d6 0 7
    if !colIn d c ∨ !keyIn d key ∨ !asidIn d asid ∨ (64 ≤ owner ∧ owner ≠ 127) ∨ !colsetOk 0 d2 ∨ !colsetOk 1 d3 ∨ d3.toNat < x.quota then s.reqDone f 2 0
    else if s.colLive c then s.reqDone f 3 0
    else (s.setColour c { x with basin := d2, basinlen := d3.toNat, keyslot := key, asid := asid, pasid := nfld d5 0 20, owner := owner }).reqDone f 0 0

/-! ### Virtual queues (R445) -/

/-- A queue becomes or stays one that waits: the time from which it has waited. -/
def State.vqSince (s : State) (n : Nat) (old new : Vq) : Vq := if s.vqWaits n old then new else { new with since := s.cycle }
/-- DOORBELL_WRITE: the ring tail of queue q of virtual function f. -/
def execDoorbellWrite (f : Nat) (q : Nat) (v : Word) (s : State) : Res :=
  .next (
    let n := 1024 * f + q
    let x := s.vq n
    if 64 ≤ f ∨ 1024 ≤ q ∨ !s.hostUp then s else s.setVq n (s.vqSince n x { x with tail := v.truncate 32 }))
/-- A ring length is a power of two from 64 to 32,768 (Table 18.2). -/
def ringLenOk (n : Nat) : Bool := (rangeFrom 6 10).any fun k => n == 2 ^ k
/-- QUEUE_DESCRIPTOR_WRITE: doubleword n of a descriptor; that of a queue that is enabled and not empty is read only, and
a CTL that enables a ring of no legal length is ignored (DESIGN CHOICE, log entry 117). -/
def execQueueDescriptorWrite (f : Nat) (q : Nat) (n : Nat) (v : Word) (s : State) : Res :=
  .next (
    let k := 1024 * f + q
    let x := s.vq k
    let y : Vq := match n with
      | 0 => { x with ringbase := BitVec.ofNat 64 (128 * (v.toNat / 128)) }
      | 1 => { x with cmplbase := BitVec.ofNat 64 (128 * (v.toNat / 128)) }
      | 2 => if bit v 31 && !ringLenOk (nfld v 0 16) then x else { x with ctl := v &&& 0x3F800FFFFF }
      | _ => x
    if 64 ≤ f ∨ 1024 ≤ q ∨ !s.hostUp ∨ (bit x.ctl 31 ∧ x.tail ≠ x.next) then s else s.setVq k (s.vqSince k x y))

/-! ### Function level resets, page responses and invalidations (R328, R450) -/

/-- Closes the virtual queues of a function: one with no slot at once, the others when every published record is answered. -/
def State.closeVqs (s : State) (f : Nat) : State :=
  let held := fun n : Nat => s.host.qslots.any fun q => q.2.v && q.2.vq.toNat == n
  let one := fun x : Nat × Vq => if x.1 / 1024 ≠ f then some x else if held x.1 then some (x.1, { x.2 with closed := true }) else none
  { s with host := { s.host with vqs := s.host.vqs.filterMap one } }
/-- Requests that wait take free group slots. -/
def Vf.refill (f : Vf) : Vf := f.waiting.foldl (fun f r => f.request r) { f with waiting := [] }
/-- The PASIDs whose pages a function asks the host for: its own, and those of its partition's colours that no other function serves (R328, R450). -/
def State.pasidsOf (s : State) (f : Nat) : List Nat :=
  let p := (s.vf f).part
  dedup ((s.vf f).pasid :: ((partCols (s.part p).desc).map fun c => (s.colour c).pasid).filter fun n => s.vfOf p n == some f)
/-- FUNCTION_LEVEL_RESET (R450). -/
def execFunctionLevelReset (f : Nat) (s : State) : Res :=
  .next (
    let x := s.vf f
    if 64 ≤ f ∨ !s.hostUp then s
    else
      let s1 := s.setVf f (Vf.refill { x with incarn := x.incarn + 1, groups := [] })
      ((s.pasidsOf f).foldl (fun (s : State) n => s.shoot none x.part 1 (hostAsid n) 0) s1).closeVqs f)
/-- PAGE_RESPONSE (R450): the response of index i; one of another INCARN is dropped and counted. With `ok` the host has made the page
present. -/
def execPageResponse (f : Nat) (i : Nat) (ok : Bool) (s : State) : Res :=
  .next (
    let x := s.vf f
    if 64 ≤ f ∨ !s.hostUp then s
    else if i / 32 % 16 ≠ x.incarn.toNat then s.setVf f { x with staleprg := if x.staleprg = BitVec.allOnes 32 then x.staleprg else x.staleprg + 1 }
    else match tget none x.groups (i % 32) with
      | none => s
      | some r =>
        let s1 := s.setVf f (Vf.refill { x with groups := tset none x.groups (i % 32) none })
        if ok then { s1 with mem := { s1.mem with hostPages := tset 0 s1.mem.hostPages (2 ^ 41 * r.pasid + r.page) 2 } } else s1)
/-- ATS_INVALIDATION (R328): a TLBI of kind 0b00 for the page, in each partition; the page is not present from then on. -/
def execAtsInvalidation (pasid : Nat) (va : Word) (s : State) : Res :=
  .next (
    if 2 ^ 20 ≤ pasid ∨ !s.hostUp then s
    else
      let s1 : State := { s with mem := { s.mem with hostPages := tset 0 s.mem.hostPages (2 ^ 41 * pasid + va.toNat / 65536) 0 } }
      (s1.parts.filter fun p => pV p.2.desc).foldl (fun (s : State) p => s.shoot none p.1 0 (hostAsid pasid) va.toNat) s1)

/-! ### Partition resets, errors and debug (R444, R457, R460) -/

/-- PARTITION_RESET (R444). -/
def execPartitionReset (p : Nat) (s : State) : Res := .next (if pV (s.part p).desc then s.resetPart p else s)
/-- A reset with a PW = 1 record of an address (R457). -/
def State.errorReset (s : State) (p a : Nat) : State :=
  if pV (s.part p).desc then s.failPart p cPoison { faultInfo0 with addr := a } 0 else s
/-- A token becomes poisoned (R22). -/
def Token.poison (t : Token) : Token := { t with sb := t.sb ||| sbPoison }
/-- ERROR_DETECTED (R457), by the rows of Table 19.1: 0 correctable; 1 consumed data, the a-th token; 2 unconsumed data, the memory line
of address a, or line a of the pool of element p - 16; 3 control state of partition p; 4 the store buffer tags of port a; 5 the basin of
colour a; 6 a silent error; 7 a lost link, whose own event is LINK_LOSS. -/
def execErrorDetected (c : Nat) (p : Nat) (a : Nat) (s : State) : Res :=
  .next (match c with
    | 1 => (match nth? s.fab.tokens a with | some t => s.putToken a t.poison | none => s)
    | 2 =>
      if p < 16 then { s with mem := { s.mem with poison := if s.mem.poison.contains (a / 64) then s.mem.poison else (a / 64) :: s.mem.poison } }
      else if p < 2320 ∧ a < 8192 then
        let el := s.elem (p - 16)
        s.setElem (p - 16) { el with poison := if el.poison.contains a then el.poison else a :: el.poison }
      else s
    | 3 => s.errorReset p a
    | 4 => (dedup ((s.port.stores.filter fun st => st.port == a).map fun st => s.partOfCol st.col)).foldl (fun (s : State) p => s.errorReset p a) s
    | 5 => if a < 4096 then s.errorReset (s.partOfCol a) 0 else s
    | _ => s)

/-- DEBUG_HALT (R460). -/
def execDebugHalt (e : Nat) (s : State) : Res :=
  .next (if 2304 ≤ e ∨ (s.elem e).halted then s else s.setElem e { s.elem e with halted := true, haltedAt := s.cycle })
/-- DEBUG_RELEASE (R460): sentinel counts go on from the value they held. -/
def execDebugRelease (e : Nat) (s : State) : Res :=
  .next (
    let el := s.elem e
    let shift := fun x : Nat × Sentinel => (x.1, { x.2 with since := x.2.since + (s.cycle - (if el.haltedAt < x.2.since then x.2.since else el.haltedAt)) })
    if !el.halted then s else s.setElem e { el with halted := false, haltedAt := 0, sentinels := el.sentinels.map shift })

end Sys2Proof.Machine
end

