-- ==== Sys2Proof/Machine/Boot.lean ====
section
/-! DEFINITION. Boot, measurement, the key store's side-band commands, SPDM, the side-band port, telemetry and power (20 R475 to R485). -/

namespace Sys2Proof.Machine

/-- Replaces the management core's state. -/
def State.setMgmt (s : State) (m : Mgmt) : State := { s with mgmt := m }

/-! ### Boot (R475, R476) -/

/-- Reads the entries of a key store image, 144 bytes each. -/
def readKeys (l : List Byte) : Nat → Nat → Tbl (BitVec 1152)
  | _, 0 => []
  | n, m + 1 => if l.length < 144 then [] else tset 0 (readKeys (l.drop 144) (n + 1) m) n (BitVec.ofNat 1152 (ofBytes (l.take 144)))
/-- A stage verifies its image (Table 20.1): stages 1, 3 and 4 under a vendor key, stage 5 under entry 0 of the store it loads; an
empty store passes. Those of stages 3 and 4 are the keys that the stage 1 image names, which slot 1 has measured. -/
def stageOk (slot1 : BitVec 512) (n : Nat) (ok : Bool) (image : List Byte) (sig : BitVec 1056) : Bool :=
  ok && match n with
    | 1 => Config.ecdsaVerify Config.fusedKey image sig
    | 3 => Config.ecdsaVerify (Config.vendorKey slot1 3) image sig
    | 4 => Config.ecdsaVerify (Config.vendorKey slot1 4) image sig
    | 5 => image.isEmpty || Config.ecdsaVerify (fld (tget 0 (readKeys image 0 64) 0) 96 1056) image sig
    | _ => true
/-- What a stage measures (Table 20.1); stage 6 the versions of Table 20.4 in its order: the newest load encoding, those of the links, of the host
interface and of the state image, and those that the SPDM transports have negotiated (DESIGN CHOICE, log entry 118). -/
def State.stageDigest (s : State) (n : Nat) (image : List Byte) : BitVec 512 :=
  match n with
  | 2 => Config.sha512 ((rangeFrom 0 96).map fun i => bvBytes (tget 0 s.mem.fuse i) 8).flatten
  | 5 => Config.sha512 ((if image.isEmpty then s.mgmt.keystore else readKeys image 0 64).map fun k => bvBytes k.2 144).flatten
  | 6 => Config.sha512 ([5] ++ ((rangeFrom 0 12).map fun l => BitVec.ofNat 8 (s.link l).version) ++ [1, 2, BitVec.ofNat 8 (s.spdm 0).version, BitVec.ofNat 8 (s.spdm 1).version])
  | _ => Config.sha512 image
/-- A boot that failed starts again at stage 0, with its slots zero and its responders reset (R476, R482). -/
def Mgmt.restart (m : Mgmt) : Mgmt :=
  if m.failed then
    { m with boot := 0, failed := false, reason := 0, slots := m.slots.filter fun x => decide (7 < x.1),
             spdm := [(0, { Spdm.reset with resynch := true }), (1, { Spdm.reset with resynch := true })] }
  else m
/-- BOOT_STAGE: the next stage runs; `ok` says that its action succeeds where no image is verified. -/
def execBootStage (ok : Bool) (image : List Byte) (sig : BitVec 1056) (reason : Nat) (s : State) : Res :=
  .next (
    if s.mgmt.boot = 7 then s
    else
      let s1 := s.setMgmt s.mgmt.restart
      let n := s1.mgmt.boot
      if !stageOk (tget 0 s1.mgmt.slots 1) n ok image sig then s1.setMgmt { s1.mgmt with failed := true, reason := BitVec.ofNat 8 reason }
      else
        let m := s1.mgmt.extend n (s1.stageDigest n image)
        s1.setMgmt { m with boot := n + 1, locked := decide (n = 6), keystore := if n = 5 ∧ !image.isEmpty then readKeys image 0 64 else m.keystore })

/-! ### Owner key and telemetry (R480, R484) -/

/-- SET_OWNER: once, while the store is empty. -/
def execSetOwner (v : BitVec 1152) (s : State) : Res :=
  .next (if s.mgmt.keystore.isEmpty then s.putKey 0 (setFld v 64 1 1) else s)
/-- ERASE: only while no partition exists. -/
def execErase (s : State) : Res :=
  .next (if s.parts.any fun p => pV p.2.desc then s else s.setMgmt { s.mgmt with keystore := [] })
/-- A doubleword of the telemetry and power window (Table 20.5). -/
def Mgmt.window (m : Mgmt) (a : Nat) : Word :=
  match a with
  | 0x20000 => 1
  | 0x20008 => BitVec.ofNat 64 ((if m.failed then m.boot else m.boot - 1) + 256 * m.reason.toNat)
  | 0x20010 => BitVec.ofNat 64 m.pcap
  | 0x20018 => BitVec.ofNat 64 m.power
  | 0x20020 => BitVec.ofNat 64 m.fclk
  | 0x20028 => BitVec.ofNat 64 m.temp
  | 0x20030 => m.throttle
  | _ => 0
/-- A doubleword of the physical function's BAR 0 (R448, Table 18.6): kept fault records read all ones where none is held. -/
def State.pfRead (s : State) (a : Nat) : Word :=
  let f := s.vf pf
  let mask := (rangeFrom 0 16).foldl (fun m n => if pV (s.part n).desc then m + 2 ^ n else m) 0
  if a = 0 then pack 64 [(0, 32, Config.devId.toNat), (32, 16, mask)]
  else if 0x40 ≤ a ∧ a < 0x80 then tget 0 f.mailbox ((a - 0x40) / 8)
  else if a = 0x80 then f.status.zeroExtend 64
  else if a = 0x88 then f.value
  else if 0x1000 ≤ a ∧ a < 0x1400 then BitVec.ofNat 64 (ofBytes (mgetN f.msix (a - 0x1000) 8))
  else if a = 0x1400 then f.msixPend
  else if 0x10000 ≤ a ∧ a < 0x10400 then
    let x := s.part ((a - 0x10000) / 64)
    fld (setFld x.desc 155 32 x.frames.length) (8 * (a % 64)) 64
  else if 0x14000 ≤ a ∧ a < 0x18000 then
    match nth? (s.part ((a - 0x14000) / 1024)).kept ((a - 0x14000) % 1024 / 64) with
    | some r => fld r (8 * (a % 64)) 64
    | none => ones64
  else s.mgmt.window a
/-- TELEMETRY_READ: a doubleword of the window of Table 20.5 over the side-band port, at any time (R484). -/
def execTelemetryRead (a : Nat) (s : State) : Res :=
  .next (s.setMgmt { s.mgmt with telemetry := if a % 8 ≠ 0 then 0 else s.mgmt.window a })
/-- The power or the temperature, in units of 0.125 °C, is past its limit. -/
def Mgmt.over (m : Mgmt) (power temp : Nat) : Bool := decide (m.pcap < power) || decide (800 ≤ temp)
/-- The junction is above 105 °C at step 3, from this cycle on or an earlier one; or it is not. -/
def Mgmt.heated (m : Mgmt) (now : Nat) : Mgmt :=
  { m with hot := if m.temp ≤ 840 ∨ m.fclk ≠ 3 then none else match m.hot with | some t => some t | none => some now }
/-- A measured power and temperature: past a limit, or at it, the wait for a step up starts again. -/
def Mgmt.sense (m : Mgmt) (now power temp : Nat) : Mgmt :=
  ({ m with power := power, temp := temp, cool := if m.pcap ≤ power ∨ 800 ≤ temp then now else m.cool } : Mgmt).heated now
/-- The clock goes to a step. -/
def Mgmt.step (m : Mgmt) (now n : Nat) : Mgmt := ({ m with fclk := n, cool := now } : Mgmt).heated now
/-- PCAP: a value outside 600 to 2,600 W is ignored. -/
def execPcap (v : Word) (s : State) : Res :=
  .next (if 600 ≤ v.toNat ∧ v.toNat ≤ 2600 then s.setMgmt (({ s.mgmt with pcap := v.toNat } : Mgmt).sense s.cycle s.mgmt.power s.mgmt.temp) else s)
/-- DYNAMIC_ADDRESS_ASSIGNMENT: I3C when the controller answers, else SMBus. -/
def execDynamicAddressAssignment (ok : Bool) (s : State) : Res :=
  .next (if s.mgmt.sideband = 0 then s.setMgmt { s.mgmt with sideband := if ok then 1 else 2 } else s)

/-! ### The fabric clock (R485) -/

/-- FCLK_STEP_DOWN: one step down when the power exceeds PCAP or the junction reaches 100 °C. -/
def execFclkStepDown (power : Nat) (temp : Nat) (s : State) : Res :=
  let m := s.mgmt.sense s.cycle power temp
  .next (s.setMgmt (if m.over power temp then m.step s.cycle (if m.fclk < 3 then m.fclk + 1 else 3) else m))
/-- FCLK_STEP_UP: one step up after 10 ms below both limits. -/
def execFclkStepUp (power : Nat) (temp : Nat) (s : State) : Res :=
  let m := s.mgmt.sense s.cycle power temp
  .next (s.setMgmt (if m.cool + 10000 * stepMhz m.fclk ≤ s.cycle then m.step s.cycle (m.fclk - 1) else m))
/-- THERMAL_RESET: the junction is above 105 °C at step 3; after 1 ms every partition is reset with a PW = 1 record. -/
def execThermalReset (temp : Nat) (s : State) : Res :=
  let m := s.mgmt.sense s.cycle s.mgmt.power temp
  .next (match m.hot with
    | none => s.setMgmt m
    | some t =>
      if s.cycle < t + 1000 * stepMhz 3 then s.setMgmt m
      else (rangeFrom 0 16).foldl (fun (s : State) p => s.errorReset p 0) (s.setMgmt { m with hot := none }))

/-! ### SPDM (R478, R481, R482) -/

/-- Records a reply. -/
def State.spdmReply (s : State) (x code : Nat) : State := s.setSpdm x { s.spdm x with reply := code, answer := [] }
/-- A request after GET_VERSION whose version field is not the negotiated one's: from 2 on `x` holds the version in the bits above the transport's
(R482). -/
def State.otherVersion (s : State) (x need : Nat) : State :=
  if need = 0 ∨ x / 2 = 0x12 ∨ x / 2 = 0x13 ∨ 512 ≤ x ∨ (x % 2 = 0 ∧ !s.hostUp) then s else s.spdmReply (x % 2) 0x41
/-- Takes a request on a transport, 0 DOE and 1 side-band, that needs a state of the negotiation; the answer or the error code follows.
DOE is down until the host interface is up. -/
def State.onSpdm (s : State) (x need : Nat) (req : List Byte) (k : Spdm → Except Nat (Spdm × List Byte)) : Res :=
  .next (
    let p := s.spdm x
    if 2 ≤ x then s.otherVersion x need
    else if x = 0 ∧ !s.hostUp then s
    else if !s.hostUp && !s.mgmt.failed then s.spdmReply x 0x03
    else if p.resynch && need != 0 then s.spdmReply x 0x43
    else if p.state < need then s.spdmReply x 0x04
    else match k p with
      | .error c => s.spdmReply x c
      | .ok (q, ans) => s.setSpdm x { q with transcript := q.transcript ++ req ++ ans, reply := 0x100, answer := ans })
/-- A measurement slot's 64 bytes. -/
def Mgmt.slotBytes (m : Mgmt) (n : Nat) : List Byte := bvBytes (tget 0 m.slots n) 64
/-- The measurement summary of all 24 slots. -/
def Mgmt.allSlots (m : Mgmt) : List Byte := ((rangeFrom 0 24).map fun n => m.slotBytes n).flatten

/-- GET_VERSION: the negotiation starts afresh. -/
def execGetVersion (x : Nat) (s : State) : Res := s.onSpdm x 0 [0x84] fun p => .ok ({ Spdm.reset with state := 1, nextSess := p.nextSess }, [0x12, 0x13])
/-- GET_CAPABILITIES, in a version 0x12 or 0x13. -/
def execGetCapabilities (x : Nat) (v : Nat) (s : State) : Res := s.onSpdm x 1 [0xE1, BitVec.ofNat 8 v] fun p =>
  if v ≠ 0x12 ∧ v ≠ 0x13 then .error 0x41 else if p.state ≠ 1 then .error 0x04 else .ok ({ p with state := 2, version := v }, [BitVec.ofNat 8 v])
/-- NEGOTIATE_ALGORITHMS; `ok` when the request names the algorithms of R481. -/
def execNegotiateAlgorithms (x : Nat) (ok : Bool) (s : State) : Res := s.onSpdm x 2 [0xE3] fun p =>
  if p.state ≠ 2 then .error 0x04 else if ok then .ok ({ p with state := 3 }, [1]) else .error 0x01
/-- GET_DIGESTS: slot 0 only. -/
def execGetDigests (x : Nat) (s : State) : Res := s.onSpdm x 3 [0x81] fun p => .ok (p, 1 :: bvBytes (Config.sha512 Config.certChain) 64)
/-- GET_CERTIFICATE of slot n. -/
def execGetCertificate (x : Nat) (n : Nat) (s : State) : Res := s.onSpdm x 3 [0x82, BitVec.ofNat 8 n] fun p =>
  if n = 0 then .ok (p, Config.certChain) else .error 0x01
/-- CHALLENGE: signed over the transcript and the measurement summary hash; the request holds a nonce of 32 bytes, for certificate slot 0 or after the
number of a slot. -/
def execChallenge (x : Nat) (nonce : List Byte) (s : State) : Res := s.onSpdm x 3 (0x83 :: nonce) fun p =>
  let sum := bvBytes (Config.sha512 s.mgmt.allSlots) 64
  if nonce.length ≠ 32 ∧ (nonce.length ≠ 33 ∨ nonce.headD 0 ≠ 0) then .error 0x01 else .ok (p, sum ++ bvBytes (Config.attestSign (p.transcript ++ (0x83 :: nonce) ++ sum)) 132)
/-- The measurement record of an index: 0 the number of slots, 1 to 24 one slot, 0xFF all (R477). -/
def Mgmt.measured (m : Mgmt) (i : Nat) : Option (List Byte) :=
  if i = 0 then some [24] else if i ≤ 24 then some (m.slotBytes (i - 1)) else if i = 0xFF then some m.allSlots else none
/-- GET_MEASUREMENTS of the index in bits 7:0, all slots in one step (R478); with bit 8 a signature is asked for. -/
def execGetMeasurements (x : Nat) (i : Nat) (s : State) : Res := s.onSpdm x 3 [0xE0, BitVec.ofNat 8 (i / 256), BitVec.ofNat 8 i] fun p =>
  match (if 512 ≤ i then none else s.mgmt.measured (i % 256)) with
  | none => .error 0x01
  | some l => .ok (p, if i < 256 then l else l ++ bvBytes (Config.attestSign (p.transcript ++ [0xE0, BitVec.ofNat 8 (i / 256), BitVec.ofNat 8 i] ++ l)) 132)
/-- KEY_EXCHANGE: at most four sessions of a transport; a share is a point of secp521r1. The session key stays in the part. -/
def execKeyExchange (x : Nat) (share : List Byte) (s : State) : Res := s.onSpdm x 3 (0xE4 :: share) fun p =>
  if share.length ≠ 132 then .error 0x01
  else if 4 ≤ p.sessions.length then .error 0x0A
  else
    let n := p.nextSess
    .ok ({ p with sessions := p.sessions ++ [n], opening := p.opening ++ [n], nextSess := n + 1, keys := tset 0 p.keys n (Config.dheSecret x n share) },
      bvBytes (BitVec.ofNat 16 n) 2 ++ Config.dheShare x n ++ bvBytes (Config.attestSign (p.transcript ++ (0xE4 :: share) ++ Config.dheShare x n)) 132)
/-- A request of an open session. -/
def Spdm.inSession (p : Spdm) (n : Nat) (q : Spdm) : Except Nat (Spdm × List Byte) :=
  if !p.sessions.contains n then .error 0x01 else if p.opening.contains n then .error 0x04 else .ok (q, [])
/-- FINISH of session n. -/
def execFinish (x : Nat) (n : Nat) (s : State) : Res := s.onSpdm x 3 [0xE5, BitVec.ofNat 8 n] fun p =>
  if !p.sessions.contains n then .error 0x01
  else if !p.opening.contains n then .error 0x04
  else .ok ({ p with opening := p.opening.filter fun m => m != n }, [])
/-- KEY_UPDATE in session n: the next key of the session. -/
def execKeyUpdate (x : Nat) (n : Nat) (s : State) : Res := s.onSpdm x 3 [0xE9, BitVec.ofNat 8 n] fun p =>
  p.inSession n { p with keys := tset 0 p.keys n (Config.nextKey (tget 0 p.keys n)) }
/-- HEARTBEAT in session n. -/
def execHeartbeat (x : Nat) (n : Nat) (s : State) : Res := s.onSpdm x 3 [0xE8, BitVec.ofNat 8 n] fun p => p.inSession n p
/-- END_SESSION of session n. -/
def execEndSession (x : Nat) (n : Nat) (s : State) : Res := s.onSpdm x 3 [0xEC, BitVec.ofNat 8 n] fun p =>
  p.inSession n { p with sessions := p.sessions.filter (fun m => m != n), keys := tset 0 p.keys n 0 }
/-- SPDM_UNSUPPORTED_REQUEST: any request that Table 20.3 does not list. -/
def execSpdmUnsupportedRequest (x : Nat) (code : Nat) (s : State) : Res := s.onSpdm x 0 [BitVec.ofNat 8 code] fun _ => .error 0x07

end Sys2Proof.Machine
end

