-- ==== Sys2Proof/Machine/Lengthsman.lean ====
section
/-! DEFINITION. The Lengthsman: the bank walk and the keep walk of an element (08 R280, R281, 10 R318). -/

namespace Sys2Proof.Machine

/-- Lines of register and accumulator banks of an element. -/
def Elem.bankLines (el : Elem) : Nat := 32 * el.ctxs.foldl (fun n x => n + wRbk x.2.partwd + wAbk x.2.partwd) 0
/-- The next line of the bank walk is read and written back unchanged; the other walk's turn comes next, or this one's again. -/
def Elem.bankTurn (el : Elem) (keep : Bool) : Elem := { el with walk := if el.bankLines = 0 then 0 else (el.walk + 1) % el.bankLines, keepNext := keep }
/-- Cycles between two renewals (R280). -/
def State.walkPeriod (s : State) : Nat := if s.mgmt.fclk < 2 then 8 else 4
/-- The pool line of a number in the bank walk's order: the register and accumulator banks of the context slots, in turn. -/
def walkLine : Tbl Ctx → Nat → Option Nat
  | [], _ => none
  | (_, x) :: l, i =>
    let n := 32 * (wRbk x.partwd + wAbk x.partwd)
    if i < n then some (32 * wFirst x.partwd + i) else walkLine l (i - n)
/-- A firing uses a bank of an element in this cycle: it issues in it, or runs in a unit that works over several cycles (R281). -/
def State.bankUsed (s : State) (e bank : Nat) : Bool :=
  let first := fun v : UnitOp => v.unit == 0 || !(s.fab.units.any fun w => w.e == e && w.unit == v.unit && decide (w.due < v.due))
  let runs := fun u : Use => s.fab.units.any fun v =>
    v.e == e && v.ctx == u.ctx && v.slot == u.slot && tagEq v.tag u.tag && (v.unit != 0 || !v.renews.isEmpty) && first v
  (s.elem e).uses.any fun u => u.banks.contains bank && (u.cycle == s.cycle || runs u)
/-- The element has made its choice in this cycle: it has issued, or it has no firing to issue and none that completes (R281). -/
def State.settled (s : State) (e : Nat) : Bool :=
  (s.elem e).issued == s.cycle + 1 || ((match firstUnit e s.fab.units with | some u => decide (s.cycle < u.due) | none => true) &&
    (!s.canIssue e || !((s.cands e).any fun x => s.ready e x)))
/-- The Lengthsman may renew a line now: its time has come, and no firing uses the line's bank in this cycle (R280, R281). -/
def State.mayRenew (s : State) (e : Nat) (line : Option Nat) : Bool :=
  decide (e < 2304) && decide ((s.elem e).walkAt ≤ s.cycle) && s.settled e && (match line with | some l => !s.bankUsed e (l / 32) | none => true)
/-- A line has been renewed, in a cycle in which the element chooses no other firing; the next is due a period after this one was. -/
def State.walked (s : State) (e : Nat) (f : Elem → Elem) : State :=
  s.setElem e { f (s.elem e) with walkAt := (s.elem e).walkAt + s.walkPeriod, issued := s.cycle + 1 }
/-- The line that the bank walk renews next. -/
def State.bankLine (s : State) (e : Nat) : Option Nat := walkLine (s.elem e).ctxs (s.elem e).walk
/-- BANK_WALK_RENEWAL (R280, R281), in the bank walk's turn. -/
def execBankWalkRenewal (e : Nat) (s : State) : Res :=
  .next (if (s.elem e).keepNext || !s.mayRenew e (s.bankLine e) then s else s.walked e fun el => el.bankTurn true)
/-- The slot with the least remaining life of those the keep walk may take. -/
def leastLife (now : BitVec 32) : List (Nat × Nat × Nat × Slot) → Option (Nat × Nat × Nat × Slot) → Option (Nat × Nat × Nat × Slot)
  | [], b => b
  | x :: l, b =>
    let q := x.2.2.2
    let ok := q.kept && q.data && decide (q.remain now < 100)
    let less := match b with | some y => decide (q.remain now < y.2.2.2.remain now) | none => true
    leastLife now l (if ok && less then some x else b)
/-- The slot that the keep walk has begun to renew, if it has not been emptied since (R321). -/
def State.keepGoing (s : State) (e : Nat) : Option (Nat × Nat × Nat × Nat) :=
  match (s.elem e).keepAt with
  | some (c, b, i, n) => match s.buf e c b with
    | some x => if (x.slot i).renew.isSome then some (c, b, i, n) else none
    | none => none
  | none => none
/-- The keep walk renews a line of a slot that has so many left; with the last the renewal ends. -/
def State.keepLine (s : State) (e c b i n : Nat) : State :=
  if n < 2 then (s.renewAll e c [(b, i)]).walked e fun el => { el with keepNext := false, keepAt := none }
  else s.walked e fun el => { el with keepNext := false, keepAt := some (c, b, i, n - 1) }
/-- The line that the keep walk's turn renews: the next of its slot, or the first of the slot it chooses, or else the bank walk's. -/
def State.keepTurn (s : State) (e : Nat) : Option Nat × Option (Nat × Nat × Nat × Nat × Bool) :=
  let line := fun c b i n => match s.buf e c b with | some x => some (x.slotByte i / 64 + (x.size - n)) | none => none
  match s.keepGoing e with
  | some (c, b, i, n) => (line c b i n, some (c, b, i, n, true))
  | none => match leastLife (s.elem e).retcnt (s.elem e).slots none with
    | some (c, b, i, _) =>
      let n := match s.buf e c b with | some x => x.size | none => 0
      (line c b i n, some (c, b, i, n, false))
    | none => (s.bankLine e, none)
/-- KEEP_WALK_RENEWAL (R318): the keep walk renews the next line of its slot, or the first of the slot it chooses; with none to renew the bank
walk takes its turn. -/
def execKeepWalkRenewal (e : Nat) (s : State) : Res :=
  let el := s.elem e
  let r := s.keepTurn e
  .next (if !el.keepNext || !s.mayRenew e r.1 then s else match r.2 with
    | some (c, b, i, n, true) => s.keepLine e c b i n
    | some (c, b, i, n, false) => (s.modSlot e c b i fun q => q.renewing (el.stampAt 400)).keepLine e c b i n
    | none => s.walked e fun el => { el.bankTurn false with keepAt := none })

end Sys2Proof.Machine
end

