-- ==== Sys2Proof/Machine/Clock.lean ====
section
/-! DEFINITION. What a cycle brings with it: the events whose times the spec fixes (08 R488), in the order in which a cycle's end finds them. A
cycle is over only when none of them is left to happen. -/

namespace Sys2Proof.Machine

/-- Events whose time the spec fixes: those over the mesh (R268, R292), an element's completions, tile packets, matching and choice (R272 to R276,
R35), the return of idle credit (R296), the sentinel (R307), the limits of a WAITT (R136) and of a collective (R456), an empty spray set (R454), the
end of a life unit (R311) and the renewals of the Lengthsman (R280). -/
inductive Timed where
  | flit (k : Nat)
  | exitq (k : Nat)
  | unit (e : Nat)
  | tile (e : Nat)
  | matching (e : Nat)
  | choice (e : Nat)
  | credit (e c : Nat)
  | sentinel (e c : Nat)
  | waitt (t : Nat)
  | coll (k : Nat)
  | spray (n : Nat)
  | life (e : Nat)
  | bankWalk (e : Nat)
  | keepWalk (e : Nat)
  deriving DecidableEq, Repr

/-- The event takes place, as its row says. -/
def State.happen (s : State) (d : Timed) : Res :=
  match d with
  | .flit k => execFlitDelivery k s
  | .exitq k => execExitQueueArrival k s
  | .unit e => execUnitCompletion e s
  | .tile e => execTilePacketArrival e s
  | .matching e => execTokenMatch e s
  | .choice e => execFireSelection e s
  | .credit e c => execCreditReturn e c s
  | .sentinel e c => execSentinelExpiry e c s
  | .waitt t => execWaittTimeout t s
  | .coll k => execCollTimeout k s
  | .spray n => execSpraySetTimeout n s
  | .life e => execRetcntTick e s
  | .bankWalk e => execBankWalkRenewal e s
  | .keepWalk e => execKeepWalkRenewal e s
/-- The event would do something now. -/
def State.acts (s : State) (d : Timed) : Bool := match s.happen d with | .next t => decide (t ≠ s) | _ => true

/-- Elements at which a token, a firing or anything else stands. -/
def State.busyElems (s : State) : List Nat :=
  s.fab.elems.map (fun x => x.1) ++ s.fab.tokens.filterMap Token.elem ++ s.fab.units.map fun u => u.e
/-- Arrivals over the mesh. -/
def State.arrivals (s : State) : List Timed := ((rangeFrom 0 s.fab.tokens.length).map fun k => [Timed.flit k, Timed.exitq k]).flatten
/-- The events of an element. -/
def State.elemEvents (s : State) (e : Nat) : List Timed :=
  let cols := s.fab.tokens.filterMap fun t => if t.elem == some e then some (tagCol t.tag) else none
  [Timed.unit e, Timed.tile e, Timed.matching e, Timed.choice e] ++ ((s.elem e).credits.map fun x => Timed.credit e x.1) ++
  (((s.elem e).sentinels.map fun x => x.1) ++ cols).map fun c => Timed.sentinel e c
/-- The limits that software sets, and the time of an empty spray set. -/
def State.limits (s : State) : List Timed :=
  (s.stew.threads.map fun x => Timed.waitt x.1) ++ ((rangeFrom 0 s.port.colls.length).map Timed.coll) ++
  (rangeFrom 0 (s.port.linkOut.length + s.port.colls.length)).map Timed.spray
/-- The life units that have lasted their longest; the agenda may end one from its shortest on. -/
def State.lives (s : State) : List Timed :=
  if s.cycle < s.lifeMax then [] else ((rangeFrom 0 2304).filter fun e => decide (s.lifeMax ≤ s.cycle - (s.elem e).tickAt)).map Timed.life
/-- The renewals whose time has come; those that a firing's bank keeps back retry in the next cycle (R281). -/
def State.renewals (s : State) : List Timed :=
  (((rangeFrom 0 2304).filter fun e => decide ((s.elem e).walkAt ≤ s.cycle)).map fun e => [Timed.bankWalk e, Timed.keepWalk e]).flatten
/-- The event that must take place before this cycle is over. -/
def State.due (s : State) : Option Timed :=
  lfind s.acts (s.arrivals ++ (s.busyElems.map s.elemEvents).flatten ++ s.limits ++ s.lives ++ s.renewals)
/-- The end of a cycle: the next event that it brings, or else the next cycle. With the event the agenda stays as it is. -/
def State.endCycle (s : State) (agenda : List Move) : Res :=
  match s.due with
  | some d => s.happen d
  | none => .next (State.tick { s with agenda := agenda })

end Sys2Proof.Machine
end

