-- ==== Sys2Proof/Machine/Dispatch.lean ====
section
/-! DEFINITION. The dispatcher: one arm per constructor of Instr. -/

namespace Sys2Proof.Machine

/-- The meaning of every instruction and event. -/
def exec (i : Instr) (s : State) : Host.Outcome State Fault Refusal :=
  match i with
  | .nop o => Sys2Proof.Machine.execNop o s
  | .copy o => Sys2Proof.Machine.execCopy o s
  | .steer o => Sys2Proof.Machine.execSteer o s
  | .merge o => Sys2Proof.Machine.execMerge o s
  | .gate o => Sys2Proof.Machine.execGate o s
  | .sink o => Sys2Proof.Machine.execSink o s
  | .nullt o => Sys2Proof.Machine.execNullt o s
  | .joinn o => Sys2Proof.Machine.execJoinn o s
  | .iter o => Sys2Proof.Machine.execIter o s
  | .tagset o => Sys2Proof.Machine.execTagset o s
  | .tagget o => Sys2Proof.Machine.execTagget o s
  | .keyset o => Sys2Proof.Machine.execKeyset o s
  | .keyget o => Sys2Proof.Machine.execKeyget o s
  | .genchk o => Sys2Proof.Machine.execGenchk o s
  | .delay o => Sys2Proof.Machine.execDelay o s
  | .entry o => Sys2Proof.Machine.execEntry o s
  | .emit o => Sys2Proof.Machine.execEmit o s
  | .bar o => Sys2Proof.Machine.execBar o s
  | .br o => Sys2Proof.Machine.execBr o s
  | .brcEq o => Sys2Proof.Machine.execBrcEq o s
  | .brcNe o => Sys2Proof.Machine.execBrcNe o s
  | .brcLt o => Sys2Proof.Machine.execBrcLt o s
  | .brcGe o => Sys2Proof.Machine.execBrcGe o s
  | .brcLtu o => Sys2Proof.Machine.execBrcLtu o s
  | .brcGeu o => Sys2Proof.Machine.execBrcGeu o s
  | .call o => Sys2Proof.Machine.execCall o s
  | .ret o => Sys2Proof.Machine.execRet o s
  | .sendt o => Sys2Proof.Machine.execSendt o s
  | .waitt o => Sys2Proof.Machine.execWaitt o s
  | .halt o => Sys2Proof.Machine.execHalt o s
  | .ld o => Sys2Proof.Machine.execLd o s
  | .st o => Sys2Proof.Machine.execSt o s
  | .li o => Sys2Proof.Machine.execLi o s
  | .add o => Sys2Proof.Machine.execAdd o s
  | .sub o => Sys2Proof.Machine.execSub o s
  | .adds o => Sys2Proof.Machine.execAdds o s
  | .subs o => Sys2Proof.Machine.execSubs o s
  | .neg o => Sys2Proof.Machine.execNeg o s
  | .abs o => Sys2Proof.Machine.execAbs o s
  | .mul o => Sys2Proof.Machine.execMul o s
  | .mulh o => Sys2Proof.Machine.execMulh o s
  | .mulhu o => Sys2Proof.Machine.execMulhu o s
  | .mad o => Sys2Proof.Machine.execMad o s
  | .div o => Sys2Proof.Machine.execDiv o s
  | .divu o => Sys2Proof.Machine.execDivu o s
  | .rem o => Sys2Proof.Machine.execRem o s
  | .remu o => Sys2Proof.Machine.execRemu o s
  | .min o => Sys2Proof.Machine.execMin o s
  | .max o => Sys2Proof.Machine.execMax o s
  | .minu o => Sys2Proof.Machine.execMinu o s
  | .maxu o => Sys2Proof.Machine.execMaxu o s
  | .and o => Sys2Proof.Machine.execAnd o s
  | .or o => Sys2Proof.Machine.execOr o s
  | .xor o => Sys2Proof.Machine.execXor o s
  | .andn o => Sys2Proof.Machine.execAndn o s
  | .not o => Sys2Proof.Machine.execNot o s
  | .shl o => Sys2Proof.Machine.execShl o s
  | .shr o => Sys2Proof.Machine.execShr o s
  | .sar o => Sys2Proof.Machine.execSar o s
  | .rol o => Sys2Proof.Machine.execRol o s
  | .clz o => Sys2Proof.Machine.execClz o s
  | .ctz o => Sys2Proof.Machine.execCtz o s
  | .popc o => Sys2Proof.Machine.execPopc o s
  | .bswap o => Sys2Proof.Machine.execBswap o s
  | .bfx o => Sys2Proof.Machine.execBfx o s
  | .bfi o => Sys2Proof.Machine.execBfi o s
  | .sext o => Sys2Proof.Machine.execSext o s
  | .zext o => Sys2Proof.Machine.execZext o s
  | .cmpEq o => Sys2Proof.Machine.execCmpEq o s
  | .cmpNe o => Sys2Proof.Machine.execCmpNe o s
  | .cmpLt o => Sys2Proof.Machine.execCmpLt o s
  | .cmpLe o => Sys2Proof.Machine.execCmpLe o s
  | .cmpGt o => Sys2Proof.Machine.execCmpGt o s
  | .cmpGe o => Sys2Proof.Machine.execCmpGe o s
  | .cmpLtu o => Sys2Proof.Machine.execCmpLtu o s
  | .cmpLeu o => Sys2Proof.Machine.execCmpLeu o s
  | .cmpGtu o => Sys2Proof.Machine.execCmpGtu o s
  | .cmpGeu o => Sys2Proof.Machine.execCmpGeu o s
  | .sel o => Sys2Proof.Machine.execSel o s
  | .addx o => Sys2Proof.Machine.execAddx o s
  | .crc o => Sys2Proof.Machine.execCrc o s
  | .mix o => Sys2Proof.Machine.execMix o s
  | .fadd o => Sys2Proof.Machine.execFadd o s
  | .fsub o => Sys2Proof.Machine.execFsub o s
  | .fmul o => Sys2Proof.Machine.execFmul o s
  | .ffma o => Sys2Proof.Machine.execFfma o s
  | .fdiv o => Sys2Proof.Machine.execFdiv o s
  | .fsqrt o => Sys2Proof.Machine.execFsqrt o s
  | .frsq o => Sys2Proof.Machine.execFrsq o s
  | .frcp o => Sys2Proof.Machine.execFrcp o s
  | .fexp2 o => Sys2Proof.Machine.execFexp2 o s
  | .flog2 o => Sys2Proof.Machine.execFlog2 o s
  | .fmin o => Sys2Proof.Machine.execFmin o s
  | .fmax o => Sys2Proof.Machine.execFmax o s
  | .fabs o => Sys2Proof.Machine.execFabs o s
  | .fneg o => Sys2Proof.Machine.execFneg o s
  | .fcmpEq o => Sys2Proof.Machine.execFcmpEq o s
  | .fcmpNe o => Sys2Proof.Machine.execFcmpNe o s
  | .fcmpLt o => Sys2Proof.Machine.execFcmpLt o s
  | .fcmpLe o => Sys2Proof.Machine.execFcmpLe o s
  | .fcmpGt o => Sys2Proof.Machine.execFcmpGt o s
  | .fcmpGe o => Sys2Proof.Machine.execFcmpGe o s
  | .fcmpUn o => Sys2Proof.Machine.execFcmpUn o s
  | .fclass o => Sys2Proof.Machine.execFclass o s
  | .fcvt o => Sys2Proof.Machine.execFcvt o s
  | .fround o => Sys2Proof.Machine.execFround o s
  | .maxi o => Sys2Proof.Machine.execMaxi o s
  | .vadd o => Sys2Proof.Machine.execVadd o s
  | .vsub o => Sys2Proof.Machine.execVsub o s
  | .vmul o => Sys2Proof.Machine.execVmul o s
  | .vfma o => Sys2Proof.Machine.execVfma o s
  | .vmin o => Sys2Proof.Machine.execVmin o s
  | .vmax o => Sys2Proof.Machine.execVmax o s
  | .vabs o => Sys2Proof.Machine.execVabs o s
  | .vexp2 o => Sys2Proof.Machine.execVexp2 o s
  | .vlog2 o => Sys2Proof.Machine.execVlog2 o s
  | .vrcp o => Sys2Proof.Machine.execVrcp o s
  | .vrsq o => Sys2Proof.Machine.execVrsq o s
  | .vcvt o => Sys2Proof.Machine.execVcvt o s
  | .vqnt o => Sys2Proof.Machine.execVqnt o s
  | .vdqnt o => Sys2Proof.Machine.execVdqnt o s
  | .vcmpEq o => Sys2Proof.Machine.execVcmpEq o s
  | .vcmpNe o => Sys2Proof.Machine.execVcmpNe o s
  | .vcmpLt o => Sys2Proof.Machine.execVcmpLt o s
  | .vcmpLe o => Sys2Proof.Machine.execVcmpLe o s
  | .vcmpGt o => Sys2Proof.Machine.execVcmpGt o s
  | .vcmpGe o => Sys2Proof.Machine.execVcmpGe o s
  | .vcmpUn o => Sys2Proof.Machine.execVcmpUn o s
  | .vsel o => Sys2Proof.Machine.execVsel o s
  | .vredSum o => Sys2Proof.Machine.execVredSum o s
  | .vredMin o => Sys2Proof.Machine.execVredMin o s
  | .vredMax o => Sys2Proof.Machine.execVredMax o s
  | .vscanSum o => Sys2Proof.Machine.execVscanSum o s
  | .vscanMin o => Sys2Proof.Machine.execVscanMin o s
  | .vscanMax o => Sys2Proof.Machine.execVscanMax o s
  | .vmaxi o => Sys2Proof.Machine.execVmaxi o s
  | .vnoise o => Sys2Proof.Machine.execVnoise o s
  | .vbcast o => Sys2Proof.Machine.execVbcast o s
  | .vperm o => Sys2Proof.Machine.execVperm o s
  | .tmma o => Sys2Proof.Machine.execTmma o s
  | .tmmq o => Sys2Proof.Machine.execTmmq o s
  | .tclr o => Sys2Proof.Machine.execTclr o s
  | .tacc o => Sys2Proof.Machine.execTacc o s
  | .tdrain o => Sys2Proof.Machine.execTdrain o s
  | .ttrn o => Sys2Proof.Machine.execTtrn o s
  | .tcvt o => Sys2Proof.Machine.execTcvt o s
  | .thdr o => Sys2Proof.Machine.execThdr o s
  | .trec o => Sys2Proof.Machine.execTrec o s
  | .tred o => Sys2Proof.Machine.execTred o s
  | .race o => Sys2Proof.Machine.execRace o s
  | .tsend o => Sys2Proof.Machine.execTsend o s
  | .agen o => Sys2Proof.Machine.execAgen o s
  | .lds o => Sys2Proof.Machine.execLds o s
  | .sts o => Sys2Proof.Machine.execSts o s
  | .ldr o => Sys2Proof.Machine.execLdr o s
  | .str o => Sys2Proof.Machine.execStr o s
  | .updAdd o => Sys2Proof.Machine.execUpdAdd o s
  | .updMin o => Sys2Proof.Machine.execUpdMin o s
  | .updMax o => Sys2Proof.Machine.execUpdMax o s
  | .updOr o => Sys2Proof.Machine.execUpdOr o s
  | .updAnd o => Sys2Proof.Machine.execUpdAnd o s
  | .updXchg o => Sys2Proof.Machine.execUpdXchg o s
  | .updCas o => Sys2Proof.Machine.execUpdCas o s
  | .acqld o => Sys2Proof.Machine.execAcqld o s
  | .relst o => Sys2Proof.Machine.execRelst o s
  | .ofork o => Sys2Proof.Machine.execOfork o s
  | .ojoin o => Sys2Proof.Machine.execOjoin o s
  | .xlat o => Sys2Proof.Machine.execXlat o s
  | .param o => Sys2Proof.Machine.execParam o s
  | .bfal o => Sys2Proof.Machine.execBfal o s
  | .bffr o => Sys2Proof.Machine.execBffr o s
  | .bflife o => Sys2Proof.Machine.execBflife o s
  | .bfwr o => Sys2Proof.Machine.execBfwr o s
  | .bfrd o => Sys2Proof.Machine.execBfrd o s
  | .bfqry o => Sys2Proof.Machine.execBfqry o s
  | .renew o => Sys2Proof.Machine.execRenew o s
  | .viewmk o => Sys2Proof.Machine.execViewmk o s
  | .viewdup o => Sys2Proof.Machine.execViewdup o s
  | .narrow o => Sys2Proof.Machine.execNarrow o s
  | .viewq o => Sys2Proof.Machine.execViewq o s
  | .viewdrop o => Sys2Proof.Machine.execViewdrop o s
  | .xferM2m o => Sys2Proof.Machine.execXferM2m o s
  | .xferM2b o => Sys2Proof.Machine.execXferM2b o s
  | .xferB2m o => Sys2Proof.Machine.execXferB2m o s
  | .weir o => Sys2Proof.Machine.execWeir o s
  | .coll o => Sys2Proof.Machine.execColl o s
  | .lsend o => Sys2Proof.Machine.execLsend o s
  | .lrecv o => Sys2Proof.Machine.execLrecv o s
  | .purgeCol o => Sys2Proof.Machine.execPurgeCol o s
  | .purgeGen o => Sys2Proof.Machine.execPurgeGen o s
  | .purgeIter o => Sys2Proof.Machine.execPurgeIter o s
  | .park o => Sys2Proof.Machine.execPark o s
  | .unpark o => Sys2Proof.Machine.execUnpark o s
  | .qset o => Sys2Proof.Machine.execQset o s
  | .prio o => Sys2Proof.Machine.execPrio o s
  | .winset o => Sys2Proof.Machine.execWinset o s
  | .sentl o => Sys2Proof.Machine.execSentl o s
  | .colset o => Sys2Proof.Machine.execColset o s
  | .partw o => Sys2Proof.Machine.execPartw o s
  | .cfgw o => Sys2Proof.Machine.execCfgw o s
  | .cfgrd o => Sys2Proof.Machine.execCfgrd o s
  | .raise o => Sys2Proof.Machine.execRaise o s
  | .drop o => Sys2Proof.Machine.execDrop o s
  | .tlbi o => Sys2Proof.Machine.execTlbi o s
  | .genret o => Sys2Proof.Machine.execGenret o s
  | .quiesce o => Sys2Proof.Machine.execQuiesce o s
  | .resume o => Sys2Proof.Machine.execResume o s
  | .fltrd o => Sys2Proof.Machine.execFltrd o s
  | .csrr o => Sys2Proof.Machine.execCsrr o s
  | .csrw o => Sys2Proof.Machine.execCsrw o s
  | .trap o => Sys2Proof.Machine.execTrap o s
  | .rett o => Sys2Proof.Machine.execRett o s
  | .illegalWordFetch t => Sys2Proof.Machine.execIllegalWordFetch t s
  | .iterIssue k => Sys2Proof.Machine.execIterIssue k s
  | .emitSpaceResume e => Sys2Proof.Machine.execEmitSpaceResume e s
  | .waittTimeout t => Sys2Proof.Machine.execWaittTimeout t s
  | .updLineReleased k => Sys2Proof.Machine.execUpdLineReleased k s
  | .threadStart t => Sys2Proof.Machine.execThreadStart t s
  | .threadRestart t pc => Sys2Proof.Machine.execThreadRestart t pc s
  | .tokenMatch e => Sys2Proof.Machine.execTokenMatch e s
  | .fireSelection e => Sys2Proof.Machine.execFireSelection e s
  | .unitCompletion e => Sys2Proof.Machine.execUnitCompletion e s
  | .flitDelivery k => Sys2Proof.Machine.execFlitDelivery k s
  | .entryOffer k => Sys2Proof.Machine.execEntryOffer k s
  | .entryOfferReleased k => Sys2Proof.Machine.execEntryOfferReleased k s
  | .exitQueueArrival k => Sys2Proof.Machine.execExitQueueArrival k s
  | .tilePacketArrival e => Sys2Proof.Machine.execTilePacketArrival e s
  | .basinEngineTurn e => Sys2Proof.Machine.execBasinEngineTurn e s
  | .basinBundleReturn e => Sys2Proof.Machine.execBasinBundleReturn e s
  | .basinProbeReply e => Sys2Proof.Machine.execBasinProbeReply e s
  | .basinRefill e col => Sys2Proof.Machine.execBasinRefill e col s
  | .parkedTokenWriteback k => Sys2Proof.Machine.execParkedTokenWriteback k s
  | .creditGrant e col => Sys2Proof.Machine.execCreditGrant e col s
  | .creditReturn e col => Sys2Proof.Machine.execCreditReturn e col s
  | .sentinelExpiry e col => Sys2Proof.Machine.execSentinelExpiry e col s
  | .retcntTick e => Sys2Proof.Machine.execRetcntTick e s
  | .slotExpiry e c b n => Sys2Proof.Machine.execSlotExpiry e c b n s
  | .bankWalkRenewal e => Sys2Proof.Machine.execBankWalkRenewal e s
  | .keepWalkRenewal e => Sys2Proof.Machine.execKeepWalkRenewal e s
  | .roundOpen k => Sys2Proof.Machine.execRoundOpen k s
  | .roundCompleteReport k pnum => Sys2Proof.Machine.execRoundCompleteReport k pnum s
  | .roundPrepare k => Sys2Proof.Machine.execRoundPrepare k s
  | .roundCommit k => Sys2Proof.Machine.execRoundCommit k s
  | .releasePhase k => Sys2Proof.Machine.execReleasePhase k s
  | .roundVoid k => Sys2Proof.Machine.execRoundVoid k s
  | .faultRecordWrite k => Sys2Proof.Machine.execFaultRecordWrite k s
  | .readAhead k => Sys2Proof.Machine.execReadAhead k s
  | .portAccessPerformed k => Sys2Proof.Machine.execPortAccessPerformed k s
  | .pageWalk k => Sys2Proof.Machine.execPageWalk k s
  | .shootdownArrival k => Sys2Proof.Machine.execShootdownArrival k s
  | .shootdownAck k => Sys2Proof.Machine.execShootdownAck k s
  | .reconfigurationToken k => Sys2Proof.Machine.execReconfigurationToken k s
  | .copyChunk k => Sys2Proof.Machine.execCopyChunk k s
  | .xferCompletion k => Sys2Proof.Machine.execXferCompletion k s
  | .weirRequestArrival k => Sys2Proof.Machine.execWeirRequestArrival k s
  | .weirContextTake k => Sys2Proof.Machine.execWeirContextTake k s
  | .weirChunk k => Sys2Proof.Machine.execWeirChunk k s
  | .weirResultSend k => Sys2Proof.Machine.execWeirResultSend k s
  | .weirCompletion k => Sys2Proof.Machine.execWeirCompletion k s
  | .weirResume k => Sys2Proof.Machine.execWeirResume k s
  | .trimmerChange d => Sys2Proof.Machine.execTrimmerChange d s
  | .pageFree r p => Sys2Proof.Machine.execPageFree r p s
  | .linkTraining l v peer => Sys2Proof.Machine.execLinkTraining l v peer s
  | .linkPacketArrival l seq head payload => Sys2Proof.Machine.execLinkPacketArrival l seq head payload s
  | .linkLoss l => Sys2Proof.Machine.execLinkLoss l s
  | .spraySetTimeout n => Sys2Proof.Machine.execSpraySetTimeout n s
  | .collContribution k n hdr body => Sys2Proof.Machine.execCollContribution k n hdr body s
  | .collTimeout k => Sys2Proof.Machine.execCollTimeout k s
  | .bindingStore t n0 v => Sys2Proof.Machine.execBindingStore t n0 v s
  | .configRegisterWrite t a v => Sys2Proof.Machine.execConfigRegisterWrite t a v s
  | .elatchWrite e v => Sys2Proof.Machine.execElatchWrite e v s
  | .retcntWrite t e => Sys2Proof.Machine.execRetcntWrite t e s
  | .heatEntryClear pnum n0 => Sys2Proof.Machine.execHeatEntryClear pnum n0 s
  | .recordPublish q => Sys2Proof.Machine.execRecordPublish q s
  | .takeWrite q v => Sys2Proof.Machine.execTakeWrite q v s
  | .adoneWrite q v => Sys2Proof.Machine.execAdoneWrite q v s
  | .queueResidency q => Sys2Proof.Machine.execQueueResidency q s
  | .launchAdmission t q => Sys2Proof.Machine.execLaunchAdmission t q s
  | .loadPlacement k => Sys2Proof.Machine.execLoadPlacement k s
  | .residencyClaim p adp tag pin => Sys2Proof.Machine.execResidencyClaim p adp tag pin s
  | .adapterResident p n => Sys2Proof.Machine.execAdapterResident p n s
  | .claimRelease p n => Sys2Proof.Machine.execClaimRelease p n s
  | .orphanAnswer k => Sys2Proof.Machine.execOrphanAnswer k s
  | .replay p col ctx => Sys2Proof.Machine.execReplay p col ctx s
  | .colourDrain p col ctx => Sys2Proof.Machine.execColourDrain p col ctx s
  | .eviction p ctx load => Sys2Proof.Machine.execEviction p ctx load s
  | .evictedRestore k ctx => Sys2Proof.Machine.execEvictedRestore k ctx s
  | .setroot f asid v => Sys2Proof.Machine.execSetroot f asid v s
  | .resregion f asid npage vbase => Sys2Proof.Machine.execResregion f asid npage vbase s
  | .destregion f r => Sys2Proof.Machine.execDestregion f r s
  | .loadkey f n wrapped => Sys2Proof.Machine.execLoadkey f n wrapped s
  | .setgroup f p g v => Sys2Proof.Machine.execSetgroup f p g v s
  | .setpart f p v => Sys2Proof.Machine.execSetpart f p v s
  | .addkey f v sig => Sys2Proof.Machine.execAddkey f v sig s
  | .revkey f keyid sig => Sys2Proof.Machine.execRevkey f keyid sig s
  | .setcolour f d1 d2 d3 d4 d5 d6 => Sys2Proof.Machine.execSetcolour f d1 d2 d3 d4 d5 d6 s
  | .doorbellWrite f q v => Sys2Proof.Machine.execDoorbellWrite f q v s
  | .queueDescriptorWrite f q n v => Sys2Proof.Machine.execQueueDescriptorWrite f q n v s
  | .functionLevelReset f => Sys2Proof.Machine.execFunctionLevelReset f s
  | .pageResponse f n0 ok => Sys2Proof.Machine.execPageResponse f n0 ok s
  | .atsInvalidation pasid va => Sys2Proof.Machine.execAtsInvalidation pasid va s
  | .partitionReset p => Sys2Proof.Machine.execPartitionReset p s
  | .errorDetected c p a => Sys2Proof.Machine.execErrorDetected c p a s
  | .debugHalt e => Sys2Proof.Machine.execDebugHalt e s
  | .debugRelease e => Sys2Proof.Machine.execDebugRelease e s
  | .cutDrainTimeout p k => Sys2Proof.Machine.execCutDrainTimeout p k s
  | .cutEngineStop k => Sys2Proof.Machine.execCutEngineStop k s
  | .stateImageWrite p => Sys2Proof.Machine.execStateImageWrite p s
  | .fclkStepDown power temp => Sys2Proof.Machine.execFclkStepDown power temp s
  | .fclkStepUp power temp => Sys2Proof.Machine.execFclkStepUp power temp s
  | .thermalReset temp => Sys2Proof.Machine.execThermalReset temp s
  | .pcap v => Sys2Proof.Machine.execPcap v s
  | .bootStage ok image sig reason => Sys2Proof.Machine.execBootStage ok image sig reason s
  | .setOwner v => Sys2Proof.Machine.execSetOwner v s
  | .erase => Sys2Proof.Machine.execErase s
  | .telemetryRead a => Sys2Proof.Machine.execTelemetryRead a s
  | .getVersion x => Sys2Proof.Machine.execGetVersion x s
  | .getCapabilities x v => Sys2Proof.Machine.execGetCapabilities x v s
  | .negotiateAlgorithms x ok => Sys2Proof.Machine.execNegotiateAlgorithms x ok s
  | .getDigests x => Sys2Proof.Machine.execGetDigests x s
  | .getCertificate x n => Sys2Proof.Machine.execGetCertificate x n s
  | .challenge x nonce => Sys2Proof.Machine.execChallenge x nonce s
  | .getMeasurements x n0 => Sys2Proof.Machine.execGetMeasurements x n0 s
  | .keyExchange x share => Sys2Proof.Machine.execKeyExchange x share s
  | .finish x n => Sys2Proof.Machine.execFinish x n s
  | .keyUpdate x n => Sys2Proof.Machine.execKeyUpdate x n s
  | .heartbeat x n => Sys2Proof.Machine.execHeartbeat x n s
  | .endSession x n => Sys2Proof.Machine.execEndSession x n s
  | .spdmUnsupportedRequest x code => Sys2Proof.Machine.execSpdmUnsupportedRequest x code s
  | .towpathMessageArrival k e => Sys2Proof.Machine.execTowpathMessageArrival k e s
  | .linkAcknowledgement l seq => Sys2Proof.Machine.execLinkAcknowledgement l seq s
  | .queueQuantumExpiry q => Sys2Proof.Machine.execQueueQuantumExpiry q s
  | .dynamicAddressAssignment ok => Sys2Proof.Machine.execDynamicAddressAssignment ok s

end Sys2Proof.Machine
end

