-- ==== Sys2Proof/Machine/Outside.lean ====
section
/-! DEFINITION. What the outside does to the machine that no row of the opcode table names: the host's loads and stores of BAR 0 (18 R445, R448),
stop and go on a link (R452), the answers of a peer (11 R329), the residency quantum (16 R413) and IDE keys (18 R449). -/

namespace Sys2Proof.Machine

/-! ### BAR 0 (Tables 18.2 and 18.6) -/

/-- A doubleword of a virtual function's BAR 0. -/
def State.vfRead (s : State) (n a : Nat) : Word :=
  let f := s.vf n
  if a = 0 then pack 64 [(0, 6, n), (8, 4, f.incarn.toNat), (12, 4, f.part)]
  else if a = 8 then f.staleprg.zeroExtend 64
  else if 0x40 ≤ a ∧ a < 0x80 then tget 0 f.mailbox ((a - 0x40) / 8)
  else if a = 0x80 then f.status.zeroExtend 64
  else if a = 0x88 then f.value
  else if 0x1000 ≤ a ∧ a < 0x9000 then
    let q := s.vq (1024 * n + (a - 0x1000) / 32)
    match a % 32 / 8 with | 0 => q.ringbase | 1 => q.cmplbase | 2 => q.ctl | _ => 0
  else if 0xB000 ≤ a ∧ a < 0xB400 then BitVec.ofNat 64 (ofBytes (mgetN f.msix (a - 0xB000) 8))
  else if a = 0xB400 then f.msixPend
  else 0
/-- A load of a doubleword by the host; none while the host interface is down. -/
def State.hostLoad (s : State) (f a : Nat) : State :=
  if 64 < f ∨ a % 8 ≠ 0 ∨ !s.hostUp then s
  else { s with host := { s.host with loaded := if f = pf then s.pfRead a else if a < 65536 then s.vfRead f a else 0 } }
/-- The request in a function's mailbox is submitted (R447). The spec gives the places of the operands of SETCOLOUR only: the events of the other
requests bring theirs with them, and their codes submit nothing here (DESIGN CHOICE, log entry 119). -/
def State.submit (s : State) (f : Nat) : Res :=
  let d := fun n => tget 0 (s.vf f).mailbox n
  match nfld (d 0) 0 8 with
  | 9 => execSetcolour f (d 1) (d 2) (d 3) (d 4) (d 5) (d 6) s
  | c => .next (if 1 ≤ c ∧ c ≤ 8 then s else s.reqDone f 2 0)
/-- A store to the mailbox; that of doubleword 7 submits. -/
def State.mailStore (s : State) (f n : Nat) (v : Word) : Res :=
  let s1 := s.setVf f { s.vf f with mailbox := tset 0 (s.vf f).mailbox n v }
  if n = 7 then s1.submit f else .next s1
/-- A store to the MSI-X table. -/
def State.msixStore (s : State) (f off : Nat) (v : Word) : Res := .next (s.setVf f { s.vf f with msix := msetN (s.vf f).msix off (bvBytes v 8) })
/-- A store of a doubleword by the host; one to a read-only or reserved offset is ignored (R445, R448). -/
def State.hostStore (s : State) (f a : Nat) (v : Word) : Res :=
  if 64 < f ∨ a % 8 ≠ 0 ∨ !s.hostUp then .next s
  else if 0x40 ≤ a ∧ a < 0x80 then s.mailStore f ((a - 0x40) / 8) v
  else if f = pf then
    if 0x1000 ≤ a ∧ a < 0x1400 then s.msixStore f (a - 0x1000) v else if a = 0x20010 then execPcap v s else .next s
  else if 0x1000 ≤ a ∧ a < 0x9000 then execQueueDescriptorWrite f ((a - 0x1000) / 32) (a % 32 / 8) v s
  else if 0x9000 ≤ a ∧ a < 0xB000 then execDoorbellWrite f ((a - 0x9000) / 8) v s
  else if 0xB000 ≤ a ∧ a < 0xB400 then s.msixStore f (a - 0xB000) v
  else .next s

/-! ### The other moves -/

/-- A peer's answers to accesses of a page (R329). -/
def State.peerAnswer (s : State) (peer page code : Nat) : State :=
  if peer < 16 ∧ page < 2 ^ 41 ∧ code < 16 then { s with mem := { s.mem with peerFail := tset 0 s.mem.peerFail (2 ^ 41 * peer + page) code } } else s
/-- Stop or go of a lane class on a link (R452). -/
def State.stopGo (s : State) (l cls : Nat) (stop : Bool) : State :=
  if 12 ≤ l ∨ 2 ≤ cls then s
  else
    let x := s.link l
    s.setLink l { x with stopped := if stop then (if x.stopped.contains cls then x.stopped else cls :: x.stopped) else x.stopped.filter fun c => c != cls }
/-- An open session of the DOE transport sets an IDE key (R449, R481). -/
def State.ideKey (s : State) (n stream : Nat) (key : BitVec 256) : State :=
  let p := s.spdm 0
  if p.sessions.contains n && !p.opening.contains n then s.setMgmt { s.mgmt with ide := tset 0 s.mgmt.ide stream key } else s
/-- A move of the outside; a thread's word, an event and a cycle are none. -/
def State.outside (s : State) (m : Move) : Res :=
  match m with
  | .run _ => .next s
  | .happen _ => .next s
  | .tick => .next s
  | .peerAnswer peer page code => .next (s.peerAnswer peer page code)
  | .setQuantum us => .next { s with host := { s.host with quantum := us } }
  | .stopGo l cls stop => .next (s.stopGo l cls stop)
  | .hostStore f a v => s.hostStore f a v
  | .hostLoad f a => .next (s.hostLoad f a)
  | .ideKey n stream key => .next (s.ideKey n stream key)

end Sys2Proof.Machine
end

