-- ==== Sys2Proof/Machine/Step.lean ====
section
/-! DEFINITION. One step of the machine: an issued firing runs first, then the agenda's next move, then the lowest thread that can
run, then the cycle ends. -/

namespace Sys2Proof.Machine

/-- A thread fetches and runs one word; a thread that cannot run does nothing. -/
def runThread (t : Nat) (s : State) : Host.Outcome State Fault Refusal :=
  if s.runnable t then exec ((s.focusOn t).fetched t) (s.focusOn t) else .next s

/-- One step. -/
def step (s : State) : Host.Outcome State Fault Refusal :=
  match s.focus with
  | .node f => match f.instr with
    | some i => exec i s
    | none => .refused .noWord
  | .thread _ =>
    match s.agenda with
    | .run t :: rest => runThread t { s with agenda := rest }
    | .happen i :: rest => if (sig i).isNone then exec i { s with agenda := rest } else .next { s with agenda := rest }
    | .tick :: rest => s.endCycle rest
    | m :: rest => State.outside { s with agenda := rest } m
    | [] => match s.nextThread with
      | some t => runThread t s
      | none => s.endCycle []

/-- The state with an instruction laid where the next step fetches it. -/
def State.withFetchWord (s : State) (nbits w : Nat) : State := s.placeWord (BitVec.ofNat 128 (w % 2 ^ nbits))

end Sys2Proof.Machine
end

