-- ==== Sys2Proof/Safety.lean ====
section
/-! DEFINITION. What claims call a safe run: a step that neither faults nor is refused, and the canonical form of memory. -/

namespace Sys2Proof

/-- The step of a state answers a next state. -/
def Steps (s : Machine.State) : Prop := ∃ t, Machine.step s = .next t

/-- Physical memory, host memory, peer memory and the key slots of lines are in canonical form: keys strictly rising, and no entry that
equals what an unlisted key reads as. -/
def Canonical (s : Machine.State) : Prop :=
  Machine.Memory.wf s.mem.mem = true ∧ Machine.Memory.wf s.mem.host = true ∧ Machine.Memory.wf s.mem.peer = true ∧
  Machine.twf Machine.noKey s.mem.keys = true

end Sys2Proof
end

