-- ==== Sys2Proof/Certificates/Slice0/Obligations.lean ====
section
/-! DEFINITION. The statements for the provers. Each says in its docstring which rule of spec/ it formalises; what a clause takes
from the model's own choices is said there too. Notions that the statements share stand in Sys2Proof.Claims. -/

namespace Sys2Proof.Claims

open Sys2Proof.Machine

/-! ### Notions that the statements share -/

/-- The instruction answers a next state, of which a property holds. -/
def Ends (i : Instr) (s : State) (p : State → Prop) : Prop := ∃ t, exec i s = .next t ∧ p t

/-- The state once a steward word is done on thread `t` (R77, R132): the destination register that T0 names takes the value, bits 4:0
that the result raises are ORed into the sticky bits of STATUS, and the program counter is the next word, which runs once the latency of
R157 has passed. Nothing else changes. -/
def stewDone (s : State) (t : Nat) (o : Ops) (lat : Nat) (r : Word × BitVec 8) : State :=
  let th := s.thread t
  s.setThread t { th with
    regs := match stewDest o.t0 with | some d => tset 0 th.regs d r.1 | none => th.regs,
    status := th.status ||| (r.2 &&& 0x1F).zeroExtend 64,
    pc := th.pc + 1,
    busy := s.cycle + lat }

/-- Side-band of a result before the firing raises anything: the OR of those of its operands, bit 7 zero (R19, R20). -/
def sbAll (vs : List Val) : BitVec 8 := (vs.map fun v => v.sb).foldr (fun a b => a ||| b) 0 &&& 0x7F

/-- Payload and side-band of a result (R20, R21, R22): with a null or poisoned operand the payload is zero and the firing raises
nothing of its own. -/
def fabResult (vs : List Val) (r : Word × BitVec 8) : Word × BitVec 8 :=
  if bit (sbAll vs) 6 || bit (sbAll vs) 5 then (0, sbAll vs) else (r.1, sbAll vs ||| (r.2 &&& 0x1F))

/-- The tokens of one result: one to T0, and a copy to T1 when T1 is valid (R108). -/
def fabOuts (o : Ops) (tag : Word) (r : Word × BitVec 8) : List Out :=
  (if o.t0 = 0 then [] else [⟨o.t0, r.2, .scalar, r.1, none, tag, []⟩]) ++
  (if o.t1 = 0 then [] else [⟨o.t1, r.2, .scalar, r.1, none, tag, []⟩])

/-- What a value instruction does with operand values `vs` and result `r`: on a steward the word is done (`stewDone`); in the fabric the
firing issues (`State.fire`, of which `FiringLeavesTheRest` says what it changes), and its result tokens leave after `lat` cycles. -/
def Yields (i : Instr) (o : Ops) (s : State) (lat : Nat) (vs : List Val) (r : Word × BitVec 8) : Prop :=
  (∀ t, s.focus = .thread t → exec i s = .next (stewDone s t o lat r)) ∧
  ∀ f, s.focus = .node f → exec i s = .next (s.fire f o lat (fabOuts o f.tag (fabResult vs r)) (fabResult vs r).2)

/-- An instruction of one operand a, of two operands a, b, of three operands a, b, c: its result is a function of TY and the operand
values, whatever forms its operands take. -/
def Unary (c : Ops → Instr) (lat : Nat) (g : Ops → Word → Word × BitVec 8) : Prop :=
  ∀ (o : Ops) (s : State), Yields (c o) o s lat [s.opVal o.ty o.imm o.a] (g o (s.opVal o.ty o.imm o.a).v)
def Binary (c : Ops → Instr) (lat : Nat) (g : Ops → Word → Word → Word × BitVec 8) : Prop :=
  ∀ (o : Ops) (s : State), Yields (c o) o s lat [s.opVal o.ty o.imm o.a, s.opVal o.ty o.imm o.b]
    (g o (s.opVal o.ty o.imm o.a).v (s.opVal o.ty o.imm o.b).v)
def Ternary (c : Ops → Instr) (lat : Nat) (g : Ops → Word → Word → Word → Word × BitVec 8) : Prop :=
  ∀ (o : Ops) (s : State), Yields (c o) o s lat [s.opVal o.ty o.imm o.a, s.opVal o.ty o.imm o.b, s.opVal o.ty o.imm o.c]
    (g o (s.opVal o.ty o.imm o.a).v (s.opVal o.ty o.imm o.b).v (s.opVal o.ty o.imm o.c).v)

/-- The low w bits of an operand (R139). -/
def low (ty : Ty) (x : Word) : BitVec (tyBits ty) := x.setWidth (tyBits ty)
/-- A w-bit result as a payload: sign-extended for i types, else zero-extended (R24, R139). -/
def put (ty : Ty) {n : Nat} (x : BitVec n) : Word := if tySigned ty then x.signExtend 64 else x.setWidth 64
/-- A result that raises nothing (R144). -/
def quiet (ty : Ty) {n : Nat} (x : BitVec n) : Word × BitVec 8 := (put ty x, 0)
/-- A pred result. -/
def truth (b : Bool) : Word × BitVec 8 := (if b then 1 else 0, 0)
/-- The type is one of 0x0 to 0x7, "int" of Table 4.5. -/
def isInt : Ty → Bool
  | .x64 => true | .i32 => true | .u32 => true | .i64 => true | .u64 => true | .i16 => true | .i8 => true | .u8 => true | _ => false

end Sys2Proof.Claims

open Sys2Proof Sys2Proof.Machine Sys2Proof.Claims

/-! ### Integer and address instructions -/

/-- R139, R140, Table 4.5, R487: the wrapping sums and products, NEG, ABS, MAD and ADDX, on the low w bits of the operands. -/
def Sys2Proof.Claims.IntegerArithmeticWraps : Prop :=
  Binary .add 1 (fun o a b => quiet o.ty (low o.ty a + low o.ty b)) ∧
  Binary .sub 1 (fun o a b => quiet o.ty (low o.ty a - low o.ty b)) ∧
  Unary .neg 1 (fun o a => quiet o.ty (-(low o.ty a))) ∧
  Unary .abs 1 (fun o a => quiet o.ty (if (low o.ty a).msb then -(low o.ty a) else low o.ty a)) ∧
  Binary .mul 4 (fun o a b => quiet o.ty (low o.ty a * low o.ty b)) ∧
  Binary .mulh 4 (fun o a b => quiet o.ty
    (((low o.ty a).signExtend (2 * tyBits o.ty) * (low o.ty b).signExtend (2 * tyBits o.ty)).extractLsb' (tyBits o.ty) (tyBits o.ty))) ∧
  Binary .mulhu 4 (fun o a b => quiet o.ty
    (((low o.ty a).setWidth (2 * tyBits o.ty) * (low o.ty b).setWidth (2 * tyBits o.ty)).extractLsb' (tyBits o.ty) (tyBits o.ty))) ∧
  Ternary .mad 4 (fun o a b c => quiet o.ty (low o.ty a * low o.ty b + low o.ty c)) ∧
  Ternary .addx 1 (fun o a b c => quiet o.ty (low o.ty a + low o.ty b <<< (c.toNat % 64)))

/-- R37, Table 2.2, R144: ADDS and SUBS clamp the exact result to the range of TY and set OF when they do. -/
def Sys2Proof.Claims.SaturatingSumsClamp : Prop :=
  let exact : Ty → Word → Int := fun ty x => if tySigned ty then (low ty x).toInt else (low ty x).toNat
  let lo : Ty → Int := fun ty => if tySigned ty then -(2 : Int) ^ (tyBits ty - 1) else 0
  let hi : Ty → Int := fun ty => if tySigned ty then (2 : Int) ^ (tyBits ty - 1) - 1 else (2 : Int) ^ tyBits ty - 1
  let clamp : Ty → Int → Word × BitVec 8 := fun ty x =>
    if x < lo ty then (BitVec.ofInt 64 (lo ty), 0x04) else if hi ty < x then (BitVec.ofInt 64 (hi ty), 0x04) else (BitVec.ofInt 64 x, 0)
  Binary .adds 1 (fun o a b => clamp o.ty (exact o.ty a + exact o.ty b)) ∧
  Binary .subs 1 (fun o a b => clamp o.ty (exact o.ty a - exact o.ty b))

/-- R37, Table 2.2, R144: quotients truncate towards zero, a remainder has the sign of the dividend; a zero divisor sets DZ, and the
most negative value divided by −1 sets OF. -/
def Sys2Proof.Claims.DivisionResults : Prop :=
  Binary .div 20 (fun o a b => let x := low o.ty a; let y := low o.ty b
    if y = 0 then (put o.ty (BitVec.allOnes (tyBits o.ty)), 0x08)
    else if x = BitVec.intMin (tyBits o.ty) ∧ y = BitVec.allOnes (tyBits o.ty) then (put o.ty x, 0x04) else quiet o.ty (x.sdiv y)) ∧
  Binary .divu 20 (fun o a b => let x := low o.ty a; let y := low o.ty b
    if y = 0 then (put o.ty (BitVec.allOnes (tyBits o.ty)), 0x08) else quiet o.ty (x / y)) ∧
  Binary .rem 20 (fun o a b => let x := low o.ty a; let y := low o.ty b
    if y = 0 then (put o.ty x, 0x08)
    else if x = BitVec.intMin (tyBits o.ty) ∧ y = BitVec.allOnes (tyBits o.ty) then (0, 0x04) else quiet o.ty (x.srem y)) ∧
  Binary .remu 20 (fun o a b => let x := low o.ty a; let y := low o.ty b
    if y = 0 then (put o.ty x, 0x08) else quiet o.ty (x % y))

/-- R140, Table 4.5: MIN, MAX, MINU, MAXU and the comparisons, signed and unsigned on the low w bits. -/
def Sys2Proof.Claims.MinMaxAndCompare : Prop :=
  Binary .min 1 (fun o a b => quiet o.ty (if (low o.ty b).slt (low o.ty a) then low o.ty b else low o.ty a)) ∧
  Binary .max 1 (fun o a b => quiet o.ty (if (low o.ty a).slt (low o.ty b) then low o.ty b else low o.ty a)) ∧
  Binary .minu 1 (fun o a b => quiet o.ty (if (low o.ty b).ult (low o.ty a) then low o.ty b else low o.ty a)) ∧
  Binary .maxu 1 (fun o a b => quiet o.ty (if (low o.ty a).ult (low o.ty b) then low o.ty b else low o.ty a)) ∧
  Binary .cmpEq 1 (fun o a b => truth (low o.ty a == low o.ty b)) ∧
  Binary .cmpNe 1 (fun o a b => truth (low o.ty a != low o.ty b)) ∧
  Binary .cmpLt 1 (fun o a b => truth ((low o.ty a).slt (low o.ty b))) ∧
  Binary .cmpLe 1 (fun o a b => truth ((low o.ty a).sle (low o.ty b))) ∧
  Binary .cmpGt 1 (fun o a b => truth ((low o.ty b).slt (low o.ty a))) ∧
  Binary .cmpGe 1 (fun o a b => truth ((low o.ty b).sle (low o.ty a))) ∧
  Binary .cmpLtu 1 (fun o a b => truth ((low o.ty a).ult (low o.ty b))) ∧
  Binary .cmpLeu 1 (fun o a b => truth ((low o.ty a).ule (low o.ty b))) ∧
  Binary .cmpGtu 1 (fun o a b => truth ((low o.ty b).ult (low o.ty a))) ∧
  Binary .cmpGeu 1 (fun o a b => truth ((low o.ty b).ule (low o.ty a)))

/-- R140, Table 4.5: the bitwise instructions, and shifts and rotates by s = b mod w. -/
def Sys2Proof.Claims.BitwiseAndShifts : Prop :=
  let dist : Ty → Word → Nat := fun ty b => (low ty b).toNat % tyBits ty
  Binary .and 1 (fun o a b => quiet o.ty (low o.ty a &&& low o.ty b)) ∧
  Binary .or 1 (fun o a b => quiet o.ty (low o.ty a ||| low o.ty b)) ∧
  Binary .xor 1 (fun o a b => quiet o.ty (low o.ty a ^^^ low o.ty b)) ∧
  Binary .andn 1 (fun o a b => quiet o.ty (low o.ty a &&& ~~~(low o.ty b))) ∧
  Unary .not 1 (fun o a => quiet o.ty (~~~(low o.ty a))) ∧
  Binary .shl 1 (fun o a b => quiet o.ty (low o.ty a <<< dist o.ty b)) ∧
  Binary .shr 1 (fun o a b => quiet o.ty (low o.ty a >>> dist o.ty b)) ∧
  Binary .sar 1 (fun o a b => quiet o.ty ((low o.ty a).sshiftRight (dist o.ty b))) ∧
  Binary .rol 1 (fun o a b => quiet o.ty ((low o.ty a).rotateLeft (dist o.ty b)))

/-- R140, Table 4.5: CLZ, CTZ and POPC on the low w bits, CLZ and CTZ of 0 giving w, and BSWAP byte by byte, for the types of Table 4.5. -/
def Sys2Proof.Claims.BitCountsAndByteReversal : Prop :=
  ∀ (o : Ops) (s : State), isInt o.ty = true →
    let a := s.opVal o.ty o.imm o.a
    let w := tyBits o.ty
    let x := low o.ty a.v
    (∃ n, Yields (.clz o) o s 1 [a] (BitVec.ofNat 64 n, 0) ∧ n ≤ w ∧ (∀ i, w - n ≤ i → i < w → x.getLsbD i = false) ∧
      (n < w → x.getLsbD (w - 1 - n) = true)) ∧
    (∃ n, Yields (.ctz o) o s 1 [a] (BitVec.ofNat 64 n, 0) ∧ n ≤ w ∧ (∀ i, i < n → x.getLsbD i = false) ∧
      (n < w → x.getLsbD n = true)) ∧
    Yields (.popc o) o s 1 [a] (BitVec.ofNat 64 ((List.range w).filter fun i => x.getLsbD i).length, 0) ∧
    ∃ y : BitVec w, Yields (.bswap o) o s 1 [a] (put o.ty y, 0) ∧ ∀ i, i < w → y.getLsbD i = x.getLsbD (8 * (w / 8 - 1 - i / 8) + i % 8)

/-- R141: BFX, BFI, SEXT and ZEXT bit by bit. The control operand and n are read whole; a bit of a at w or above reads as zero for u
types and x64 and as bit w − 1 for i types; a field or an n of length 0 gives 0 (BFX, SEXT, ZEXT) or leaves a (BFI). -/
def Obligations.FieldInstructions : Prop :=
  let abit : Ty → Word → Nat → Bool := fun ty a i =>
    if i < tyBits ty then a.getLsbD i else tySigned ty && a.getLsbD (tyBits ty - 1)
  ∀ (o : Ops) (s : State), isInt o.ty = true →
    let a := s.opVal o.ty o.imm o.a
    let b := s.opVal o.ty o.imm o.b
    let c := s.opVal o.ty o.imm o.c
    let w := tyBits o.ty
    (∃ y : BitVec w, Yields (.bfx o) o s 1 [a, b] (put o.ty y, 0) ∧
      let n := min (b.v.toNat / 256 % 256) w
      let pos := b.v.toNat % 256
      ∀ i, i < w → y.getLsbD i =
        if n = 0 then false else if i < n then abit o.ty a.v (pos + i) else tySigned o.ty && abit o.ty a.v (pos + n - 1)) ∧
    (∃ y : BitVec w, Yields (.bfi o) o s 1 [a, b, c] (put o.ty y, 0) ∧
      let len := c.v.toNat / 256 % 256
      let pos := c.v.toNat % 256
      ∀ i, i < w → y.getLsbD i = if pos ≤ i ∧ i < pos + len then b.v.getLsbD (i - pos) else a.v.getLsbD i) ∧
    (∃ y : BitVec w, Yields (.sext o) o s 1 [a, b] (put o.ty y, 0) ∧
      let n := b.v.toNat
      ∀ i, i < w → y.getLsbD i = if n = 0 then false else if n ≤ i then a.v.getLsbD (n - 1) else a.v.getLsbD i) ∧
    (∃ y : BitVec w, Yields (.zext o) o s 1 [a, b] (put o.ty y, 0) ∧
      let n := b.v.toNat
      ∀ i, i < w → y.getLsbD i = if n ≤ i then false else a.v.getLsbD i)

/-- R140, R142, R143, R65: LI reads IMM and never its trigger; SEL copies the low w bits of one of two operands; CRC steps through the bytes of b, lowest
first, bit by bit; MIX applies one round of the noise mixer. -/
def Sys2Proof.Claims.LiSelCrcMix : Prop :=
  let crcStep : BitVec 32 → BitVec 32 := fun c => if c.getLsbD 0 then (c >>> 1) ^^^ 0x82F63B78#32 else c >>> 1
  let crcOf : BitVec 32 → List (BitVec 8) → BitVec 32 := fun c l =>
    l.foldl (fun c x => crcStep (crcStep (crcStep (crcStep (crcStep (crcStep (crcStep (crcStep (c ^^^ x.setWidth 32))))))))) c
  let bytesOf : Word → Nat → List (BitVec 8) := fun b n => (List.range n).map fun i => b.extractLsb' (8 * i) 8
  let mixer : Word → Word → Word := fun k h => ((h ^^^ (h >>> 32)) * k) ^^^ (((h ^^^ (h >>> 32)) * k) >>> 29)
  (∀ (o : Ops) (s : State), isInt o.ty = true →
    Yields (.li o) o s 1 [s.opVal o.ty o.imm o.a] (put o.ty (low o.ty (if tySigned o.ty then o.imm.signExtend 64 else o.imm.setWidth 64)), 0)) ∧
  (∀ (o : Ops) (s : State), o.ty = .bf16 ∨ o.ty = .f16 → Yields (.li o) o s 1 [s.opVal o.ty o.imm o.a] (o.imm.setWidth 64, 0)) ∧
  (∀ (o : Ops) (s : State), o.ty = .f32 → Yields (.li o) o s 1 [s.opVal o.ty o.imm o.a] (o.imm.setWidth 64 <<< 16, 0)) ∧
  (∀ (o : Ops) (s : State), o.ty = .pred → o.imm = 0 ∨ o.imm = 1 → Yields (.li o) o s 1 [s.opVal o.ty o.imm o.a] (o.imm.setWidth 64, 0)) ∧
  (∀ (o : Ops) (s : State), Yields (.sel o) o s 1 [s.opVal .pred o.imm o.a, s.opVal o.ty o.imm o.b, s.opVal o.ty o.imm o.c]
    (put o.ty (low o.ty (if (s.opVal .pred o.imm o.a).v.getLsbD 0 then (s.opVal o.ty o.imm o.b).v else (s.opVal o.ty o.imm o.c).v)), 0)) ∧
  Binary .crc 4 (fun o a b => ((crcOf (a.setWidth 32) (bytesOf b (match o.ty with | .u8 => 1 | .u32 => 4 | _ => 8))).setWidth 64, 0)) ∧
  Binary .mix 4 (fun _ a b => (mixer (if b.toNat % 3 = 0 then 0xD6E8FEB86659FD93 else if b.toNat % 3 = 1 then 0x9E6C63D0676A9A99
    else 0xCF3A2A1D5B7C41E5) a, 0))

namespace Sys2Proof.Claims

/-- Sign, exponent and fraction fields of a datum (Table 2.3), and whether it is a NaN or an infinity (R39). -/
def fSign (f : Fmt) (n : Nat) : Bool := n / 2 ^ (f.eb + f.fb) % 2 == 1
def fExpo (f : Fmt) (n : Nat) : Nat := n / 2 ^ f.fb % 2 ^ f.eb
def fFrac (f : Fmt) (n : Nat) : Nat := n % 2 ^ f.fb
def fIsNan (f : Fmt) (n : Nat) : Bool := fExpo f n == 2 ^ f.eb - 1 && fFrac f n != 0
def fIsInf (f : Fmt) (n : Nat) : Bool := fExpo f n == 2 ^ f.eb - 1 && fFrac f n == 0
def fIsZero (f : Fmt) (n : Nat) : Bool := fExpo f n == 0 && fFrac f n == 0
/-- The place of a datum other than a NaN in the order of R50: −0 stands just below +0. -/
def fPlace (f : Fmt) (n : Nat) : Int := if fSign f n then -(n % 2 ^ (f.eb + f.fb) : Nat) - 1 else (n % 2 ^ (f.eb + f.fb) : Nat)
/-- The bits of a datum (R24). -/
def fBits (f : Fmt) (n : Nat) : Nat := n % 2 ^ (f.eb + f.fb + 1)
/-- A datum as a payload that raises the given bits. -/
def datum (r : Nat × BitVec 8) : Word × BitVec 8 := (BitVec.ofNat 64 r.1, r.2)

end Sys2Proof.Claims

/-! ### Scalar floating point -/

/-- R149, R153, R154, R157: the rounding instructions run on every operand, with the latencies of Table 5.4; each result is that of the
model's function of the format of TY, RM and SAT, of which `FloatSpecialOperands` and `RoundingIsCorrect` say what it is. -/
def Sys2Proof.Claims.FloatInstructionsComplete : Prop :=
  let f : Ops → Fmt := fun o => fmtOf o.ty
  let rm : Ops → Nat := fun o => o.fl.toNat / 64 % 4
  let sat : Ops → Bool := fun o => o.fl.getLsbD 8
  Binary .fadd 4 (fun o a b => datum (fAdd (f o) (rm o) (sat o) a.toNat b.toNat)) ∧
  Binary .fsub 4 (fun o a b => datum (fSub (f o) (rm o) (sat o) a.toNat b.toNat)) ∧
  Binary .fmul 4 (fun o a b => datum (fMul (f o) (rm o) (sat o) a.toNat b.toNat)) ∧
  Ternary .ffma 4 (fun o a b c => datum (fFma (f o) (rm o) (sat o) a.toNat b.toNat c.toNat)) ∧
  Binary .fdiv 12 (fun o a b => datum (fDiv (f o) (rm o) (sat o) a.toNat b.toNat)) ∧
  Unary .fsqrt 12 (fun o a => datum (fSqrt (f o) (rm o) (sat o) a.toNat)) ∧
  Unary .frsq 12 (fun o a => datum (fRsq (f o) (rm o) (sat o) a.toNat)) ∧
  Unary .frcp 8 (fun o a => datum (fRcp (f o) (rm o) (sat o) a.toNat)) ∧
  Unary .fexp2 8 (fun o a => datum (fExp2 (f o) (rm o) (sat o) a.toNat)) ∧
  Unary .flog2 8 (fun o a => datum (fLog2 (f o) (rm o) (sat o) a.toNat)) ∧
  Unary .fround 4 (fun o a => datum (fRound (f o) (rm o) a.toNat)) ∧
  ∀ (o : Ops) (s : State),
    let src := tyOf (o.imm.setWidth 4)
    Yields (.fcvt o) o s 4 [s.opVal src o.imm o.a] (fCvt src o.ty (rm o) (sat o) (s.opVal src o.imm o.a).v)

/-- R41, R45, R49, Tables 2.6 and 2.8: what the arithmetic gives on NaN, infinite and zero operands in each of the three formats, in
every rounding mode and with SAT or without. -/
def Sys2Proof.Claims.FloatSpecialOperands : Prop :=
  ∀ f, f = fmtF32 ∨ f = fmtF16 ∨ f = fmtBf16 → ∀ (rm : Nat) (sat : Bool) (a b c : Nat),
    let x := fSign f a ^^ fSign f b
    (fIsNan f a = true ∨ fIsNan f b = true → fAdd f rm sat a b = (f.nan, 0) ∧ fSub f rm sat a b = (f.nan, 0) ∧ fMul f rm sat a b = (f.nan, 0) ∧
      fDiv f rm sat a b = (f.nan, 0)) ∧
    (fIsNan f a = true ∨ fIsNan f b = true ∨ fIsNan f c = true → fFma f rm sat a b c = (f.nan, 0)) ∧
    (fIsNan f a = true → fSqrt f rm sat a = (f.nan, 0) ∧ fRsq f rm sat a = (f.nan, 0) ∧ fRcp f rm sat a = (f.nan, 0) ∧
      fExp2 f rm sat a = (f.nan, 0) ∧ fLog2 f rm sat a = (f.nan, 0) ∧ fRound f rm a = (f.nan, 0)) ∧
    (fIsInf f a = true → fIsInf f b = true → fAdd f rm sat a b = (if fSign f a = fSign f b then (f.inf (fSign f a), 0) else (f.nan, 0x10)) ∧
      fSub f rm sat a b = (if fSign f a = fSign f b then (f.nan, 0x10) else (f.inf (fSign f a), 0)) ∧ fDiv f rm sat a b = (f.nan, 0x10) ∧
      fMul f rm sat a b = (f.inf x, 0)) ∧
    (fIsInf f a = true → fIsZero f b = true → fMul f rm sat a b = (f.nan, 0x10) ∧ fMul f rm sat b a = (f.nan, 0x10)) ∧
    (fIsZero f a = true → fIsZero f b = true → fDiv f rm sat a b = (f.nan, 0x10)) ∧
    (fIsInf f a = false → fIsNan f a = false → fIsZero f a = false → fIsZero f b = true → fDiv f rm sat a b = (f.inf x, 0x08)) ∧
    (fIsInf f a = false → fIsNan f a = false → fIsInf f b = true → fDiv f rm sat a b = (f.zero x, 0)) ∧
    (fIsZero f a = true → fSqrt f rm sat a = (f.zero (fSign f a), 0) ∧ fRsq f rm sat a = (f.inf (fSign f a), 0x08) ∧
      fRcp f rm sat a = (f.inf (fSign f a), 0x08) ∧ fLog2 f rm sat a = (f.inf true, 0x08)) ∧
    (fSign f a = true → fIsNan f a = false → fIsZero f a = false → fSqrt f rm sat a = (f.nan, 0x10) ∧ fRsq f rm sat a = (f.nan, 0x10) ∧
      fLog2 f rm sat a = (f.nan, 0x10)) ∧
    (fSign f a = false → fIsInf f a = true → fSqrt f rm sat a = (f.inf false, 0) ∧ fRsq f rm sat a = (f.zero false, 0) ∧
      fExp2 f rm sat a = (f.inf false, 0) ∧ fLog2 f rm sat a = (f.inf false, 0)) ∧
    (fIsInf f a = true → fRcp f rm sat a = (f.zero (fSign f a), 0) ∧ fRound f rm a = (f.inf (fSign f a), 0)) ∧
    (fSign f a = true → fIsInf f a = true → fExp2 f rm sat a = (f.zero false, 0))

/-- R43, R44, R49, R52, R149, R153, R154, Table 5.1: the arithmetic on finite operands, written as ±m × 2^e, is the exact result rounded once by
the format's rounding, of which `RoundingIsCorrect` says what it names. A quotient or a root that does not end is given to the rounding as its
whole part with more bits than the format keeps, and a mark that something follows; that rounds as the value half a unit above would. An exact zero
sum is −0 under RM 2 or when both terms are −0. FROUND rounds to a whole number in the mode's direction and raises IX when that changes the value;
FCVT rounds the value read in the source type, or clamps it to the integers of TY with IV. -/
def Sys2Proof.Claims.FloatFiniteOperands : Prop :=
  let sg : Bool → Nat → Int := fun n m => if n then -(m : Int) else m
  ∀ f, f = fmtF32 ∨ f = fmtF16 ∨ f = fmtBf16 → ∀ (rm : Nat) (sat : Bool), rm < 4 →
    let sum : Bool → Nat → Int → Bool → Nat → Int → Nat × BitVec 8 → Prop := fun n m e k l g r =>
      let u := min e g
      let x := sg n m * 2 ^ (e - u).toNat + sg k l * 2 ^ (g - u).toNat
      (x ≠ 0 → r = f.round rm sat (decide (x < 0)) x.natAbs u false) ∧
      (x = 0 → r = (f.zero (if m = 0 ∧ l = 0 ∧ n = k then n else rm == 2), 0))
    (∀ (neg : Bool) (m : Nat) (e : Int), 2 ^ (f.fb + 2) ≤ m → f.round rm sat neg m e true = f.round rm sat neg (2 * m + 1) (e - 1) false) ∧
    (∀ (a b : Nat) (n k : Bool) (m l : Nat) (e g : Int), f.read a = .fin n m e → f.read b = .fin k l g →
      sum n m e k l g (fAdd f rm sat a b) ∧ sum n m e (!k) l g (fSub f rm sat a b) ∧
      fMul f rm sat a b = f.round rm sat (n ^^ k) (m * l) (e + g) false ∧
      (∀ (c : Nat) (j : Bool) (i : Nat) (h : Int), f.read c = .fin j i h → sum (n ^^ k) (m * l) (e + g) j i h (fFma f rm sat a b c)) ∧
      (m ≠ 0 → l ≠ 0 → ∃ q d : Nat, 2 ^ (f.fb + 2) ≤ q ∧ q * l ≤ m * 2 ^ d ∧ m * 2 ^ d < (q + 1) * l ∧
        fDiv f rm sat a b = f.round rm sat (n ^^ k) q (e - g - d) (decide (q * l ≠ m * 2 ^ d)))) ∧
    (∀ (a : Nat) (n : Bool) (m : Nat) (e : Int), f.read a = .fin n m e →
      (m ≠ 0 → ∃ q d : Nat, 2 ^ (f.fb + 2) ≤ q ∧ q * m ≤ 2 ^ d ∧ 2 ^ d < (q + 1) * m ∧
        fRcp f rm sat a = f.round rm sat n q (-e - d) (decide (q * m ≠ 2 ^ d))) ∧
      (m ≠ 0 → n = false → ∃ (q d : Nat) (h : Int), 2 ^ (f.fb + 2) ≤ q ∧ q * q ≤ m * 2 ^ d ∧ m * 2 ^ d < (q + 1) * (q + 1) ∧ e - d = 2 * h ∧
        fSqrt f rm sat a = f.round rm sat false q h (decide (q * q ≠ m * 2 ^ d))) ∧
      (m ≠ 0 → n = false → ∃ (q d j : Nat) (h : Int), 2 ^ (f.fb + 2) ≤ q ∧ q * q * (m * 2 ^ j) ≤ 2 ^ (2 * d) ∧ 2 ^ (2 * d) < (q + 1) * (q + 1) * (m * 2 ^ j) ∧
        e - j = 2 * h ∧ fRsq f rm sat a = f.round rm sat false q (-h - d) (decide (q * q * (m * 2 ^ j) ≠ 2 ^ (2 * d)))) ∧
      (0 ≤ e → fRound f rm a = (fBits f a, 0)) ∧
      (e < 0 → ∃ r : Nat, let k := 2 ^ (-e).toNat
        fRound f rm a = ((f.round rm false n r 0 false).1, if r * k = m then 0 else 1) ∧
        (rm = 0 → 2 * ((r * k - m) + (m - r * k)) ≤ k ∧ (2 * ((r * k - m) + (m - r * k)) = k → r % 2 = 0)) ∧
        (rm = 1 ∨ (rm = 2 ∧ n = false) ∨ (rm = 3 ∧ n = true) → r = m / k) ∧
        ((rm = 2 ∧ n = true) ∨ (rm = 3 ∧ n = false) → r = (m + k - 1) / k))) ∧
    (∀ (src dst : Ty) (x : Word), isFp dst = true → fmtOf dst = f →
      (∀ n m e, isFp src = true → src ≠ dst → (fmtOf src).read x.toNat = .fin n m e → fCvt src dst rm sat x = datum (f.round rm sat n m e false)) ∧
      (isInt src = true → let i : Int := if tySigned src then (low src x).toInt else (low src x).toNat
        fCvt src dst rm sat x = datum (f.round rm sat (decide (i < 0)) i.natAbs 0 false)))

/-- R49, Table 5.1, Table 2.8: FEXP2 of a whole number and FLOG2 of a power of two are exact before their one rounding. On every other finite
operand what is rounded lies within 2^16 units of 2^-320 of the exact result, relative to its power of two for FEXP2, and is marked inexact (the
model's series, log entry 15); beyond 2^12 FEXP2 overflows or falls below every number. -/
def Obligations.ExponentialsAndLogarithms : Prop :=
  ∀ f, f = fmtF32 ∨ f = fmtF16 ∨ f = fmtBf16 → ∀ (rm : Nat) (sat : Bool) (a : Nat) (n : Bool) (m : Nat) (e : Int), f.read a = .fin n m e →
    let x : ℝ := (if n then -1 else 1) * (m : ℝ) * (2 : ℝ) ^ e
    (∀ i : Int, x = i → i.natAbs < 4096 → fExp2 f rm sat a = f.round rm sat false 1 i false) ∧
    ((∀ i : Int, x ≠ i) → |x| < 4096 → ∃ y : Nat, fExp2 f rm sat a = f.round rm sat false y (⌊x⌋ - 320) true ∧
      |(y : ℝ) - (2 : ℝ) ^ (320 + (x - ⌊x⌋))| ≤ 2 ^ 16) ∧
    (4096 ≤ |x| → fExp2 f rm sat a = f.round rm sat false 1 (if n then -4000 else 4000) true) ∧
    (m ≠ 0 → n = false →
      (∀ i : Int, x = (2 : ℝ) ^ i → fLog2 f rm sat a = if i = 0 then (f.zero false, 0) else f.round rm sat (decide (i < 0)) i.natAbs 0 false) ∧
      ((∀ i : Int, x ≠ (2 : ℝ) ^ i) → ∃ y : Nat, fLog2 f rm sat a = f.round rm sat (decide (x < 1)) y (-320) true ∧
        |(y : ℝ) - |Real.logb 2 x| * 2 ^ 320| ≤ 2 ^ 16))

/-- R50, R150, R151, Table 5.2: FMIN, FMAX, FABS, FNEG, the relations of FCMP and FCLASS in terms of the bits of the data. −0 is less
than +0, a NaN is unordered, FMIN and FMAX return the other operand when one is a NaN, and FCLASS sets the one bit of its class. -/
def Sys2Proof.Claims.FloatComparisonsAndClasses : Prop :=
  let f : Ops → Fmt := fun o => fmtOf o.ty
  let un : Ops → Word → Word → Bool := fun o a b => fIsNan (f o) a.toNat || fIsNan (f o) b.toNat
  let pl : Ops → Word → Int := fun o a => fPlace (f o) a.toNat
  let bits : Ops → Word → Word × BitVec 8 := fun o a => (BitVec.ofNat 64 (fBits (f o) a.toNat), 0)
  let nan : Ops → Word × BitVec 8 := fun o => (BitVec.ofNat 64 (f o).nan, 0)
  let pick : Bool → Ops → Word → Word → Word × BitVec 8 := fun first o a b =>
    if fIsNan (f o) a.toNat && fIsNan (f o) b.toNat then nan o else if fIsNan (f o) a.toNat then bits o b
    else if fIsNan (f o) b.toNat then bits o a else if first then bits o a else bits o b
  let top : Ops → Nat := fun o => 2 ^ ((f o).eb + (f o).fb)
  Binary .fmin 1 (fun o a b => pick (pl o a ≤ pl o b) o a b) ∧
  Binary .fmax 1 (fun o a b => pick (pl o b ≤ pl o a) o a b) ∧
  Unary .fabs 1 (fun o a => if fIsNan (f o) a.toNat then nan o else (BitVec.ofNat 64 (fBits (f o) a.toNat % top o), 0)) ∧
  Unary .fneg 1 (fun o a => if fIsNan (f o) a.toNat then nan o
    else (BitVec.ofNat 64 (fBits (f o) a.toNat % top o + if fSign (f o) a.toNat then 0 else top o), 0)) ∧
  Binary .fcmpEq 1 (fun o a b => truth (!un o a b && pl o a == pl o b)) ∧
  Binary .fcmpNe 1 (fun o a b => truth (un o a b || pl o a != pl o b)) ∧
  Binary .fcmpLt 1 (fun o a b => truth (!un o a b && decide (pl o a < pl o b))) ∧
  Binary .fcmpLe 1 (fun o a b => truth (!un o a b && decide (pl o a ≤ pl o b))) ∧
  Binary .fcmpGt 1 (fun o a b => truth (!un o a b && decide (pl o b < pl o a))) ∧
  Binary .fcmpGe 1 (fun o a b => truth (!un o a b && decide (pl o b ≤ pl o a))) ∧
  Binary .fcmpUn 1 (fun o a b => truth (un o a b)) ∧
  Unary .fclass 1 (fun o a => let n := a.toNat; let neg := fSign (f o) n
    (if fIsNan (f o) n then 0x100 else if fIsInf (f o) n then (if neg then 0x01 else 0x80)
      else if fIsZero (f o) n then (if neg then 0x08 else 0x10) else if fExpo (f o) n = 0 then (if neg then 0x04 else 0x20)
      else if neg then 0x02 else 0x40, 0))

/-- R155, R156: MAXI returns the pair that ranks higher. ORD = 0 ranks as R50, a NaN below all; ORD = 1 ranks by the key of R51 over the
format's width; a tie goes to the lower index, equal indices return a, and a NaN value becomes the canonical NaN. -/
def Sys2Proof.Claims.MaxiRanksPairs : Prop :=
  let key : Fmt → Bool → Nat → Int := fun f ord v =>
    if fIsNan f v then (if ord then 0 else -(2 ^ (f.eb + f.fb) : Nat) - 1)
    else if ord then (if fIsZero f v then (2 ^ (f.eb + f.fb) : Nat) else fPlace f v + (2 ^ (f.eb + f.fb) : Nat))
    else fPlace f v
  ∀ (o : Ops) (s : State), isFp o.ty = true →
    let f := fmtOf o.ty
    let a := s.opVal o.ty o.imm o.a
    let b := s.opVal o.ty o.imm o.b
    let va := fBits f a.v.toNat
    let vb := fBits f b.v.toNat
    let ia := a.v.toNat / 2 ^ 32
    let ib := b.v.toNat / 2 ^ 32
    let k := key f (o.imm.getLsbD 0)
    let takeA := k vb < k va ∨ (k va = k vb ∧ ia ≤ ib)
    let v := if takeA then va else vb
    Yields (.maxi o) o s 1 [a, b]
      (BitVec.ofNat 64 ((if takeA then ia else ib) * 2 ^ 32 + if fIsNan f v then f.nan else v), 0)

/-- R40, R42, R43, R46, Table 2.7 for a finite exact value ±m × 2^e, not zero, in each of the three formats without SAT. Magnitudes
are counted in units of 2^E, where E is below every exponent in play. Without overflow the result is finite, has the sign of the exact
value, and is the representable value that the mode of Table 2.5 names, subnormals among them; IX says whether it differs. OF is raised,
with IX, exactly when the value rounded with unbounded exponent exceeds MAX, and the result is then that of Table 2.7. -/
def Obligations.RoundingIsCorrect : Prop :=
  ∀ f, f = fmtF32 ∨ f = fmtF16 ∨ f = fmtBf16 → ∀ (rm : Nat) (neg : Bool) (m : Nat) (e : Int), rm < 4 → m ≠ 0 →
    let r := f.round rm false neg m e false
    let emin : Int := 1 - f.bias - f.fb
    let unit : Int := if e ≤ emin then e else emin
    let x : Nat := m * 2 ^ (e - unit).toNat
    let mag : Nat → Nat := fun y => match f.read y with | .fin _ k g => k * 2 ^ (g - unit).toNat | _ => 0
    let finite : Nat → Prop := fun y => fExpo f y ≠ 2 ^ f.eb - 1
    let top : Nat := 2 ^ ((f.bias : Int) + 1 - unit).toNat
    let down : Prop := rm = 1 ∨ (rm = 2 ∧ neg = false) ∨ (rm = 3 ∧ neg = true)
    let up : Prop := (rm = 2 ∧ neg = true) ∨ (rm = 3 ∧ neg = false)
    let off : Nat → Nat := fun y => (x - mag y) + (mag y - x)
    (r.2.getLsbD 2 = false → finite r.1 ∧ fSign f r.1 = neg ∧ (r.2.getLsbD 0 = true ↔ mag r.1 ≠ x) ∧
      (down → mag r.1 ≤ x ∧ ∀ y, finite y → mag y ≤ x → mag y ≤ mag r.1) ∧
      (up → x ≤ mag r.1 ∧ ∀ y, finite y → x ≤ mag y → mag r.1 ≤ mag y) ∧
      (rm = 0 → ∀ y, finite y → off r.1 ≤ off y ∧ (off r.1 = off y → mag y ≠ mag r.1 → r.1 % 2 = 0))) ∧
    (r.2.getLsbD 2 = true → r.2 = 0x05 ∧ r.1 = (if up ∨ rm = 0 then f.inf neg else f.max neg)) ∧
    (r.2.getLsbD 2 = true ↔ (rm = 0 ∧ mag (f.max false) + top ≤ 2 * x) ∨ (down ∧ top ≤ x) ∨ (up ∧ mag (f.max false) < x))

namespace Sys2Proof.Claims

/-- The value of an operand read whole. -/
def arg (s : State) (o : Ops) (x : Opnd) : Word := (s.opVal .x64 o.imm x).v
/-- The machine runs a word of thread `t` in supervisor mode, or in user mode (MODE is bit 8 of STATUS). -/
def InSuper (s : State) (t : Nat) : Prop := s.focus = .thread t ∧ (s.thread t).status.getLsbD 8 = true
def InUser (s : State) (t : Nat) : Prop := s.focus = .thread t ∧ (s.thread t).status.getLsbD 8 = false
/-- The word is done: wD takes the value when T0 names one, and the program counter is the next word. Nothing else of the thread and
nothing else of `s` changes. -/
def wordDone (s : State) (t : Nat) (o : Ops) (v : Word) : State :=
  let th := s.thread t
  s.setThread t { th with regs := match stewDest o.t0 with | some d => tset 0 th.regs d v | none => th.regs, pc := th.pc + 1 }
/-- The bits of an ILLEGAL or PRIVILEGE trap's EVAL: bits 127:64 of the word at the program counter. -/
def highHalf (s : State) (t : Nat) : Nat :=
  (tget 0 (s.image (s.thread t).image).words (s.thread t).pc.toNat).toNat / 2 ^ 64
/-- What taking a trap leaves, when no trap was in progress (R259): `code` in ECAUSE with the number of TRAP in bits 31:16, EVAL, EPC,
PMODE with the old MODE, MODE and TB set, the program counter at TVEC; registers, TVEC, SCRATCH, ASID and EVTX, every other bit of
STATUS, and everything outside the thread are as before. -/
def Trapped (s s' : State) (t code n : Nat) (eval epc : Word) : Prop :=
  ∃ th : Thread, s' = s.setThread t th ∧
    th.epc = epc ∧ th.ecause = BitVec.ofNat 64 (code + n * 65536) ∧ th.eval = eval ∧ th.pc = (s.thread t).tvec ∧
    th.status.getLsbD 9 = (s.thread t).status.getLsbD 8 ∧ th.status.getLsbD 8 = true ∧ th.status.getLsbD 10 = true ∧
    (∀ i, i ≠ 8 → i ≠ 9 → i ≠ 10 → th.status.getLsbD i = (s.thread t).status.getLsbD i) ∧
    th.regs = (s.thread t).regs ∧ th.tvec = (s.thread t).tvec ∧ th.scratch = (s.thread t).scratch ∧ th.asid = (s.thread t).asid ∧
    th.evtx0 = (s.thread t).evtx0 ∧ th.evtx1 = (s.thread t).evtx1 ∧ th.image = (s.thread t).image ∧
    th.started = (s.thread t).started ∧ th.halted = (s.thread t).halted ∧ th.stall = .none
/-- No trap is in progress on the thread: TB is 0. -/
def NoTrap (s : State) (t : Nat) : Prop := (s.thread t).status.getLsbD 10 = false

end Sys2Proof.Claims

/-! ### Traps and privilege -/

/-- R259: taking a trap, for every code, EVAL and TRAP number that fits its field, when TB is 0; when TB is 1 the thread halts instead,
its program counter stays, and a HALT event with CODE 1 that names the counter and the thread is sent. -/
def Sys2Proof.Claims.TrapEntry : Prop :=
  ∀ (s : State) (t code eval n : Nat) (epc : Word), code < 16 → n < 65536 →
    (NoTrap s t → Trapped s (s.takeTrap t code eval n epc) t code n (BitVec.ofNat 64 eval) epc) ∧
    (¬ NoTrap s t → ∃ ev : Event, fld ev 60 4 = 4#4 ∧ fld ev 44 16 = 1#16 ∧ fld ev 64 64 = (s.thread t).pc ∧ fld ev 128 64 = BitVec.ofNat 64 t ∧
      s.takeTrap t code eval n epc =
        (s.setThread t { s.thread t with halted := true, stall := .none }).sendEvent (s.partOfThread t) ev)

/-- R259: TRAP n, in either mode, takes the trap with code 14 and n, and resumes after itself; RETT in supervisor mode sets the program
counter to EPC, MODE to PMODE and TB to 0 and changes nothing else. -/
def Sys2Proof.Claims.TrapAndReturn : Prop :=
  ∀ (o : Ops) (s : State) (t : Nat), s.focus = .thread t →
    (NoTrap s t → Ends (.trap o) s fun s' => Trapped s s' t 14 o.imm.toNat 0 ((s.thread t).pc + 1)) ∧
    (InSuper s t → Ends (.rett o) s fun s' => ∃ st : Word, s' = s.setThread t { s.thread t with pc := (s.thread t).epc, status := st } ∧
      st.getLsbD 8 = (s.thread t).status.getLsbD 9 ∧ st.getLsbD 10 = false ∧
      ∀ i, i ≠ 8 → i ≠ 10 → st.getLsbD i = (s.thread t).status.getLsbD i)

/-- R237, R259: every system instruction but TRAP traps as PRIVILEGE in user mode, with the high half of the word in EVAL, whatever its
operands hold, and changes nothing else. -/
def Obligations.SystemInstructionsTrapInUserMode : Prop :=
  ∀ (c : Ops → Instr), c ∈ ([.purgeCol, .purgeGen, .purgeIter, .park, .unpark, .qset, .prio, .winset, .sentl, .colset, .partw, .cfgw, .cfgrd,
      .raise, .drop, .tlbi, .genret, .quiesce, .resume, .fltrd, .csrr, .csrw, .rett] : List (Ops → Instr)) →
    ∀ (o : Ops) (s : State) (t : Nat), InUser s t → NoTrap s t →
      Ends (c o) s fun s' => Trapped s s' t 9 0 (BitVec.ofNat 64 (highHalf s t)) (s.thread t).pc

/-- R85, R132, R259: a thread whose word at the program counter is illegal, or lies outside its image, traps as ILLEGAL with the high
half of the word in EVAL and the program counter of the word in EPC. -/
def Sys2Proof.Claims.IllegalWordTraps : Prop :=
  ∀ (s : State) (t : Nat), (s.thread t).started = true → (s.thread t).halted = false → NoTrap s t →
    ((s.image (s.thread t).image).size ≤ (s.thread t).pc.toNat ∨
      (∃ e, decode (tget 0 (s.image (s.thread t).image).words (s.thread t).pc.toNat) = .error e) ∨
      (∃ i, decode (tget 0 (s.image (s.thread t).image).words (s.thread t).pc.toNat) = .ok i ∧
        legal (s.image (s.thread t).image).version .steward i = false)) →
    Ends (.illegalWordFetch t) s fun s' => Trapped s s' t 8 0 (BitVec.ofNat 64 (highHalf s t)) (s.thread t).pc

/-! ### Steward control -/

/-- R113, R134: NOP, the branches, CALL and RET. Distances are signed words from the branch; the relations compare the low w bits. Only the
thread changes. -/
def Obligations.BranchesMoveTheCounter : Prop :=
  ∀ (o : Ops) (s : State) (t : Nat), s.focus = .thread t →
    let th := s.thread t
    let a := low o.ty (s.opVal o.ty o.imm o.a).v
    let b := low o.ty (s.opVal o.ty o.imm o.b).v
    let go : Bool → State := fun c => s.setThread t { th with pc := if c then th.pc + o.imm.signExtend 64 else th.pc + 1 }
    exec (.nop o) s = .next (go false) ∧
    exec (.br o) s = .next (go true) ∧
    exec (.brcEq o) s = .next (go (a == b)) ∧
    exec (.brcNe o) s = .next (go (a != b)) ∧
    exec (.brcLt o) s = .next (go (a.slt b)) ∧
    exec (.brcGe o) s = .next (go (b.sle a)) ∧
    exec (.brcLtu o) s = .next (go (a.ult b)) ∧
    exec (.brcGeu o) s = .next (go (b.ule a)) ∧
    exec (.call o) s = .next (s.setThread t { th with
      regs := match stewDest o.t0 with | some d => tset 0 th.regs d (th.pc + 1) | none => th.regs, pc := th.pc + o.imm.signExtend 64 }) ∧
    ∀ n, o.a = .reg n → exec (.ret o) s = .next (s.setThread t { th with pc := tget 0 th.regs n.toNat })

/-- R137: HALT stops the thread, with its program counter at the word after HALT, and writes a halt event, whose ARG1 holds that place, into its
event queue. The halted thread keeps its registers and runs no word, and starting it does nothing; it runs again when the hub firmware restarts
it at the word index that the firmware names. -/
def Sys2Proof.Claims.HaltStopsTheThread : Prop :=
  (∀ (o : Ops) (s : State) (t : Nat), s.focus = .thread t → Ends (.halt o) s fun s' => ∃ ev : Event,
    let th := s.thread t
    fld ev 60 4 = 4#4 ∧ fld ev 44 16 = 0#16 ∧ fld ev 64 64 = th.pc + 1 ∧ fld ev 128 64 = BitVec.ofNat 64 t ∧
    s' = (s.setThread t { th with halted := true, stall := .none, pc := th.pc + 1 }).sendEvent (s.partOfThread t) ev) ∧
  ∀ (s : State) (t : Nat) (pc : Word), (s.thread t).halted = true →
    s.runnable t = false ∧
    ((s.thread t).started = true → exec (.threadStart t) s = .next s ∧
      exec (.threadRestart t pc) s = .next (s.setThread t { s.thread t with halted := false, pc := pc, stall := .none }))

/-- R258, R99, R100: the state of a thread that the hub firmware first starts, when its steward image passes the checks; an image that fails
them starts no thread. -/
def Sys2Proof.Claims.ThreadsStart : Prop :=
  ∀ (s : State) (t : Nat), t < 64 → s.hasPart t = true → (s.thread t).started = false →
    (s.imageOk (s.image (s.thread t).image) = false → exec (.threadStart t) s = .next s) ∧
    (s.imageOk (s.image (s.thread t).image) = true → Ends (.threadStart t) s fun s' => ∃ th : Thread, s' = s.setThread t th ∧ th.pc = 0 ∧ th.status = 0x100 ∧ th.tvec = 0 ∧ th.epc = 0 ∧
      th.ecause = 0 ∧ th.eval = 0 ∧ th.scratch = 0 ∧ th.asid = BitVec.ofNat 16 (pAsid0 (s.part (s.partOfThread t)).desc) ∧
      (∀ n, th.reg n = 0) ∧ th.started = true ∧ th.halted = false ∧ th.stall = .none)

/-! ### SENDT, WAITT and the entry ports -/

/-- R135: SENDT checks its descriptor and then offers a token, and the thread waits for the answer. -/
def Sys2Proof.Claims.SendtOffersOrTraps : Prop :=
  ∀ (o : Ops) (s : State) (t : Nat), s.focus = .thread t →
    let d := arg s o o.b
    let px := d.getLsbD 54
    let sndr := d.toNat / 2 ^ 46 % 256
    let super := (s.thread t).status.getLsbD 8
    let trap := fun code => Ends (.sendt o) s fun s' => Trapped s s' t code 0 (BitVec.ofNat 64 (highHalf s t)) (s.thread t).pc
    (NoTrap s t → d.toNat / 2 ^ 55 ≠ 0 → trap 8) ∧
    (NoTrap s t → d.toNat / 2 ^ 55 = 0 → px = true → super = false → trap 9) ∧
    (NoTrap s t → d.toNat / 2 ^ 55 = 0 → px = true → super = true → sndr < 64 → trap 8) ∧
    (NoTrap s t → d.toNat / 2 ^ 55 = 0 → px = false → sndr ≠ 0 → trap 8) ∧
    (d.toNat / 2 ^ 55 = 0 → (if px then super = true ∧ 64 ≤ sndr else sndr = 0) →
      Ends (.sendt o) s fun s' => ∃ q : Offer, s'.fab = { s.fab with offers := s.fab.offers ++ [q] } ∧
        s'.stew = (s.setThread t { s.thread t with stall := .offer }).stew ∧
        s'.mem = s.mem ∧ s'.parts = s.parts ∧ s'.colours = s.colours ∧ s'.port = s.port ∧
        q.thread = t ∧ q.part = s.partOfThread t ∧ q.ctx = d.toNat / 2 ^ 44 % 4 ∧ q.eport = d.toNat / 2 ^ 40 % 16 ∧
        q.sender = (if px then sndr else t) ∧ tagKey q.tag = d.toNat / 2 ^ 24 % 65536 ∧ tagIter q.tag = d.toNat % 2 ^ 24 ∧
        q.pay = tyExtend o.ty (s.opVal o.ty o.imm o.a).v.toNat ∧ q.dest = stewDest o.t0 ∧ q.wait = .fresh ∧ q.since = s.cycle ∧ q.who = .thread)

/-- R290, R291, R129, Table 4.4: the decision on an offer, when its turn at its arbiter has come; until then it stays. A closed, an unbound or a full port answers with its
status and changes nothing but its sender: a thread goes on with the status, a launch or a restore path has it (R419, R441); an offer that must
wait holds its sender; an admission adds one to INFLT and lays the token, with side-band zero and the colour's entry generation, at the port.
INFLT is tested against QUOTA, for a restore path against BASINLEN (log entry 69). A waiting offer is decided the same way later. -/
def Sys2Proof.Claims.EntryPortDecides : Prop :=
  ∀ (s : State) (k : Nat) (q : Offer), nth? s.fab.offers k = some q →
    let i : Instr := if q.wait = .fresh then .entryOffer k else .entryOfferReleased k
    let p := s.part q.part
    let b := tget 0 p.bind (256 * q.ctx + q.sender)
    let c := b.toNat % 4096
    let answered : State → Nat → State := fun s1 n =>
      let s2 : State := { s1 with fab := { s1.fab with offers := dropNth s1.fab.offers k } }
      let th := s2.thread q.thread
      let mark : Evicted → Evicted := fun v => match q.who with
        | .path load => if v.part == q.part && dLoadid v.desc == load then { v with asked := .got n } else v
        | _ => v
      match q.who with
      | .thread => s2.setThread q.thread { th with regs := match q.dest with | some d => tset 0 th.regs d (BitVec.ofNat 64 n) | none => th.regs,
                                                   pc := th.pc + 1, stall := .none }
      | .launch qi m => { s2 with host := { s2.host with launches := s1.host.launches.map fun l =>
          if l.qslot == qi && l.n == m then { l with asked := .got n } else l } }
      | .path _ => { s2 with host := { s2.host with evicted := s1.host.evicted.map mark } }
    let limit := match q.who with | .path _ => (s.colour c).basinlen | _ => (s.colour c).quota
    (q.wait = .fresh → s.offerTurn q = false → exec i s = .next s) ∧
    ((q.wait = .fresh → s.offerTurn q = true) → p.cut ≠ .idle → exec i s = .next (answered s 3)) ∧
    ((q.wait = .fresh → s.offerTurn q = true) → p.cut = .idle → (s.loadIn q.part q.ctx fun l => bit (dEntrymask l.desc) q.eport && l.live) = none → exec i s = .next (answered s 2)) ∧
    ∀ l, (q.wait = .fresh → s.offerTurn q = true) → p.cut = .idle → (s.loadIn q.part q.ctx fun l => bit (dEntrymask l.desc) q.eport && l.live) = some l →
      let purged := s.fab.sysops.any fun x => match x.kind with | .purge _ col _ _ _ => col == c | _ => false
      let ahead := s.hasRounds l && (s.colLoad c (dLoadid l.desc)).first.isSome &&
        decide (s.window c (some l) ≤ age (s.oldest c (dLoadid l.desc)) (tagIter q.tag))
      (b.getLsbD 12 = false → exec i s = .next (answered s 2)) ∧
      (b.getLsbD 12 = true → purged = true ∨ ahead = true →
        exec i s = .next { s with fab := { s.fab with offers := setNth s.fab.offers k { q with wait := .waiting } } }) ∧
      (b.getLsbD 12 = true → purged = false → ahead = false → limit ≤ (s.colour c).inflt → exec i s = .next (answered s 1)) ∧
      (b.getLsbD 12 = true → purged = false → ahead = false → (s.colour c).inflt < limit →
        Ends i s fun s' => ∃ (s1 : State) (tk : Token), s' = answered { s1 with fab := { s1.fab with tokens := s.fab.tokens ++ [tk] } } 0 ∧
          s1.colours = tset Colour.reset s.colours c { s.colour c with inflt := (s.colour c).inflt + 1 } ∧
          s1.fab.offers = s.fab.offers ∧ s1.stew = s.stew ∧ s1.mem = s.mem ∧ s1.parts = s.parts ∧ s1.host = s.host ∧
          tk.sb = 0 ∧ tk.kind = .scalar ∧ tk.pay = q.pay ∧ tagCol tk.tag = c % 4096 ∧ tagCtx tk.tag = q.ctx % 4 ∧ tagGen tk.tag = (s.colLoad c (dLoadid l.desc)).egen.toNat ∧
          tagKey tk.tag = tagKey q.tag ∧ tagIter tk.tag = tagIter q.tag ∧ tk.place = .entryq q.eport ∧ tk.load = dLoadid l.desc)

/-- R136: WAITT. A descriptor that breaks its rules traps; an event gives its doublewords 0 and 1 to wD and w(D + 1) and 2 and 3 to
EVTX0 and EVTX1; a token gives its payload and tag, its side-band joining the sticky bits; a poisoned token is taken, and traps; with
nothing to take, at an event port or an exit port, the thread waits. -/
def Sys2Proof.Claims.WaittTakesWaitsOrTraps : Prop :=
  ∀ (o : Ops) (s : State) (t : Nat), s.focus = .thread t → s.stew.waiters = [] →
    let d := arg s o o.a
    let px := d.getLsbD 7
    let sndr := d.toNat / 256 % 256
    let sv := (s.thread t).status.getLsbD 8
    let p := s.partOfThread t
    let dn := o.t0.toNat % 64
    let sender := if px then sndr else t
    let b := tget 0 (s.part p).bind (256 * (d.toNat / 16 % 4) + sender)
    let good := d.toNat / 65536 = 0 ∧ (if px then sv = true ∧ 64 ≤ sndr else sndr = 0)
    let trap := fun code => Ends (.waitt o) s fun s' => Trapped s s' t code 0 (BitVec.ofNat 64 (highHalf s t)) (s.thread t).pc
    (NoTrap s t → d.toNat / 65536 ≠ 0 → trap 8) ∧
    (NoTrap s t → d.toNat / 65536 = 0 → d.getLsbD 6 = true → px = true ∨ sndr ≠ 0 → trap 8) ∧
    (NoTrap s t → d.toNat / 65536 = 0 → d.getLsbD 6 = false → px = true → sv = false → trap 9) ∧
    (NoTrap s t → d.toNat / 65536 = 0 → d.getLsbD 6 = false → px = true → sv = true → sndr < 64 → trap 8) ∧
    (NoTrap s t → d.toNat / 65536 = 0 → d.getLsbD 6 = false → px = false → sndr ≠ 0 → trap 8) ∧
    (∀ ev rest, good → d.getLsbD 6 = true → px = false → (s.part p).events = ev :: rest → (s.part p).held = [] →
      Ends (.waitt o) s fun s' => ∃ th, s' = (s.setPart p { s.part p with events := rest }).setThread t th ∧
        th.regs = tset 0 (tset 0 (s.thread t).regs dn (fld ev 0 64)) (dn + 1) (fld ev 64 64) ∧ th.evtx0 = fld ev 128 64 ∧
        th.evtx1 = fld ev 192 64 ∧ th.pc = (s.thread t).pc + 1 ∧ th.status = (s.thread t).status ∧ th.stall = .none) ∧
    (∀ k tk, good → d.getLsbD 6 = false → b.getLsbD 12 = true →
      s.exitToken ⟨p, false, d.toNat / 16 % 4, d.toNat % 16, some (b.toNat % 4096)⟩ (b.toNat % 4096) = some k → nth? s.fab.tokens k = some tk →
      let s1 := s.takeExit k (b.toNat % 4096)
      (sbPZ tk.sb = false → Ends (.waitt o) s fun s' => ∃ th, s' = s1.setThread t th ∧
        th.regs = tset 0 (tset 0 (s.thread t).regs dn tk.pay) (dn + 1) (tagClean tk.tag) ∧ th.pc = (s.thread t).pc + 1 ∧ th.stall = .none ∧
        th.status = (s.thread t).status ||| (tk.sb &&& 0x1F).zeroExtend 64 ||| (if sbNL tk.sb then 0x40 else 0)) ∧
      (sbPZ tk.sb = true → NoTrap s t → Ends (.waitt o) s fun s' => Trapped s1 s' t 6 0 (tagClean tk.tag) (s.thread t).pc)) ∧
    (good → (d.getLsbD 6 = true ∧ px = false ∧ (s.part p).events = []) ∨
        (d.getLsbD 6 = false ∧ (b.getLsbD 12 = true →
          s.exitToken ⟨p, false, d.toNat / 16 % 4, d.toNat % 16, some (b.toNat % 4096)⟩ (b.toNat % 4096) = none)) → (s.thread t).stall = .none →
      Ends (.waitt o) s fun s' =>
        s'.stew.threads = (s.setThread t { s.thread t with stall := .waitt (if o.imm = 0 then none else some (s.cycle + o.imm.toNat * 1024)) }).stew.threads ∧
        (∃ c, s'.stew.waiters = [(t, c)]) ∧ s'.mem = s.mem ∧ s'.fab = s.fab ∧ s'.parts = s.parts)

/-- R136: after its limit, a thread that still waits on an empty event port, or at an exit port with no token for the colour bound or with none
bound, takes 0 into wD and all ones into w(D + 1), and goes on. -/
def Sys2Proof.Claims.WaittLimitPasses : Prop :=
  ∀ (o : Ops) (s : State) (t lim : Nat) (n : BitVec 10), (s.thread t).stall = .waitt (some lim) → lim ≤ s.cycle →
    decode (tget 0 (s.image (s.thread t).image).words (s.thread t).pc.toNat) = .ok (.waitt o) → o.a = .reg n →
    let d := (s.thread t).reg n.toNat
    let p := s.partOfThread t
    let b := tget 0 (s.part p).bind (256 * (d.toNat / 16 % 4) + (if d.getLsbD 7 then d.toNat / 256 % 256 else t))
    (if d.getLsbD 6 then (s.part p).events = []
     else b.getLsbD 12 = true → s.exitToken ⟨p, false, d.toNat / 16 % 4, d.toNat % 16, some (b.toNat % 4096)⟩ (b.toNat % 4096) = none) →
    Ends (.waittTimeout t) s fun s' =>
      let dn := o.t0.toNat % 64
      s'.stew.threads = (s.setThread t { s.thread t with regs := tset 0 (tset 0 (s.thread t).regs dn 0) (dn + 1) (BitVec.allOnes 64),
                                                         pc := (s.thread t).pc + 1, stall := .none }).stew.threads ∧
      s'.mem = s.mem ∧ s'.fab = s.fab ∧ s'.parts = s.parts

/-! ### LD and ST -/

/-- R138, R287: the traps of LD and ST, in this order: an address with a bit in 63:57; outside the windows of the address space an address
that is not a multiple of the size, a failed translation or permission, a covered page, and for LD an uncorrectable line. In a window an
access of another size than 8 bytes or another alignment, or in user mode, traps as PROTECTION (log entry 19). EVAL holds the address. -/
def Sys2Proof.Claims.LoadStoreTraps : Prop :=
  ∀ (st : Bool) (o : Ops) (s : State) (t : Nat), s.focus = .thread t → NoTrap s t →
    let i : Instr := if st then .st o else .ld o
    let va := (arg s o o.a + o.imm.signExtend 64).toNat
    let size := (tyBits o.ty + 7) / 8
    let trap := fun code => Ends i s fun s' => Trapped s s' t code 0 (BitVec.ofNat 64 va) (s.thread t).pc
    (2 ^ 57 ≤ va → trap 1) ∧
    (va < 2 ^ 57 → windowOf va ≠ .none → (size ≠ 8 ∨ va % 8 ≠ 0 ∨ (s.thread t).status.getLsbD 8 = false) → trap 2) ∧
    (va < 2 ^ 57 → windowOf va = .none → va % size ≠ 0 → trap 11) ∧
    (∀ n, va < 2 ^ 57 → windowOf va = .none → va % size = 0 → s.walkPlain (s.thread t).asid.toNat va st = .fail n →
      trap (if n = 2 then 2 else if n = 4 then 6 else 1)) ∧
    (∀ x, va < 2 ^ 57 → windowOf va = .none → va % size = 0 → s.walkPlain (s.thread t).asid.toNat va st = .ok x →
      (x.cv = true → trap 2) ∧
      (x.cv = false → st = false → s.mem.bad (x.frame + va % 2 ^ x.psz) size = true → trap 6))

/-- R138, R4, R24, R451: LD puts the datum, extended as its type says, into wD; ST writes the low bytes of b, least significant first, and
leaves every other byte as it read under the key slot of the access, and every byte outside the lines it touches as it read under any. The
translation is the model's walk of Table 11.3. -/
def Sys2Proof.Claims.LoadStoreEffects : Prop :=
  ∀ (o : Ops) (s : State) (t : Nat) (x : Xent), s.focus = .thread t →
    let va := (arg s o o.a + o.imm.signExtend 64).toNat
    let size := (tyBits o.ty + 7) / 8
    let pa := x.frame + va % 2 ^ x.psz
    let key := s.keyFor (s.partOfThread t) x va (s.stewKey (s.partOfThread t) (s.thread t).asid.toNat)
    va < 2 ^ 57 → windowOf va = .none → va % size = 0 → x.cv = false →
    (s.walkPlain (s.thread t).asid.toNat va false = .ok x → s.mem.bad pa size = false →
      exec (.ld o) s = .next (wordDone s t o (tyExtend o.ty (ofBytes (s.mem.read key pa size))))) ∧
    (s.walkPlain (s.thread t).asid.toNat va true = .ok x →
      Ends (.st o) s fun s' => s'.stew = (wordDone s t { o with t0 := 0 } 0).stew ∧ s'.parts = s.parts ∧ s'.colours = s.colours ∧ s'.fab = s.fab ∧
        s'.mem.host = s.mem.host ∧ s'.mem.peer = s.mem.peer ∧
        s'.mem.read key pa size = bvBytes (s.opVal o.ty o.imm o.b).v size ∧
        (∀ a, a < pa ∨ pa + size ≤ a → s'.mem.read1 key a = s.mem.read1 key a) ∧
        (∀ a k, a / 64 < pa / 64 ∨ (pa + size - 1) / 64 < a / 64 → s'.mem.read1 k a = s.mem.read1 k a))

namespace Sys2Proof.Claims

/-- Fields of a colour word (Table 7.2) and of an element selector (Table 7.3). -/
def colOf (w : Word) : Nat := w.toNat % 4096
def elemOf (w : Word) : Nat := w.toNat % 64 + 48 * (w.toNat / 256 % 64)
def ctxOf (w : Word) : Nat := w.toNat / 65536 % 4
def wordOf24 (w : Word) : Nat := w.toNat / 2 ^ 24 % 256
/-- A thread in supervisor mode runs an instruction on a colour of its partition's range on which no operation is in progress (R238, R240). -/
def OnColour (s : State) (t c : Nat) : Prop :=
  InSuper s t ∧ colIn (s.part (s.partOfThread t)).desc c = true ∧ s.colBusy (s.partOfThread t) c = false
/-- A thread in supervisor mode runs an instruction on a context slot of an element of its partition, whose configuration no RAISE in
progress acts on, with a selector within its limits. -/
def OnSlot (s : State) (t : Nat) (w : Word) : Prop :=
  InSuper s t ∧ selOk w = true ∧ inRect (s.part (s.partOfThread t)).desc (elemOf w) = true ∧
  bit (pCtxmask (s.part (s.partOfThread t)).desc) (ctxOf w) = true ∧ s.elemBusy (s.partOfThread t) (elemOf w) = false
/-- The colour table with one entry changed, and nothing else. -/
def withColour (s : State) (c : Nat) (x : Colour) : State := { s with colours := tset Colour.reset s.colours c x }
/-- The thread stalls until a system operation, which joins the ones under way, is done (R239); nothing else changes. -/
def OpStarts (s s' : State) (t : Nat) (p : SysOp → Prop) : Prop :=
  ∃ q : SysOp, s' = { s.setThread t { s.thread t with stall := .system } with fab := { s.fab with sysops := s.fab.sysops ++ [q] } } ∧
    q.thread = t ∧ q.part = s.partOfThread t ∧ q.count = 0 ∧ q.todo = rectElems (s.part (s.partOfThread t)).desc ∧ p q
/-- A control register of the thread is written, and the program counter moves on. -/
def withThread (s : State) (t : Nat) (f : Thread → Thread) : State := s.setThread t { f (s.thread t) with pc := (s.thread t).pc + 1 }

end Sys2Proof.Claims

/-! ### System instructions -/

/-- R238 for the colour settings and configuration: a colour outside the range, an element outside the rectangle or a context slot that the
partition does not own traps as PROTECTION, and a non-zero unused field as ILLEGAL; the trap changes nothing else. -/
def Obligations.SystemOperandChecks : Prop :=
  ∀ (o : Ops) (s : State) (t : Nat), InSuper s t → NoTrap s t →
    let w := arg s o o.a
    let v := arg s o o.b
    let p := s.part (s.partOfThread t)
    let illegal := fun i => Ends i s fun s' => Trapped s s' t 8 0 (BitVec.ofNat 64 (highHalf s t)) (s.thread t).pc
    let protection := fun i => Ends i s fun s' => Trapped s s' t 2 0 0 (s.thread t).pc
    (w.toNat / 4096 ≠ 0 → illegal (.purgeCol o) ∧ illegal (.qset o) ∧ illegal (.winset o) ∧ illegal (.sentl o) ∧ illegal (.colset o) ∧ illegal (.genret o)) ∧
    (w.toNat / 65536 ≠ 0 → illegal (.purgeGen o)) ∧
    (w.toNat / 4096 % 16 ≠ 0 → illegal (.purgeIter o) ∧ illegal (.park o) ∧ illegal (.unpark o)) ∧
    (w.toNat / 4 ≠ 0 → illegal (.prio o)) ∧ (v.toNat / 16 ≠ 0 → illegal (.prio o)) ∧
    (v.toNat = 0 ∨ 8388608 < v.toNat → illegal (.winset o)) ∧
    ((v.toNat ≠ 0 ∧ v.toNat < 1024) ∨ 2 ^ 32 ≤ v.toNat → illegal (.sentl o)) ∧
    (selOk w = false → illegal (.partw o) ∧ illegal (.cfgw o) ∧ illegal (.cfgrd o)) ∧
    (160 ≤ wordOf24 w → illegal (.cfgw o) ∧ illegal (.cfgrd o)) ∧
    (colIn p.desc (colOf w) = false → w.toNat / 4096 = 0 →
      protection (.purgeCol o) ∧ protection (.purgeGen o) ∧ protection (.purgeIter o) ∧ protection (.park o) ∧
      (1 ≤ v.toNat → v.toNat ≤ 8388608 → protection (.winset o)) ∧ (v.toNat = 0 → protection (.sentl o))) ∧
    (w.toNat / 4 = 0 → v.toNat / 16 = 0 → bit (pCtxmask p.desc) (w.toNat % 4) = false → protection (.prio o)) ∧
    (selOk w = true → wordOf24 w = 0 → inRect p.desc (elemOf w) = false ∨ bit (pCtxmask p.desc) (ctxOf w) = false →
      protection (.partw o) ∧ protection (.cfgw o) ∧ protection (.cfgrd o))

/-- R241, R244, R247, R239: PURGE, PARK and PRIO send their messages to every element of the partition, and the thread stalls until they
are acknowledged. -/
def Sys2Proof.Claims.TowpathOperationsStart : Prop :=
  ∀ (o : Ops) (s : State) (t : Nat),
    let w := arg s o o.a
    let v := arg s o o.b
    let lo := w.toNat / 65536 % 2 ^ 24
    let hi := w.toNat / 2 ^ 40
    (OnColour s t (colOf w) → w.toNat / 4096 = 0 → Ends (.purgeCol o) s fun s' => OpStarts s s' t fun q =>
      q.kind = .purge 0 (colOf w) 0 0 0 ∧ q.dest = stewDest o.t0) ∧
    (OnColour s t (colOf w) → w.toNat / 65536 = 0 → Ends (.purgeGen o) s fun s' => OpStarts s s' t fun q =>
      q.kind = .purge 1 (colOf w) (w.toNat / 4096) 0 0 ∧ q.dest = stewDest o.t0) ∧
    (OnColour s t (colOf w) → w.toNat / 4096 % 16 = 0 → Ends (.purgeIter o) s fun s' => OpStarts s s' t fun q =>
      q.kind = .purge 2 (colOf w) 0 lo hi ∧ q.dest = stewDest o.t0) ∧
    (OnColour s t (colOf w) → w.toNat / 4096 % 16 = 0 → Ends (.park o) s fun s' => OpStarts s s' t fun q =>
      q.kind = .park (colOf w) lo hi ∧ q.dest = stewDest o.t0) ∧
    (InSuper s t → w.toNat / 4 = 0 → v.toNat / 16 = 0 → bit (pCtxmask (s.part (s.partOfThread t)).desc) w.toNat = true →
      s.ctxBusy (s.partOfThread t) w.toNat = false → Ends (.prio o) s fun s' => OpStarts s s' t fun q => q.kind = .prio w.toNat v.toNat)

/-- R246, R248, R249, Table 7.4: QSET, WINSET, SENTL and COLSET on a colour of the partition. QSET refuses a QUOTA above BASINLEN with
status 1; COLSET refuses a BASINLEN below QUOTA with status 1 and a busy field of a live colour with status 2; a refusal changes no entry.
SENTL also restarts the sentinel counts of the elements. -/
def Sys2Proof.Claims.ColourSettings : Prop :=
  ∀ (o : Ops) (s : State) (t : Nat),
    let w := arg s o o.a
    let v := arg s o o.b
    let c := colOf w
    let x := s.colour c
    let p := s.part (s.partOfThread t)
    let f := o.imm.toNat % 16
    OnColour s t c → w.toNat / 4096 = 0 →
    (v.toNat / 2 ^ 44 = 0 → 1 ≤ v.toNat / 2 ^ 32 → v.toNat / 2 ^ 32 ≤ 2048 →
      exec (.qset o) s = .next (if x.basinlen < v.toNat % 2 ^ 32 then wordDone s t o 1
        else wordDone (withColour s c { x with quota := v.toNat % 2 ^ 32, cap := v.toNat / 2 ^ 32 }) t o 0)) ∧
    (o.t0 = 0 → 1 ≤ v.toNat → v.toNat ≤ 8388608 → exec (.winset o) s = .next (wordDone (withColour s c { x with window := v.toNat }) t o 0)) ∧
    (o.t0 = 0 → v.toNat = 0 ∨ (1024 ≤ v.toNat ∧ v.toNat < 2 ^ 32) →
      exec (.sentl o) s = .next (wordDone ((withColour s c { x with sentlim := v.toNat }).restartSentinels c) t o 0)) ∧
    (f < 7 → colsetOk f v = true → (f = 3 → keyIn p.desc v.toNat = true) → (f = 4 → asidIn p.desc v.toNat = true) →
      let full : Prop := f = 1 ∧ v.toNat < x.quota
      let busy : Prop := f ≠ 2 ∧ f ≠ 6 ∧ s.colLive c = true
      (full → exec (.colset o) s = .next (wordDone s t o 1)) ∧
      (¬ full → busy → exec (.colset o) s = .next (wordDone s t o 2)) ∧
      (¬ full → ¬ busy → exec (.colset o) s = .next (wordDone (withColour s c (match f with
        | 0 => { x with basin := v } | 1 => { x with basinlen := v.toNat } | 2 => { x with seed := v } | 3 => { x with keyslot := v.toNat }
        | 4 => { x with asid := v.toNat } | 5 => { x with pasid := v.toNat } | _ => { x with cprio := v.toNat })) t o 0)))

/-- R250, R251: PARTW and CFGW write an inactive context slot and answer 0, refuse an active one with 1 and change nothing else, and
PARTW refuses a malformed or overlapping word with 2; CFGRD reads a word, an empty position as zero, into wD and w(D + 1), and changes
nothing else. -/
def Sys2Proof.Claims.ConfigurationWords : Prop :=
  ∀ (o : Ops) (s : State) (t : Nat),
    let w := arg s o o.a
    let lo := arg s o o.b
    let hi := arg s o o.c
    let e := elemOf w
    let c := ctxOf w
    let n := wordOf24 w
    let x := s.ctx e c
    OnSlot s t w →
    (n = 0 → x.active = true → exec (.partw o) s = .next (wordDone s t o 1)) ∧
    (n = 0 → x.active = false → s.partwOk e c lo = false → exec (.partw o) s = .next (wordDone s t o 2)) ∧
    (n = 0 → x.active = false → s.partwOk e c lo = true → exec (.partw o) s = .next (wordDone (s.setCtx e c { x with partwd := lo }) t o 0)) ∧
    (n < 160 → (128 ≤ n → hi = 0) → x.active = true → exec (.cfgw o) s = .next (wordDone s t o 1)) ∧
    (n < 128 → x.active = false → exec (.cfgw o) s = .next (wordDone (s.setCtx e c { x with touched := true, words := tset none x.words n (some (hi ++ lo)) }) t o 0)) ∧
    (128 ≤ n → n < 160 → hi = 0 → x.active = false →
      exec (.cfgw o) s = .next (wordDone (s.setCtx e c { x with touched := true, descs := tset none x.descs (n - 128) (some lo) }) t o 0)) ∧
    (n < 160 → Ends (.cfgrd o) s fun s' =>
      let d := o.t0.toNat % 64
      let word : BitVec 128 := if n < 128 then (tget none x.words n).getD 0 else ((tget none x.descs (n - 128)).getD 0).setWidth 128
      s' = withThread s t fun th => { th with regs := tset 0 (tset 0 th.regs d (word.setWidth 64)) (d + 1) ((word >>> 64).setWidth 64) })

/-- R252, Table 7.5: RAISE on a descriptor that its translation reads and that is in range. A failed check writes a fault record of
CODE CONFIG and answers 1; otherwise the elements take the buffers of the load, so that no other slot takes their lines (R97), the raise wave goes to
its footprint, and the thread stalls; with IMG the wave carries the digest of the 64 bytes after the descriptor (R477). -/
def Sys2Proof.Claims.RaiseChecksOrStarts : Prop :=
  ∀ (o : Ops) (s : State) (t : Nat) (bs : List Byte), InSuper s t →
    let va := (arg s o o.a).toNat
    let d : BitVec 512 := BitVec.ofNat 512 (ofBytes bs)
    let pd := (s.part (s.partOfThread t)).desc
    let foot := s.footOf d
    (NoTrap s t → va % 64 ≠ 0 → Ends (.raise o) s fun s' => Trapped s s' t 8 0 (BitVec.ofNat 64 (highHalf s t)) (s.thread t).pc) ∧
    (va % 64 = 0 → s.sysRead t va 64 = .ok bs → descOk d = true → footIn pd d = true → bit (pCtxmask pd) (dCtx d) = true →
      s.footBarred pd d foot = false → s.ctxBusy (s.partOfThread t) (dCtx d) = false → foot.any (s.elemBusy (s.partOfThread t)) = false →
      (∀ r, s.raiseFails d foot = some r → exec (.raise o) s = .next (wordDone (s.raiseRecord (s.partOfThread t) d r) t o 1)) ∧
      (s.raiseFails d foot = none →
        let s0 := s.reserveBufs (dCtx d) foot
        let wave : BitVec 512 → State := fun h => { s0.setThread t { s0.thread t with stall := .system } with
          fab := { s0.fab with sysops := s0.fab.sysops ++ [⟨t, s.partOfThread t, .raise d h, foot, 0, [], stewDest o.t0⟩] } }
        (d.getLsbD 197 = false → ∃ h, exec (.raise o) s = .next (wave h)) ∧
        (∀ cs, d.getLsbD 197 = true → s.sysRead t (va + 64) 64 = .ok cs → exec (.raise o) s = .next (wave (BitVec.ofNat 512 (ofBytes cs)))) ∧
        (∀ code, d.getLsbD 197 = true → s.sysRead t (va + 64) 64 = .error (.inl code) → NoTrap s t →
          Ends (.raise o) s fun s' => Trapped s s' t code 0 (BitVec.ofNat 64 (va + 64)) (s.thread t).pc)))

/-- R252: what makes RAISE fail first: an empty footprint (the descriptor's corner) and an active context slot at a footprint element,
each with SLOT 0x7F and REASON 0x09. -/
def Sys2Proof.Claims.RaiseRefusesEmptyOrActive : Prop :=
  ∀ (s : State) (d : BitVec 512) (foot : List Nat),
    (foot = [] → s.raiseFails d foot = some (dFx0 d + 48 * dFy0 d, 0x7F, 9, 0)) ∧
    (∀ e rest, foot = e :: rest → (s.ctx e (dCtx d)).active = true → s.raiseFails d foot = some (e, 0x7F, 9, 0))

/-- R253: DROP on a descriptor that is in range answers 1 and drops nothing while something of the load lies unparked, and otherwise
empties the context slot at every footprint element and answers 0. -/
def Sys2Proof.Claims.DropRefusesOrEmpties : Prop :=
  ∀ (o : Ops) (s : State) (t : Nat) (bs : List Byte), InSuper s t →
    let va := (arg s o o.a).toNat
    let d : BitVec 512 := BitVec.ofNat 512 (ofBytes bs)
    let p := s.partOfThread t
    let pd := (s.part p).desc
    let foot := s.footOf d
    let c := dCtx d
    let mine : Load → Bool := fun l => l.part == p && dCtx l.desc == c && l.foot.any fun e => foot.contains e
    let ids := (s.fab.loads.filter mine).map fun l => dLoadid l.desc
    va % 64 = 0 → s.sysRead t va 64 = .ok bs → descOk d = true → footIn pd d = true → bit (pCtxmask pd) c = true →
    s.ctxBusy p c = false → foot.any (s.elemBusy p) = false → s.dropWaits foot c ids = false →
    (s.dropRefused foot c ids = true → exec (.drop o) s = .next (wordDone s t o 1)) ∧
    (s.dropRefused foot c ids = false → Ends (.drop o) s fun s' => s' = wordDone (s.dropDone foot c ids mine) t o 0 ∧
      s'.fab.loads = s.fab.loads.filter fun l => !mine l)

/-- R245: UNPARK answers 1 or 2 and moves nothing when a destination does not hold the load, else returns the parked tokens and answers 0. -/
def Sys2Proof.Claims.UnparkAnswers : Prop :=
  ∀ (o : Ops) (s : State) (t : Nat),
    let w := arg s o o.a
    let d := arg s o o.b
    let lo := w.toNat / 65536 % 2 ^ 24
    let hi := w.toNat / 2 ^ 40
    let dctx := if d.getLsbD 2 then some (d.toNat % 4) else none
    let n := s.unparkStatus (s.partOfThread t) (colOf w) lo hi dctx
    OnColour s t (colOf w) → w.toNat / 4096 % 16 = 0 → d.toNat / 8 = 0 →
    (d.getLsbD 2 = true → bit (pCtxmask (s.part (s.partOfThread t)).desc) (d.toNat % 4) = true) →
    (s.parkedHomes (colOf w) lo hi).any (fun h => s.ctxBusy (s.partOfThread t) (dctx.getD h.2.1)) = false →
    (n ≠ 0 → exec (.unpark o) s = .next (wordDone s t o (BitVec.ofNat 64 n))) ∧
    (n = 0 → exec (.unpark o) s = .next (wordDone (s.unpark (colOf w) lo hi dctx) t o 0))

/-- R254, R255: TLBI sends a shoot-down of its scope and stalls the thread; GENRET moves the entry generation of a colour and load on by
one, modulo 16, and returns it, or refuses with all ones and changes nothing while a token carries the new value. -/
def Sys2Proof.Claims.TlbiAndGenret : Prop :=
  ∀ (o : Ops) (s : State) (t : Nat),
    let a := arg s o o.a
    let b := arg s o o.b
    let p := s.partOfThread t
    let k := o.imm.toNat % 4
    (InSuper s t → k < 3 → a.toNat < 65536 → (k = 1 → b = 0) → (k = 2 → a = 0 ∧ b = 0) → (k ≠ 2 → asidIn (s.part p).desc a.toNat = true) →
      Ends (.tlbi o) s fun s' => s'.stew = (s.setThread t { s.thread t with stall := .system }).stew ∧ s'.mem = s.mem ∧ s'.fab = s.fab ∧
        ∃ h : Shoot, s'.port = { s.port with shoots := s.port.shoots ++ [h] } ∧ h.thread = some t ∧ h.part = p ∧ h.kind = k ∧ h.asid = a.toNat ∧ h.va = b.toNat) ∧
    (∀ l, OnColour s t (colOf a) → a.toNat / 4096 = 0 → b.toNat / 4 = 0 → bit (pCtxmask (s.part p).desc) b.toNat = true →
      s.ctxBusy p (b.toNat % 4) = false → (s.loadIn p b.toNat fun _ => true) = some l →
      let x := s.colLoad (colOf a) (dLoadid l.desc)
      (s.carries (colOf a) l (x.egen + 1).toNat = true → exec (.genret o) s = .next (wordDone s t o (BitVec.allOnes 64))) ∧
      (s.carries (colOf a) l (x.egen + 1).toNat = false →
        exec (.genret o) s = .next (wordDone (s.setColLoad { x with egen := x.egen + 1 }) t o ((x.egen + 1).setWidth 64))))

/-- R256, R257, R464: QUIESCE starts the cut of its thread's partition, or answers 2 when one is in progress and 1 when the area is too
small; RESUME, which waits for the system operations of its partition to end, answers 1 where the partition is not quiesced, and with address 0
reopens it. -/
def Sys2Proof.Claims.QuiesceAndResume : Prop :=
  ∀ (o : Ops) (s : State) (t : Nat), InSuper s t →
    let va := (arg s o o.a).toNat
    let len := (arg s o o.b).toNat
    let p := s.partOfThread t
    let x := s.part p
    (va % 64 = 0 → x.cut ≠ .idle → exec (.quiesce o) s = .next (wordDone s t o 2)) ∧
    (va % 64 = 0 → x.cut = .idle → len < s.qsize p → exec (.quiesce o) s = .next (wordDone s t o 1)) ∧
    (va % 64 = 0 → x.cut = .idle → s.qsize p ≤ len → exec (.quiesce o) s = .next (wordDone (s.setPart p { x with
      cut := .draining, qseq := x.qseq + 1, qarea := (va, len, (s.thread t).asid.toNat), qstart := s.cycle }) t o 0)) ∧
    (va % 64 = 0 → (va = 0 → len = 0) → s.fab.sysops.any (fun q => q.part == p) = false → x.cut ≠ .quiesced → exec (.resume o) s = .next (wordDone s t o 1)) ∧
    (va = 0 → len = 0 → s.fab.sysops.any (fun q => q.part == p) = false → x.cut = .quiesced → exec (.resume o) s = .next (wordDone (s.reopen p) t o 0))

/-- R263: FLTRD returns a doubleword of a record, or all ones where the index holds none, and releases the record with REL. -/
def Obligations.FltrdReadsAndReleases : Prop :=
  ∀ (o : Ops) (s : State) (t : Nat), InSuper s t →
    let i := (arg s o o.a).toNat
    let j := (arg s o o.b).toNat
    let p := s.partOfThread t
    let x := s.part p
    i < 64 → j < 8 →
    let v : Word := match tget none x.ring i with | some r => r.extractLsb' (64 * j) 64 | none => BitVec.allOnes 64
    exec (.fltrd o) s = .next (wordDone (if o.imm.getLsbD 0 then
      s.setPart p { x with ring := tset none x.ring i none, order := x.order.filter fun k => k != i } else s) t o v)

/-- R261, R263, R465, Table 7.7: CSRR reads a listed register into wD; CSRW writes a writable one, keeping to its fields, or traps: a number that is
not listed or not writable and a value outside its limits as ILLEGAL, an ASID outside the partition's as PROTECTION, a TOPO that breaks
its rule as TOPOLOGY. -/
def Obligations.ControlRegisters : Prop :=
  ∀ (o : Ops) (s : State) (t : Nat), InSuper s t →
    let v := arg s o o.a
    let n := o.imm.toNat
    let th := s.thread t
    let p := s.partOfThread t
    let x := s.part p
    let reads : Word → Prop := fun r => exec (.csrr o) s = .next (wordDone s t o r)
    let writes : (Thread → Thread) → Prop := fun f => exec (.csrw o) s = .next (withThread s t f)
    let traps : Nat → Word → Prop := fun c ev => NoTrap s t → Ends (.csrw o) s fun s' => Trapped s s' t c 0 ev th.pc
    let high := BitVec.ofNat 64 (highHalf s t)
    (n = 0 → reads th.status ∧ writes fun y => { y with status := v &&& 0x75F }) ∧
    (n = 1 → reads th.tvec ∧ writes fun y => { y with tvec := v }) ∧
    (n = 2 → reads th.epc ∧ writes fun y => { y with epc := v }) ∧
    (n = 3 → reads th.ecause ∧ writes fun y => { y with ecause := v &&& 0xFFFF000F }) ∧
    (n = 4 → reads th.eval ∧ writes fun y => { y with eval := v }) ∧
    (n = 5 → reads th.scratch ∧ writes fun y => { y with scratch := v }) ∧
    (n = 6 → reads (th.asid.setWidth 64) ∧ (asidIn x.desc v.toNat = true → writes fun y => { y with asid := v.setWidth 16 }) ∧
      (asidIn x.desc v.toNat = false → traps 2 0)) ∧
    (n = 7 → reads th.evtx0 ∧ traps 8 high) ∧ (n = 8 → reads th.evtx1 ∧ traps 8 high) ∧ (n = 9 → reads (BitVec.ofNat 64 t) ∧ traps 8 high) ∧
    (n = 0x100 → reads (BitVec.ofNat 64 p) ∧ traps 8 high) ∧
    (n = 0x103 → reads (BitVec.ofNat 64 x.events.length) ∧ traps 8 high) ∧
    (n = 0x105 → reads (BitVec.ofNat 64 x.expwarn) ∧
      (1 ≤ v.toNat → v.toNat ≤ 400 → exec (.csrw o) s = .next (withThread (s.setPart p { x with expwarn := v.toNat }) t id)) ∧
      (v.toNat = 0 ∨ 400 < v.toNat → traps 8 high)) ∧
    (0x200 ≤ n → n ≤ 0x25F → reads (tget 0 s.mem.fuse (n - 0x200)) ∧ traps 8 high) ∧
    (0x300 ≤ n → n ≤ 0x30F → reads (tget 0 x.topo (n - 0x300)) ∧
      let fields : Prop := v.toNat / 256 % 2 ^ 24 = 0 ∧ v.toNat / 16 % 16 ≤ 11
      let rule : Prop := if n = 0x300 then v.toNat % 16 = 0 else v.toNat % 16 < n - 0x300
      (¬ fields → traps 8 high) ∧ (fields → ¬ rule → traps 10 0) ∧
      (fields → rule → exec (.csrw o) s = .next (withThread (s.setPart p { x with topo := tset 0 x.topo (n - 0x300) v }) t id))) ∧
    (n = 0x101 → reads (BitVec.ofNat 64 (pX0 x.desc + 2 ^ 8 * pY0 x.desc + 2 ^ 16 * pW x.desc + 2 ^ 24 * pH x.desc)) ∧ traps 8 high) ∧
    (n = 0x102 → reads (BitVec.ofNat 64 (pCol0 x.desc + 2 ^ 16 * (pNcol x.desc % 4096))) ∧ traps 8 high) ∧
    (n = 0x104 → reads (BitVec.ofNat 64 (x.order.length % 128 + 2 ^ 8 * (x.order.headD 0 % 64))) ∧ traps 8 high) ∧
    (n = 0x106 → reads (BitVec.ofNat 64 (s.qsize p)) ∧ traps 8 high) ∧
    ((0x00A ≤ n ∧ n < 0x100) ∨ (0x107 ≤ n ∧ n < 0x200) ∨ (0x260 ≤ n ∧ n < 0x300) ∨ 0x310 ≤ n → (NoTrap s t → Ends (.csrr o) s fun s' => Trapped s s' t 8 0 high th.pc) ∧ traps 8 high)

namespace Sys2Proof.Claims

/-- The tokens of one result, to T0 and a copy to T1 when it is valid (R108). -/
def both (o : Ops) (x : Out) : List Out :=
  (if o.t0 = 0 then [] else [{ x with target := o.t0 }]) ++ (if o.t1 = 0 then [] else [{ x with target := o.t1 }])
/-- A token passed on: kind, payload, tag and what its chain has performed kept, bit 7 of the side-band zero. -/
def passed (d : Token) (sb : BitVec 8) : Out := ⟨0, sb &&& 0x7F, d.kind, d.pay, none, d.tag, d.hist⟩
/-- One target that is used when it is valid. -/
def only (t : BitVec 24) (x : Out) : List Out := if t = 0 then [] else [{ x with target := t }]
/-- The machine runs a firing whose operand token at p0 is `d`. -/
def FiresOn (s : State) (f : Firing) (d : Token) : Prop := s.focus = .node f ∧ f.tok 0 = some d
/-- The units of an element with a firing added, whose results leave after `lat` cycles. -/
def issued (s : State) (f : Firing) (lat : Nat) (outs : List Out) : List UnitOp :=
  s.fab.units ++ [⟨f.e, f.ctx, f.slot, f.tag, s.cycle + lat, 0, none, outs, none, [], []⟩]

end Sys2Proof.Claims

/-! ### Firings -/

/-- R294, R295, R282, R283, R276: what issuing a firing of scalar results changes. The results join the units of its element and leave after its
latency; INFLT of its colour falls by the tokens that it consumes beyond those it sends, or the element's credit pays for those that it
sends beyond; with XL set ELATCH may capture it, and the element remembers it for a write of ELATCH in the same cycle (R283). Everything else is as
before: memory, stewards, partitions, other colours, other elements, every other field of the element, and of the fabric every token, count,
stream, round, load, fault, offer, operation and request for credit. -/
def Obligations.FiringLeavesTheRest : Prop :=
  ∀ (s : State) (f : Firing) (o : Ops) (lat : Nat) (outs : List Out) (bits : BitVec 8),
    let s' := s.fire f o lat outs bits
    let c := tagCol f.tag
    let used := (f.ops.filter fun e => e.2.isSome).length
    let sent := (outs.filter fun x => (fabTarget x.target).isSome).length
    let el := s.elem f.e
    let hit := o.fl.getLsbD 10 && !el.elatch.getLsbD 63 && (bits.toNat % 32 &&& el.elatch.toNat % 32) != 0
    s'.fab.units = issued s f lat outs ∧ s'.focus = .thread 0 ∧
    s'.colours = (if sent < used then tset Colour.reset s.colours c { s.colour c with inflt := (s.colour c).inflt - (used - sent) } else s.colours) ∧
    (∀ e, e ≠ f.e → s'.elem e = s.elem e) ∧
    (s'.elem f.e).credits = (if used < sent then tset ⟨0, 0⟩ el.credits c
      { tget ⟨0, 0⟩ el.credits c with units := (tget ⟨0, 0⟩ el.credits c).units - (sent - used) } else el.credits) ∧
    (hit = false → (s'.elem f.e).elatch = el.elatch) ∧
    (hit = true → let l := (s'.elem f.e).elatch
      l.getLsbD 63 = true ∧ nfld l 48 12 = c ∧ nfld l 46 2 = tagCtx f.tag ∧ nfld l 39 7 = f.slot % 128 ∧ nfld l 15 24 = tagIter f.tag ∧
      nfld l 8 5 = bits.toNat % 32 ∧ nfld l 0 5 = el.elatch.toNat % 32) ∧
    (o.fl.getLsbD 10 = false → (s'.elem f.e).shown = el.shown) ∧
    (o.fl.getLsbD 10 = true → ∃ w, (s'.elem f.e).shown = (s.cycle + 1, (if el.shown.1 = s.cycle + 1 then el.shown.2 else []) ++ [w]) ∧
      nfld w 8 5 = bits.toNat % 32 ∧ nfld w 48 12 = c ∧ nfld w 39 7 = f.slot % 128) ∧
    s'.elem f.e = { el with credits := (s'.elem f.e).credits, elatch := (s'.elem f.e).elatch, shown := (s'.elem f.e).shown } ∧
    s'.fab = { s.fab with elems := s'.fab.elems, units := s'.fab.units } ∧
    s' = { s with fab := s'.fab, colours := s'.colours, focus := .thread 0 }

/-! ### Flow nodes -/

/-- R114 to R119, R126 to R129: the flow nodes that pass, choose, gate, drop, null and read or write tags. STEER's, KEYSET's and TAGSET's
second operand is a token at p1 or the value of its form (`RoutingOperands`). -/
def Sys2Proof.Claims.FlowNodesPassTokens : Prop :=
  ∀ (o : Ops) (s : State) (f : Firing) (d : Token), FiresOn s f d →
    let c := s.route o
    let j := (d.sb ||| c.sb) &&& 0x7F
    exec (.copy o) s = .next (s.fire f o 1 (both o (passed d d.sb)) d.sb) ∧
    exec (.steer o) s = .next (s.fire f o 1
      (if sbPZ c.sb || sbPZ d.sb then both o { passed d (j ||| 0x20) with pay := 0, hist := f.hist }
       else if sbNL c.sb then both o { passed d (j ||| 0x40) with pay := 0, hist := f.hist }
       else if c.v.getLsbD 0 then only o.t0 { passed d j with hist := f.hist } else only o.t1 { passed d j with hist := f.hist }) j) ∧
    exec (.merge o) s = .next (s.fire f o 1 (both o (passed d d.sb)) d.sb) ∧
    exec (.sink o) s = .next (s.fire f o 1 [] d.sb) ∧
    exec (.nullt o) s = .next (s.fire f o 1 (both o { passed d (d.sb ||| 0x40) with pay := 0 }) ((d.sb ||| 0x40) &&& 0x7F)) ∧
    (∀ g, f.tok 1 = some g →
      let j := (d.sb ||| g.sb) &&& 0x7F
      exec (.gate o) s = .next (s.fire f o 1 (both o { passed d j with pay := if sbNL j || sbPZ j then 0 else d.pay, hist := f.hist }) j)) ∧
    exec (.tagget o) s = .next (s.fire f o 1
      (both o { passed d d.sb with kind := .scalar, pay := if sbPZ d.sb then 0 else f.tag >>> 6 }) d.sb) ∧
    exec (.keyget o) s = .next (s.fire f o 1
      (both o { passed d d.sb with kind := .scalar, pay := if sbPZ d.sb then 0 else BitVec.ofNat 64 (tagKey f.tag) }) d.sb) ∧
    exec (.keyset o) s = .next (s.fire f o 1
      (let x : Out := { passed d j with pay := if sbNL j || sbPZ j then 0 else d.pay, hist := f.hist }
       both o (if sbNL c.sb || sbPZ c.sb then x else { x with tag := tagWithKey f.tag (c.v.toNat % 65536) })) j) ∧
    exec (.genchk o) s = .next (s.fire f o 1
      (if tagGen f.tag = (s.colLoad (tagCol f.tag) d.load).egen.toNat then only o.t0 (passed d d.sb) else only o.t1 (passed d d.sb)) d.sb) ∧
    exec (.entry o) s = .next (s.fire f o 1 (both o ⟨0, 0, .scalar, tyExtend o.ty d.pay.toNat, none, f.tag, []⟩) 0) ∧
    (∀ (s1 : State) (f1 : Firing), s1.focus = .node f1 → f1.tok 0 = none → f1.tok 1 = some d →
      exec (.merge o) s1 = .next (s1.fire f1 o 1 (both o (passed d d.sb)) d.sb))

/-- R112: what STEER, TAGSET and KEYSET read as their second operand: a token's payload and side-band at p1, and a register, a literal
(sign-extended) or IMM (zero-extended) as an unsigned 64-bit value with side-band 0, whatever TY holds. -/
def Sys2Proof.Claims.RoutingOperands : Prop :=
  ∀ (o : Ops) (s : State) (f : Firing), s.focus = .node f →
    (∀ g, o.b = .port 1 → f.tok 1 = some g → s.route o = ⟨g.pay, g.sb &&& 0x7F⟩) ∧
    (∀ v, o.b = .lit v → s.route o = ⟨v.signExtend 64, 0⟩) ∧
    (o.b = .imm → s.route o = ⟨o.imm.setWidth 64, 0⟩) ∧
    (∀ n, o.b = .reg n → (s.route o).v = (s.kreg f.e f.ctx n.toNat).1)

/-- R125, R126: DELAY and TAGSET give the result a new iteration. Within the window of its colour and load it is sent; with an age of
WINDOW or more nothing is sent, the result is parked, and a CONFIG fault of the activation is raised. A TAGSET whose p1 is null or
poisoned leaves the tag as it is. -/
def Sys2Proof.Claims.DelayAndTagsetKeepTheWindow : Prop :=
  ∀ (o : Ops) (s : State) (f : Firing) (d : Token), FiresOn s f d →
    let c := s.route o
    let j := (d.sb ||| c.sb) &&& 0x7F
    let window := s.window (tagCol f.tag) (s.loadAt f.e f.ctx)
    let inside : Nat → Bool := fun i => decide (age (s.oldest (tagCol f.tag) d.load) i < window)
    let i := (tagIter f.tag + o.imm.toNat) % 2 ^ 24
    let n := c.v.toNat % 2 ^ 24
    let x : Out := { passed d j with pay := if sbNL j || sbPZ j then 0 else d.pay, hist := f.hist }
    (inside i = true → exec (.delay o) s = .next (s.fire f o 1 (both o { passed d d.sb with tag := tagWithIter f.tag i }) (d.sb &&& 0x7F))) ∧
    (inside i = false → Ends (.delay o) s fun s' => s' = s.outsideWindow f o (both o { passed d d.sb with tag := tagWithIter f.tag i }) (d.sb &&& 0x7F) ∧
      s'.fab.units = issued s f 1 [] ∧
      (s.purgedAt f.e f.tag = false → s.roundOf (tagCol f.tag) (s.loadidAt f.e (tagCtx f.tag)) (tagIter f.tag) = none →
        ∃ q : PendFault, s'.fab.faults = s.fab.faults ++ [q] ∧ q.tag = f.tag)) ∧
    (sbNL c.sb || sbPZ c.sb → exec (.tagset o) s = .next (s.fire f o 1 (both o x) j)) ∧
    (!(sbNL c.sb || sbPZ c.sb) → inside n = true → exec (.tagset o) s = .next (s.fire f o 1 (both o { x with tag := tagWithIter f.tag n }) j)) ∧
    (!(sbNL c.sb || sbPZ c.sb) → inside n = false →
      exec (.tagset o) s = .next (s.outsideWindow f o (both o { x with tag := tagWithIter f.tag n }) j))

/-- R120: JOINN counts the tokens of a tag. Below n it holds the count, the sum and the joined side-band; the n-th token ends the count
and sends the sum modulo 2^64, zero when a token was null or poisoned. With n = 1 each token is sent on. -/
def Sys2Proof.Claims.JoinnCountsAndSums : Prop :=
  ∀ (o : Ops) (s : State) (f : Firing) (d : Token), FiresOn s f d →
    let mine : Join → Bool := fun j => j.e == f.e && j.slot == f.slot && tagEq j.tag f.tag
    let rest := s.fab.joins.filter fun j => !mine j
    (lfind mine s.fab.joins = none → 1 < o.imm.toNat → Ends (.joinn o) s fun s' =>
      (∃ j, s'.fab.joins = rest ++ [j] ∧ j.e = f.e ∧ j.slot = f.slot ∧ j.tag = f.tag ∧ j.count = 1 ∧ j.sum = d.pay ∧ j.sb = d.sb &&& 0x7F) ∧
      s'.fab.units = issued s f 1 [] ∧ s'.fab.tokens = s.fab.tokens ∧ s'.mem = s.mem ∧ s'.stew = s.stew) ∧
    (lfind mine s.fab.joins = none → o.imm.toNat ≤ 1 → Ends (.joinn o) s fun s' =>
      let sb := d.sb &&& 0x7F
      s'.fab.joins = rest ∧ s'.fab.units = issued s f 1 (both o ⟨0, sb, .scalar, if sbNL sb || sbPZ sb then 0 else d.pay, none, f.tag, d.hist⟩) ∧
      s'.fab.tokens = s.fab.tokens ∧ s'.mem = s.mem ∧ s'.stew = s.stew) ∧
    (∀ j, lfind mine s.fab.joins = some j → j.count + 1 < o.imm.toNat → Ends (.joinn o) s fun s' =>
      s'.fab.joins = rest ++ [{ j with count := j.count + 1, sum := j.sum + d.pay, sb := (j.sb ||| d.sb) &&& 0x7F, hist := j.hist ++ d.hist }] ∧
      s'.fab.units = issued s f 1 [] ∧ s'.fab.tokens = s.fab.tokens ∧ s'.mem = s.mem ∧ s'.stew = s.stew) ∧
    (∀ j, lfind mine s.fab.joins = some j → o.imm.toNat ≤ j.count + 1 → Ends (.joinn o) s fun s' =>
      let sb := (j.sb ||| d.sb) &&& 0x7F
      s'.fab.joins = rest ∧ s'.fab.units = issued s f 1 (both o ⟨0, sb, .scalar, if sbNL sb || sbPZ sb then 0 else j.sum + d.pay, none, f.tag, j.hist ++ d.hist⟩) ∧
      s'.fab.tokens = s.fab.tokens ∧ s'.mem = s.mem ∧ s'.stew = s.stew)

/-- R121: BAR. A token older than NEXT passes; a token that is not NEXT, when no held one is, is held; the token of NEXT, when nothing is
held, is sent and NEXT moves on by one. -/
def Sys2Proof.Claims.BarOrdersIterations : Prop :=
  ∀ (o : Ops) (s : State) (f : Firing) (d : Token), FiresOn s f d → tagIter d.tag = tagIter f.tag →
    let col := tagCol f.tag
    let oldest := s.oldest col d.load
    let next := s.barNext f.e f.slot col d.load
    let held := s.fab.tokens.filter f.barHeld
    let others := s.fab.tokens.filter fun x => !f.barHeld x
    (age oldest (tagIter f.tag) < age oldest next → exec (.bar o) s = .next (s.fire f o 1 (both o (passed d d.sb)) d.sb)) ∧
    (age oldest next ≤ age oldest (tagIter f.tag) → tagIter f.tag ≠ next → (∀ x ∈ held, tagIter x.tag ≠ next) → Ends (.bar o) s fun s' =>
      s'.fab.tokens = others ++ insertSeq { d with place := .barHold } (held.filter fun x => x != d) ∧ s'.fab.units = issued s f 1 [] ∧
      s'.barNext f.e f.slot col d.load = next ∧ s'.mem = s.mem ∧ s'.stew = s.stew) ∧
    (tagIter f.tag = next → next < 2 ^ 24 → held = [] → Ends (.bar o) s fun s' =>
      s'.fab.tokens = others ∧ s'.fab.units = issued s f 1 (both o (passed d d.sb)) ∧
      s'.barNext f.e f.slot col d.load = (next + 1) % 2 ^ 24 ∧ s'.mem = s.mem ∧ s'.stew = s.stew)

/-- R131, R264: EMIT writes a USER event while fewer than 224 entries are held, and otherwise waits; a poisoned token raises POISON and
writes no event; a waiting firing completes when there is space. -/
def Sys2Proof.Claims.EmitWritesAnEventOrWaits : Prop :=
  (∀ (o : Ops) (s : State) (f : Firing) (d : Token), FiresOn s f d →
    let p := (s.partOfElem f.e).getD 0
    let space := decide ((s.part p).events.length < 224) && (s.part p).held.isEmpty
    (sbPZ d.sb = true → exec (.emit o) s = .next (s.faultFiring f { faultInfo0 with code := 6, reason := nfld f.word 120 8, slot := f.slot, e := f.e, tag := f.tag, sb := d.sb })) ∧
    (sbPZ d.sb = false → space = true → Ends (.emit o) s fun s' => ∃ ev : Event,
      s' = { s.fire f o 1 [] d.sb with parts := tset Part.reset s.parts p { s.part p with events := (s.part p).events ++ [ev] } } ∧
      fld ev 60 4 = 1#4 ∧ fld ev 44 16 = o.imm ∧ fld ev 36 8 = d.sb &&& 0x7F ∧ nfld ev 34 2 = tagCtx d.tag ∧ nfld ev 22 12 = tagCol d.tag ∧
      fld ev 64 64 = tagClean d.tag ∧ fld ev 128 64 = d.pay) ∧
    (sbPZ d.sb = false → space = false → Ends (.emit o) s fun s' =>
      s'.fab.tokens = s.fab.tokens ++ [{ d with place := .emitWait }] ∧ s'.parts = s.parts ∧ s'.fab.units = s.fab.units ∧ s'.colours = s.colours)) ∧
  ∀ (s : State) (e k : Nat) (d : Token),
    let p := (s.partOfElem e).getD 0
    findIdx? (fun t : Token => t.place == .emitWait && !t.parked && (match t.dst with | .node g _ _ => g == e | _ => false)) s.fab.tokens 0 = some k →
    nth? s.fab.tokens k = some d → (s.part p).events.length < 224 → (s.part p).held = [] →
    Ends (.emitSpaceResume e) s fun s' => ∃ ev : Event, s'.fab.tokens = dropNth s.fab.tokens k ∧ s'.mem = s.mem ∧
      s'.parts = tset Part.reset s.parts p { s.part p with events := (s.part p).events ++ [ev] } ∧ fld ev 60 4 = 1#4 ∧ fld ev 128 64 = d.pay ∧
      s'.colours = tset Colour.reset s.colours (tagCol d.tag) { s.colour (tagCol d.tag) with inflt := (s.colour (tagCol d.tag)).inflt - 1 }

/-! ### Tokens on the mesh, in matching and in basins -/

/-- R268, R269, R242, R26: the last flit of a token is at its element from its due cycle on, behind every token that its sender sent there
before it on the same network. The token goes to the element's input; one that a PURGE covers is removed and leaves the count; a reference
that comes from another element is parked at the input, and raises BUFFER with the opcode of the node that it was bound for as REASON unless a park
holds its iteration. -/
def Sys2Proof.Claims.MeshDeliversTokens : Prop :=
  ∀ (s : State) (k e due src : Nat) (t : Token), nth? s.fab.tokens k = some t → t.place = .mesh due src → t.elem = some e → due ≤ s.cycle →
    (s.fab.tokens.take k).any (fun u : Token => t.goesWith u src) = false →
    (t.kind = .tile ∨ s.spillCount e < 16) →
    (s.purgedAt e t.tag = true → Ends (.flitDelivery k) s fun s' => s'.fab.tokens = dropNth s.fab.tokens k ∧ s'.mem = s.mem ∧
      s'.colours = tset Colour.reset s.colours (tagCol t.tag) { s.colour (tagCol t.tag) with inflt := (s.colour (tagCol t.tag)).inflt - 1 }) ∧
    (s.purgedAt e t.tag = false → t.isRef = false →
      exec (.flitDelivery k) s = .next { s with fab := { s.fab with tokens := setNth s.fab.tokens k { t with place := .input (s.cycle + 1) } } }) ∧
    let put := (s.nextSeq e).2.putToken k { t with place := .foreign src, parked := true, seq := (s.elem e).seq.toNat }
    (s.purgedAt e t.tag = false → t.isRef = true → s.parkedFor t.tag t.load = true → exec (.flitDelivery k) s = .next put) ∧
    (s.purgedAt e t.tag = false → t.isRef = true → s.parkedFor t.tag t.load = false →
      let op := match s.nodeWord e (tagCtx t.tag) t.slotOf with | some w => nfld w 120 8 | none => 0
      exec (.flitDelivery k) s = .next (put.raiseFault { faultInfo0 with code := 12, reason := op, slot := t.slotOf, e := e, tag := t.tag, sb := t.sb }))

/-- R272, R298, R84, R27, R113: the element takes the token that is due first into matching, one in a step, in the order of arrival. It
becomes a candidate without an entry, takes a place in an entry, or is spilled (`State.matchPlace`), with the element's next arrival
number, or waits while it has no place. One that a park holds (R244) is parked there. So is one for an empty position or a NOP, which raises CONFIG
with REASON 0, and one of a kind that its port does not take, which raises CONFIG with the node's opcode. One that an UNPARK returned to an ENTRY
goes back to that port's queue (R245). -/
def Sys2Proof.Claims.MatchingTakesTokens : Prop :=
  ∀ (s : State) (e k due : Nat) (t u : Token), nextInput e s.cycle s.fab.tokens 0 none = some (k, due, u) → nth? s.fab.tokens k = some t →
    s.purgedAt e t.tag = false →
    let c := tagCtx t.tag
    let held : Token := { t with place := .cand s.cycle, parked := true, seq := (s.elem e).seq.toNat }
    (s.parkedFor t.tag t.load = true → Ends (.tokenMatch e) s fun s' => s'.fab.tokens = setNth s.fab.tokens k held ∧ s'.fab.units = s.fab.units ∧
      s'.fab.faults = s.fab.faults ∧ s'.colours = s.colours ∧ s'.mem = s.mem) ∧
    (s.parkedFor t.tag t.load = false →
      let bad : Nat → Prop := fun reason => exec (.tokenMatch e) s = .next (((s.nextSeq e).2.putToken k held).raiseFault
        { faultInfo0 with code := 7, reason := reason, slot := t.slotOf, e := e, tag := t.tag, sb := t.sb })
      (s.nodeWord e c t.slotOf = none → bad 0) ∧
      (∀ w g, s.nodeWord e c t.slotOf = some w → rowOf w = some g → g.opc = 0 → bad 0) ∧
      (∀ w g, s.nodeWord e c t.slotOf = some w → rowOf w = some g → g.opc ≠ 0 → ¬ (g.opc = 0x0D ∧ due = 0) → portKind g t.portOf ≠ some t.kind →
        bad (nfld w 120 8)) ∧
      (∀ w g, s.nodeWord e c t.slotOf = some w → rowOf w = some g → g.opc = 0x0D → due = 0 →
        exec (.tokenMatch e) s = .next (s.putToken k { t with place := .entryq (nfld w 0 16) })) ∧
      ∀ w g, s.nodeWord e c t.slotOf = some w → rowOf w = some g → g.opc ≠ 0 → ¬ (g.opc = 0x0D ∧ due = 0) → portKind g t.portOf = some t.kind →
        (s.matchPlace e g t = none → exec (.tokenMatch e) s = .next s) ∧
        ∀ p, s.matchPlace e g t = some p →
          Ends (.tokenMatch e) s fun s' => s'.fab.tokens = setNth s.fab.tokens k { t with place := p, seq := (s.elem e).seq.toNat } ∧
            s'.mem = s.mem ∧ s'.colours = s.colours ∧ s'.fab.units = s.fab.units ∧ s'.stew = s.stew)

/-- R298: matching gives a token a new entry of its colour only while the colour holds fewer than CAP entries at the element and fewer
than 8 ways of the set, and the set has a free way; what a firing issued in the same cycle has freed does not count as free yet. -/
def Sys2Proof.Claims.NewEntriesKeepCapAndWays : Prop :=
  ∀ (s : State) (e : Nat) (g : Sig) (t : Token) (n : Nat), s.matchPlace e g t = some (.entry n) →
    let col := tagCol t.tag
    let set := setOf col (tagIter t.tag) t.slotOf
    let l := s.entries e
    let mine := s.fab.tokens.filter fun u => u.mate t && u.inEntry
    let free : List (Nat × Nat) → Prop := fun l => (l.filter fun x => x.1 == col).length < (s.colour col).cap ∧
      (l.filter fun x => x == (col, set)).length < 8 ∧ (l.filter fun x => x.2 == set).length < 16
    (mine.filter fun u => u.portOf == t.portOf).length < entriesOf mine t ∨
    (free l ∧ ((s.elem e).issued = s.cycle + 1 → (s.elem e).start.cycle = s.cycle → free (s.elem e).start.entries))

/-- R274: what the selection of a firing obeys. The chosen one is of the list, of a slot of the highest priority among those not 0; it is
urgent if any of that priority is; its colour is the first after TURN; its iteration is the oldest of those, against the colour's O; its context slot is the lowest of those,
then its slot word, then it is of those that became ready first, and of those its tag is lowest. -/
def Sys2Proof.Claims.SelectionOrder : Prop :=
  ∀ (s : State) (e : Nat) (l : List Cand) (x : Cand), s.choose e l = some x →
    let pr : Cand → Nat := fun y => (s.ctx e y.ctx).prio
    let turn : Cand → Nat := fun y => (tagCol y.tag + 4095 - (s.elem e).turn.toNat) % 4096
    let old : Cand → Nat := fun y => age (s.oldest (tagCol y.tag) (s.loadidAt e y.ctx)) (tagIter y.tag)
    let peer : Cand → Prop := fun y => y ∈ l ∧ pr y = pr x ∧ y.urgent = x.urgent ∧ turn y = turn x ∧ old y = old x
    (∀ y, y ∈ l → pr y ≤ 15) →
    x ∈ l ∧ pr x ≠ 0 ∧ (∀ y ∈ l, pr y ≤ pr x) ∧
    ((∃ y ∈ l, pr y = pr x ∧ y.urgent = true) → x.urgent = true) ∧
    (∀ y ∈ l, pr y = pr x → y.urgent = x.urgent → turn x ≤ turn y) ∧
    (∀ y ∈ l, pr y = pr x → y.urgent = x.urgent → turn y = turn x → old x ≤ old y) ∧
    (∀ y, peer y → x.ctx ≤ y.ctx) ∧ (∀ y, peer y → y.ctx = x.ctx → x.slot ≤ y.slot) ∧
    (∀ y, peer y → y.ctx = x.ctx → y.slot = x.slot → s.readySince e x ≤ s.readySince e y ∧
      (s.readySince e y = s.readySince e x → tagId x.tag ≤ tagId y.tag))

/-- R273, R274, R122, R123: the element looks at its candidates, and issues the chosen one of those that are ready: TURN takes its colour, the
operand tokens of a firing leave the element and the machine runs it, and a stream sends its next index, or its done token when none is left
(`IterIssuesIndexes`). It issues once in a cycle. An element that is halted or has issued in this cycle issues nothing. A candidate of a node with
one token port that is not ready in its first cycle takes a matching entry, or goes to the spill queue when it may take none. -/
def Sys2Proof.Claims.ElementIssuesOneFiring : Prop :=
  (∀ (s : State) (e : Nat),
    let r := s.readyFirings e
    (∀ x ∈ r.1, (s.examine e).ready e x = true) ∧ r.2.mem = s.mem ∧ r.2.stew = s.stew ∧ r.2.colours = s.colours ∧ r.2.fab.units = s.fab.units ∧
    r.2.fab.streams = s.fab.streams ∧ r.2.focus = s.focus ∧ r.2.canIssue e = s.canIssue e ∧
    (s.canIssue e = false → exec (.fireSelection e) s = .next r.2) ∧
    ((s.elem e).halted = true ∨ s.cycle < (s.elem e).issued → s.canIssue e = false) ∧
    (r.2.choose e r.1 = none → exec (.fireSelection e) s = .next r.2) ∧
    (s.canIssue e = true → ∀ x, r.2.choose e r.1 = some x → Ends (.fireSelection e) s fun s' =>
      (s'.elem e).turn = BitVec.ofNat 12 (tagCol x.tag) ∧ (s'.elem e).issued = s.cycle + 1 ∧ s'.canIssue e = false ∧
      (∀ f toks, x.pick = .fire f toks → s'.focus = .node f ∧ s'.fab.tokens = takeTokens r.2.fab.tokens toks ∧
        s'.mem = s.mem ∧ s'.stew = s.stew ∧ s'.colours = s.colours ∧ s'.fab.units = s.fab.units) ∧
      ∀ y, x.pick = .issue y → s' = r.2.issue e x)) ∧
  ∀ (s : State) (e n : Nat) (x : Cand) (f : Firing) (t : Token), x.pick = .fire f [t] → t.place = .cand n → x.since = s.cycle → t ∈ s.fab.tokens →
    let put_ : Place → List Token := fun p => s.fab.tokens.map fun u => if u = t then { u with place := p } else u
    (s.roomFor e t = true → (s.retain e x).fab.tokens = put_ (.entry s.cycle)) ∧
    (s.roomFor e t = false → s.spillCount e < 16 → (s.retain e x).fab.tokens = put_ .spill)

/-- R122: ITER takes its start token and begins a stream of its iterations, N of bits 23:0, or none after a null or poisoned start; the stream
then issues by itself (`IterIssuesIndexes`). -/
def Sys2Proof.Claims.IterBeginsAStream : Prop :=
  ∀ (o : Ops) (s : State) (f : Firing) (d : Token), FiresOn s f d → Ends (.iter o) s fun s' =>
    s'.fab.streams = s.fab.streams ++ [⟨f.e, f.slot, tagClean d.tag, d.sb &&& 0x7F, if sbNL d.sb || sbPZ d.sb then 0 else d.pay.toNat % 2 ^ 24, 0,
      o.fl.getLsbD 9, d.load, false, d.hist, d.seq⟩] ∧
    s'.fab.units = issued s f 1 [] ∧ s'.fab.tokens = s.fab.tokens ∧ s'.mem = s.mem ∧ s'.stew = s.stew

/-- R122: the k-th stream issues when its element's choice falls on it: index k with iteration i0 + k to T0 while k < N, and then N to T1
as the done token, when the stream ends. -/
def Sys2Proof.Claims.IterIssuesIndexes : Prop :=
  ∀ (s : State) (k : Nat) (x : Stream) (y : Cand) (w : SlotWord), nth? s.fab.streams k = some x → s.canIssue x.e = true →
    let r := s.readyFirings x.e
    r.2.choose x.e r.1 = some y → y.pick = .issue x → s.slotWord x.e (tagCtx x.tag) x.slot = some w →
    let tag := tagWithIter x.tag ((tagIter x.tag + x.k) % 2 ^ 24)
    let out : Out := ⟨0, x.sb, .scalar, BitVec.ofNat 64 x.k, none, tag, x.hist⟩
    let unit : List Out → List UnitOp := fun outs => s.fab.units ++ [⟨x.e, tagCtx x.tag, x.slot, tag, s.cycle + 1, 0, none, outs, none, [], []⟩]
    let rest := s.fab.streams.filter fun z => z != x
    (x.k < x.n → Ends (.iterIssue k) s fun s' => s'.fab.streams = rest ++ [{ x with k := x.k + 1 }] ∧ s'.fab.units = unit (only (fld w 52 24) out) ∧
      s'.mem = s.mem ∧ s'.stew = s.stew ∧ s'.fab.tokens = r.2.fab.tokens) ∧
    (x.n ≤ x.k → Ends (.iterIssue k) s fun s' => s'.fab.streams = rest ∧ s'.fab.units = unit (only (fld w 28 24) out) ∧
      s'.mem = s.mem ∧ s'.stew = s.stew ∧ s'.fab.tokens = r.2.fab.tokens)

/-- R276, R268, R26: the firing of an element that is first to complete leaves its unit, and its one result, bound for a node of the same
element, is at its input in the next cycle, with its tag (bits 5:0 zero), side-band and payload. -/
def Sys2Proof.Claims.UnitsSendTheirResults : Prop :=
  ∀ (s : State) (e : Nat) (u : UnitOp) (x : Out) (slot : BitVec 7) (port : BitVec 2), firstUnit e s.fab.units = some u → u.due ≤ s.cycle →
    u.write = none → u.release = [] → u.renews = [] → u.outs = [x] → fabTarget x.target = some (.here slot port) → s.purgedAt u.e u.tag = false →
    Ends (.unitCompletion e) s fun s' => s'.fab.units = s.fab.units.erase u ∧ s'.mem = s.mem ∧ s'.colours = s.colours ∧ s'.stew = s.stew ∧
      ∃ t : Token, s'.fab.tokens = s.fab.tokens ++ [t] ∧ t.tag = tagClean x.tag ∧ t.sb = x.sb ∧ t.kind = x.kind ∧ t.pay = x.pay ∧ t.pkt = x.pkt ∧
        t.dst = .node u.e slot.toNat port.toNat ∧ t.place = .input (s.cycle + 1) ∧ t.load = s.loadidAt u.e u.ctx

/-- R292, R302, R269: a token that has reached its exit port, behind those that its sender sent there before it and behind those of its colour that
an UNPARK returned (R245), stands last in the exit queues, while the colour holds fewer than CAP of the entries, 512 are not taken and no older
exit token of the colour for that die waits in its basin; otherwise it is written into its basin, or the partition is reset where that access
fails (R301). A token of an iteration that a PARK holds is parked there (R244). -/
def Sys2Proof.Claims.ExitQueuesHoldCap : Prop :=
  (∀ (s : State) (k due src : Nat) (t : Token), nth? s.fab.tokens k = some t → t.place = .exitIn due src → 0 < due →
    let c := tagCol t.tag
    let d := s.exitDie t
    let first := (s.fab.tokens.take k).any (fun u => match u.place with
        | .exitIn n x => if n = 0 then s.exitDie u == d && tagCol u.tag == c else x == src && s.exitDie u == d
        | _ => false) = false ∧
      (s.fab.tokens.drop (k + 1)).any (fun u => u.place == .exitIn 0 0 && (s.exitDie u == d && tagCol u.tag == c)) = false
    let here := s.fab.tokens.filter fun u => u.place == .exitq && s.exitDie u == d
    let room := here.length < 512 ∧ (here.filter fun u => tagCol u.tag == c).length < (s.colour c).cap ∧
      s.fab.tokens.any (fun u => u.inBasin && u.isExit && (s.exitDie u == d && tagCol u.tag == c)) = false
    let u : Token := { t with parked := s.parkedFor t.tag t.load, seq := (s.elem (2304 + d)).seq.toNat }
    let put : Place → State := fun p => (s.nextSeq (2304 + d)).2.setTokens (dropNth s.fab.tokens k ++ [{ u with place := p }])
    (s.cycle < due ∨ ¬ first → exec (.exitQueueArrival k) s = .next s) ∧
    (due ≤ s.cycle → first → room → exec (.exitQueueArrival k) s = .next (put .exitq)) ∧
    (due ≤ s.cycle → first → ¬ room →
      (∀ s1, (put (.basin (s.basinFree c))).basinStore c (s.basinFree c) u.basinEntry = .ok s1 → exec (.exitQueueArrival k) s = .next s1) ∧
      ∀ x, (put (.basin (s.basinFree c))).basinStore c (s.basinFree c) u.basinEntry = .error x → exec (.exitQueueArrival k) s = .next (s.failBasin c x))) ∧
  ∀ (s : State) (k src : Nat) (t : Token), nth? s.fab.tokens k = some t → t.place = .exitIn 0 src →
    let c := tagCol t.tag
    let d := s.exitDie t
    let older : Token → Bool := fun u => s.exitDie u == d && tagCol u.tag == c && u.before t
    (s.fab.tokens.take k).any (fun u => (match u.place with | .exitIn n _ => n == 0 | _ => false) && older u) = false →
    (s.fab.tokens.drop (k + 1)).any (fun u => u.place == .exitIn 0 0 && older u) = false →
    s.fab.tokens.any (fun u => u.inBasin && u.isExit && older u) = false → s.exitRoom d c = true →
    exec (.exitQueueArrival k) s =
      .next (s.setTokens (dropNth s.fab.tokens k ++ [{ t with place := .exitq, parked := s.parkedFor t.tag t.load }]))

/-- R35, R190, R322, R158, R314, R315: a tile packet that reaches its element lands in the empty slot that its header names: the pool holds its
body at the slot's lines, and no other byte of the pool changes; the slot holds its header, valid, its scale block and its beats, is full, and
stands at now + LIFE. A reference with the slot and the beats enters matching in its place. A null packet brings a null reference. The activation
of one that is malformed, or whose buffer or slot is not there, not empty or too small, faults with BUFFER and REASON 0xAB, and nothing is
written. One that a PURGE covers is removed and leaves the count (R242). -/
def Sys2Proof.Claims.TilePacketsLand : Prop :=
  ∀ (s : State) (e k : Nat) (t : Token) (p : TilePkt),
    findIdx? (fun t : Token => t.kind == .tile && t.elem == some e && (match t.place with | .input due => decide (due ≤ s.cycle) | _ => false)) s.fab.tokens 0 = some k →
    nth? s.fab.tokens k = some t → t.pkt = some p →
    let c := tagCtx t.tag
    let n := hDbuf p.hdr
    let i := hDslot p.hdr
    let ref : Word → Token := fun pay => { t with sb := hSb p.hdr &&& 0x7F, kind := .ref, pay := pay, pkt := none, place := .input (s.cycle + 1) }
    let gone := s.setTokens (dropNth s.fab.tokens k)
    let fault := exec (.tilePacketArrival e) s = .next ((gone.inflDown (tagCol t.tag) 1).raiseFault
      { faultInfo0 with code := 12, reason := 0xAB, slot := t.slotOf, e := e, tag := t.tag, sb := t.sb, addr := packNat [(0, 5, n), (5, 4, i)], acc := 1 })
    (s.purgedAt e t.tag = true → Ends (.tilePacketArrival e) s fun s' => s'.fab.tokens = dropNth s.fab.tokens k ∧ s'.mem = s.mem ∧
      s'.colours = tset Colour.reset s.colours (tagCol t.tag) { s.colour (tagCol t.tag) with inflt := (s.colour (tagCol t.tag)).inflt - 1 }) ∧
    (s.purgedAt e t.tag = false →
      (tileOk p = true → sbDead (hSb p.hdr) = true → exec (.tilePacketArrival e) s =
        .next { s with fab := { s.fab with tokens := dropNth s.fab.tokens k ++ [ref 0] } }) ∧
      (∀ b, tileOk p = true → sbDead (hSb p.hdr) = false → s.buf e c n = some b → i < b.depth → (b.slot i).full = false → hBeats p.hdr ≤ b.size →
        Ends (.tilePacketArrival e) s fun s' => s'.fab.tokens = dropNth s.fab.tokens k ++ [ref (mkRef n i (hBeats p.hdr))] ∧
          s'.mem = s.mem ∧ s'.colours = s.colours ∧ s'.fab.units = s.fab.units ∧ s'.stew = s.stew ∧
          (s'.elem e).pool = msetN (s.elem e).pool (b.slotByte i) p.body ∧
          ∃ b', s'.buf e c n = some b' ∧ (∀ j, j ≠ i → nth? b'.slots j = nth? b.slots j) ∧ b'.widx = b.widx ∧
            (i < b.slots.length →
              let q := b'.slot i
              q.full = true ∧ q.hv = true ∧ q.hdr = p.hdr ∧ q.scale = p.scale ∧ q.lines = hBeats p.hdr ∧ q.data = true ∧ q.exp = false ∧
              q.stamp = (s.elem e).retcnt + BitVec.ofNat 32 b.life ∧ (b.keep = true → q.kept = true) ∧ (b.keep = false → q.kept = false))) ∧
      (tileOk p = false → fault) ∧
      (tileOk p = true → sbDead (hSb p.hdr) = false →
        (s.buf e c n = none ∨ ∃ b, s.buf e c n = some b ∧ (b.depth ≤ i ∨ (b.slot i).full = true ∨ b.size < hBeats p.hdr)) → fault))

/-- R299 to R303, R437: tokens go to their colour's basin and come back. The engine writes the oldest token of the element's spill queue,
or a parked token, into the lowest free entry; a complete bundle comes back as one, the oldest spilled partner of an entry joins it, and
the oldest spilled token of a colour takes an entry as one frees. The engine of a die serves the spill queues, and the colours whose tokens
it can return, in turn. -/
def Sys2Proof.Claims.BasinsTakeAndReturnTokens : Prop :=
  (∀ (s s1 : State) (e : Nat) (t : Token), oldestOf (s.fab.tokens.filter fun t => t.place == .spill && t.elem == some e) = some t →
    nextFrom (tget 0 s.fab.spillTurn (dieOf e)) 2304 (s.spillers (dieOf e)) = some e →
    let c := tagCol t.tag
    let moved := ({ s with fab := { s.fab with spillTurn := tset 0 s.fab.spillTurn (dieOf e) ((e + 1) % 2304) } } : State).setTokens (s.fab.tokens.map fun u => if u = t then { u with place := .basin (s.basinFree c) } else u)
    moved.basinStore c (s.basinFree c) t.basinEntry = .ok s1 → exec (.basinEngineTurn e) s = .next s1) ∧
  (∀ (s s1 : State) (k : Nat) (t : Token), nth? s.fab.tokens k = some t → t.parked = true → (∃ n, t.place = .entry n) ∨ t.place = .exitq ∨ (∃ n, t.place = .entryq n) →
    let c := tagCol t.tag
    let moved := s.setTokens (s.fab.tokens.map fun u => if u = t then { u with place := .basin (s.basinFree c) } else u)
    moved.basinStore c (s.basinFree c) t.basinEntry = .ok s1 → exec (.parkedTokenWriteback k) s = .next s1) ∧
  (∀ (s : State) (e : Nat) (l : List Token) (p : Place), s.basinFails l = none →
    let c := s.basinCol e
    let d := engineDie e
    let back : State → Prop := fun t => t = l.foldl (fun (s1 : State) u => s1.moveToken u p)
      (({ s with fab := { s.fab with basinTurn := tset 0 s.fab.basinTurn d ((c + 1) % 4096) } } : State).basinClear l)
    (s.bundleOf e c = some l → p = .bundle (s.cycle + 1) → Ends (.basinBundleReturn e) s back) ∧
    (∀ t, l = [t] → s.probe e c = some t → p = .entry (s.cycle + 1) → Ends (.basinProbeReply e) s back) ∧
    (∀ t, l = [t] → s.refill e c = some t → p = (if e < 2304 then .entry (s.cycle + 1) else .exitq) → Ends (.basinRefill e c) s back)) ∧
  (∀ (s : State) (e c : Nat) (t : Token), s.refill e c = some t → t.inBasin = true ∧ tagCol t.tag = c ∧
    (e < 2304 → t.elem = some e ∧ s.roomFor e t = true) ∧ (2304 ≤ e → t.isExit = true ∧ 2304 + s.exitDie t = e ∧ s.exitRoom (e - 2304) c = true) ∧
    oldestOf (s.fab.tokens.filter fun u => u.spilled && (tagCol u.tag == c &&
      if e < 2304 then u.elem == some e else u.isExit && 2304 + s.exitDie u == e)) = some t)

/-- R295, R296, R297: a colour's counter answers the first request of its colour, while INFLT with it stays within BASINLEN, and INFLT then
counts it at once; unspent credit of a colour that has held no entry for 1,024 cycles leaves INFLT again. An element holds credit of at most
32 colours; a further one takes the place of the one longest without an entry (the model's reading, log entry 43). -/
def Sys2Proof.Claims.CreditKeepsBasinlen : Prop :=
  (∀ (s : State) (e col n : Nat),
    let x := tget (⟨0, 0⟩ : Credit) (s.elem e).credits col
    let c := s.colour col
    let held := (s.elem e).credits.filter fun y => y.2.units != 0
    lfind (fun a : Ask => a.col == col) s.fab.asks = some ⟨col, e, n⟩ →
      (c.inflt + n ≤ c.basinlen → held.length < 32 ∨ held.any (fun y => y.1 == col) = true → 0 < n → Ends (.creditGrant e col) s fun s' =>
        s'.colours = tset Colour.reset s.colours col { c with inflt := c.inflt + n } ∧
        s'.fab.elems = tset Elem.reset s.fab.elems e { s.elem e with credits := tset ⟨0, 0⟩ (s.elem e).credits col ⟨x.units + n, s.cycle⟩ } ∧
        s'.fab.asks = s.fab.asks.erase ⟨col, e, n⟩ ∧ s'.mem = s.mem ∧ s'.fab.tokens = s.fab.tokens) ∧
      (c.basinlen < c.inflt + n → exec (.creditGrant e col) s = .next s) ∧
      (∀ e', e' ≠ e → exec (.creditGrant e' col) s = .next s)) ∧
  (∀ (s : State) (e col : Nat),
    let x := tget (⟨0, 0⟩ : Credit) (s.elem e).credits col
    let c := s.colour col
    0 < x.units → 1024 ≤ s.cycle - x.idle → s.holds e col = 0 → Ends (.creditReturn e col) s fun s' =>
      s'.colours = tset Colour.reset s.colours col { c with inflt := c.inflt - x.units } ∧
      s'.fab.elems = tset Elem.reset s.fab.elems e { s.elem e with credits := tset ⟨0, 0⟩ (s.elem e).credits col ⟨0, 0⟩ } ∧
      s'.mem = s.mem ∧ s'.fab.tokens = s.fab.tokens)

/-- R307, Table 7.10: a sentinel count that reaches SENTLIM sends one ORPHAN event, with the entries held and SENTLIM, and stops nothing. -/
def Sys2Proof.Claims.SentinelReportsOnce : Prop :=
  ∀ (s : State) (e col : Nat),
    let el := s.elem e
    let x := tget (⟨0, false⟩ : Sentinel) el.sentinels col
    let lim := (s.colour col).sentlim
    let p := (s.partOfElem e).getD 0
    (x.sent = true ∨ lim = 0 ∨ s.cycle - x.since < lim → exec (.sentinelExpiry e col) s = .next s) ∧
    (el.halted = false → s.holdsAny e col = true → x.sent = false → lim ≠ 0 → lim ≤ s.cycle - x.since → Ends (.sentinelExpiry e col) s fun s' =>
      ∃ ev : Event, s' = (s.setElem e { el with sentinels := tset ⟨0, false⟩ el.sentinels col { x with sent := true } }).sendEvent p ev ∧
        fld ev 60 4 = 3#4 ∧ fld ev 44 16 = 5#16 ∧ fld ev 128 64 = BitVec.ofNat 64 (s.holds e col) ∧ fld ev 192 64 = BitVec.ofNat 64 lim)

/-- R239, R242, R247: a towpath message reaches an element; after the last one the operation ends and its thread goes on. Shown for PRIO:
each element takes the new priority in its own step, and with a priority other than 0 nothing else of the element changes; at 0 the EXPIRY events
of its slots fall due (`SlotsExpireAndAreKept`). -/
def Sys2Proof.Claims.TowpathMessagesArrive : Prop :=
  ∀ (s : State) (k e c n : Nat) (q : SysOp), nth? s.fab.sysops k = some q → q.kind = .prio c n → e ∈ q.todo →
    let todo := q.todo.filter fun f => f != e
    let set := s.setPrio e c n
    (todo ≠ [] → exec (.towpathMessageArrival k e) s = .next (set.putOp k { q with todo := todo })) ∧
    (todo = [] → Ends (.towpathMessageArrival k e) s fun s' => s'.fab.elems = set.fab.elems ∧ s'.parts = set.parts ∧
      s'.fab.sysops = dropNth s.fab.sysops k ∧ s'.mem = s.mem ∧ s'.fab.tokens = s.fab.tokens ∧
      s'.stew = (s.setThread q.thread { s.thread q.thread with pc := (s.thread q.thread).pc + 1, stall := .none }).stew) ∧
    (n ≠ 0 → set.parts = s.parts ∧
      set.fab.elems = tset Elem.reset s.fab.elems e { s.elem e with ctxs := tset Ctx.reset (s.elem e).ctxs c { s.ctx e c with prio := n } }) ∧
    (set.ctx e c).prio = n

namespace Sys2Proof.Claims

/-- The OR of side-band bytes. -/
def orAll (l : List (BitVec 8)) : BitVec 8 := l.foldr (fun a b => a ||| b) 0
/-- Every operand that names a slot names a full one of its own buffer, unexpired and long enough (`OperandSlotsAreChecked`), and no
operand is null or poisoned. -/
def Readable (s : State) (f : Firing) (args : List Arg) : Prop := s.argsFault f args = none ∧ sbDead (argsSb args) = false
/-- DBUF of IMM is allocated to b, and the slot at its write index is empty (R161). -/
def DestFree (s : State) (f : Firing) (o : Ops) (b : Buf) : Prop :=
  s.buf f.e f.ctx (o.imm.toNat % 32) = some b ∧ (b.slot b.widx).full = false
/-- A firing that writes the slot at the write index of DBUF (R161 to R164, R175): with readable operands, that slot empty and room for
the result, the slot is reserved and the index advances; the unit holds the firing until it is done, with the reference that it then
sends, what it then writes and the operand slots that it then releases. Memory, stewards, partitions and waiting tokens stay. -/
def Writes (i : Instr) (o : Ops) (s : State) (f : Firing) (args : List Arg) (bits more : Nat) (r : SlotRes) : Prop :=
  s.focus = .node f → Readable s f args → ∀ b, DestFree s f o b → r.lines ≤ b.size → Ends i s fun s' =>
    let n := o.imm.toNat % 32
    let sb := argsSb args ||| (r.bits &&& 0x1F)
    let lines := max (argLines args) r.lines
    s'.fab.units = s.fab.units ++ [⟨f.e, f.ctx, f.slot, f.tag, s.unitFree f.e 1 + (vecCycles bits lines + more), 1, none,
      both o ⟨0, sb, .ref, mkRef n b.widx r.lines, none, f.tag, []⟩,
      some ⟨n, b.widx, r.data, r.lines, r.hv, r.hdr, r.scale, o.fl.getLsbD 5⟩, releases args, []⟩] ∧
    s'.buf f.e f.ctx n = some { b with slots := setNth b.slots b.widx { b.slot b.widx with full := true }, widx := (b.widx + 1) % b.depth } ∧
    s'.mem = s.mem ∧ s'.stew = s.stew ∧ s'.parts = s.parts ∧ s'.fab.tokens = s.fab.tokens ∧ s'.focus = .thread 0
/-- A firing of the vector unit that reads slots and sends a scalar. -/
def Answers (i : Instr) (o : Ops) (s : State) (f : Firing) (args : List Arg) (lat : Nat) (r : Word × BitVec 8) : Prop :=
  s.focus = .node f → Readable s f args → Ends i s fun s' =>
    s'.fab.units = s.fab.units ++ [⟨f.e, f.ctx, f.slot, f.tag, s.unitFree f.e 1 + lat, 1, none,
      both o ⟨0, argsSb args ||| (r.2 &&& 0x1F), .scalar, r.1, none, f.tag, []⟩, none, releases args, []⟩] ∧
    s'.mem = s.mem ∧ s'.stew = s.stew ∧ s'.parts = s.parts ∧ s'.fab.tokens = s.fab.tokens ∧ s'.focus = .thread 0
/-- Lanes without a header as what a slot is to hold. -/
def lanesOf (ty : Ty) (l : List (Nat × BitVec 8)) : SlotRes := ⟨packLanes (tyBits ty) (l.map fun x => x.1), false, 0, 0, orAll (l.map fun x => x.2)⟩
/-- A lane-wise instruction: N lanes as operand A has in its lane type, lane i of the result from lane i of each operand, a scalar
operand standing in every lane (R159, R167). -/
def LaneWise (c : Ops → Instr) (ta tb tc tr : Ops → Ty) (g : Ops → Nat → Nat → Nat → Nat × BitVec 8) : Prop :=
  ∀ (o : Ops) (s : State) (f : Firing) (la lb lc : List Nat),
    let args := s.vargs f o (ta o) (tb o) (tc o)
    let n := (argAt args 0).count (ta o)
    (argAt args 0).lanes (ta o) n = some la → (argAt args 1).lanes (tb o) n = some lb → (argAt args 2).lanes (tc o) n = some lc →
    Writes (c o) o s f args (tyBits o.ty) 0
      (lanesOf (tr o) ((List.range n).map fun i => g o (nth 0 la i) (nth 0 lb i) (nth 0 lc i)))
/-- A lane-wise instruction on lanes of TY. -/
def LaneSame (c : Ops → Instr) (g : Ops → Nat → Nat → Nat → Nat × BitVec 8) : Prop := LaneWise c Ops.ty Ops.ty Ops.ty Ops.ty g
/-- A lane-wise instruction with a lane operand and two scalars, whose literals stand for their numbers in TY (R69; the model's reading, log entry 47). -/
def LaneScalars (c : Ops → Instr) (ta : Ops → Ty) (g : Ops → State → Firing → Nat → Nat → Nat → Nat → Nat × BitVec 8) : Prop :=
  ∀ (o : Ops) (s : State) (f : Firing) (la : List Nat), s.focus = .node f →
    let a := s.arg f (ta o) o.a (o.imm.getLsbD 5)
    let b := s.opVal o.ty o.imm o.b
    let c' := s.opVal o.ty o.imm o.c
    a.lanes (ta o) (a.count (ta o)) = some la →
    Writes (c o) o s f [a, scalarArg b, scalarArg c'] (tyBits o.ty) 0
      (lanesOf o.ty ((List.range (a.count (ta o))).map fun i => g o s f b.v.toNat c'.v.toNat i (nth 0 la i)))
/-- Rounding mode and SAT of a word. -/
def rmOf' (o : Ops) : Nat := o.fl.toNat / 64 % 4
def satOf' (o : Ops) : Bool := o.fl.getLsbD 8
/-- A lane as an integer, and an exact integer as a lane: its low bits, or under SAT clamped with OF (R168). -/
def laneInt (ty : Ty) (a : Nat) : Int :=
  let m := a % 2 ^ tyBits ty
  if tySigned ty && decide (2 ^ (tyBits ty - 1) ≤ m) then (m : Int) - 2 ^ tyBits ty else m
def intLane' (ty : Ty) (sat : Bool) (x : Int) : Nat × BitVec 8 :=
  let lo : Int := if tySigned ty then -2 ^ (tyBits ty - 1) else 0
  let hi : Int := if tySigned ty then 2 ^ (tyBits ty - 1) - 1 else 2 ^ tyBits ty - 1
  let bits : Int → Nat := fun y => (y % 2 ^ tyBits ty).toNat
  if sat then (if x < lo then (bits lo, 0x04) else if hi < x then (bits hi, 0x04) else (bits x, 0)) else (bits x, 0)
/-- The rank of a value under ORD (R156): R50 with a NaN below all, or the key of R51. -/
def pairKey (f : Fmt) (ord : Bool) (v : Nat) : Int :=
  if fIsNan f v then (if ord then 0 else -(2 ^ (f.eb + f.fb) : Nat) - 1)
  else if ord then (if fIsZero f v then (2 ^ (f.eb + f.fb) : Nat) else fPlace f v + (2 ^ (f.eb + f.fb) : Nat))
  else fPlace f v

end Sys2Proof.Claims

/-! ### Vectors -/

/-- R26, R160, R161, R164, R317: what a firing with slot operands does instead of its arithmetic, shown for the lane-wise instructions on
lanes of TY. An operand whose buffer is not allocated, whose slot is outside it or empty, or that claims more lines than a slot has,
raises BUFFER; an expired slot raises STALE; a null or poisoned operand sends a null or poisoned reference of payload zero and writes
no slot; a destination that is not allocated raises BUFFER; a firing of live operands whose destination slot is full is not ready, so that it stays in
matching, and if it came to issue it would not take place. -/
def Sys2Proof.Claims.OperandSlotsAreChecked : Prop :=
  (∀ (s : State) (f : Firing) (a : Arg), (a.ref = none → s.argFault f a = none) ∧ ∀ b n, a.ref = some (b, n) →
    (s.buf f.e f.ctx b = none → ∃ i, s.argFault f a = some i ∧ i.code = 12) ∧
    ∀ x, s.buf f.e f.ctx b = some x →
      (x.depth ≤ n ∨ (x.slot n).full = false → ∃ i, s.argFault f a = some i ∧ i.code = 12) ∧
      (n < x.depth → (x.slot n).full = true → (x.slot n).exp = true → ∃ i, s.argFault f a = some i ∧ i.code = 4 ∧ i.acc = 0) ∧
      (n < x.depth → (x.slot n).full = true → (x.slot n).exp = false → x.size < a.lines → ∃ i, s.argFault f a = some i ∧ i.code = 12) ∧
      (n < x.depth → (x.slot n).full = true → (x.slot n).exp = false → a.lines ≤ x.size → s.argFault f a = none)) ∧
  (∀ (c : Ops → Instr), c ∈ ([.vadd, .vsub, .vmul, .vfma, .vmin, .vmax, .vabs, .vexp2, .vlog2, .vrcp, .vrsq, .vcmpEq, .vcmpNe, .vcmpLt, .vcmpLe,
      .vcmpGt, .vcmpGe, .vcmpUn] : List (Ops → Instr)) → ∀ (o : Ops) (s : State) (f : Firing), s.focus = .node f →
    let args := s.vargs f o o.ty o.ty o.ty
    (∀ i, s.argsFault f args = some i → exec (c o) s = .next (s.faultFiring f i)) ∧
    (s.argsFault f args = none → sbDead (argsSb args) = true → Ends (c o) s fun s' =>
      s'.fab.units = s.fab.units ++ [⟨f.e, f.ctx, f.slot, f.tag, s.unitFree f.e 1 + vecCycles (tyBits o.ty) (argLines args), 1, none,
        both o ⟨0, argsSb args, .ref, 0, none, f.tag, []⟩, none, releases args, []⟩] ∧
      s'.mem = s.mem ∧ s'.stew = s.stew ∧ s'.fab.tokens = s.fab.tokens ∧ ∀ b, s'.buf f.e f.ctx b = s.buf f.e f.ctx b) ∧
    (Readable s f args → s.buf f.e f.ctx (o.imm.toNat % 32) = none → ∃ i, i.code = 12 ∧ i.tag = f.tag ∧ exec (c o) s = .next (s.faultFiring f i))) ∧
  ∀ (c : Ops → Instr), c ∈ ([.vadd, .vsub, .vmul, .vfma, .vmin, .vmax, .vabs, .vexp2, .vlog2, .vrcp, .vrsq, .vcvt, .vqnt, .vdqnt, .vcmpEq, .vcmpNe,
      .vcmpLt, .vcmpLe, .vcmpGt, .vcmpGe, .vcmpUn, .vsel, .vscanSum, .vscanMin, .vscanMax, .vnoise, .vbcast, .vperm] : List (Ops → Instr)) →
    ∀ (o : Ops) (s : State) (e : Nat) (x : Cand) (f : Firing) (toks : List Token) (b : Buf) (g : Sig), x.pick = .fire f toks →
      decode f.word = .ok (c o) → sig (c o) = some g → ({ s with focus := .node f } : State).deadOperand f g = false →
      s.buf f.e f.ctx (o.imm.toNat % 32) = some b → (b.slot b.widx).full = true → s.ready e x = false

/-- R158, R159, R166 to R169, Table 5.6: the lane-wise instructions. Integer lanes keep the low bits, or clamp under SAT with OF; float
lanes follow the scalar instruction of the same name; VCMP gives u8 lanes of 0 or 1, and VSEL chooses by bit 0 of the lane of A. -/
def Sys2Proof.Claims.VectorLanes : Prop :=
  let arith := fun (fp : Fmt → Nat → Bool → Nat → Nat → Nat × BitVec 8) (int : Int → Int → Int) (o : Ops) (a b _c : Nat) =>
    if isFp o.ty then fp (fmtOf o.ty) (rmOf' o) (satOf' o) a b else intLane' o.ty (satOf' o) (int (laneInt o.ty a) (laneInt o.ty b))
  let un := fun (g : Fmt → Nat → Bool → Nat → Nat × BitVec 8) (o : Ops) (a _b _c : Nat) => g (fmtOf o.ty) (rmOf' o) (satOf' o) a
  let cmp := fun (r : FRel) (int : Int → Int → Bool) (o : Ops) (a b _c : Nat) =>
    ((if (if isFp o.ty then fCmp (fmtOf o.ty) r a b else int (laneInt o.ty a) (laneInt o.ty b)) then 1 else 0), (0 : BitVec 8))
  LaneSame .vadd (arith fAdd fun x y => x + y) ∧
  LaneSame .vsub (arith fSub fun x y => x - y) ∧
  LaneSame .vmul (arith fMul fun x y => x * y) ∧
  LaneSame .vfma (fun o a b c => fFma (fmtOf o.ty) (rmOf' o) (satOf' o) a b c) ∧
  LaneSame .vmin (fun o a b _ => (if isFp o.ty then fMinMax (fmtOf o.ty) false a b else if laneInt o.ty b < laneInt o.ty a then b else a, 0)) ∧
  LaneSame .vmax (fun o a b _ => (if isFp o.ty then fMinMax (fmtOf o.ty) true a b else if laneInt o.ty a < laneInt o.ty b then b else a, 0)) ∧
  LaneSame .vabs (fun o a _ _ => if isFp o.ty then (fAbs (fmtOf o.ty) a, 0) else intLane' o.ty false (laneInt o.ty a).natAbs) ∧
  LaneSame .vexp2 (un fExp2) ∧ LaneSame .vlog2 (un fLog2) ∧ LaneSame .vrcp (un fRcp) ∧ LaneSame .vrsq (un fRsq) ∧
  (let src : Ops → Ty := fun o => tyOf (o.imm.extractLsb' 8 4)
   LaneWise .vcvt src Ops.ty Ops.ty Ops.ty fun o a _ _ =>
    let r := fCvt (src o) o.ty (rmOf' o) (satOf' o) (BitVec.ofNat 64 a); (r.1.toNat % 2 ^ tyBits o.ty, r.2)) ∧
  (let u8 : Ops → Ty := fun _ => .u8
   LaneWise .vcmpEq Ops.ty Ops.ty Ops.ty u8 (cmp .eq fun x y => x == y) ∧
   LaneWise .vcmpNe Ops.ty Ops.ty Ops.ty u8 (cmp .ne fun x y => x != y) ∧
   LaneWise .vcmpLt Ops.ty Ops.ty Ops.ty u8 (cmp .lt fun x y => decide (x < y)) ∧
   LaneWise .vcmpLe Ops.ty Ops.ty Ops.ty u8 (cmp .le fun x y => decide (x ≤ y)) ∧
   LaneWise .vcmpGt Ops.ty Ops.ty Ops.ty u8 (cmp .gt fun x y => decide (y < x)) ∧
   LaneWise .vcmpGe Ops.ty Ops.ty Ops.ty u8 (cmp .ge fun x y => decide (y ≤ x)) ∧
   LaneWise .vcmpUn Ops.ty Ops.ty Ops.ty u8 (cmp .un fun _ _ => false) ∧
   LaneWise .vsel u8 Ops.ty Ops.ty Ops.ty fun _ c a b => (if c % 2 = 1 then a else b, 0))

/-- R54 to R57, R66, R168, R171, R173, R174: VQNT and VDQNT with an FP16 scale in b and a zero point in c, the noise of VNOISE, the
prefix results of VSCAN, VBCAST and VPERM. VQNT of a NaN, or with a scale that is zero, infinite or a NaN, gives the zero point and IV, and of an infinity
the end of the range with OF. VPERM takes lane i from lane idx(i) of a, zero where a has no such lane; an index broadcast to every lane gives as many
lanes as a has (log entry 21). -/
def Sys2Proof.Claims.VectorQuantScanPermute : Prop :=
  let src : Ops → Ty := fun o => tyOf (o.imm.extractLsb' 8 4)
  LaneScalars .vqnt src (fun o _ _ b c _ x =>
    let top := 2 ^ tyBits o.ty - 1
    quantise ((fmtOf (src o)).read x) (fmtF16.read b) (c % (top + 1)) top) ∧
  LaneScalars .vdqnt src (fun o _ _ b c _ q =>
    (fmtOf o.ty).fin (rmOf' o) (satOf' o) (mulFp (fmtF16.read b) (fpOfInt false ((q : Int) - (c % 2 ^ tyBits (src o) : Nat)) 0))) ∧
  LaneScalars .vnoise Ops.ty (fun o s f b c i x =>
    laneNoise o x (gumbel (s.colour (tagCol f.tag)).seed (b % 2 ^ 32) ((c % 2 ^ 32 + i) % 2 ^ 32))) ∧
  (∀ (n g : Bool) (m : Nat) (e : Int) (k : Nat) (h : Int) (z top : Nat), k ≠ 0 →
    let u : Nat := m * 2 ^ (e - h).toNat
    let d : Nat := k * 2 ^ (h - e).toNat
    ∃ q : Nat, 2 * ((u - q * d) + (q * d - u)) ≤ d ∧ (2 * ((u - q * d) + (q * d - u)) = d → q % 2 = 0) ∧
      let t : Int := (if n ^^ g then -(q : Int) else q) + z
      let ix : BitVec 8 := if u = q * d then 0 else 0x01
      quantise (.fin n m e) (.fin g k h) z top =
        if t < 0 then (0, 0x04 ||| ix) else if (top : Int) < t then (top, 0x04 ||| ix) else (t.toNat, ix)) ∧
  (∀ (x y : Fp) (n g : Bool) (m : Nat) (h : Int) (z top : Nat),
    quantise .nan y z top = (z, 0x10) ∧ quantise x .nan z top = (z, 0x10) ∧ quantise x (.inf g) z top = (z, 0x10) ∧
    quantise x (.fin g 0 h) z top = (z, 0x10) ∧ (m ≠ 0 → quantise (.inf n) (.fin g m h) z top = (if n ^^ g then 0 else top, 0x04))) ∧
  (∀ (r : Red) (c : Ops → Instr), (c, r) ∈ ([(.vscanSum, .sum), (.vscanMin, .min), (.vscanMax, .max)] : List ((Ops → Instr) × Red)) →
    ∀ (o : Ops) (s : State) (f : Firing) (la : List Nat), s.focus = .node f →
      let a := s.arg f o.ty o.a (o.imm.getLsbD 5)
      a.lanes o.ty (a.count o.ty) = some la →
      Writes (c o) o s f [a] (tyBits o.ty) 8
        (lanesOf o.ty ((List.range la.length).map fun i => reduce o.ty r (rmOf' o) (satOf' o) (la.take (i + 1))))) ∧
  (∀ (o : Ops) (s : State) (f : Firing) (b : Buf), s.focus = .node f → s.buf f.e f.ctx (o.imm.toNat % 32) = some b →
    let x := s.opVal o.ty o.imm o.a
    let l := s.opVal .u32 o.imm o.b
    let n := l.v.toNat % 2 ^ 32
    0 < n → n ≤ b.size →
    Writes (.vbcast o) o s f [scalarArg x, scalarArg l] (tyBits o.ty) 0
      (lanesOf o.ty (List.replicate (n * 512 / tyBits o.ty) (x.v.toNat % 2 ^ tyBits o.ty, 0)))) ∧
  ∀ (o : Ops) (s : State) (f : Firing) (idx src : List Nat), s.focus = .node f →
    let a := s.arg f o.ty o.a (o.imm.getLsbD 5)
    let x := s.arg f .u32 o.b (o.imm.getLsbD 6)
    let n := if x.ref.isSome then x.count .u32 else a.count o.ty
    a.ref.isSome = true → a.lanes o.ty (a.count o.ty) = some src →
    (x.ref.isSome = true → x.lanes .u32 n = some idx) → (x.ref = none → idx = List.replicate n (x.val.toNat % 2 ^ 32)) →
    Writes (.vperm o) o s f [a, x] (tyBits o.ty) 0 (lanesOf o.ty (idx.map fun i => (if i < src.length then nth 0 src i else 0, 0)))

/-- R170, R172, R189: the vector instructions that send a scalar. The sum of integer lanes is exact before it is narrowed; a minimum or
maximum is that of VMIN or VMAX over the lanes; VMAXI sends the pair that ranks highest, ties to the lower index; RACE sends the indices
of the m first lanes that rank best, best first and ties to the lower index, at most K of them, with their count in bits 63:48. -/
def Sys2Proof.Claims.VectorReductions : Prop :=
  (∀ (r : Red) (c : Ops → Instr), (c, r) ∈ ([(.vredSum, .sum), (.vredMin, .min), (.vredMax, .max)] : List ((Ops → Instr) × Red)) →
    ∀ (o : Ops) (s : State) (f : Firing) (la : List Nat), s.focus = .node f →
      let a := s.arg f o.ty o.a (o.imm.getLsbD 5)
      a.lanes o.ty (a.count o.ty) = some la →
      let x := reduce o.ty r (rmOf' o) (satOf' o) la
      Answers (c o) o s f [a] (vecCycles (tyBits o.ty) (argLines [a]) + 8) (tyExtend o.ty x.1, x.2)) ∧
  (∀ (ty : Ty) (rm : Nat) (sat : Bool) (la : List Nat), isFp ty = false →
    reduce ty .sum rm sat la = intLane' ty sat (la.map (laneInt ty)).sum ∧
    ∀ v, v ∈ la → (laneInt ty (reduce ty .min rm sat la).1 ≤ laneInt ty v ∧ laneInt ty v ≤ laneInt ty (reduce ty .max rm sat la).1 ∧
      (reduce ty .min rm sat la).1 ∈ la ∧ (reduce ty .max rm sat la).1 ∈ la)) ∧
  (∀ (o : Ops) (s : State) (f : Firing) (la : List Nat), s.focus = .node f → isFp o.ty = true →
    let a := s.arg f o.ty o.a (o.imm.getLsbD 5)
    let b := s.opVal .u32 o.imm o.b
    let fm := fmtOf o.ty
    let idx : Nat → Nat := fun i => (b.v.toNat + i) % 2 ^ 32
    let key : Nat → Int := fun i => pairKey fm (o.imm.getLsbD 12) (nth 0 la i)
    a.lanes o.ty (a.count o.ty) = some la → la ≠ [] →
    ∃ i, i < la.length ∧ (∀ j, j < la.length → key j < key i ∨ (key j = key i ∧ idx i ≤ idx j)) ∧
      Answers (.vmaxi o) o s f [a, scalarArg b] (vecCycles (tyBits o.ty) (argLines [a, scalarArg b]) + 8)
        (BitVec.ofNat 64 (idx i * 2 ^ 32 + if fIsNan fm (nth 0 la i) then fm.nan else nth 0 la i), 0)) ∧
  ∀ (o : Ops) (s : State) (f : Firing), s.focus = .node f →
    let a := s.arg f .bf16 o.a (o.imm.getLsbD 5)
    let b := s.opVal .u32 o.imm o.b
    let m := b.v.toNat % 2 ^ 32
    let k := o.imm.toNat / 256 % 16
    let lane : Nat → Nat := fun i => nth 0 (laneList 16 m a.bytes) i
    let better : Nat → Nat → Prop := fun i j => rankKey fmtBf16 (lane j) < rankKey fmtBf16 (lane i) ∨ (rankKey fmtBf16 (lane j) = rankKey fmtBf16 (lane i) ∧ i < j)
    1 ≤ m → m ≤ 64 → m ≤ a.lines * 32 → a.ref.isSome = true → k ≤ 8 →
    ∃ l : List Nat, l.length = min k m ∧ l.Nodup ∧ (∀ i ∈ l, i < m) ∧ l.Pairwise better ∧ (∀ j, j < m → j ∉ l → ∀ i ∈ l, better i j) ∧
      Answers (.race o) o s f [a, scalarArg b] 17 (BitVec.ofNat 64 (l.foldr (fun i n => i + 64 * n) 0 + l.length * 2 ^ 48), 0)

namespace Sys2Proof.Claims

/-- A tile operand whose slot holds a header; its elements in row-major order (R32). -/
def TileIn (a : Arg) (rows cols fmt : Nat) : Prop := a.slot.hv = true ∧ hNrow a.slot.hdr + 1 = rows ∧ hNcol a.slot.hdr + 1 = cols ∧ hFmt a.slot.hdr = fmt
/-- Element (i, j) of a tile operand. -/
def elemAt (a : Arg) (i j : Nat) : Nat := nth 0 (tileElems a.slot.hdr a.bytes) (i * (hNcol a.slot.hdr + 1) + j)
/-- All (row, column) places of a shape, row by row. -/
def places (rows cols : Nat) : List (Nat × Nat) := (List.range rows).flatMap fun i => (List.range cols).map fun j => (i, j)
/-- A tile as what a slot is to hold: the header of R185 to R188 and the packed elements. -/
def tileOf (tcol trow rax scl grp fmt rows cols : Nat) (scale : BitVec 1024) (l : List (Nat × BitVec 8)) : SlotRes :=
  ⟨packLanes (fmtBits fmt) (l.map fun x => x.1), true, mkHdr tcol trow (fmtBeats fmt (rows - 1) (cols - 1)) (cols - 1) (rows - 1) rax scl grp fmt,
    scale, orAll (l.map fun x => x.2)⟩
/-- The vector unit holds a firing that sends `outs` and writes no slot; the operand slots it releases. -/
def UnitHolds (s s' : State) (f : Firing) (unit : Nat) (acc : Option Nat) (lat : Nat) (outs : List Out) (args : List Arg) : Prop :=
  s'.fab.units = s.fab.units ++ [⟨f.e, f.ctx, f.slot, f.tag, s.unitFree f.e unit + lat, unit, acc, outs, none, releases args, []⟩] ∧
  s'.mem = s.mem ∧ s'.stew = s.stew ∧ s'.parts = s.parts ∧ s'.fab.tokens = s.fab.tokens ∧ s'.focus = .thread 0
/-- Value (i, j) of DATA of an accumulator. -/
def dataAt (s : State) (f : Firing) (n i j : Nat) : Nat := nth 0 (nth [] (s.accData f.e f.ctx n) i) j
/-- The accumulator that C names exists in the element's bank (R278). -/
def AccThere (s : State) (f : Firing) (o : Ops) : Prop :=
  accExists (s.ctx f.e f.ctx).partwd (accOf o) = true ∧ partwdOk (s.ctx f.e f.ctx).partwd = true
/-- A firing into an accumulator is done issuing: the matrix unit holds it with KC for its targets, and the accumulator is `c`. -/
def Accumulates (s s' : State) (f : Firing) (o : Ops) (args : List Arg) (lat : Nat) (sb : BitVec 8) (c : Acc) : Prop :=
  UnitHolds s s' f 2 (some (accOf o)) lat (both o ⟨0, sb, .scalar, if sbDead sb then 0 else BitVec.ofNat 64 c.kc, none, f.tag, []⟩) args ∧
  tget Acc.reset (s'.ctx f.e f.ctx).accs (accOf o) = c

end Sys2Proof.Claims

/-! ### Tiles and accumulators -/

/-- R32, R185, R187, R188: TTRN exchanges rows and columns, TROW and TCOL, and RAX; TCVT converts each element; TREC computes a × h + x
with one rounding into the format of IMM; TRED reduces each row, or each column, of a. Each keeps the shape and the header fields that its
rule names. -/
def Sys2Proof.Claims.TileResults : Prop :=
  ∀ (o : Ops) (s : State) (f : Firing) (rows cols fmt : Nat), s.focus = .node f →
    let a := s.arg f .tile o.a (o.imm.getLsbD 5)
    let ha := a.slot.hdr
    let dst := o.imm.toNat / 256 % 16
    TileIn a rows cols fmt →
    Writes (.ttrn o) o s f [a] (fmtBits fmt) 0
      (tileOf (hTrow ha) (hTcol ha) (1 - hRax ha) (hScl ha) (hGrp ha) fmt cols rows a.slot.scale
        ((places cols rows).map fun p => (elemAt a p.2 p.1, 0))) ∧
    ((fmt < 3 ∨ fmt = 5) → (dst < 3 ∨ dst = 5) → Writes (.tcvt o) o s f [a] (fmtBits fmt) 0
      (tileOf (hTcol ha) (hTrow ha) (hRax ha) (hScl ha) (hGrp ha) dst rows cols a.slot.scale
        ((places rows cols).map fun p =>
          let r := fCvt (fmtTy fmt) (fmtTy dst) (rmOf' o) (satOf' o) (BitVec.ofNat 64 (elemAt a p.1 p.2)); (r.1.toNat % 2 ^ fmtBits dst, r.2)))) ∧
    (let r : Red := match o.imm.toNat / 4096 % 4 with | 0 => .sum | 1 => .max | _ => .min
     let red := fun l => tredOne fmt dst r o l
     ((fmt < 3 ∧ dst < 3) ∨ (fmt = 5 ∧ dst = 5)) →
     (o.imm.getLsbD 14 = false → Writes (.tred o) o s f [a] (fmtBits fmt) 0
       (tileOf (hTcol ha) (hTrow ha) (hRax ha) (hScl ha) (hGrp ha) dst rows 1 0
         ((List.range rows).map fun i => red ((List.range cols).map fun j => elemAt a i j)))) ∧
     (o.imm.getLsbD 14 = true → Writes (.tred o) o s f [a] (fmtBits fmt) 0
       (tileOf (hTcol ha) (hTrow ha) (hRax ha) (hScl ha) (hGrp ha) dst 1 cols 0
         ((List.range cols).map fun j => red ((List.range rows).map fun i => elemAt a i j))))) ∧
    (let h := s.arg f .tile o.b (o.imm.getLsbD 6)
     let x := s.arg f .tile o.c (o.imm.getLsbD 7)
     ∀ fh fx, TileIn h rows cols fh → TileIn x rows cols fx → fmt < 3 → fh < 3 → fx < 3 → dst < 3 →
       Writes (.trec o) o s f [a, h, x] (fmtBits dst) 0
         (tileOf (hTcol x.slot.hdr) (hTrow x.slot.hdr) (hRax x.slot.hdr) (hScl x.slot.hdr) (hGrp x.slot.hdr) dst rows cols 0
           ((places rows cols).map fun p => recStep (fmtOf (fmtTy dst)) (rmOf' o) (satOf' o) ((fmtOf (fmtTy fmt)).read (elemAt a p.1 p.2))
             ((fmtOf (fmtTy fh)).read (elemAt h p.1 p.2)) ((fmtOf (fmtTy fx)).read (elemAt x p.1 p.2)))))

/-- R186, R162, R31, R34: THDR writes the header that the word b describes, and the scale block of c when it names one, into the slot of a,
which it does not read and never releases, and sends a reference to it; a word that breaks the header's rules raises BUFFER. With a null or poisoned
operand it writes nothing, sends a null or poisoned reference and releases its slots (R164). -/
def Sys2Proof.Claims.ThdrWritesAHeader : Prop :=
  ∀ (o : Ops) (s : State) (f : Firing) (b : Buf), s.focus = .node f →
    let a := { s.arg f .tile o.a true with sb := (s.opVal .x64 o.imm o.a).sb }
    let w := s.opVal .x64 o.imm o.b
    let c := s.arg f .tile o.c (o.imm.getLsbD 7)
    let scl : Bool := o.c != .none
    let args := if scl then [a, scalarArg w, c] else [a, scalarArg w]
    let fmt := w.v.toNat / 2 ^ 42 % 16
    let grp := w.v.toNat / 2 ^ 46 % 4
    let nrow := w.v.toNat / 2 ^ 32 % 32
    let ncol := w.v.toNat / 2 ^ 37 % 32
    let quantised : Prop := fmt = 3 ∨ fmt = 4
    let good : Prop := w.v.toNat / 2 ^ 49 = 0 ∧ fmt ≤ 6 ∧ (quantised → scl = true ∧ grp ≠ 0) ∧ (¬ quantised → scl = false ∧ grp = 0) ∧
      fmtBeats fmt nrow ncol ≤ a.lines
    (Readable s f args →
    (∀ bn n, a.ref = some (bn, n) → s.buf f.e f.ctx bn = some b → n < b.slots.length → good → (scl = true → 2 ≤ c.lines) →
      Ends (.thdr o) s fun s' =>
        UnitHolds s s' f 1 none (vecCycles (fmtBits fmt) (if scl then 2 else 0)) (both o ⟨0, argsSb args, .ref, mkRef bn n a.lines, none, f.tag, []⟩) args ∧
        ∃ q : Slot, s'.buf f.e f.ctx bn = some { b with slots := setNth b.slots n q } ∧ q.hv = true ∧ q.full = (b.slot n).full ∧
          q.stamp = (b.slot n).stamp ∧ hTrow q.hdr = w.v.toNat % 65536 ∧ hTcol q.hdr = w.v.toNat / 65536 % 65536 ∧ hNrow q.hdr = nrow ∧
          hNcol q.hdr = ncol ∧ hFmt q.hdr = fmt ∧ hGrp q.hdr = grp ∧ hRax q.hdr = w.v.toNat / 2 ^ 48 % 2 ∧ hScl q.hdr = (if scl then 1 else 0) ∧
          hBeats q.hdr = fmtBeats fmt nrow ncol % 128 ∧
          q.scale = (if scl then BitVec.ofNat 1024 (ofBytes (c.bytes.take 128)) else (b.slot n).scale)) ∧
    (¬ good → ∃ i, i.code = 12 ∧ exec (.thdr o) s = .next (s.faultFiring f i))) ∧
    (s.argsFault f args = none → sbDead (argsSb args) = true → Ends (.thdr o) s fun s' =>
      UnitHolds s s' f 1 none (vecCycles (fmtBits fmt) (if scl && c.ref.isSome then 2 else 0)) (both o ⟨0, argsSb args, .ref, 0, none, f.tag, []⟩)
        ({ a with hold := false } :: if scl then [c] else []) ∧ ∀ m, s'.buf f.e f.ctx m = s.buf f.e f.ctx m)

/-- R190: TSEND sends the tile of its slot as a packet: the header of the slot with the firing's tag, side-band, DBUF and DSLOT, which is
the iteration modulo the slots that IMM gives, the scale block when SCL is set, and the elements of the shape, padded with zero bits to
whole beats; a slot without a header raises
BUFFER, and a null or poisoned operand sends a packet without body. -/
def Sys2Proof.Claims.TsendSendsTiles : Prop :=
  ∀ (o : Ops) (s : State) (f : Firing), s.focus = .node f →
    let a := s.arg f .tile o.a (o.imm.getLsbD 5)
    let ha := a.slot.hdr
    let beats := fmtBeats (hFmt ha) (hNrow ha) (hNcol ha)
    let out : TilePkt → Out := fun p => ⟨0, a.sb, .tile, 0, some p, f.tag, []⟩
    let addressed : BitVec 256 → Prop := fun h => hTag h = tagClean f.tag ∧ hSb h = a.sb ∧ hDbuf h = o.imm.toNat % 32 ∧
      hDslot h = tagIter f.tag % (o.imm.toNat / 64 % 16 + 1)
    s.argsFault f [a] = none →
    (sbDead a.sb = false → a.slot.hv = true → a.ref.isSome = true → Ends (.tsend o) s fun s' => ∃ p : TilePkt,
      UnitHolds s s' f 1 none (vecCycles (fmtBits (hFmt ha)) a.lines) (both o (out p)) [a] ∧ addressed p.hdr ∧
      hTrow p.hdr = hTrow ha ∧ hTcol p.hdr = hTcol ha ∧ hNrow p.hdr = hNrow ha ∧ hNcol p.hdr = hNcol ha ∧ hFmt p.hdr = hFmt ha ∧
      hGrp p.hdr = hGrp ha ∧ hRax p.hdr = hRax ha ∧ hScl p.hdr = hScl ha ∧ hBeats p.hdr = beats % 128 ∧
      p.scale = (if hScl ha = 1 then a.slot.scale else 0) ∧ p.body.length = 64 * beats ∧
      ofBytes p.body = ofBytes a.bytes % 2 ^ ((hNrow ha + 1) * (hNcol ha + 1) * fmtBits (hFmt ha))) ∧
    (sbDead a.sb = false → a.slot.hv = false → ∃ i, i.code = 12 ∧ exec (.tsend o) s = .next (s.faultFiring f i)) ∧
    (sbDead a.sb = true → Ends (.tsend o) s fun s' => ∃ p : TilePkt,
      UnitHolds s s' f 1 none (vecCycles 32 (argLines [a])) (both o (out p)) [a] ∧ addressed p.hdr ∧ p.body = [])

/-- R176, R177, R180, R183, R191: TCLR takes the accumulator for its tag, with KC from IMM and every value +0; TACC adds a tile of its own
shape, integers modulo 2^32 and floats with one rounding to f32; neither takes place while the matrix queue has no room or the accumulator
is another tag's. Each first completes an open group (`GroupsClose`), TACC also under a null or poisoned operand, which adds nothing (log entry 48). -/
def Sys2Proof.Claims.AccumulatorsClearAndAdd : Prop :=
  ∀ (o : Ops) (s : State) (f : Firing), s.focus = .node f →
    let n := accOf o
    let c := s.acc f.e f.ctx n
    let t := s.opVal .x64 o.imm o.a
    let a := s.arg f .tile o.a (o.imm.getLsbD 5)
    let rows := hNrow a.slot.hdr + 1
    let cols := hNcol a.slot.hdr + 1
    let fmt := hFmt a.slot.hdr
    let mine : Prop := ∃ w, c.owner = some w ∧ tagEq w f.tag = true
    let x := closeGroup c (s.accData f.e f.ctx n) (satOf' o)
    let before : Nat → Nat → Nat := fun i j => nth 0 (nth [] x.2.1 i) j
    AccThere s f o →
    ((c.owner = none ∨ mine) → s.matrixRoom f.e = true → t.sb < 0x80#8 → Ends (.tclr o) s fun s' =>
      Accumulates s s' f o [scalarArg t] 4 ((t.sb ||| x.2.2) &&& 0x7F)
        { owner := some (tagClean f.tag), kc := o.imm.toNat, shape := none, mode := .unset, gleft := 0, partials := [], ascale := 0, bscale := 0,
          idx := c.idx, asb := t.sb } ∧
      ∀ i j, i < 32 → j < 32 → dataAt s' f n i j = 0) ∧
    (¬ mine → c.owner ≠ none → exec (.tclr o) s = .next (s.unfire f)) ∧
    (s.matrixRoom f.e = false → exec (.tclr o) s = .next (s.unfire f) ∧ exec (.tacc o) s = .next (s.unfire f)) ∧
    (¬ mine → exec (.tacc o) s = .next (s.unfire f)) ∧
    (mine → s.matrixRoom f.e = true → Readable s f [a] → a.slot.hv = true → (fmt < 3 ∨ fmt = 5) →
      (c.mode = .unset ∨ c.mode = (if fmt = 5 then AMode.integer else AMode.float)) → (c.shape = none ∨ c.shape = some (rows, cols)) →
      let sum : Nat → Nat → Nat × BitVec 8 := fun i j =>
        if fmt = 5 then ((before i j + elemAt a i j) % 2 ^ 32, 0)
        else fmtF32.fin 0 (satOf' o) (addFp 0 (fmtF32.read (before i j)) ((fmtOf (fmtTy fmt)).read (elemAt a i j)))
      let raised := orAll ((places rows cols).map fun p => (sum p.1 p.2).2) ||| x.2.2
      Ends (.tacc o) s fun s' =>
        Accumulates s s' f o [a] 4 (a.sb ||| raised)
          { x.1 with mode := (if fmt = 5 then .integer else .float), shape := some (rows, cols), asb := (c.asb ||| (a.sb ||| raised)) &&& 0x7F } ∧
        ∀ i j, i < 32 → j < 32 → dataAt s' f n i j = if i < rows ∧ j < cols then (sum i j).1 else before i j) ∧
    (mine → s.matrixRoom f.e = true → s.argsFault f [a] = none → sbDead a.sb = true →
      let sb := (a.sb ||| x.2.2) &&& 0x7F
      Ends (.tacc o) s fun s' => Accumulates s s' f o [a] 4 sb { x.1 with asb := (c.asb ||| sb) &&& 0x7F } ∧
        ∀ i j, i < 32 → j < 32 → dataAt s' f n i j = before i j)

/-- R58 to R63, R177, R181, R182: the products. A product waits for room, for its owner and for TCOL to be KC; readable operands that fit
the accumulator's mode and shape give every output the block sum of TMMA, with q8 and q4 weights dequantised (R63), or the exact partial of TMMQ, and
KC rises by one. TMMA and the tile that opens a group of TMMQ first complete an open group (`GroupsClose`); a tile of TMMQ that goes on needs an open
group of its own scales, else it raises BUFFER, and the last tile of a group, or the only one, completes it. -/
def Sys2Proof.Claims.ProductsAccumulate : Prop :=
  ∀ (o : Ops) (s : State) (f : Firing), s.focus = .node f →
    let n := accOf o
    let c := s.acc f.e f.ctx n
    let a := s.arg f .tile o.a (o.imm.getLsbD 5)
    let b := s.arg f .tile o.b (o.imm.getLsbD 6)
    let ha := a.slot.hdr
    let hb := b.slot.hdr
    let rows := hNrow ha + 1
    let cols := hNcol hb + 1
    let k := hNcol ha + 1
    let next : Acc → BitVec 8 → Acc := fun c' sb => { c' with
      kc := (c.kc + 1) % 65536, idx := (hTrow ha, hTcol hb), shape := some (rows, cols), asb := (c.asb ||| sb) &&& 0x7F }
    let fits : Prop := hNcol ha = hNrow hb ∧ hTcol ha = hTrow hb ∧ (c.shape = none ∨ c.shape = some (rows, cols))
    let x0 := closeGroup c (s.accData f.e f.ctx n) (satOf' o)
    let before : Nat → Nat → Nat := fun i j => nth 0 (nth [] x0.2.1 i) j
    let ready : Prop := Readable s f [a, b] ∧ sbDead c.asb = false ∧ a.slot.hv = true ∧ b.slot.hv = true ∧ c.ownedBy f.tag = true ∧
      hTcol ha = c.kc ∧ s.matrixRoom f.e = true
    AccThere s f o →
    (c.ownedBy f.tag = false ∨ s.matrixRoom f.e = false → exec (.tmma o) s = .next (s.unfire f) ∧ exec (.tmmq o) s = .next (s.unfire f)) ∧
    (Readable s f [a, b] → sbDead c.asb = false → a.slot.hv = true → hTcol ha ≠ c.kc →
      exec (.tmma o) s = .next (s.unfire f) ∧ exec (.tmmq o) s = .next (s.unfire f)) ∧
    (ready → ¬ fits → ∃ i, i.code = 12 ∧ exec (.tmma o) s = .next (s.faultFiring f i) ∧ exec (.tmmq o) s = .next (s.faultFiring f i)) ∧
    (ready → fits → hFmt ha = 6 → hFmt hb = 6 → (c.mode = .unset ∨ c.mode = .integer) → Ends (.tmma o) s fun s' =>
      Accumulates s s' f o [a, b] 16 (argsSb [a, b] ||| x0.2.2) (next { x0.1 with mode := .integer } (argsSb [a, b] ||| x0.2.2)) ∧
      ∀ i j, i < 32 → j < 32 → dataAt s' f n i j = if i < rows ∧ j < cols
        then wrapInt 32 ((before i j : Int) + ((List.range k).map fun x => sval 8 (elemAt a i x) * sval 8 (elemAt b x j)).sum)
        else before i j) ∧
    (ready → fits → hFmt ha < 3 → (hFmt hb < 3 ∨ ((hFmt hb = 3 ∨ hFmt hb = 4) ∧ hRax hb = 1)) → (c.mode = .unset ∨ c.mode = .float) →
      let weight : Nat → Nat → Fp × BitVec 8 := fun x j => if hFmt hb < 3 then ((fmtOf (fmtTy (hFmt hb))).read (elemAt b x j), 0)
        else mulFp (fmtF16.read (scaleOf b.slot.scale j)) (fpOfInt false ((elemAt b x j : Int) - zeroOf b.slot.scale j) 0)
      let block : Nat → Nat → Fp × BitVec 8 := fun i j => (Dot.none.addAll ((List.range k).map fun x => (fmtOf (fmtTy (hFmt ha))).read (elemAt a i x))
        ((List.range k).map fun x => (weight x j).1)).val k
      let out : Nat → Nat → Nat × BitVec 8 := fun i j =>
        let r := fmtF32.fin 0 (satOf' o) (addFp 0 (fmtF32.read (before i j)) (block i j).1); (r.1, r.2 ||| (block i j).2)
      let sb := argsSb [a, b] ||| orAll ((places rows cols).map fun p => (out p.1 p.2).2) ||| orAll ((places k cols).map fun p => (weight p.1 p.2).2) ||| x0.2.2
      Ends (.tmma o) s fun s' =>
        Accumulates s s' f o [a, b] (if hFmt ha = 0 ∨ hFmt hb = 0 then 128 else 32) sb (next { x0.1 with mode := .float } sb) ∧
        ∀ i j, i < 32 → j < 32 → dataAt s' f n i j = if i < rows ∧ j < cols then (out i j).1 else before i j) ∧
    (ready → fits → (hFmt ha = 3 ∨ hFmt ha = 4) → hFmt hb = hFmt ha → hRax ha = 0 → hRax hb = 1 → 1 ≤ hGrp ha → hGrp hb = hGrp ha →
      (c.mode = .unset ∨ c.mode = .float) →
      let g := groupTiles (hGrp ha)
      let r := hTcol ha
      let opens : Bool := r % g == 0
      let goesOn : Bool := c.gleft != 0 && a.slot.scale == c.ascale && b.slot.scale == c.bscale
      let part : Nat → Nat → Int := fun i j => ((List.range k).map fun x =>
        ((elemAt a i x : Int) - zeroOf a.slot.scale i) * ((elemAt b x j : Int) - zeroOf b.slot.scale j)).sum
      (opens = false → goesOn = false → ∃ i, i.code = 12 ∧ exec (.tmmq o) s = .next (s.faultFiring f i)) ∧
      (opens = true ∨ goesOn = true → ∃ l : List Int,
        (∀ i j, i < rows → j < cols → nth 0 l (32 * i + j) = (if opens then 0 else nth 0 c.partials (32 * i + j)) + part i j) ∧
        let z := if opens then x0 else (c, s.accData f.e f.ctx n, 0)
        let c1 : Acc := { z.1 with mode := .float, shape := some (rows, cols), partials := l, ascale := a.slot.scale, bscale := b.slot.scale, gleft := g - r % g }
        let y := if (r + 1) % g = 0 then closeGroup c1 z.2.1 (satOf' o) else ({ c1 with gleft := g - r % g - 1 }, z.2.1, 0)
        let sb := argsSb [a, b] ||| z.2.2 ||| y.2.2
        Ends (.tmmq o) s fun s' => Accumulates s s' f o [a, b] (if hFmt ha = 3 then 16 else 8) sb (next y.1 sb) ∧
          ∀ i j, i < 32 → j < 32 → dataAt s' f n i j = nth 0 (nth [] y.2.1 i) j))

/-- R61, R62: an open group that completes adds, to each output within the shape, its exact partial times the product of the two scales,
each rounded to f32, and closes the group; no other value of DATA changes. -/
def Sys2Proof.Claims.GroupsClose : Prop :=
  ∀ (a : Acc) (d : List (List Nat)) (sat : Bool) (rows cols : Nat), a.gleft ≠ 0 → a.shape = some (rows, cols) →
    d.length = 32 → (∀ r ∈ d, r.length = 32) → rows ≤ 32 → cols ≤ 32 →
    let x := closeGroup a d sat
    x.1.gleft = 0 ∧ x.1.partials = [] ∧ x.1.asb = a.asb ||| x.2.2 ∧ x.1.owner = a.owner ∧ x.1.kc = a.kc ∧ x.1.shape = a.shape ∧ x.1.mode = a.mode ∧
    ∀ i j, i < 32 → j < 32 → nth 0 (nth [] x.2.1 i) j =
      if i < rows ∧ j < cols then
        let w := (fmtF32.fin 0 false (mulFp (fmtF16.read (scaleOf a.ascale i)) (fmtF16.read (scaleOf a.bscale j)))).1
        let q := (fmtF32.fin 0 sat (mulFp (fpOfInt false (nth 0 a.partials (32 * i + j)) 0) (fmtF32.read w))).1
        (fmtF32.fin 0 sat (addFp 0 (fmtF32.read (nth 0 (nth [] d i) j)) (fmtF32.read q))).1
      else nth 0 (nth [] d i) j

/-- R184: TDRAIN waits until the accumulator is its tag's, no firing for it is in the matrix unit and its destination slot is empty; it
then completes an open group, writes the accumulator's values as a tile of the format of IMM, and releases the accumulator when IMM says so. Shown
for an accumulator with a shape. -/
def Sys2Proof.Claims.TdrainWritesTheTile : Prop :=
  ∀ (o : Ops) (s : State) (f : Firing) (rows cols : Nat), s.focus = .node f →
    let n := accOf o
    let c := s.acc f.e f.ctx n
    let t := s.opVal .x64 o.imm o.a
    let fmt := o.imm.toNat / 256 % 16
    let conv : Nat → Nat × BitVec 8 := fun v => if fmt = 5 then (v, 0) else fpConv fmtF32 (fmtOf (fmtTy fmt)) (rmOf' o) (satOf' o) v
    let x := closeGroup c (s.accData f.e f.ctx n) (satOf' o)
    let res := tileOf c.idx.2 c.idx.1 0 0 0 fmt rows cols 0 ((places rows cols).map fun p => conv (nth 0 (nth [] x.2.1 p.1) p.2))
    (c.ownedBy f.tag = false ∨ s.matrixBusy f.e f.ctx n = true → exec (.tdrain o) s = .next (s.unfire f)) ∧
    (∀ b, c.ownedBy f.tag = true → s.matrixBusy f.e f.ctx n = false → sbDead (c.asb ||| t.sb) = false → s.buf f.e f.ctx (o.imm.toNat % 32) = some b →
      (b.slot b.widx).full = true → exec (.tdrain o) s = .next (s.unfire f)) ∧
    (c.ownedBy f.tag = true → s.matrixBusy f.e f.ctx n = false → c.shape = some (rows, cols) → 1 ≤ rows → 1 ≤ cols →
      rows ≤ 32 → cols ≤ 32 → (if fmt = 5 then c.mode = .integer else fmt < 3 ∧ c.mode = .float) →
      sbDead t.sb = false → sbDead x.1.asb = false →
      ∀ b, DestFree s f o b → res.lines ≤ b.size → Ends (.tdrain o) s fun s' =>
        let sb := ((t.sb ||| x.1.asb) &&& 0x7F) ||| (res.bits &&& 0x1F)
        let m := o.imm.toNat % 32
        s'.fab.units = s.fab.units ++ [⟨f.e, f.ctx, f.slot, f.tag, s.unitFree f.e 1 + vecCycles (fmtBits fmt) res.lines, 1, none,
          both o ⟨0, sb, .ref, mkRef m b.widx res.lines, none, f.tag, []⟩,
          some ⟨m, b.widx, res.data, res.lines, res.hv, res.hdr, res.scale, o.fl.getLsbD 5⟩, [], []⟩] ∧
        (s'.acc f.e f.ctx n).owner = (if o.imm.getLsbD 5 then none else c.owner) ∧ s'.mem = s.mem ∧ s'.stew = s.stew ∧ s'.fab.tokens = s.fab.tokens)

namespace Sys2Proof.Claims

/-- The tokens of results that leave an element, or a port element, the i-th of them `lag` + i cycles from now (R269). -/
def sent (s : State) (port : Option Nat) (e ctx lag : Nat) (outs : List Out) : List Token :=
  (outs.zipIdx lag).filterMap fun x => s.tokenFrom port e ctx x.2 x.1
/-- The word of the AGEN that IMM names, and the port that its T0 names. -/
def agenWord (s : State) (f : Firing) (o : Ops) : SlotWord := (s.slotWord f.e f.ctx (o.imm.toNat % 128)).getD 0
/-- The shape record in the registers that an AGEN word names. -/
def recordAt (s : State) (f : Firing) (w : SlotWord) : Shape :=
  BitVec.ofNat 384 (ofBytes (mgetN (s.elem f.e).pool (regByte (s.ctx f.e f.ctx).partwd (nfld w 100 10)) 48))
/-- The port takes the k-th access in hand (R195, R352). -/
def PortTakes (s : State) (k : Nat) (a : Access) : Prop :=
  nth? s.port.accesses k = some a ∧ a.at_ < 100 ∧ a.held = false ∧ a.since ≤ s.cycle ∧ s.accessOpen a = true
/-- An access that is not null and not served by read-ahead has passed every check of R200: its address `pa` in the space of its port, the
address `ad` that a later fault would name, its key slot and translation; `s1` is the state with its view's start counted. -/
def Checked (s s1 : State) (a : Access) (ad pa key : Nat) (x : Option Xent) : Prop :=
  a.null = false ∧ s.aheadFor a = none ∧ ∃ (g : Agen) (addr va : Nat) (st : Option (Nat × Nat)),
    s.agenOf a.e a.ctx a.gslot (tagCol a.tag) = some g ∧
    let r := g.snap (((s.anyRound (tagCol a.tag) a.load (tagIter a.tag)).map fun q => q.rbase).getD 0)
    let part := (s.partOfElem a.e).getD 0
    accessAddr r g.region (tagIter a.tag) a.idx = .ok addr ∧
    s.viewStep part (s.colour (tagCol a.tag)).asid r addr a.started = .ok (some (s1, st, va)) ∧
    s1.spaceStep g r a.at_ part (tagCol a.tag) addr va a.kind.stores a.frame = .ok ad pa key x
/-- Bytes of an access. -/
def accSize (a : Access) : Nat := tyBits (wTy a.word) / 8
/-- The store buffer entry that a store of the access would make. -/
def Buffered (a : Access) (r : Round) (pa : Nat) (data : List Byte) (st : Store) : Prop :=
  st.pa = pa ∧ st.data = data ∧ st.port = a.at_ ∧ st.col = tagCol a.tag ∧ st.load = a.load ∧ st.rbase = r.rbase ∧ st.iter = tagIter a.tag ∧
  st.id = a.id ∧ st.replay = r.voided ∧ st.null = false

end Sys2Proof.Claims

/-! ### Memory access -/

/-- R197, R198: the working copy of an AGEN for a colour: the one that there is, or the 48 bytes of its registers when they make a
record that its words fit; a poisoned register line raises POISON (log entry 27), a bad record CONFIG. -/
def Sys2Proof.Claims.WorkingCopies : Prop :=
  ∀ (s : State) (f : Firing) (g : Nat) (sb : BitVec 8),
    let w := (s.slotWord f.e f.ctx g).getD 0
    let r := recordAt s f w
    let good : Prop := wOpc w = 0xB0 ∧ s.shapeOk f.e f.ctx w r = true ∧ s.nodesOk f.e f.ctx g r = true
    let bad := poolPoisoned (s.elem f.e) (regByte (s.ctx f.e f.ctx).partwd (nfld w 100 10)) 48
    (∀ a, s.agenOf f.e f.ctx g (tagCol f.tag) = some a → s.takeCopy f g sb = .ok (s, a)) ∧
    (s.agenOf f.e f.ctx g (tagCol f.tag) = none →
      (bad = true → ∃ i, s.takeCopy f g sb = .error i ∧ i.code = 6 ∧ i.agslot = g) ∧
      (bad = false → ¬ good → ∃ i, s.takeCopy f g sb = .error i ∧ i.code = 7 ∧ i.agslot = g) ∧
      (bad = false → good → ∃ s1 a, s.takeCopy f g sb = .ok (s1, a) ∧ a.copy = r ∧ a.region = none ∧ s1.agenOf f.e f.ctx g (tagCol f.tag) = some a ∧
        s1.mem = s.mem ∧ s1.fab = s.fab ∧ s1.stew = s.stew ∧ s1.port.accesses = s.port.accesses))

/-- R196, R198, R199, R202: an AGEN's start token opens a region of its iteration and payload, with read-ahead from that iteration, and what had
been read ahead before is discarded; a null one opens none, and a poisoned one raises POISON. Either instruction first takes and checks the working
copy of its colour, when there is none. PARAM replaces BASE or one extent of the working copy and sends its done token, a null or
poisoned value changes nothing, and a record that would break its rules raises CONFIG. -/
def Sys2Proof.Claims.AgenAndParam : Prop :=
  ∀ (o : Ops) (s : State) (f : Firing), s.focus = .node f →
    (∀ d, f.tok 0 = some d →
      (∀ i, s.takeCopy f f.slot d.sb = .error i → exec (.agen o) s = .next (s.faultFiring f i)) ∧
      (∀ s1 a, sbPZ d.sb = true → s.takeCopy f f.slot d.sb = .ok (s1, a) → ∃ i, i.code = 6 ∧ exec (.agen o) s = .next (s1.faultFiring f i)) ∧
      (∀ s1 a, sbPZ d.sb = false → s.takeCopy f f.slot d.sb = .ok (s1, a) →
        exec (.agen o) s = .next ((if sbNL d.sb then s1 else (s1.dropAhead fun h => h.of a).setAgen
          { a with region := some (tagIter f.tag, d.pay.toNat % 2 ^ 32), ra := tagIter f.tag, got := [] }).fire f o 1 [] d.sb))) ∧
    (let v := s.opVal .x64 o.imm o.a
     let n := o.imm.toNat / 128 % 8
     let g := o.imm.toNat % 128
     let done : List Out := both o ⟨0, v.sb, .scalar, 0, none, f.tag, f.hist⟩
     (∀ i, s.takeCopy f g v.sb = .error i → exec (.param o) s = .next (s.faultFiring f i)) ∧
     (∀ s1 a, sbDead v.sb = true → s.takeCopy f g v.sb = .ok (s1, a) → exec (.param o) s = .next (s1.fire f o 1 done v.sb)) ∧
     (∀ s1 a, sbDead v.sb = false → s.takeCopy f g v.sb = .ok (s1, a) → n ≤ 4 →
       ∃ r : Shape, (∀ i, r.getLsbD i = if n = 0 ∧ i < 64 then v.v.getLsbD i
           else if n ≠ 0 ∧ 64 + 64 * n ≤ i ∧ i < 96 + 64 * n then v.v.getLsbD (i - (64 + 64 * n)) else a.copy.getLsbD i) ∧
         (s1.shapeOk f.e f.ctx (agenWord s f o) r = true → exec (.param o) s = .next ((s1.setAgen { a with copy := r }).fire f o 1 done v.sb)) ∧
         (s1.shapeOk f.e f.ctx (agenWord s f o) r = false → ∃ i, i.code = 7 ∧ exec (.param o) s = .next (s1.faultFiring f i))))

/-- R193 to R195, R204 to R207: what an access node does at its element. A stream access waits for its AGEN's open region; a poisoned store
raises POISON; a null or poisoned load sends its results at once; every other access goes to the port of its AGEN, where it arrives after
its way, with its operands, and is counted as its operand tokens, or as its results where they are more. -/
def Sys2Proof.Claims.AccessNodesReachTheirPort : Prop :=
  ∀ (o : Ops) (s : State) (f : Firing), s.focus = .node f →
    let col := tagCol f.tag
    let g := o.imm.toNat % 128
    let p := wPort (agenWord s f o)
    let ch : Opnd → Option Token := fun x => if o.imm.getLsbD 7 then (match x with | .port n => f.tok n.toNat | _ => none) else none
    let none' : Val := ⟨0, 0⟩
    ∀ (i : Instr) (kind : AKind) (idx dat : Val) (chain : Option Token), (i, kind, idx, dat, chain) ∈ ([
        (.lds o, .lds, s.opVal .x64 o.imm o.a, none', ch o.b),
        (.sts o, .sts, none', s.opVal o.ty o.imm o.a, ch o.b),
        (.ldr o, .ldr, s.opVal .x64 o.imm o.a, none', ch o.b),
        (.str o, .str, s.opVal .x64 o.imm o.a, s.opVal o.ty o.imm o.b, ch o.c),
        (.updAdd o, .upd 0, s.opVal .x64 o.imm o.a, s.opVal o.ty o.imm o.b, ch o.c),
        (.updMin o, .upd 1, s.opVal .x64 o.imm o.a, s.opVal o.ty o.imm o.b, ch o.c),
        (.updMax o, .upd 2, s.opVal .x64 o.imm o.a, s.opVal o.ty o.imm o.b, ch o.c),
        (.updOr o, .upd 3, s.opVal .x64 o.imm o.a, s.opVal o.ty o.imm o.b, ch o.c),
        (.updAnd o, .upd 4, s.opVal .x64 o.imm o.a, s.opVal o.ty o.imm o.b, ch o.c),
        (.updXchg o, .upd 5, s.opVal .x64 o.imm o.a, s.opVal o.ty o.imm o.b, ch o.c),
        (.updCas o, .upd 6, s.opVal .x64 o.imm o.a, s.opVal .x64 o.imm o.b, ch o.c),
        (.acqld o, .acqld, s.opVal .x64 o.imm o.a, none', ch o.b),
        (.relst o, .relst, s.opVal .x64 o.imm o.a, s.opVal o.ty o.imm o.b, ch o.c)] : List (Instr × AKind × Val × Val × Option Token)) →
      let sb := (idx.sb ||| dat.sb) &&& 0x7F
      let stream : Prop := kind = .lds ∨ kind = .sts
      let region : Prop := ∃ a r, s.agenOf f.e f.ctx g col = some a ∧ a.region = some r
      let outs := accessOuts f.word ⟨0, sb, .scalar, 0, none, f.tag, []⟩ (chain.map fun t => chainOut f.tag t.sb t.hist)
      (stream → ¬ region → exec i s = .next (s.unfire f)) ∧
      ((stream → region) → sbPZ sb = true → kind.stores = true → ∃ n, n.code = 6 ∧ exec i s = .next (s.faultFiring f n)) ∧
      (∀ n, (stream → region) → (sbPZ sb = true → kind.stores = false) → s.takeCopy f g sb = .error n →
        ∃ m, m.code = n.code ∧ exec i s = .next (s.faultFiring f m)) ∧
      (∀ s1 ag, (stream → region) → s.takeCopy f g sb = .ok (s1, ag) →
        (sbDead sb = true → kind.stores = false → Ends i s fun s' =>
          s'.fab.units = issued s f 1 outs ∧ s'.mem = s.mem ∧ s'.stew = s.stew ∧ s'.fab.tokens = s.fab.tokens) ∧
        (sbDead sb = false ∨ (sbPZ sb = false ∧ kind.stores = true) → Ends i s fun s' => ∃ a : Access,
          s'.port.accesses = s.port.accesses ++ [a] ∧ a.kind = kind ∧ a.at_ = p ∧ a.e = f.e ∧ a.ctx = f.ctx ∧ a.slot = f.slot ∧ a.gslot = g ∧
          a.word = f.word ∧ a.tag = f.tag ∧ a.sb = sb ∧ a.idx = idx.v ∧ a.dat = dat.v ∧ a.null = sbNL sb ∧ a.chain = chain.map (fun t => t.sb) ∧
          a.since = s.cycle + 1 + s.toPort f.e p ∧ a.outs = max (f.ops.filter fun y => y.2.isSome).length (outs.filter fun x => (fabTarget x.target).isSome).length ∧
          a.dsb = dat.sb &&& 0x1F ∧ a.ops = f.ops ∧
          s'.fab.units = s.fab.units ∧ s'.mem = s.mem ∧ s'.stew = s.stew ∧ s'.fab.tokens = s.fab.tokens))

/-- R199, R200, R287, R329, R335, R378, R385: the address of an access and its checks. A stream access stands at START + age modulo 2^32, whose digits
in the extents give the strides to add to BASE; beyond the shape it raises CONFIG. A random access adds index × stride, and beyond the
extent raises PROTECTION. Then alignment, the size of a config access, the virtual range, the control windows of a partition, COV against VW, and write permission; a
peer that refuses the page answers with its CODE. A page in hand answers only for the addresses that it covers. An access whose check fails, or whose
page does not allow it (PROTECTION), is taken from its port, its operand tokens lie parked, and its fault is raised. -/
def Sys2Proof.Claims.AccessAddressesAndChecks : Prop :=
  (∀ (r : Shape) (start it0 it : Nat) (idx : Word) (ds : List Nat), shCls r = false → ds.length = shNdim r →
    (∀ d, d < shNdim r → nth 0 ds d < shE r d) →
    let base : Int := if shVw r then 0 else (shBase r : Int)
    let q := (start + age it0 it) % 2 ^ 32
    let horner : Nat := (ds.zipIdx).foldr (fun (x : Nat × Nat) n => x.1 + shE r x.2 * n) 0
    q = horner →
      accessAddr r (some (it0, start)) it idx = .ok ((base + ((ds.zipIdx).map fun (x : Nat × Nat) => (x.1 : Int) * shS r x.2).sum) % 2 ^ 64).toNat) ∧
  (∀ (r : Shape) (start it0 it : Nat) (idx : Word), shCls r = false → (∀ d, d < shNdim r → 0 < shE r d) →
    ((List.range (shNdim r)).map (shE r)).prod ≤ (start + age it0 it) % 2 ^ 32 → accessAddr r (some (it0, start)) it idx = .error (7, 0)) ∧
  (∀ (r : Shape) (g : Option (Nat × Nat)) (it : Nat) (idx : Word), shCls r = true →
    let base : Int := if shVw r then 0 else (shBase r : Int)
    let a := ((base + idx.toNat * shS r 0) % 2 ^ 64).toNat
    accessAddr r g it idx = if shE r 0 ≤ idx.toNat then .error (2, a) else .ok a) ∧
  (∀ (s s1 : State) (k : Nat) (a : Access) (g : Agen) (addr va code ad : Nat) (st : Option (Nat × Nat)), PortTakes s k a →
    let c := s.afterEngine a
    let r := g.snap (((c.1.anyRound (tagCol a.tag) a.load (tagIter a.tag)).map fun q => q.rbase).getD 0)
    let part := (s.partOfElem a.e).getD 0
    a.null = false → c.1.aheadFor c.2 = none → c.1.agenOf a.e a.ctx a.gslot (tagCol a.tag) = some g →
    accessAddr r g.region (tagIter a.tag) a.idx = .ok addr →
    c.1.viewStep part (s.colour (tagCol a.tag)).asid r addr a.started = .ok (some (s1, st, va)) →
    let check := s1.spaceStep g r a.at_ part (tagCol a.tag) addr va a.kind.stores a.frame
    (check = .bad code ad ∨ (code = 2 ∧ ∃ x, check = .denied ad x)) → Ends (.portAccessPerformed k) s fun s' => ∃ (s2 : State) (i : FaultInfo),
      s' = s2.raiseFault i ∧ i.code = code ∧ i.addr = ad ∧ i.slot = a.slot ∧ i.agslot = a.gslot ∧ i.e = a.e ∧ i.tag = a.tag ∧ i.sb = a.sb ∧
      i.acc = a.kind.acc ∧ i.ra = false ∧ i.reason = wOpc a.word ∧ s2.fab.tokens = s.fab.tokens ++ recalled a.ops ∧
      s2.port.accesses = (s.port.accesses.filter fun b => b.id != a.id) ∧ s'.mem.mem = s.mem.mem ∧ s'.stew = s.stew) ∧
  ∀ (s : State) (g : Agen) (r : Shape) (p part col a va : Nat) (write : Bool) (x : Xent),
    let check := s.spaceStep g r p part col a va write (some x)
    let c := s.colour col
    x.hits (if spaceOf p = .host then hostAsid c.pasid else c.asid) va = true →
    (a % shEsz r ≠ 0 → check = .bad 11 a) ∧
    (a % shEsz r = 0 →
      (spaceOf p = .config → check = if shEsz r = 8 then .ok a a 0 none else .bad 2 a) ∧
      (spaceOf p ≠ .config → 2 ^ 57 ≤ va → check = .bad 1 a) ∧
      (spaceOf p = .peer → va < 2 ^ 57 → let refused := tget 0 s.mem.peerFail (2 ^ 41 * shPeer r + va / 65536)
        check = if refused = 0 then .ok a (2 ^ 57 * shPeer r + va) 0 none else .bad refused a) ∧
      (spaceOf p = .global → va < 2 ^ 57 → windowOf va ≠ .none → check = .bad 2 a) ∧
      ((spaceOf p = .global ∧ windowOf va = .none) ∨ spaceOf p = .host → va < 2 ^ 57 →
        (x.cv ≠ shVw r → check = .denied a x) ∧ (x.cv = shVw r → write = true → x.wr = false → check = .denied a x) ∧
        (x.cv = shVw r → (write = true → x.wr = true) →
          check = .ok a (x.frame + va % 2 ^ x.psz) (if spaceOf p = .host then 0 else s.keyFor part x va c.keyslot) (some x))))

/-- R204: a load that its port performs sends its datum, extended as its type says, with the datum's side-band bits and its chain token,
and leaves every byte of memory; an uncorrectable datum sends nothing, parks the operand tokens and raises POISON, with the access's address, AGEN and
port (`FaultsVoidAndRecord` says what that leaves). A null LDS is only counted. An access whose chain
an engine's completion started first discards what had been read ahead (R358). -/
def Sys2Proof.Claims.LoadsDeliver : Prop :=
  ∀ (s s1 : State) (k : Nat) (a : Access) (ad pa key : Nat) (x : Option Xent), PortTakes s k a →
    (a.kind = .lds ∨ a.kind = .ldr ∨ a.kind = .acqld) →
    (a.null = true → Ends (.portAccessPerformed k) s fun s' => s'.port.accesses = (s.port.accesses.filter fun b => b.id != a.id) ∧
      s'.fab.tokens = s.fab.tokens ∧ s'.mem = s.mem ∧ s'.stew = s.stew) ∧
    let c := s.afterEngine a
    (Checked c.1 s1 c.2 ad pa key x → (spaceOf a.at_ = .config → (s.cfgRead pa).isSome = true) →
      let d := s.readDatum c.2.hist a.at_ key pa (accSize a)
      (d.2.2 = false → Ends (.portAccessPerformed k) s fun s' =>
        s'.fab.tokens = s.fab.tokens ++ sent s (some a.at_) a.e a.ctx 1 (accessOuts a.word
          ⟨0, a.sb ||| d.2.1, .scalar, tyExtend (wTy a.word) d.1, none, a.tag, []⟩ (a.chain.map fun b => chainOut a.tag b c.2.hist)) ∧
        s'.port.accesses = (s.port.accesses.filter fun b => b.id != a.id) ∧ s'.mem.mem = s.mem.mem ∧ s'.mem.host = s.mem.host ∧
        s'.mem.peer = s.mem.peer ∧ s'.stew = s.stew ∧ s'.port.stores = s.port.stores) ∧
      (d.2.2 = true → Ends (.portAccessPerformed k) s fun s' => s'.port.accesses = (s.port.accesses.filter fun b => b.id != a.id) ∧
        s'.mem.mem = s.mem.mem ∧ s'.mem.host = s.mem.host ∧ s'.mem.peer = s.mem.peer ∧ s'.stew = s.stew ∧ s'.port.stores = s.port.stores ∧
        ∃ (s2 : State) (i : FaultInfo), s' = s2.raiseFault i ∧ i.code = 6 ∧ i.addr = ad ∧ i.slot = a.slot ∧ i.agslot = a.gslot ∧ i.pnum = a.at_ ∧ i.e = a.e ∧
          i.tag = a.tag ∧ i.sb = a.sb ∧ i.acc = 0 ∧ i.ra = false ∧ i.reason = wOpc a.word ∧ s2.fab.tokens = s.fab.tokens ++ recalled a.ops ∧
          s2.fab.rounds = s.fab.rounds))

/-- R205, R206, R343, R352: a store or update of an uncommitted round enters the store buffer of its port and leaves every byte of memory;
its tokens are sent, an update's with the value that was there. A store of an iteration behind O is written at once (log entry 27). An
update waits while another colour or load holds a write to its line. -/
def Sys2Proof.Claims.StoresEnterTheRound : Prop :=
  ∀ (s s1 : State) (k : Nat) (a : Access) (ad pa key : Nat) (x : Option Xent), PortTakes s k a →
    let h := (s.afterEngine a).2.hist
    Checked (s.afterEngine a).1 s1 (s.afterEngine a).2 ad pa key x → (spaceOf a.at_ = .config → (s.cfgWrite pa 0).isSome = true) →
    let n := accSize a
    let tokens : Out → List Nat → List Token := fun out hist =>
      sent s (some a.at_) a.e a.ctx 1 (accessOuts a.word out (a.chain.map fun b => chainOut a.tag b hist))
    let plain : Out := ⟨0, a.sb, .scalar, 0, none, a.tag, []⟩
    let gone := s.port.accesses.filter fun b => b.id != a.id
    let roomFor : Round → Prop := fun r => r.voided = true ∨ ∃ m, s.entryFor a.at_ r (pa / 64) (a.kind == .relst) = some m ∧ m < 1024
    ((a.kind = .sts ∨ a.kind = .str ∨ a.kind = .relst) →
      (∀ r, s.roundOf (tagCol a.tag) a.load (tagIter a.tag) = some r → roomFor r → Ends (.portAccessPerformed k) s fun s' => ∃ st : Store,
        s'.port.stores = s.port.stores ++ [st] ∧ Buffered a r pa (bvBytes a.dat n) st ∧ s'.fab.tokens = s.fab.tokens ++ tokens plain (h ++ [a.id]) ∧
        s'.port.accesses = gone ∧ s'.mem.mem = s.mem.mem ∧ s'.mem.host = s.mem.host ∧ s'.mem.peer = s.mem.peer ∧ s'.stew = s.stew) ∧
      (s.roundOf (tagCol a.tag) a.load (tagIter a.tag) = none → spaceOf a.at_ = .global → Ends (.portAccessPerformed k) s fun s' =>
        s'.mem.read key pa n = bvBytes a.dat n ∧ (∀ b, b < pa ∨ pa + n ≤ b → s'.mem.read1 key b = s.mem.read1 key b) ∧
        s'.fab.tokens = s.fab.tokens ++ tokens plain h ∧ s'.port.accesses = gone ∧ s'.stew = s.stew)) ∧
    (∀ fn, a.kind = .upd fn →
      (s.lineHeld a pa = true → Ends (.portAccessPerformed k) s fun s' => s'.mem = s.mem ∧ s'.fab.tokens = s.fab.tokens ∧ s'.port.stores = s.port.stores ∧
        ∃ b, b ∈ s'.port.accesses ∧ b.id = a.id ∧ b.held = true) ∧
      (∀ r, s.lineHeld a pa = false → s.roundOf (tagCol a.tag) a.load (tagIter a.tag) = some r → roomFor r →
        let d := s.readDatum h a.at_ key pa n
        let w := updNew a.word d.1 a.dat
        d.2.2 = false → Ends (.portAccessPerformed k) s fun s' => ∃ st : Store,
          s'.port.stores = s.port.stores ++ [st] ∧ Buffered a r pa (toBytes w.1 n) st ∧
          s'.fab.tokens = s.fab.tokens ++ tokens ⟨0, a.sb ||| w.2, .scalar, tyExtend (wTy a.word) d.1, none, a.tag, []⟩ (h ++ [a.id]) ∧
          s'.port.accesses = gone ∧ s'.mem.mem = s.mem.mem ∧ s'.mem.host = s.mem.host ∧ s'.mem.peer = s.mem.peer ∧ s'.stew = s.stew))

/-- R206, Table 6.4: the value that an update writes, for the integer types: sums modulo 2^w, minimum and maximum by the type's sign, OR,
AND, exchange, and compare with bits 63:32 of the operand before writing its bits 31:0. -/
def Sys2Proof.Claims.UpdateValues : Prop :=
  ∀ (w : SlotWord) (old : Nat) (v : Word), (wTy w = .i32 ∨ wTy w = .u32 ∨ wTy w = .i64 ∨ wTy w = .u64) → old < 2 ^ tyBits (wTy w) →
    let fn := nfld w 116 4
    let n := tyBits (wTy w)
    let x : BitVec n := BitVec.ofNat n old
    let y : BitVec n := v.setWidth n
    let less : BitVec n → BitVec n → Bool := fun a b => if tySigned (wTy w) then a.slt b else a.ult b
    (fn = 0 → updNew w old v = ((x + y).toNat, 0)) ∧
    (fn = 1 → updNew w old v = ((if less y x then y else x).toNat, 0)) ∧
    (fn = 2 → updNew w old v = ((if less x y then y else x).toNat, 0)) ∧
    (fn = 3 → updNew w old v = ((x ||| y).toNat, 0)) ∧
    (fn = 4 → updNew w old v = ((x &&& y).toNat, 0)) ∧
    (fn = 5 → updNew w old v = (y.toNat, 0)) ∧
    (fn = 6 → n = 32 → updNew w old v = (if old = v.toNat / 2 ^ 32 then v.toNat % 2 ^ 32 else old, 0))

/-- R208, R209, R333: OFORK and OJOIN pass chain tokens; XLAT answers a hit of its cache with a frame token, an address beyond the virtual
range with failure 3, a covered page with failure 2, and sends a miss to the walker of its port, whose answer fills the cache and goes
to the same targets. -/
def Sys2Proof.Claims.ChainAndXlat : Prop :=
  (∀ (o : Ops) (s : State) (f : Firing) (d : Token), FiresOn s f d →
    let res : Word → List Out := fun v => both o ⟨0, d.sb, .scalar, v, none, f.tag, d.hist⟩
    let asid := (s.colour (tagCol f.tag)).asid
    let va := d.pay.toNat
    let write := o.imm.getLsbD 7
    exec (.ofork o) s = .next (s.fire f o 1 (both o ⟨0, d.sb &&& 0x1F, .scalar, 0, none, f.tag, d.hist⟩) d.sb) ∧
    (∀ c, f.tok 1 = some c → let sb := (d.sb ||| c.sb) &&& 0x1F
      exec (.ojoin o) s = .next (s.fire f o 1 (both o ⟨0, sb, .scalar, 0, none, f.tag, f.hist⟩) sb)) ∧
    (sbDead d.sb = true → exec (.xlat o) s = .next (s.fire f o 1 (res 0) d.sb)) ∧
    (sbDead d.sb = false → 2 ^ 57 ≤ va → exec (.xlat o) s = .next (s.fire f o 2 (res (failToken 3 va)) d.sb)) ∧
    (∀ x, sbDead d.sb = false → va < 2 ^ 57 → (s.elem f.e).lookup asid va write = some x → Ends (.xlat o) s fun s' =>
      s'.fab.units = issued s f 2 (res (if x.cv then failToken 2 va else frameToken x va)) ∧ s'.mem = s.mem ∧ s'.stew = s.stew) ∧
    (sbDead d.sb = false → va < 2 ^ 57 → (s.elem f.e).lookup asid va write = none → Ends (.xlat o) s fun s' =>
      s'.port.walks = s.port.walks ++ [⟨o.imm.toNat % 128, f.e, asid, va, write, .xlat (res 0), s.cycle + 2 * s.toPort f.e (o.imm.toNat % 128)⟩] ∧
      s'.mem = s.mem ∧ s'.stew = s.stew ∧ s'.fab.units = s.fab.units)) ∧
  ∀ (s : State) (k : Nat) (w : Walk), nth? s.port.walks k = some w → w.due ≤ s.cycle → w.asid < 65536 →
    let s0 : State := { s with port := { s.port with walks := dropNth s.port.walks k } }
    (∀ x s1 outs, w.who = .xlat outs → s0.walkPort w.port w.asid w.va w.write = (.ok x, s1) → Ends (.pageWalk k) s fun s' =>
      s'.fab.tokens = s.fab.tokens ++ sent s none w.e (match outs with | y :: _ => tagCtx y.tag | [] => 0) 0
        (outs.map fun y => { y with pay := if x.cv then failToken 2 w.va else frameToken x w.va }) ∧
      (s'.elem w.e).xlat = ((s.elem w.e).cache x).xlat ∧ s'.port.walks = dropNth s.port.walks k ∧ s'.mem = s.mem) ∧
    (∀ n s1 outs, w.who = .xlat outs → s0.walkPort w.port w.asid w.va w.write = (.fail n, s1) → Ends (.pageWalk k) s fun s' =>
      s'.fab.tokens = s.fab.tokens ++ sent s none w.e (match outs with | y :: _ => tagCtx y.tag | [] => 0) 0
        (outs.map fun y => { y with pay := failToken n w.va }) ∧ s'.port.walks = dropNth s.port.walks k ∧ s'.mem = s.mem) ∧
    (∀ x s1 id a, w.who = .access id → s0.walkPort w.port w.asid w.va w.write = (.ok x, s1) → lfind (fun b => b.id == id) s.port.accesses = some a →
      Ends (.pageWalk k) s fun s' => { a with frame := some x } ∈ s'.port.accesses ∧ s'.port.walks = dropNth s.port.walks k ∧
        s'.fab.tokens = s.fab.tokens ∧ s'.mem = s.mem)

/-- R333, R331, Table 11.3: the walk of a table in memory reads one entry at each level; an entry that is not valid fails with 1, a
malformed one or a write that it does not permit with 2, an uncorrectable one with 4; a leaf gives its frame and page, a pointer the next
level. A root that is not valid fails with 1. -/
def Sys2Proof.Claims.PageWalksReadTheirEntries : Prop :=
  (∀ (s : State) (asid va : Nat) (write : Bool), (tget 0 s.mem.asids asid).getLsbD 0 = false → s.walkPlain asid va write = .fail 1) ∧
  (∀ (s : State) (asid va : Nat) (write : Bool), (tget 0 s.mem.asids asid).getLsbD 0 = true →
    s.walkPlain asid va write = (walkFrom s.mem asid va write 0 ((tget 0 s.mem.asids asid).toNat / 2 ^ 14 % 2 ^ 38 * 2 ^ 14) 5).1) ∧
  ∀ (m : Mem) (asid va l t n : Nat) (write : Bool), l < 5 →
    let low := [46, 34, 29, 21, 16].getD l 0
    let bits := [11, 12, 5, 8, 5].getD l 0
    let a := t + 8 * (va / 2 ^ low % 2 ^ bits)
    let d : Word := BitVec.ofNat 64 (ofBytes (m.read 0 a 8))
    let field := d.toNat / 256 % 2 ^ 44 * 256
    let r := (walkFrom m asid va write l t (n + 1)).1
    (isMemory a = false → r = .nowhere a) ∧
    (isMemory a = true → m.bad a 8 = true → r = .fail 4) ∧
    (isMemory a = true → m.bad a 8 = false →
      (d.getLsbD 0 = false → r = .fail 1) ∧
      (d.getLsbD 0 = true → entryBad d l = true → r = .fail 2) ∧
      (d.getLsbD 0 = true → entryBad d l = false → d.getLsbD 1 = true → write = true → (d.getLsbD 3 = false ∨ d.getLsbD 4 = true) → r = .fail 2) ∧
      (d.getLsbD 0 = true → entryBad d l = false → d.getLsbD 1 = true → (write = true → d.getLsbD 3 = true ∧ d.getLsbD 4 = false) →
        ∃ x, r = .ok x ∧ x.frame = field ∧ x.psz = low ∧ x.page = va / 2 ^ low * 2 ^ low ∧ x.wr = (d.getLsbD 3 && !d.getLsbD 4) ∧
          x.cv = d.getLsbD 5 ∧ x.ro = d.getLsbD 4) ∧
      (d.getLsbD 0 = true → entryBad d l = false → d.getLsbD 1 = false → r = (walkFrom m asid va write (l + 1) field n).1))

/-- R201: the port of a streaming AGEN that serves an LDS reads ahead within a round that is open: the datum of the next position, through
the translation in hand, is kept for the LDS of that iteration; memory stays. -/
def Sys2Proof.Claims.ReadAheadKeepsDatums : Prop :=
  ∀ (s : State) (k : Nat) (g : Agen) (r : Round) (addr ad pa key : Nat) (x : Option Xent), nth? s.port.agens k = some g →
    s.roundOf g.col (s.loadidAt g.e g.ctx) g.ra = some r → g.got.contains g.ra = false → r.state ≠ .opening → r.voided = false →
    let sh := g.snap r.rbase
    let p := wPort ((s.slotWord g.e g.ctx g.slot).getD 0)
    let part := (s.partOfElem g.e).getD 0
    shCls sh = false → shVw sh = false → g.region.isSome = true → s.hasLds g = true → spaceOf p ≠ .config →
    accessAddr sh g.region g.ra 0 = .ok addr → s.spaceStep g sh p part g.col addr addr false none = .ok ad pa key x →
    let d := s.readDatum [] p key pa (shEsz sh)
    d.2.2 = false → Ends (.readAhead k) s fun s' => ∃ h : Ahead, s'.port.ahead = s.port.ahead ++ [h] ∧ h.port = p ∧ h.e = g.e ∧ h.ctx = g.ctx ∧
      h.gslot = g.slot ∧ h.col = g.col ∧ h.iter = g.ra ∧ h.code = 0 ∧ h.addr = ad ∧ h.data = BitVec.ofNat 64 d.1 ∧ h.pa = pa ∧
      s'.mem = s.mem ∧ s'.fab.tokens = s.fab.tokens ∧ s'.stew = s.stew

namespace Sys2Proof.Claims

/-- The iterations of a round are the `nr` from `rbase` on. -/
def roundNext (r : Round) : Nat := (r.rbase + r.nr) % 2 ^ 24
/-- The k-th round, once it may go on: it is not voided and no fault that voids it is under way. -/
def RoundAt (s : State) (k : Nat) (r : Round) (st : RState) : Prop := nth? s.fab.rounds k = some r ∧ r.state = st ∧ r.voided = false ∧ s.voiding r = false
/-- The buffered stores of a round, in the order performed. -/
def storesOf (s : State) (r : Round) : List Store := s.port.stores.filter fun st => st.of r
/-- Two stores touch no line together. -/
def linesApart (a b : Store) : Prop := ∀ i j, i < a.data.length → j < b.data.length → (a.pa + i) / 64 ≠ (b.pa + j) / 64
/-- What writing stores to memory does: each global store that shares no line with another of them reads back, under its key slot; every
byte outside their lines reads as before. -/
def Written (s s' : State) (l : List Store) : Prop :=
  (∀ st ∈ l, spaceOf st.port = .global → (∀ q ∈ l, q ≠ st → spaceOf q.port = .global → linesApart q st) → l.Nodup →
    s'.mem.read st.key st.pa st.data.length = st.data) ∧
  ∀ a key, (∀ st ∈ l, spaceOf st.port = .global → ∀ i, i < st.data.length → (st.pa + i) / 64 ≠ a / 64) → s'.mem.read1 key a = s.mem.read1 key a
/-- A port has written a list of entries of the k-th round `r`, which is then `q`: once every port of the round has acknowledged and every
entry is written the round is committed, O is the iteration after it, and its entries leave the buffers; until then they stay, marked
written. -/
def PortWrote (s : State) (k : Nat) (r q : Round) (l : List Store) (s' : State) : Prop :=
  let all : Prop := (∀ p ∈ q.ports, p ∈ q.acked) ∧ ∀ st ∈ storesOf s r, st.null = true ∨ st.written = true ∨ ∃ w ∈ l, w.id = st.id
  let todo := l.filter fun st => !st.null && !st.written
  ((∀ st ∈ todo, spaceOf st.port ≠ .config) → Written s s' todo) ∧ s'.fab.tokens = s.fab.tokens ∧
  (all → s'.oldest r.col r.load = roundNext r ∧ (∀ st ∈ s'.port.stores, st.of r = false) ∧
    (0 < r.nr → r.nr ≤ 2 ^ 23 → k < s.fab.rounds.length → { q with state := .committed, room := [] } ∈ s'.fab.rounds)) ∧
  (¬ all → s'.fab.rounds = setNth s.fab.rounds k q ∧
    s'.port.stores = s.port.stores.map fun x => if l.any (fun w => w.id == x.id) then { x with written := true } else x)

end Sys2Proof.Claims

/-! ### Rounds -/

/-- R122, R340, R359, R464: a stream opens a round of ROUND iterations, or of those it has left, only while it may (fewer than two
uncommitted rounds, none voided, no fault that voids one under way, no cut); its ports reserve line entries and take their snapshots. The first round of a colour
in a load, while earlier loads of the graph are there, first sends a reconfiguration token through their ports, view dies and controllers,
which pass it on when they hold nothing of those loads; the round opens when it has come back. The ports of an earlier load stay in the way when a
DROP has ended it. -/
def Sys2Proof.Claims.RoundsOpen : Prop :=
  (∀ (s : State) (x : Stream) (l : Load), s.mayOpen x l = true →
    x.rc = true ∧ x.k < x.n ∧ (s.openRounds (tagCol x.tag) x.load).length < 2 ∧ (∀ r ∈ s.openRounds (tagCol x.tag) x.load, r.voided = false) ∧
    (s.part l.part).cut = .idle ∧ age (s.oldest (tagCol x.tag) x.load) ((tagIter x.tag + x.k) % 2 ^ 24) < s.window (tagCol x.tag) (some l)) ∧
  (∀ (s : State) (k : Nat) (x : Stream) (l : Load), nth? s.fab.streams k = some x → s.loadAt x.e (tagCtx x.tag) = some l →
    let c := tagCol x.tag
    let first : Prop := ∀ r ∈ s.fab.rounds, ¬ (r.col = c ∧ r.load = x.load ∧ r.ctx = dCtx l.desc)
    let none' : Prop := ∀ p ∈ s.fab.passages, ¬ (p.1 = c ∧ p.2.1 = l.order)
    (s.mayOpen x l = false → exec (.roundOpen k) s = .next s) ∧
    (s.mayOpen x l = true → none' → (¬ first ∨ s.earlier l = []) → Ends (.roundOpen k) s fun s' => ∃ r : Round,
      s'.fab.rounds = r :: s.fab.rounds ∧ r.col = c ∧ r.load = x.load ∧ r.ctx = dCtx l.desc ∧ r.rbase = (tagIter x.tag + x.k) % 2 ^ 24 ∧
      r.nr = min (dRound l.desc) (x.n - x.k) ∧ r.voided = false ∧ r.ports = s.loadPorts l ∧ r.done = (s.loadPorts l).filter (fun p => (s.countedAt l p).isEmpty) ∧
      r.counts = [] ∧ r.restored = false ∧ r.half = s.freeHalf c x.load ∧ r.opened = s.cycle ∧ r.room = (s.loadPorts l).map (fun p => (p, s.roomAt p)) ∧ s'.mem = s.mem ∧ s'.stew = s.stew ∧ s'.fab.streams = s.fab.streams ∧ s'.fab.tokens = s.fab.tokens ∧
      (∀ g, g ∈ s.port.agens → g.col = c → g.ctx = dCtx l.desc → g.e ∈ l.foot → ∃ g', g' ∈ s'.port.agens ∧ g'.e = g.e ∧ g'.slot = g.slot ∧ g'.copy = g.copy ∧
        g'.snaps = (r.rbase, g.copy) :: g.snaps)) ∧
    (s.mayOpen x l = true → none' → first → s.earlier l ≠ [] → Ends (.roundOpen k) s fun s' => ∃ ps : List Nat,
      s'.fab.passages = s.fab.passages ++ [(c, l.order, ps ++ [200])] ∧ s'.fab.rounds = s.fab.rounds ∧ s'.mem = s.mem ∧
      ∀ p, p ∈ ps ↔ ∃ m ∈ s.earlier l, p ∈ m.2)) ∧
  (∀ (s : State) (l m : Load), m ∈ s.fab.loads → m.part = l.part → dGraphid m.desc = dGraphid l.desc → m.order < l.order →
    ∃ ps, (m, ps) ∈ s.earlier l ∧ ∀ p, p ∈ ps ↔ p ∈ s.loadPorts m ∨ ∃ d ∈ s.viewDies m, p = 128 + d) ∧
  ∀ (s : State) (k c x p : Nat) (ps : List Nat) (l : Load), nth? s.fab.passages k = some (c, x, p :: ps) →
    lfind (fun l => l.order == x) s.fab.loads = some l →
    let ok := if p = 200 then (s.earlier l).all (fun m => (s.roundsOf c m.1).isEmpty) else s.passes (s.earlier l) c p
    (ok = true → exec (.reconfigurationToken k) s = .next { s with fab := { s.fab with passages := setNth s.fab.passages k (c, x, ps) } }) ∧
    (ok = false → exec (.reconfigurationToken k) s = .next s)

/-- R341, R342, R336: a port reports a round complete when each node that it counts has performed its accesses and no replay entry is left;
the last report completes the round. The ports of a round that an image has brought back, whose counts it does not hold, report it when nothing of its
iterations is left (log entry 71). A complete round that is the oldest of its colour and load is prepared, its marked stores translated
again; a failed translation raises a fault of its store and the round is not prepared. -/
def Sys2Proof.Claims.RoundsCompleteAndPrepare : Prop :=
  (∀ (s : State) (k p : Nat) (r : Round) (l : Load), nth? s.fab.rounds k = some r → r.state = .opened → r.voided = false → s.roundLoad r = some l →
    p ∈ r.ports → p ∉ r.done → (∀ st ∈ storesOf s r, st.replay = false) →
    let count : Nat × Nat → Nat := fun x => match lfind (fun c => c.1 == p && c.2.1 == x.1 && c.2.2.1 == x.2) r.counts with | some c => c.2.2.2 | none => 0
    let next : Round := { r with done := p :: r.done, state := if r.ports.all (fun q => (p :: r.done).contains q) then .complete else .opened }
    let full : Prop := if r.restored then s.roundLeft r = false else ∀ x ∈ s.countedAt l p, r.nr ≤ count x
    (full → exec (.roundCompleteReport k p) s = .next { s with fab := { s.fab with rounds := setNth s.fab.rounds k next } }) ∧
    (¬ full → exec (.roundCompleteReport k p) s = .next s)) ∧
  ∀ (s : State) (k : Nat) (r : Round), RoundAt s k r .complete → (∀ st ∈ storesOf s r, st.replay = false) →
    (s.isOldest r = false → exec (.roundPrepare k) s = .next s) ∧
    (s.isOldest r = true → (∀ st ∈ storesOf s r, st.marked = false) → Ends (.roundPrepare k) s fun s' =>
      s'.fab.rounds = setNth s.fab.rounds k { r with state := .prepared } ∧ s'.mem = s.mem ∧ s'.stew = s.stew ∧
      s'.port.stores.length = s.port.stores.length ∧ ∀ st ∈ s'.port.stores, st.of r = true → st.prepared = true) ∧
    (∀ st n, s.isOldest r = true → storesOf s r = [st] → st.marked = true → s.retranslate st = .error n → Ends (.roundPrepare k) s fun s' =>
      s'.fab.rounds = (s.raiseFault (st.info n (s.storePos st))).fab.rounds ∧ s'.mem = s.mem ∧ s'.stew = s.stew)

/-- R342, R353, R354: each port of a prepared round writes its entries in the order performed, up to its first RELST's, and acknowledges;
once the ports that the scope of every RELST of the round requires have acknowledged, each port writes its RELST entries and all after
them, but a RELST entry not before what was performed before it at the other ports of its scope. When every port has acknowledged and every entry is
written the round is committed. A store that its peer refuses is not written, and its fault is raised (R329). -/
def Sys2Proof.Claims.RoundsCommit : Prop :=
  ∀ (s : State) (n k p : Nat) (r : Round), nth? s.roundPorts n = some (k, p, r) →
    let mine := (storesOf s r).filter fun st => st.port == p
    let first := mine.takeWhile fun st => !st.release
    let need : Prop := ∀ st ∈ storesOf s r, st.release = true → ∀ q ∈ s.releaseScope r st, q ∈ r.acked
    let accepted : Prop := ∀ st ∈ storesOf s r, s.peerRefuses st = none
    (∀ st c, RoundAt s k r .prepared → p ∉ r.acked → first = [st] → st.null = false → st.written = false → s.peerRefuses st = some c →
      let s1 := s.raiseFault (st.info c (s.storePos st))
      Ends (.roundCommit n) s fun s' => s'.mem = s.mem ∧ s'.fab.faults = s1.fab.faults ∧ s'.fab.tokens = s1.fab.tokens ∧ s'.stew = s.stew) ∧
    (RoundAt s k r .prepared ∨ r.state = .phase1 → p ∉ r.acked → accepted →
      Ends (.roundCommit n) s (PortWrote s k r { r with state := .phase1, acked := p :: r.acked } first)) ∧
    (p ∈ r.acked → exec (.roundCommit n) s = .next s) ∧
    (r.state = .phase1 → p ∈ r.acked → need → accepted → Ends (.releasePhase n) s (PortWrote s k r r (mine.takeWhile fun st => !s.relstWaits r st))) ∧
    (r.state = .phase1 → ¬ need → exec (.releasePhase n) s = .next s)

/-- R262, R344, R345: a pending fault of an uncommitted round voids that round and the younger ones of its colour and load: their stores go
to the replay lists, their tokens are parked, those in a basin to be marked there, and memory stays. Its record is then written at the lowest free index with the next sequence
number, and its event sent; with no free record it waits. A fault that joins a round's pending one is the older of the two. -/
def Sys2Proof.Claims.FaultsVoidAndRecord : Prop :=
  (∀ (s : State) (k rb : Nat) (f : PendFault), nth? s.fab.faults k = some f → f.round = some rb → f.done = false →
    let col := nfld f.rcd 244 12
    let load : Word := fld f.rcd 320 64
    let younger : Round → Prop := fun r => r.col = col ∧ r.load = load ∧ r.state ≠ .committed ∧ r.state ≠ .phase1 ∧ age rb r.rbase < 2 ^ 23
    Ends (.roundVoid k) s fun s' => s'.mem = s.mem ∧ s'.stew = s.stew ∧
      s'.fab.faults = setNth s.fab.faults k { f with done := true } ∧ s'.fab.rounds.length = s.fab.rounds.length ∧
      (∀ n r r', nth? s.fab.rounds n = some r → nth? s'.fab.rounds n = some r' → (younger r → r'.voided = true) ∧ (¬ younger r → r' = r)) ∧
      (∀ st r, st ∈ s.port.stores → r ∈ s.fab.rounds → younger r → r.voided = false → st.of r = true →
        { st with replay := true, prepared := false } ∈ s'.port.stores) ∧
      (∀ n t t' r, nth? s.fab.tokens n = some t → nth? s'.fab.tokens n = some t' → r ∈ s.fab.rounds → younger r → r.voided = false → 0 < r.nr → r.nr < 2 ^ 23 →
        tagCol t.tag = col → t.load = load → t.place.onWay = false → age r.rbase (tagIter t.tag) < r.nr →
        t' = if t.parked then t else { t with parked := true, place := match t.place with | .basin i => .marked i | x => x })) ∧
  (∀ (s : State) (k : Nat) (f : PendFault), nth? s.fab.faults k = some f → f.done = true →
    let x := s.part f.part
    ((∀ i, i < 64 → (tget none x.ring i).isSome = true) → exec (.faultRecordWrite k) s = .next s) ∧
    (∀ i, i < 64 → tget none x.ring i = none → (∀ j, j < i → (tget none x.ring j).isSome = true) → Ends (.faultRecordWrite k) s fun s' =>
      let y := s'.part f.part
      y.ring = tset none x.ring i (some (setFld f.rcd 160 16 x.fseq.toNat)) ∧ y.order = x.order ++ [i] ∧ y.fseq = x.fseq + 1 ∧
      y.events ++ y.held = x.events ++ x.held ++ [if f.loadref then loadrefEvent f.rcd i else faultEvent f.rcd f.tag i] ∧
      s'.fab.faults = dropNth s.fab.faults k ∧ s'.mem = s.mem ∧ s'.stew = s.stew)) ∧
  ∀ (s : State) (f : FaultInfo) (r : Round), s.purgedAt f.e f.tag = false →
    s.roundOf (tagCol f.tag) (s.loadidAt f.e (tagCtx f.tag)) (tagIter f.tag) = some r → r.voided = false →
    let part := (s.partOfElem f.e).getD 0
    let mine : PendFault → Bool := fun p => p.part == part && nfld p.rcd 244 12 == tagCol f.tag && fld p.rcd 320 64 == s.loadidAt f.e (tagCtx f.tag) &&
      p.round == some r.rbase && !p.done
    (s.fab.faults.any mine = false → ∃ q : PendFault, (s.raiseFault f).fab.faults = s.fab.faults ++ [q] ∧ q.part = part ∧ q.tag = f.tag ∧
      q.round = some r.rbase ∧ q.done = false ∧ nfld q.rcd 192 4 = f.code % 16 ∧ nfld q.rcd 272 24 = r.rbase % 2 ^ 24 ∧ nfld q.rcd 296 24 = tagIter f.tag) ∧
    (s.fab.faults.any mine = true → (s.raiseFault f).fab.faults.length = s.fab.faults.length ∧
      ∀ n p, nth? s.fab.faults n = some p → mine p = true → nth? (s.raiseFault f).fab.faults n =
        some (if age r.rbase (tagIter f.tag) < age r.rbase (nfld p.rcd 296 24) then { p with rcd := setFld (mkRecord f part (s.loadidAt f.e (tagCtx f.tag))) 272 24 r.rbase, tag := f.tag } else p))

/-- R206, R346: an access held behind a line that is free again goes on as its port would take it; a replay entry of a resumed round held
so enters the buffer again, where it counts, or raises CONFIG where it would need a 513th overflow line (R343). -/
def Sys2Proof.Claims.HeldUpdatesGoOn : Prop :=
  (∀ (s : State) (k : Nat) (a : Access), nth? s.port.accesses k = some a → a.held = true → a.at_ < 100 → s.accessOpen a = true →
    exec (.updLineReleased k) s = .next ((s.setAccess { a with held := false }).perform { a with held := false })) ∧
  ∀ (s : State) (k : Nat) (st : Store) (r : Round), s.port.accesses = [] → nth? s.replayLeft k = some st →
    s.replayLeft.filter (fun x => x.port == st.port) = [st] → lfind (fun r => st.of r && r.state != .committed) s.fab.rounds = some r →
    (s.port.stores.any fun x => x.port == st.port && !x.replay && !(x.col == st.col && x.load == st.load) && x.pa / 64 == st.pa / 64) = false →
    (st.null = false → s.entryFor st.port r (st.pa / 64) st.release = none → exec (.updLineReleased k) s = .next (s.raiseFault (st.info 7 (s.storePos st)))) ∧
    ∀ v w n, st.upd = some (v, w) → st.marked = false → st.null = false → s.entryFor st.port r (st.pa / 64) st.release = some n → n < 1024 →
      let afresh := toBytes (updNew w (s.readDatum st.hist st.port st.key st.pa st.data.length).1 v).1 st.data.length
      Ends (.updLineReleased k) s fun s' => s'.mem = s.mem ∧ s'.fab.rounds = (s.setRound (r.count st.port st.e st.slot)).fab.rounds ∧
        s'.port.stores = (s.port.stores.filter fun x => x.id != st.id) ++ [{ st with replay := false, entry := n, data := afresh }]

namespace Sys2Proof.Claims

/-- The firing issues with one scalar result of the given payload, with the side-band of its operands. -/
def gives (s : State) (f : Firing) (o : Ops) (lat : Nat) (v : Word) (sb : BitVec 8) : State :=
  s.fire f o lat (both o ⟨0, sb, .scalar, v, none, f.tag, []⟩) sb
/-- The machine runs a firing whose operands have the joined side-band `sb`, none of them null or poisoned. -/
def LiveFiring (s : State) (f : Firing) (sbs : List (BitVec 8)) : Prop := s.focus = .node f ∧ sbDead (sbOr sbs) = false
/-- Scratchpad lines of a context slot: the first and the one past the last (R278). -/
def padFrom (w : Word) : Nat := 32 * (nfld w 0 8 + nfld w 8 8 + nfld w 16 8)
def padTo (w : Word) : Nat := padFrom w + 32 * nfld w 24 8

end Sys2Proof.Claims

/-! ### Buffers -/

/-- R97, R213 to R215, R279, R319: BFAL allocates the buffer of a descriptor that its checks admit, with every slot empty, answers 1 when
the keep budget lacks room, and raises BUFFER otherwise; BFFR frees a buffer; BFLIFE sets LIFE and KEEP, and the slots with data become
kept with KEEP; when it falls only those that KP had granted stay kept, renewals in progress stop, and a slot that has reached its stamp expires at
once; when the budget lacks the lines it changes nothing and answers 1. BFFR and BFLIFE of a buffer that is not allocated raise BUFFER. -/
def Sys2Proof.Claims.BuffersAllocateAndFree : Prop :=
  ∀ (o : Ops) (s : State) (f : Firing),
    let a := s.opVal .x64 o.imm o.a
    let b := s.opVal .x64 o.imm o.b
    let n := o.imm.toNat % 32
    let x := s.ctx f.e f.ctx
    (LiveFiring s f [a.sb, b.sb] →
      let d := a.v
      let sb := sbOr [a.sb, b.sb]
      let m := nfld d 0 5
      let base := nfld d 8 13
      let size := nfld d 21 13
      let depth := nfld d 34 4 + 1
      let life := nfld d 38 9
      let keep := d.getLsbD 47
      let good : Prop := nfld d 48 16 = 0 ∧ nfld d 5 3 = 0 ∧ 1 ≤ size ∧ 1 ≤ life ∧ life ≤ 400 ∧ s.buf f.e f.ctx m = none ∧
        padFrom x.partwd ≤ base ∧ base + size * depth ≤ padTo x.partwd ∧
        ∀ q ∈ x.bufs, ∀ v, q.2 = some v → base + size * depth ≤ v.base ∨ v.base + v.size * v.depth ≤ base
      let room : Prop := ctxKept x + size * depth ≤ nfld x.partwd 32 13 ∧ elemKept (s.elem f.e) + size * depth ≤ 4096
      (¬ good → ∃ i, i.code = 12 ∧ exec (.bfal o) s = .next (s.faultFiring f i)) ∧
      (good → keep = true → ¬ room → exec (.bfal o) s = .next (gives s f o 1 1 sb)) ∧
      (good → (keep = true → room) → exec (.bfal o) s =
        .next (gives (s.setBuf f.e f.ctx m (some ⟨base, size, depth, life, keep, 0, List.replicate depth .empty⟩)) f o 1 0 sb))) ∧
    (LiveFiring s f [a.sb] →
      (s.buf f.e f.ctx n = none → ∃ i, i.code = 12 ∧ exec (.bffr o) s = .next (s.faultFiring f i)) ∧
      (∀ v, s.buf f.e f.ctx n = some v → exec (.bffr o) s = .next (gives (s.setBuf f.e f.ctx n none) f o 1 0 a.sb))) ∧
    (LiveFiring s f [a.sb, b.sb] →
      let life := nfld a.v 0 9
      let keep := a.v.getLsbD 9
      let good : Prop := a.v.toNat / 2 ^ 10 = 0 ∧ 1 ≤ life ∧ life ≤ 400
      (s.buf f.e f.ctx n = none ∨ ¬ good → ∃ i, i.code = 12 ∧ exec (.bflife o) s = .next (s.faultFiring f i)) ∧
      (∀ v, s.buf f.e f.ctx n = some v → good →
        let v' : Buf := { v with life := life, keep := keep, slots := v.slots.map fun q =>
                                   if keep then { q with kept := q.data } else if v.keep then { q with kept := q.granted, renew := none } else q }
        let s1 := (List.range v.depth).foldl (fun (s : State) i => s.ageSlot f.e f.ctx n i) (s.setBuf f.e f.ctx n (some v'))
        let lacks : Prop := keep = true ∧ v.keep = false ∧ s1.keepFits f.e f.ctx 0 = false
        (lacks → exec (.bflife o) s = .next (gives s f o 1 1 (sbOr [a.sb, b.sb]))) ∧
        (¬ lacks → exec (.bflife o) s = .next (gives s1 f o 1 0 (sbOr [a.sb, b.sb]))))) ∧
    (s.focus = .node f → sbDead a.sb = true → exec (.bffr o) s = .next (gives s f o 1 0 a.sb)) ∧
    (s.focus = .node f → sbDead (sbOr [a.sb, b.sb]) = true →
      exec (.bfal o) s = .next (gives s f o 1 0 (sbOr [a.sb, b.sb])) ∧ exec (.bflife o) s = .next (gives s f o 1 0 (sbOr [a.sb, b.sb])))

/-- R216, R217, R315, R319, R281: BFWR writes one datum at its place in an empty slot, stamps the slot with RETCNT + LIFE, clears its header
and, with SETF, marks it full, moves the write index and sends a reference; every other pool byte stays. A place outside the buffer raises
BUFFER, an expired slot STALE, a poisoned operand POISON (log entry 28), a null one writes nothing, and a full slot holds the firing back. -/
def Sys2Proof.Claims.BfwrWritesItsPlace : Prop :=
  ∀ (o : Ops) (s : State) (f : Firing), s.focus = .node f →
    let x := s.opVal o.ty o.imm o.a
    let p := s.opVal .x64 o.imm o.b
    let sb := sbOr [x.sb, p.sb]
    let n := o.imm.toNat % 32
    let setf := o.imm.getLsbD 5
    let w := tyBits o.ty / 8
    let i := nfld p.v 16 4
    let at_ := nfld p.v 0 16 * w
    (sbPZ sb = true → ∃ m, m.code = 6 ∧ exec (.bfwr o) s = .next (s.faultFiring f m)) ∧
    (sbPZ sb = false → sbNL sb = true → Ends (.bfwr o) s fun s' => (∀ e, (s'.elem e).pool = (s.elem e).pool) ∧ s'.buf f.e f.ctx n = s.buf f.e f.ctx n ∧ s'.mem = s.mem) ∧
    (sbDead sb = false → s.buf f.e f.ctx n = none → ∃ m, m.code = 12 ∧ exec (.bfwr o) s = .next (s.faultFiring f m)) ∧
    ∀ b, sbDead sb = false → s.buf f.e f.ctx n = some b → b.slots.length = b.depth → (o.ty ≠ .pred ∧ o.ty ≠ .q4) →
      let inside : Prop := nfld p.v 20 44 = 0 ∧ at_ < b.size * 64 ∧ i < b.depth
      (¬ inside → ∃ m, m.code = 12 ∧ exec (.bfwr o) s = .next (s.faultFiring f m)) ∧
      (inside → (b.slot i).full = true → exec (.bfwr o) s = .next (s.unfire f)) ∧
      (inside → (b.slot i).full = false → (b.slot i).exp = true → ∃ m, m.code = 4 ∧ m.acc = 1 ∧ exec (.bfwr o) s = .next (s.faultFiring f m)) ∧
      (inside → (b.slot i).full = false → (b.slot i).exp = false → Ends (.bfwr o) s fun s' =>
        (∀ a, mget (s'.elem f.e).pool a = if b.slotByte i + at_ ≤ a ∧ a < b.slotByte i + at_ + w then x.v.extractLsb' (8 * (a - (b.slotByte i + at_))) 8
          else mget (s.elem f.e).pool a) ∧
        (∃ b', s'.buf f.e f.ctx n = some b' ∧ b'.widx = (if setf then (i + 1) % b.depth else b.widx) ∧ b'.slots.length = b.slots.length ∧
          (∀ j, j ≠ i → b'.slot j = b.slot j) ∧ (b'.slot i).stamp = (s.elem f.e).retcnt + BitVec.ofNat 32 b.life ∧ (b'.slot i).data = true ∧
          (b'.slot i).full = setf ∧ (b'.slot i).exp = false ∧ (b'.slot i).hv = false ∧ (b.keep = true → (b'.slot i).kept = true)) ∧
        s'.fab.units = issued s f 1 (both o (if setf then ⟨0, sb, .ref, mkRef n i b.size, none, f.tag, []⟩ else ⟨0, sb, .scalar, 0, none, f.tag, []⟩)) ∧
        s'.mem = s.mem ∧ s'.stew = s.stew ∧ s'.fab.tokens = s.fab.tokens)

/-- R162, R218, R219, R220, Table 6.7: BFRD sends the element of its slot at an index, extended as its type says, and releases the slot
unless it holds it; an index beyond the lines raises BUFFER. BFQRY sends the status word of a slot, whose buffer need not be allocated.
RENEW begins the renewal of every full slot that it names and holds a unit for its lines, raising BUFFER for a slot outside the buffer and
STALE for a full one that has expired; when the unit is done each has the stamp of the issue (log entry 99). -/
def Obligations.BuffersReadAndRenew : Prop :=
  ∀ (o : Ops) (s : State) (f : Firing), s.focus = .node f →
    (let a := s.arg f o.ty o.a (o.imm.getLsbD 5)
     let x := s.opVal .x64 o.imm o.b
     let w := tyBits o.ty / 8
     let k := x.v.toNat * w
     let freed := (releases [a]).foldl (fun (s : State) q => s.modSlot f.e f.ctx q.1 q.2 fun q =>
       { q with full := false, data := false, exp := false, kept := false, warned := false, granted := false, renew := none }) s
     ∀ n tk, o.a = .port n → f.tok n.toNat = some tk → s.argFault f a = none →
       (sbDead (sbOr [tk.sb, x.sb]) = true → exec (.bfrd o) s = .next (gives freed f o 1 0 (sbOr [tk.sb, x.sb]))) ∧
       ∀ r, a.ref = some r → sbDead (sbOr [tk.sb, x.sb]) = false →
       (64 * a.lines ≤ k → ∃ m, m.code = 12 ∧ exec (.bfrd o) s = .next (s.faultFiring f m)) ∧
       (k < 64 * a.lines → sbPZ a.sb = false →
         exec (.bfrd o) s = .next (gives freed f o 1 (tyExtend o.ty (ofBytes ((List.range w).map fun i => nth 0 a.bytes (k + i)))) (sbOr [tk.sb, x.sb])))) ∧
    (let t := s.opVal .x64 o.imm o.a
     let n := o.imm.toNat % 32
     let i := o.imm.toNat / 32 % 16
     let free := 4096 - elemKept (s.elem f.e)
     (sbDead t.sb = true → exec (.bfqry o) s = .next (gives s f o 1 0 t.sb) ∧ exec (.renew o) s = .next (gives s f o 1 0 t.sb)) ∧
     (sbDead t.sb = false → s.buf f.e f.ctx n = none → ∃ m, m.code = 12 ∧ exec (.renew o) s = .next (s.faultFiring f m)) ∧
     (sbDead t.sb = false → s.buf f.e f.ctx n = none → free < 8192 → exec (.bfqry o) s = .next (gives s f o 1 (BitVec.ofNat 64 (free * 2 ^ 32)) t.sb)) ∧
     ∀ b, sbDead t.sb = false → s.buf f.e f.ctx n = some b →
       (b.depth ≤ i → ∃ m, m.code = 12 ∧ exec (.bfqry o) s = .next (s.faultFiring f m)) ∧
       (i < b.depth → ∃ v : Word, exec (.bfqry o) s = .next (gives s f o 1 v t.sb) ∧ nfld v 32 13 = free % 8192 ∧ nfld v 13 4 = b.widx % 16 ∧
         v.getLsbD 12 = true ∧ v.getLsbD 11 = (b.slot i).exp ∧ v.getLsbD 10 = (b.slot i).kept ∧ v.getLsbD 9 = (b.slot i).full ∧
         nfld v 0 9 = (if (b.slot i).data = true ∧ (b.slot i).exp = false ∧ ((b.slot i).stamp - (s.elem f.e).retcnt).toNat ≤ 400
           then ((b.slot i).stamp - (s.elem f.e).retcnt).toNat else 0)) ∧
       (let is : List Nat := if o.imm.getLsbD 9 then List.range b.depth else [i]
        ((∃ j ∈ is, b.depth ≤ j) → ∃ m, m.code = 12 ∧ exec (.renew o) s = .next (s.faultFiring f m)) ∧
        ((∀ j ∈ is, j < b.depth) → (∃ j ∈ is, (b.slot j).full = true ∧ (b.slot j).exp = true) →
          ∃ m, m.code = 4 ∧ exec (.renew o) s = .next (s.faultFiring f m)) ∧
        ((∀ j ∈ is, j < b.depth ∧ ((b.slot j).full = true → (b.slot j).exp = false)) → b.slots.length = b.depth → Ends (.renew o) s fun s' => ∃ b',
          s'.buf f.e f.ctx n = some b' ∧ b'.slots.length = b.slots.length ∧
          (∀ j, j < b.depth → b'.slot j = if j ∈ is ∧ (b.slot j).full = true
            then { b.slot j with renew := some ((s.elem f.e).retcnt + BitVec.ofNat 32 b.life) } else b.slot j) ∧
          (let full := is.filter fun j => (b.slot j).full
           let lines := b.size * full.length
           s'.fab.units = s.fab.units ++ [⟨f.e, f.ctx, f.slot, f.tag, s.cycle + (if lines = 0 then 1 else lines), 0, none,
             both o ⟨0, t.sb, .scalar, 0, none, f.tag, []⟩, none, [], full.map fun j => (n, j)⟩]) ∧
          (s'.elem f.e).pool = (s.elem f.e).pool ∧ s'.mem = s.mem ∧ s'.fab.tokens = s.fab.tokens))) ∧
    ∀ (e n i : Nat) (u : UnitOp) (b : Buf) (st : BitVec 32), firstUnit e s.fab.units = some u → u.due ≤ s.cycle → u.write = none → u.release = [] →
      u.renews = [(n, i)] → s.purgedAt u.e u.tag = false → s.buf u.e u.ctx n = some b → (b.slot i).renew = some st →
      ((b.slot i).kept = true ∨ (1 ≤ (st - (s.elem u.e).retcnt).toNat ∧ (st - (s.elem u.e).retcnt).toNat ≤ 400)) →
      Ends (.unitCompletion e) s fun s' =>
        s'.buf u.e u.ctx n = some { b with slots := setNth b.slots i { b.slot i with stamp := st, renew := none } } ∧ s'.mem = s.mem

/-- R265, R311, R315, R320: a life unit ends 0.8 µs or more after the last (log entry 42). RETCNT then rises by one, and in the same cycle every slot
with data that has reached its stamp expires, but for kept slots, those of a b2m copy under way and those whose renewal is in progress; a slot whose
REMAIN falls to EXPWARN in an unprioritised context slot is marked and sends its EXPIRY event. R280, R281, R318, R321: the Lengthsman's two walks take
turns, a line at a time, each a period after the last, in a cycle in which the element has made its choice, and never while a firing uses the line's
bank; the cycle is then taken. The bank walk moves to its next line; the keep walk renews, line by line, the kept slot of least life under 100, which
has a stamp of RETCNT + 400, as it stood when the renewal began, with its last line. -/
def Obligations.SlotsExpireAndAreKept : Prop :=
  let reached : Bool → Slot → BitVec 32 → Prop := fun copied q now => q.data = true ∧ q.exp = false ∧ copied = false ∧ q.renew = none ∧ q.kept = false ∧
    ((q.stamp - now).toNat = 0 ∨ 400 < (q.stamp - now).toNat)
  (∀ (s : State) (e : Nat), 2304 ≤ e ∨ s.cycle - (s.elem e).tickAt < s.lifeMin → exec (.retcntTick e) s = .next s) ∧
  (∀ (s : State) (e : Nat), e < 2304 → s.lifeMin ≤ s.cycle - (s.elem e).tickAt → Ends (.retcntTick e) s fun s' =>
    (s'.elem e).tickAt = s.cycle ∧
    (s'.elem e).retcnt = (s.elem e).retcnt + 1 ∧ (s'.elem e).pool = (s.elem e).pool ∧ s'.mem = s.mem ∧ s'.stew = s.stew ∧ s'.fab.tokens = s.fab.tokens ∧
    (∀ g, g ≠ e → s'.elem g = s.elem g) ∧
    ∀ c n b, s.buf e c n = some b → ∃ b', s'.buf e c n = some b' ∧ b'.slots.length = b.slots.length ∧ ∀ i, i < b.slots.length → i < b.depth →
      (reached (s.copying e c n i) (b.slot i) ((s.elem e).retcnt + 1) → (b'.slot i).exp = true) ∧
      (¬ reached (s.copying e c n i) (b.slot i) ((s.elem e).retcnt + 1) → (b'.slot i).exp = (b.slot i).exp) ∧
      (b'.slot i).stamp = (b.slot i).stamp ∧ (b'.slot i).data = (b.slot i).data ∧ (b'.slot i).full = (b.slot i).full ∧ (b'.slot i).kept = (b.slot i).kept ∧
      (let p := (s.partOfElem e).getD 0
       let left := ((b.slot i).stamp - (s.elem e).retcnt).toNat
       (∀ y ∈ (s.elem e).slots, y.1 = c → y.2.1 = n → y.2.2.1 = i → y.2.2.2 = b.slot i) → (b.slot i).data = true → (b.slot i).exp = false →
         (b.slot i).kept = false → (b.slot i).warned = false → (s.ctx e c).prio = 0 → 2 ≤ left → left ≤ 400 → left = (s.part p).expwarn + 1 →
         (b'.slot i).warned = true ∧ mkEvent 8 (n + 32 * i) 0 c 0 e 0 (left - 1) 0 0 ∈ (s'.part p).events ++ (s'.part p).held)) ∧
  (∀ (s : State) (e c n i : Nat) (b : Buf), s.buf e c n = some b → i < b.slots.length → Ends (.slotExpiry e c n i) s fun s' =>
    ∃ q : Slot, s'.buf e c n = some { b with slots := setNth b.slots i q } ∧ s'.mem = s.mem ∧ s'.fab.tokens = s.fab.tokens ∧
      (reached (s.copying e c n i) (b.slot i) (s.elem e).retcnt → q = { b.slot i with exp := true }) ∧
      (¬ reached (s.copying e c n i) (b.slot i) (s.elem e).retcnt → q = b.slot i)) ∧
  ∀ (s : State) (e : Nat),
    let el := s.elem e
    let now := el.retcnt
    let turn : Option Nat → Prop := fun line => e < 2304 ∧ el.walkAt ≤ s.cycle ∧ s.settled e = true ∧ ∀ l, line = some l → s.bankUsed e (l / 32) = false
    let next := el.walkAt + (if s.mgmt.fclk < 2 then 8 else 4)
    let walk := if el.bankLines = 0 then 0 else (el.walk + 1) % el.bankLines
    let line : State → Prop := fun s' => (s'.elem e).walkAt = next ∧ (s'.elem e).issued = s.cycle + 1 ∧ (s'.elem e).pool = el.pool ∧ (s'.elem e).poison = el.poison ∧ s'.mem = s.mem
    (el.keepNext = true ∨ ¬ turn (s.bankLine e) → exec (.bankWalkRenewal e) s = .next s) ∧
    (el.keepNext = false → turn (s.bankLine e) → Ends (.bankWalkRenewal e) s fun s' =>
      (s'.elem e).keepNext = true ∧ (s'.elem e).walk = walk ∧ (s'.elem e).ctxs = el.ctxs ∧ line s') ∧
    (el.keepNext = false ∨ ¬ turn (s.keepTurn e).1 → exec (.keepWalkRenewal e) s = .next s) ∧
    (el.keepNext = true →
      (s.keepGoing e = none → leastLife now el.slots none = none → turn (s.bankLine e) → Ends (.keepWalkRenewal e) s fun s' =>
        (s'.elem e).keepNext = false ∧ (s'.elem e).walk = walk ∧ (s'.elem e).ctxs = el.ctxs ∧ line s') ∧
      (∀ c n i q b, s.keepGoing e = none → leastLife now el.slots none = some (c, n, i, q) → s.buf e c n = some b → i < b.slots.length →
        b.slot i = q → turn (some (b.slotByte i / 64)) → Ends (.keepWalkRenewal e) s fun s' => (s'.elem e).keepNext = false ∧ line s' ∧
          (b.size < 2 → (s'.elem e).keepAt = none ∧
            s'.buf e c n = some { b with slots := setNth b.slots i { q with stamp := now + 400, renew := none } }) ∧
          (2 ≤ b.size → (s'.elem e).keepAt = some (c, n, i, b.size - 1) ∧
            s'.buf e c n = some { b with slots := setNth b.slots i { q with renew := some (now + 400) } })) ∧
      (∀ c n i m b st, s.keepGoing e = some (c, n, i, m) → s.buf e c n = some b → i < b.slots.length → (b.slot i).renew = some st →
        (b.slot i).kept = true → turn (some (b.slotByte i / 64 + (b.size - m))) → Ends (.keepWalkRenewal e) s fun s' => (s'.elem e).keepNext = false ∧ line s' ∧
          (m < 2 → (s'.elem e).keepAt = none ∧
            s'.buf e c n = some { b with slots := setNth b.slots i { b.slot i with stamp := st, renew := none } }) ∧
          (2 ≤ m → (s'.elem e).keepAt = some (c, n, i, m - 1) ∧ (s'.elem e).ctxs = el.ctxs))) ∧
    ∀ (l : List (Nat × Nat × Nat × Slot)) (x : Nat × Nat × Nat × Slot), leastLife now l none = some x →
      x ∈ l ∧ x.2.2.2.kept = true ∧ x.2.2.2.data = true ∧ x.2.2.2.remain now < 100 ∧
      ∀ y ∈ l, y.2.2.2.kept = true → y.2.2.2.data = true → x.2.2.2.remain now ≤ y.2.2.2.remain now

/-! ### Views -/

/-- R221 to R225: a view instruction goes to the Trimmer of its region's die (of die 0 for a region beyond the chip's), with its operands
and its chain, and is counted as its operand tokens, or as its results where they are more; a null or poisoned operand sends its results at once. -/
def Sys2Proof.Claims.ViewNodesReachTheirTrimmer : Prop :=
  ∀ (o : Ops) (s : State) (f : Firing), s.focus = .node f →
    let none' : Val := ⟨0, 0⟩
    let ch : Opnd → Option Token := fun x => if o.imm.getLsbD 7 then (match x with | .port n => f.tok n.toNat | _ => none) else none
    let a := s.opVal .x64 o.imm o.a
    let b := s.opVal .x64 o.imm o.b
    let ofHandle := a.v.toNat / 65536 % 65536
    ∀ (i : Instr) (kind : AKind) (x y : Val) (chain : Option Token) (region : Nat), (i, kind, x, y, chain, region) ∈ ([
        (.viewmk o, .viewmk, s.opVal .u32 o.imm o.a, b, none, (s.opVal .u32 o.imm o.a).v.toNat % 2 ^ 32),
        (.viewdup o, .viewdup, a, b, none, ofHandle), (.narrow o, .narrow, a, b, ch o.c, ofHandle),
        (.viewq o, .viewq, a, none', ch o.b, ofHandle), (.viewdrop o, .viewdrop, a, none', ch o.b, ofHandle)]
        : List (Instr × AKind × Val × Val × Option Token × Nat)) →
      let sb := (x.sb ||| y.sb) &&& 0x7F
      let outs := accessOuts f.word ⟨0, sb, .scalar, 0, none, f.tag, []⟩ (chain.map fun t => chainOut f.tag t.sb t.hist)
      (sbDead sb = true → exec i s = .next (s.fire f o 1 outs sb)) ∧
      (sbDead sb = false → Ends i s fun s' => ∃ q : Access, s'.port.accesses = s.port.accesses ++ [q] ∧ q.kind = kind ∧
        q.at_ = 128 + (if region / 16384 < 4 then region / 16384 else 0) ∧ q.e = f.e ∧ q.ctx = f.ctx ∧ q.word = f.word ∧ q.tag = f.tag ∧ q.sb = sb ∧
        q.idx = x.v ∧ q.dat = y.v ∧ q.ops = f.ops ∧ q.chain = chain.map (fun t => t.sb) ∧ q.since = s.cycle + 1 ∧ q.null = false ∧ q.held = false ∧
        q.outs = Nat.max f.count (outCount outs) ∧
        s'.fab.units = s.fab.units ∧ s'.mem = s.mem ∧ s'.stew = s.stew ∧ s'.fab.tokens = s.fab.tokens)

/-- R221 to R227, R378 to R390: what a Trimmer does with the instruction that it has taken, or else takes: the oldest whose round is open. VIEWMK makes a root view of an extent
within its region; VIEWDUP a child of an extent within its view; NARROW and VIEWDROP cut a view; VIEWQ reads its extent. A handle that is not
good raises PROTECTION, an extent beyond its view WIDENING, and a table or pool that is full CONFIG; a change that must wait stays taken. -/
def Sys2Proof.Claims.TrimmersChangeViews : Prop :=
  ∀ (s : State) (d : Nat) (a : Access),
    lfind (fun a => a.at_ == 128 + d && a.held) s.port.accesses = some a ∨
      ((∀ x ∈ s.port.accesses, x.at_ = 128 + d → x.held = false) ∧
        lfind (fun a => a.at_ == 128 + d && decide (a.since ≤ s.cycle) && s.accessOpen a) s.port.accesses = some a) →
    let waits := exec (.trimmerChange d) s = .next (s.setAccess { a with held := true })
    let part := (s.partOfElem a.e).getD 0
    let asid := (s.colour (tagCol a.tag)).asid
    let lo := a.dat.toNat % 2 ^ 32
    let hi := a.dat.toNat / 2 ^ 32
    let fails : Nat → Prop := fun code => exec (.trimmerChange d) s = .next (s.failAccess a code a.dat.toNat false)
    let answers : State → Word → Prop := fun s1 v => exec (.trimmerChange d) s = .next (s1.reply a ⟨0, a.sb, .scalar, v, none, a.tag, []⟩ a.hist)
    (a.kind = .viewmk →
      let r := a.idx.toNat % 2 ^ 32
      let g := s.region r
      let ps := pagesOf lo hi
      let good : Prop := r < 65536 ∧ g.v = true ∧ g.dying = false ∧ g.asid = asid ∧ lo < hi ∧ hi ≤ 1024 * g.npage
      (¬ good → fails 2) ∧
      (good → (∃ p ∈ ps, (s.page r p).pend = true) → waits) ∧
      (good → (∀ p ∈ ps, (s.page r p).pend = false) → s.freeView r = none → fails 7) ∧
      (∀ i, good → (∀ p ∈ ps, (s.page r p).pend = false ∧ (s.page r p).count ≠ 65535) → s.freeView r = some i →
        ((s.part g.part).frames.length < (ps.filter fun p => !(s.page r p).alloc).length → fails 7) ∧
        ((ps.filter fun p => !(s.page r p).alloc).length ≤ (s.part g.part).frames.length →
          ∃ s1 h, answers s1 h ∧ hIndex h = i % 2 ^ 20 ∧ hGen h = (s.view (viewKey r i)).gen % 4096 ∧ hRegion h = r ∧
            s1.view (viewKey r i) = ⟨true, (s.view (viewKey r i)).gen, r, lo, hi⟩ ∧ (s1.region r).views = g.views + 1 ∧
            (∀ p ∈ ps, (s1.page r p).count = (s.page r p).count + 1) ∧ s1.fab.tokens = s.fab.tokens ∧ s1.stew = s.stew))) ∧
    (a.kind ≠ .viewmk → a.kind.view = true → s.viewOf part asid a.idx = none → fails 2) ∧
    (∀ k, s.viewOf part asid a.idx = some k →
      let v := s.view k
      let within : Prop := v.lo < v.hi ∧ (lo = hi ∨ (lo < hi ∧ v.lo ≤ lo ∧ hi ≤ v.hi))
      (a.kind = .viewq → answers s (BitVec.ofNat 64 (v.hi % 2 ^ 32 * 2 ^ 32 + v.lo % 2 ^ 32))) ∧
      (a.kind = .viewdup ∨ a.kind = .narrow → ¬ within → fails 3) ∧
      (∀ i, a.kind = .viewdup → within → s.freeView v.region = some i → (∀ p ∈ pagesOf lo hi, (s.page v.region p).count ≠ 65535) →
        ∃ s1 h, answers s1 h ∧ hIndex h = i % 2 ^ 20 ∧ hRegion h = v.region % 65536 ∧
          (let w := s1.view (viewKey v.region i); w.v = true ∧ w.region = v.region ∧ (lo < hi → w.lo = lo ∧ w.hi = hi) ∧ (lo = hi → w.lo = 0 ∧ w.hi = 0)) ∧
          s1.mem = s.mem ∧ s1.fab.tokens = s.fab.tokens) ∧
      (∀ s1, a.kind = .narrow → within →
        s.uncover v.region ((pagesOf v.lo v.hi).filter fun p => !(pagesOf lo hi).contains p) = some s1 →
        answers (s1.setView k { v with lo := if lo < hi then lo else 0, hi := if lo < hi then hi else 0 }) a.idx) ∧
      (∀ s1, a.kind = .viewdrop → s.uncover v.region (pagesOf v.lo v.hi) = some s1 → answers (s1.setView k { v with lo := 0, hi := 0 }) 0) ∧
      (a.kind = .narrow → within → s.uncover v.region ((pagesOf v.lo v.hi).filter fun p => !(pagesOf lo hi).contains p) = none → waits) ∧
      (a.kind = .viewdrop → s.uncover v.region (pagesOf v.lo v.hi) = none → waits))

/-- R210, R254, R336, R381, R389, R395: a page whose epochs hold no started access loses its leaf, and its shoot-down leaves. A shoot-down
reaches the walkers, XLAT caches and ports of its list one by one; each acknowledges once nothing there uses what it removed, and after the
last the frame of a freed page returns to its partition's pool, or the thread that asked goes on. -/
def Sys2Proof.Claims.PagesAreFreed : Prop :=
  (∀ (s : State) (r p : Nat), (s.page r p).pend = true → (s.region r).drained (s.page r p).epoch = true →
    (∀ f ∈ s.cov.freeing, ¬ (f.2.2.1 = r ∧ f.2.2.2 = p)) → Ends (.pageFree r p) s fun s' =>
      s'.cov.freeing = s.cov.freeing ++ [((s.region r).part, (s.page r p).frame, r, p)] ∧
      (∃ h : Shoot, s'.port.shoots = s.port.shoots ++ [h] ∧ h.thread = none ∧ h.part = (s.region r).part ∧ h.kind = 0 ∧ h.asid = (s.region r).asid ∧
        h.va = (s.region r).vbase + 65536 * p ∧ h.open_ = []) ∧
      (∀ a, leafAddr s.mem ((s.region r).vbase + 65536 * p) 0 (nfld (tget 0 s.mem.asids (s.region r).asid) 14 38 * 16384) 5 = some a →
        s'.mem.read 0 a 8 = List.replicate 8 0) ∧ s'.stew = s.stew ∧ s'.fab.tokens = s.fab.tokens) ∧
  (∀ (s : State) (k x : Nat) (h : Shoot) (rest : List Nat), nth? s.port.shoots k = some h → h.todo = x :: rest → Ends (.shootdownArrival k) s fun s' =>
    s'.port.shoots = setNth s.port.shoots k { h with todo := rest, open_ := h.open_ ++ [x] } ∧ s'.mem = s.mem ∧ s'.stew = s.stew ∧
    s'.fab.tokens = s.fab.tokens ∧
    (x < shootPort → (s'.elem x).xlat = (s.elem x).xlat.filter (fun y => !s.shootHits h y) ∧ ∀ e, e ≠ x → s'.elem e = s.elem e) ∧
    (shootWalker ≤ x → s'.fab.elems = s.fab.elems ∧
      s'.port.wcache = s.port.wcache.filter fun w => !(w.port == x - shootWalker && s.shootAsid h w.asid)) ∧
    (shootPort ≤ x → x < shootWalker → s'.fab.elems = s.fab.elems ∧ s'.port.accesses.length = s.port.accesses.length ∧
      (∀ st ∈ s.port.stores, st.port = x - shootPort → st.written = false → (∃ y, st.frame = some y ∧ s.shootHits h y = true) → { st with marked := true } ∈ s'.port.stores) ∧
      ∀ a ∈ s.port.accesses, a.at_ = x - shootPort → (∃ y, a.frame = some y ∧ s.shootHits h y = true) → { a with frame := none } ∈ s'.port.accesses)) ∧
  ∀ (s : State) (k x : Nat) (h : Shoot) (rest : List Nat), nth? s.port.shoots k = some h → h.open_ = x :: rest →
    (s.shootQuiet h x = false → exec (.shootdownAck k) s = .next s) ∧
    (s.shootQuiet h x = true → (h.todo ≠ [] ∨ rest ≠ []) →
      exec (.shootdownAck k) s = .next { s with port := { s.port with shoots := setNth s.port.shoots k { h with open_ := rest } } }) ∧
    (∀ t, s.shootQuiet h x = true → h.todo = [] → rest = [] → h.thread = some t → Ends (.shootdownAck k) s fun s' =>
      s'.port = { s.port with shoots := dropNth s.port.shoots k } ∧
      s'.stew = (s.setThread t { s.thread t with pc := (s.thread t).pc + 1, stall := .none }).stew ∧ s'.mem = s.mem ∧ s'.fab = s.fab) ∧
    (∀ p fr r pg, s.shootQuiet h x = true → h.todo = [] → rest = [] → h.thread = none → s.cov.freeing = [(p, fr, r, pg)] → h.part = p →
      (s.region r).asid = h.asid → (s.region r).vbase + 65536 * pg = h.va → (s.region r).dying = false → Ends (.shootdownAck k) s fun s' =>
        s'.cov.freeing = [] ∧ (s'.part p).frames = (s.part p).frames ++ [fr] ∧ (s'.page r pg).alloc = false ∧ (s'.page r pg).pend = false ∧
        s'.mem = s.mem ∧ s'.stew = s.stew)

namespace Sys2Proof.Claims

/-- The request leaves for the port of its word: it arrives there after its way, and is counted as its operand tokens until it stands there. What
is left of a copy that was refused for the same firing is gone (R236). -/
def Requests (s s' : State) (f : Firing) (o : Ops) (target : BitVec 24) (sb : BitVec 8) (p : Engine → Prop) : Prop :=
  ∃ g : Engine, s'.port.engines = (s.clearStub f).port.engines ++ [g] ∧ g.port = wPort f.word ∧ g.opc = wOpc f.word ∧ g.e = f.e ∧ g.slot = f.slot ∧ g.tag = f.tag ∧
    g.ty = o.ty ∧ g.target = target ∧ g.sb = sb ∧ g.state = .sent ∧ g.cursor = 0 ∧ g.since = s.cycle + 1 + s.toPort f.e (wPort f.word) ∧
    nfld g.pkt 270 2 = f.ctx % 4 ∧ g.ops = f.ops ∧ g.held = max (f.ops.filter fun y => y.2.isSome).length 1 ∧ p g ∧ s'.mem = s.mem ∧ s'.stew = s.stew ∧ s'.fab.tokens = s.fab.tokens ∧ s'.fab.units = s.fab.units
/-- The k-th request. -/
def Request (s : State) (k opc : Nat) (g : Engine) : Prop :=
  nth? s.port.engines k = some g ∧ g.opc = opc ∧ ∀ x ∈ s.port.engines, x.id = g.id → x = g
/-- The requests with one of them changed. -/
def changed (s : State) (g h : Engine) : List Engine := s.port.engines.map fun x => if x.id = g.id then h else x
/-- Pair x ranks above pair y: a higher key of R51, or the same key and a lower index (R365). -/
def pairAbove (f : Fmt) (x y : Word × BitVec 8) : Prop :=
  let k : Word × BitVec 8 → Nat := fun z => rankKey f (z.1.toNat % 2 ^ 32)
  k y < k x ∨ (k x = k y ∧ x.1.toNat / 2 ^ 32 < y.1.toNat / 2 ^ 32)

end Sys2Proof.Claims

/-! ### Engines -/

/-- R228 to R230, R433: the three forms of XFER. A poisoned operand raises POISON; a null one, or a length of 0, completes at once; m2b
reserves the slot at the write index, which must be empty and large enough, b2m needs a full slot that holds the length, which stays as it
is and counts as being copied; then the request goes to the transfer unit. -/
def Sys2Proof.Claims.XferRequests : Prop :=
  ∀ (o : Ops) (s : State) (f : Firing), s.focus = .node f →
    let a := s.opVal .x64 o.imm o.a
    let b := s.opVal .x64 o.imm o.b
    let c := s.opVal .x64 o.imm o.c
    let len := c.v.toNat % 2 ^ 32
    let scalar : BitVec 8 → List Out := fun sb => only o.t1 ⟨0, sb, .scalar, 0, none, f.tag, [fromEngine]⟩
    let poison : Instr → Prop := fun i => ∃ n, n.code = 6 ∧ exec i s = .next (s.faultFiring f n)
    let buffer : Instr → Prop := fun i => ∃ n, n.code = 12 ∧ exec i s = .next (s.faultFiring f n)
    let asks : Nat → Nat → Engine → Prop := fun src dst g => nfld g.pkt 64 64 = src ∧ nfld g.pkt 128 64 = dst ∧ nfld g.pkt 192 32 = len ∧
      nfld g.pkt 224 10 = o.imm.toNat % 2 ^ 10
    (let sb := sbOr [a.sb, b.sb, c.sb]
     (sbPZ sb = true → poison (.xferM2m o)) ∧
     (sbPZ sb = false → (sbNL sb = true ∨ len = 0) → exec (.xferM2m o) s = .next ((s.clearStub f).fire f o 1 (scalar sb) sb)) ∧
     (sbDead sb = false → len ≠ 0 → Ends (.xferM2m o) s fun s' => Requests s s' f o o.t1 sb fun g => asks a.v.toNat b.v.toNat g ∧ g.bslot = none)) ∧
    (let sb := sbOr [a.sb, c.sb]
     let n := o.imm.toNat / 16 % 32
     let null : BitVec 8 → List Out := fun sb => only o.t1 ⟨0, sb, .ref, 0, none, f.tag, []⟩
     (sbPZ sb = true → poison (.xferM2b o)) ∧
     (sbPZ sb = false → sbNL sb = true → exec (.xferM2b o) s = .next ((s.clearStub f).fire f o 1 (null sb) sb)) ∧
     (sbDead sb = false → s.buf f.e f.ctx n = none → buffer (.xferM2b o)) ∧
     ∀ x, sbDead sb = false → s.buf f.e f.ctx n = some x →
       (x.size * 64 < len → buffer (.xferM2b o)) ∧
       (len = 0 → exec (.xferM2b o) s = .next ((s.clearStub f).fire f o 1 (null ((sb ||| 0x40) &&& 0x7F)) ((sb ||| 0x40) &&& 0x7F))) ∧
       (len ≤ x.size * 64 → len ≠ 0 → (x.slot x.widx).full = true → exec (.xferM2b o) s = .next (s.unfire f)) ∧
       (len ≤ x.size * 64 → len ≠ 0 → (x.slot x.widx).full = false → Ends (.xferM2b o) s fun s' =>
         Requests s s' f o o.t1 sb (fun g => asks a.v.toNat (x.widx % 2 ^ 64) g ∧ g.bslot = some (n, x.widx)) ∧
         s'.buf f.e f.ctx n = some { x with slots := setNth x.slots x.widx { x.slot x.widx with full := true }, widx := (x.widx + 1) % x.depth })) ∧
    (let r := s.arg f .x64 o.a (o.imm.getLsbD 9)
     ∀ m t q, o.a = .port m → f.tok m.toNat = some t → r.ref = some q → s.argFault f r = none →
       let sb := sbOr [t.sb &&& 0x7F, b.sb, c.sb]
       (sbPZ sb = true → poison (.xferB2m o)) ∧
       (sbPZ sb = false → (sbNL sb = true ∨ len = 0) → exec (.xferB2m o) s =
         .next (((s.releaseAll f.e f.ctx (releases [r])).clearStub f).fire f o 1 (scalar sb) sb)) ∧
       (sbDead sb = false → r.lines * 64 < len → buffer (.xferB2m o)) ∧
       (sbDead sb = false → len ≤ r.lines * 64 → len ≠ 0 → Ends (.xferB2m o) s fun s' =>
         Requests s s' f o o.t1 sb (fun g => asks (t.pay.toNat % 512) b.v.toNat g ∧ g.bslot = some q) ∧
         s'.buf f.e f.ctx q.1 = s.buf f.e f.ctx q.1 ∧
         (wOpc f.word = 0xD0 → o.imm.toNat % 4 = 2 → f.ctx < 4 → s'.copying f.e f.ctx q.1 q.2 = true)))

/-- R229, R231, R488: a running copy moves its next 4 KiB, or what is left, and may go on when its port has had the time for them. The bytes read through the translations of its pages are, for m2m and
b2m, written through those of the destination and read back there when no page of the chunk shares a line with another; for m2b they are
kept for the slot. The cursor moves on, and the copy is finished with its last byte. The first failed piece raises its fault. -/
def Sys2Proof.Claims.CopiesMoveChunks : Prop :=
  ∀ (s : State) (k src dst : Nat) (g : Engine), Request s k 0xD0 g → g.state = .running → g.base = some (src, dst) → s.reqOpen g = true →
    let n := min 4096 (g.len - g.cursor)
    let next : List Byte → Engine := fun d => { g with
      cursor := g.cursor + n, data := d, state := if g.len ≤ g.cursor + n then .finished else .running,
      since := s.cycle + ceilDiv (13 * n) 3200, held := 1, ops := [] }
    let from' := s.copyPieces g g.sv false (pagePieces (src + g.cursor) n)
    (g.dir = 1 → from'.bad = none → Ends (.copyChunk k) s fun s' => s'.port.engines = changed s g (next (g.data ++ from'.bytes)) ∧
      s'.mem = s.mem ∧ s'.stew = s.stew ∧ s'.fab.tokens = s.fab.tokens) ∧
    (g.dir = 0 → from'.bad = none →
      let dest := from'.st.copyPieces g g.dv true (pagePieces (dst + g.cursor) n)
      dest.bad = none → Ends (.copyChunk k) s fun s' => s'.port.engines = changed s g (next []) ∧ s'.stew = s.stew ∧ s'.fab.tokens = s.fab.tokens ∧
        (∀ pa key, dest.places = [(pa, key, n)] → spaceOf g.port = .global →
          s'.mem.read key pa n = from'.bytes ∧ ∀ a, a < pa ∨ pa + n ≤ a → s'.mem.read1 key a = s.mem.read1 key a)) ∧
    (∀ q b, g.dir = 2 → g.bslot = some q → s.buf g.e g.ctx q.1 = some b → (b.slot q.2).exp = false → q.2 < b.slots.length →
      poolPoisoned (s.elem g.e) (b.slotByte q.2 + g.cursor) n = false →
      let dest := s.copyPieces g g.dv true (pagePieces (dst + g.cursor) n)
      dest.bad = none → Ends (.copyChunk k) s fun s' => s'.port.engines = changed s g (next []) ∧ s'.stew = s.stew ∧ s'.fab.tokens = s.fab.tokens ∧
        (∀ pa key, dest.places = [(pa, key, n)] → spaceOf g.port = .global →
          s'.mem.read key pa n = mgetN (s.elem g.e).pool (b.slotByte q.2 + g.cursor) n)) ∧
    (∀ c va, g.dir = 0 → from'.bad = some (c, va) → g.cursor ≠ 0 → Ends (.copyChunk k) s fun s' =>
      (∃ h ∈ s'.port.engines, h.id = g.id ∧ h.cursor = g.cursor ∧ h.state = .suspended ∧ h.parked = true) ∧ s'.stew = s.stew)

/-- R230, R433, R315: a finished copy ends: m2m and b2m send the low 32 bits of their length, b2m releasing its slot unless it holds it,
when the slot expires if its stamp has been reached and no other copy of it is in progress; m2b
writes its bytes into the reserved slot, padded with zero bytes to a whole line, and sends the reference. -/
def Sys2Proof.Claims.CopiesComplete : Prop :=
  ∀ (s : State) (k : Nat) (g : Engine), Request s k 0xD0 g → g.state = .finished → g.since ≤ s.cycle →
    let gone := s.port.engines.filter fun x => x.id != g.id
    let count : List Token := sent s (some g.port) g.e g.ctx 1 [⟨g.target, g.sb, .scalar, BitVec.ofNat 64 g.len, none, g.tag, [fromEngine]⟩]
    (g.bslot = none → Ends (.xferCompletion k) s fun s' => s'.port.engines = gone ∧ s'.fab.tokens = s.fab.tokens ++ count ∧ s'.mem = s.mem ∧ s'.stew = s.stew) ∧
    (∀ b i x, g.bslot = some (b, i) → g.dir = 2 → s.buf g.e g.ctx b = some x → i < x.slots.length → Ends (.xferCompletion k) s fun s' =>
      s'.port.engines = gone ∧ s'.fab.tokens = s.fab.tokens ++ count ∧ s'.mem = s.mem ∧ s'.stew = s.stew ∧
      ∃ y, s'.buf g.e g.ctx b = some y ∧ (y.slot i).full = (g.ha && (x.slot i).full) ∧ (y.slot i).data = (g.ha && (x.slot i).data) ∧
        (g.ha = true → y.slot i = (x.slot i).age (({ s with port := { s.port with engines := gone } } : State).copying g.e g.ctx b i) (s.elem g.e).retcnt)) ∧
    (∀ b i x, g.bslot = some (b, i) → g.dir = 1 → s.buf g.e g.ctx b = some x → i < x.slots.length → (x.slot i).full = true → g.data.length = g.len →
      let lines := (g.len + 63) / 64
      Ends (.xferCompletion k) s fun s' => s'.port.engines = gone ∧ s'.mem = s.mem ∧ s'.stew = s.stew ∧
        s'.fab.tokens = s.fab.tokens ++ sent s (some g.port) g.e g.ctx 1 [⟨g.target, g.sb, .ref, mkRef b i lines, none, g.tag, []⟩] ∧
        mgetN (s'.elem g.e).pool (x.slotByte i) (64 * lines) = g.data ++ List.replicate (64 * lines - g.len) 0 ∧
        ∃ y, s'.buf g.e g.ctx b = some y ∧ (y.slot i).full = true ∧ (y.slot i).data = true ∧ (y.slot i).lines = lines ∧
          (y.slot i).stamp = (s.elem g.e).retcnt + BitVec.ofNat 32 x.life)

/-- R232, R233, R363, R367 to R369: WEIR sends its request with base, control word and thresholds; a poisoned operand raises POISON, a null
one completes at once with a null count. At its port the request is checked: a control word or threshold outside its rules raises CONFIG, a
base that is not a multiple of the width ALIGN, an address beyond the virtual range TRANSLATION; it then waits for one of eight contexts,
which go to the requests that may take one in the order of arrival. -/
def Sys2Proof.Claims.WeirRequests : Prop :=
  (∀ (o : Ops) (s : State) (f : Firing), s.focus = .node f →
    let a := s.opVal .x64 o.imm o.a
    let b := s.opVal .x64 o.imm o.b
    let c := s.opVal .x64 o.imm o.c
    let sb := sbOr [a.sb, b.sb, c.sb]
    let done := hereTarget (o.imm.toNat % 128) (o.imm.toNat / 128 % 4)
    (sbPZ sb = true → ∃ n, n.code = 6 ∧ exec (.weir o) s = .next (s.faultFiring f n)) ∧
    (sbPZ sb = false → sbNL sb = true → exec (.weir o) s = .next ((s.clearStub f).fire f o 1 (only done ⟨0, sb, .scalar, 0, none, f.tag, [fromEngine]⟩) sb)) ∧
    (sbDead sb = false → Ends (.weir o) s fun s' => Requests s s' f o done sb fun g =>
      nfld g.pkt 64 64 = a.v.toNat ∧ nfld g.pkt 128 64 = b.v.toNat ∧ nfld g.pkt 192 32 = c.v.toNat % 2 ^ 32 ∧ nfld g.pkt 288 32 = c.v.toNat / 2 ^ 32)) ∧
  (∀ (s : State) (k : Nat) (g : Engine), Request s k 0xD1 g → g.state = .sent → g.since ≤ s.cycle →
    let base := nfld g.pkt 64 64
    let w := tyBits g.ty / 8
    let last := (base + (g.count - 1) * g.stride * w) % 2 ^ 64
    let fails : Nat → Prop := fun c => Ends (.weirRequestArrival k) s fun s' => (∃ h ∈ s'.port.engines, h.id = g.id ∧ h.state = .suspended ∧ h.parked = true) ∧
      (s.purgedAt g.e g.tag = false → s.roundOf (tagCol g.tag) (s.loadidAt g.e (tagCtx g.tag)) (tagIter g.tag) = none →
        ∃ q : PendFault, s'.fab.faults = s.fab.faults ++ [q] ∧ nfld q.rcd 192 4 = c) ∧ s'.mem = s.mem ∧ s'.stew = s.stew
    (g.ctlOk = false → fails 7) ∧
    (g.ctlOk = true → g.vw = false → base % w ≠ 0 → fails 11) ∧
    (g.ctlOk = true → g.vw = false → base % w = 0 → (2 ^ 57 ≤ base ∨ 2 ^ 57 ≤ last) → fails 1) ∧
    (g.ctlOk = true → g.vw = false → base % w = 0 → base < 2 ^ 57 → last < 2 ^ 57 → Ends (.weirRequestArrival k) s fun s' =>
      s'.port.engines = changed s g { g with state := .waiting, base := some (base, 0), held := 1, ops := [] } ∧
      s'.colours = (s.inflDown (tagCol g.tag) (g.held - 1)).colours ∧ s'.mem = s.mem ∧ s'.fab = s.fab) ∧
    (∀ c off, g.ctlOk = true → g.vw = true → s.engineView g (BitVec.ofNat 64 base) g.span = .error (c, off) → fails c) ∧
    (∀ s1 x a, g.ctlOk = true → g.vw = true → s.engineView g (BitVec.ofNat 64 base) g.span = .ok (some (s1, x, a)) → Ends (.weirRequestArrival k) s fun s' =>
      s'.port.engines = changed s g { g with state := .waiting, started := x, base := some (a, 0), held := 1, ops := [] } ∧ s'.mem = s.mem ∧ s'.fab = s.fab)) ∧
  ∀ (s : State) (k : Nat) (g : Engine), Request s k 0xD1 g →
    let used := (s.port.engines.filter fun x => x.port == g.port && x.inContext).length
    let first : Prop := ∀ x ∈ s.port.engines, x.id ≠ g.id → x.port = g.port → s.mayTake x = true → g.since < x.since ∨ (g.since = x.since ∧ g.id < x.id)
    (s.mayTake g = true → used < 8 → first → exec (.weirContextTake k) s =
      .next { s with port := { s.port with engines := changed s g { g with state := .running } } }) ∧
    (s.mayTake g = false ∨ 8 ≤ used ∨ ¬ first → exec (.weirContextTake k) s = .next s)

/-- R364 to R367, R369, R372, R374: a running scan takes the next 1,024 candidates; those that qualify leave as pairs in ascending order,
or enter the comparator, which keeps the K best. A pair leaves for a unit of the credit that its Weir holds of the colour, which it asks for as an element does, and the count of the pairs sent after
the last. A request that is in a context again has the cursor of its save record. -/
def Sys2Proof.Claims.WeirScans : Prop :=
  (∀ (s s1 : State) (k base x p0 key : Nat) (g : Engine), Request s k 0xD1 g → g.state = .running → g.saved = false → g.base = some (base, x) →
    g.cursor < g.count → (g.keeps = 0 → g.pairs = []) →
    let w := tyBits g.ty / 8
    let n := min 1024 (g.count - g.cursor)
    let place : Nat → Nat := fun c => base + c * g.stride * w
    let value : Nat → Nat := fun c => ofBytes (s1.mem.read key (p0 + place c % 65536) w)
    let bits : Nat → BitVec 8 := fun c => tget 0 s1.mem.sbits (p0 + place c % 65536) &&& 0x1F
    let pairs := ((List.range' g.cursor n).filter fun c => g.qualifies (value c)).map fun c => (mkPair c (value c), bits c)
    place (g.cursor + n - 1) < 2 ^ 57 →
    (∀ c, g.cursor ≤ c → c < g.cursor + n → place c / 65536 = place g.cursor / 65536 ∧ s1.mem.bad (p0 + place c % 65536) w = false) →
    s.enginePhys g g.vw false (place g.cursor / 65536 * 65536) = (s1, .ok (p0, key)) →
    Ends (.weirChunk k) s fun s' =>
      let kept := if g.keeps = 0 then pairs else keepBest g.ty g.keeps g.pairs pairs
      s'.port.engines = changed s g { g with cursor := g.cursor + n, pairs := kept, copy := if g.keeps = 0 then [] else kept,
                                             state := if g.count ≤ g.cursor + n then .finished else .running } ∧
      s'.mem.mem = s.mem.mem ∧ s'.mem.host = s.mem.host ∧ s'.mem.peer = s.mem.peer ∧ s'.stew = s.stew ∧ s'.fab.tokens = s.fab.tokens) ∧
  (∀ (ty : Ty) (k : Nat) (l : List (Word × BitVec 8)), isFp ty = true → (l.map fun x => x.1.toNat / 2 ^ 32).Nodup →
    let r := keepBest ty k [] l
    r.length = min k l.length ∧ r.Pairwise (pairAbove (fmtOf ty)) ∧ (∀ x ∈ r, x ∈ l) ∧ ∀ x ∈ l, x ∉ r → ∀ y ∈ r, pairAbove (fmtOf ty) y x) ∧
  (∀ (s : State) (k : Nat) (g : Engine) (p : Word) (b : BitVec 8) (ps : List (Word × BitVec 8)), Request s k 0xD1 g → g.pairs = (p, b) :: ps →
    g.inContext = true → (0 < g.keeps → g.state = .finished) →
    let c := tagCol g.tag
    let w := 2400 + g.port
    let x := tget (⟨0, 0⟩ : Credit) (s.elem w).credits c
    (0 < x.units → Ends (.weirResultSend k) s fun s' =>
      s'.port.engines = changed s g { g with pairs := ps, sent := g.sent + 1 } ∧ s'.colours = s.colours ∧
      (s'.elem w).credits = tset ⟨0, 0⟩ (s.elem w).credits c ⟨x.units - 1, s.cycle⟩ ∧
      s'.fab.tokens = s.fab.tokens ++ sent s (some g.port) g.e g.ctx 1
        [⟨hereTarget (nfld g.pkt 283 5) (nfld g.pkt 281 2), g.sb ||| b, .scalar, pairOut g.ty (p.toNat / 2 ^ 32, p.toNat % 2 ^ tyBits g.ty), none, g.tag, []⟩] ∧
      s'.mem = s.mem ∧ s'.stew = s.stew) ∧
    (x.units = 0 → exec (.weirResultSend k) s = .next (if s.fab.asks.any (fun a => a.e == w && a.col == c) then s
      else { s with fab := { s.fab with asks := s.fab.asks ++ [⟨c, w, 16⟩] } }))) ∧
  (∀ (s : State) (k : Nat) (g : Engine), Request s k 0xD1 g → g.state = .finished → g.pairs = [] → Ends (.weirCompletion k) s fun s' =>
    s'.port.engines = s.port.engines.filter (fun x => x.id != g.id) ∧ s'.mem = s.mem ∧ s'.stew = s.stew ∧
    s'.fab.tokens = s.fab.tokens ++ sent s (some g.port) g.e g.ctx 1 [⟨g.target, g.sb, .scalar, BitVec.ofNat 64 g.sent, none, g.tag, [fromEngine]⟩]) ∧
  ∀ (s : State) (k pa key : Nat) (g : Engine), Request s k 0xD1 g → g.state = .running → g.saved = true →
    s.savePhys g (s.saveAt g g.saveIdx) false = .ok (pa, key) → s.mem.bad pa (48 + 8 * g.keeps) = false → Ends (.weirResume k) s fun s' => ∃ h : Engine, s'.port.engines = changed s g h ∧
      h.saved = false ∧ h.cursor = ofBytes (s.mem.read key (pa + 40) 4) ∧ h.state = .running ∧ h.pairs = h.copy ∧
      s'.mem = s.mem ∧ s'.stew = s.stew ∧ s'.fab.tokens = s.fab.tokens

/-! ### Links and collectives -/

/-- R235, R453: LSEND hands a packet to its link port: the token's tag, side-band and payload, or the tile of its slot. The packet waits in
the port's queue with its operand tokens, the slot to release and the done token, until the link accepts it (`LinksCarryPackets`). A poisoned
operand raises POISON (log entry 29), a tile without a header BUFFER. -/
def Sys2Proof.Claims.LsendHandsOver : Prop :=
  ∀ (o : Ops) (s : State) (f : Firing) (d : Token), FiresOn s f d →
    let p := (s.partOfElem f.e).getD 0
    let chan := o.imm.toNat % 256
    let peer := s.peerOf p (o.imm.toNat / 256 % 16)
    let goes : BitVec 8 → Nat → (LinkPkt → Prop) → Prop := fun sb kind q => Ends (.lsend o) s fun s' => ∃ x : LinkPkt,
      s'.port.linkOut = s.port.linkOut ++ [x] ∧ x.port = wPort f.word ∧ x.peer = peer ∧ x.chan = chan ∧ x.ops = f.ops ∧
      x.since = s.cycle + 1 + s.toPort f.e (wPort f.word) ∧ s'.port.txSeq = s.port.txSeq ∧ fld x.head 0 64 = tagClean f.tag ∧ nfld x.head 64 8 = sb.toNat ∧ nfld x.head 72 2 = kind ∧
      nfld x.head 74 8 = chan ∧ nfld x.head 82 4 = s.ownEntry p % 16 ∧ x.done = only o.t1 ⟨0, sb, .scalar, 0, none, f.tag, [fromEngine]⟩ ∧ x.counted = true ∧ q x ∧
      s'.mem = s.mem ∧ s'.stew = s.stew ∧ s'.fab.units = s.fab.units ∧ s'.fab.tokens = s.fab.tokens
    (o.ty ≠ .tile →
      let sb := d.sb &&& 0x7F
      (sbPZ sb = true → ∃ n, n.code = 6 ∧ exec (.lsend o) s = .next (s.faultFiring f n)) ∧
      (sbPZ sb = false → goes sb 0 fun x => x.pay = (if sbNL sb then 0 else d.pay) ∧ x.pkt = none)) ∧
    (o.ty = .tile →
      let a := s.arg f .tile o.a (o.imm.getLsbD 12)
      let sb := a.sb &&& 0x7F
      (∀ i, s.argFault f a = some i → exec (.lsend o) s = .next (s.faultFiring f i)) ∧
      (s.argFault f a = none → sbPZ sb = true → ∃ n, n.code = 6 ∧ exec (.lsend o) s = .next (s.faultFiring f n)) ∧
      (s.argFault f a = none → sbPZ sb = false → sbNL sb = true → goes sb 2 fun x => ∃ t, x.pkt = some t ∧ t.body = [] ∧ hSb t.hdr = sb) ∧
      (s.argFault f a = none → sbDead sb = false → a.slot.hv = false → ∃ n, n.code = 12 ∧ exec (.lsend o) s = .next (s.faultFiring f n)) ∧
      (s.argFault f a = none → sbDead sb = false → a.slot.hv = true → goes sb 2 fun x => x.release = releases [a] ∧ ∃ t, x.pkt = some t ∧ hTag t.hdr = tagClean f.tag ∧
        hNrow t.hdr = hNrow a.slot.hdr ∧ hNcol t.hdr = hNcol a.slot.hdr ∧ hFmt t.hdr = hFmt a.slot.hdr ∧
        t.body.length = 64 * fmtBeats (hFmt a.slot.hdr) (hNrow a.slot.hdr) (hNcol a.slot.hdr)))

/-- R235, R453: LRECV takes the packet that is next of its peer and channel: its sequence number moves on; a colour that is not bound to
the load drops the packet and counts it in LKDROPS; a packet of another kind than TY raises CONFIG; a scalar is sent with the packet's
side-band and payload, a tile is written into the slot that its header names, and a malformed tile, or one whose slot is missing, full or too
small, raises BUFFER. A packet of another kind stays parked as a token of its activation, for which a unit of credit is spent. -/
def Sys2Proof.Claims.LrecvTakesTheNext : Prop :=
  ∀ (o : Ops) (s : State) (f : Firing) (p : LinkIn), s.focus = .node f → s.recvNext f.word = some p → 80 ≤ p.port →
    let key := seqKey p.src p.chan
    let sb : BitVec 8 := fld p.head 64 8 &&& 0x7F
    let tile : Prop := nfld p.head 72 2 = 2
    let bound := s.colBound f.e f.ctx (tagCol f.tag)
    let taken : State → Prop := fun s' => s'.port.linkIn = s.port.linkIn.erase p ∧ tget 0 s'.port.rxSeq key = (p.seq + 1) % 2 ^ 32 ∧ s'.mem = s.mem ∧ s'.stew = s.stew
    (bound = false → Ends (.lrecv o) s fun s' => taken s' ∧ s'.fab.tokens = s.fab.tokens ∧ s'.fab.units = s.fab.units ∧
      (s'.link (p.port - 80)).drops = (s.link (p.port - 80)).drops + 1) ∧
    let faulted : Nat → State → Prop := fun code s' => taken s' ∧ s'.fab.units = s.fab.units ∧
      (s.purgedAt f.e f.tag = false → s.roundOf (tagCol f.tag) (s.loadidAt f.e (tagCtx f.tag)) (tagIter f.tag) = none →
        ∃ q : PendFault, s'.fab.faults = s.fab.faults ++ [q] ∧ nfld q.rcd 192 4 = code ∧ q.tag = f.tag)
    (bound = true → ¬ (tile ↔ o.ty = .tile) → Ends (.lrecv o) s fun s' => faulted 7 s' ∧
      (s'.elem f.e).credits = tset ⟨0, 0⟩ (s.elem f.e).credits (tagCol f.tag)
        { tget (⟨0, 0⟩ : Credit) (s.elem f.e).credits (tagCol f.tag) with units := (tget (⟨0, 0⟩ : Credit) (s.elem f.e).credits (tagCol f.tag)).units - 1 } ∧
      ∃ t ∈ s'.fab.tokens, t.tag = f.tag ∧ t.sb = sb ∧ t.pay = p.pay ∧ t.pkt = p.pkt ∧ t.dst = .node f.e f.slot 0 ∧ t.parked = true) ∧
    (bound = true → ¬ tile → o.ty ≠ .tile → Ends (.lrecv o) s fun s' => taken s' ∧ s'.fab.tokens = s.fab.tokens ∧
      s'.fab.units = issued s f 1 (both o ⟨0, sb, .scalar, if sbDead sb then 0 else p.pay, none, f.tag, []⟩)) ∧
    (∀ q, bound = true → tile → o.ty = .tile → p.pkt = some q → tileOk q = false → Ends (.lrecv o) s (faulted 12)) ∧
    (∀ q, bound = true → tile → o.ty = .tile → p.pkt = some q → tileOk q = true → sbDead (hSb q.hdr) = true → Ends (.lrecv o) s fun s' => taken s' ∧
      s'.fab.tokens = s.fab.tokens ∧ s'.fab.units = issued s f 1 (both o ⟨0, hSb q.hdr &&& 0x7F, .ref, 0, none, f.tag, []⟩)) ∧
    (∀ q, bound = true → tile → o.ty = .tile → p.pkt = some q → tileOk q = true → sbDead (hSb q.hdr) = false →
      (s.buf f.e f.ctx (hDbuf q.hdr) = none ∨
        ∃ b, s.buf f.e f.ctx (hDbuf q.hdr) = some b ∧ (b.depth ≤ hDslot q.hdr ∨ (b.slot (hDslot q.hdr)).full = true ∨ b.size < hBeats q.hdr)) →
      Ends (.lrecv o) s (faulted 12)) ∧
    (∀ q b, bound = true → tile → o.ty = .tile → p.pkt = some q → tileOk q = true → sbDead (hSb q.hdr) = false → s.buf f.e f.ctx (hDbuf q.hdr) = some b →
      hDslot q.hdr < b.depth → (b.slot (hDslot q.hdr)).full = false → hBeats q.hdr ≤ b.size → Ends (.lrecv o) s fun s' => taken s' ∧ s'.fab.tokens = s.fab.tokens ∧
        (s'.elem f.e).pool = msetN (s.elem f.e).pool (b.slotByte (hDslot q.hdr)) q.body ∧
        s'.fab.units = issued s f 1 (both o ⟨0, hSb q.hdr &&& 0x7F, .ref, mkRef (hDbuf q.hdr) (hDslot q.hdr) (hBeats q.hdr), none, f.tag, []⟩))

/-- R452 to R454: from boot stage 6 on (R475) training fixes a link's version, the lower of the two, and its peer. A packet that arrives in a trained link waits for its
LRECV, but a duplicate is dropped. A link accepts a packet that waits once its peer has a link that takes its lane class and its round is open: the packet takes the
next sequence number of its peer and channel, its token is gone and its done token is sent; it stays until it is acknowledged. A link
that is lost, or no longer in its peer's spray set, hands its packets to another link to the same peer. When no link to a peer has been trained for 100 µs, its packets are dropped and counted and their done
tokens sent with NL, and the collectives that wait on it fail. -/
def Sys2Proof.Claims.LinksCarryPackets : Prop :=
  (∀ (s : State) (l v : Nat) (peer : BitVec 32),
    (l < 12 → v ≠ 0 → 6 ≤ s.mgmt.boot → exec (.linkTraining l v peer) s =
      .next (s.setLink l { s.link l with trained := true, version := min v 3, peer := peer, stopped := [] }).moveHeld) ∧
    (12 ≤ l ∨ v = 0 ∨ s.mgmt.boot < 6 → exec (.linkTraining l v peer) s = .next s)) ∧
  (∀ (s : State) (l : Nat), exec (.linkLoss l) s = .next (s.setLink l { s.link l with trained := false, lost := s.cycle }).moveHeld) ∧
  (∀ s : State, s.moveHeld.port.linkOut.length = s.port.linkOut.length ∧
    s.moveHeld = { s with port := { s.port with linkOut := s.moveHeld.port.linkOut } } ∧
    ∀ n x, nth? s.port.linkOut n = some x →
      ((s.sprayed x.part x.peer = [] ∨ x.port - 80 ∈ s.sprayed x.part x.peer) → nth? s.moveHeld.port.linkOut n = some x) ∧
      (s.sprayed x.part x.peer ≠ [] → x.port - 80 ∉ s.sprayed x.part x.peer →
        ∃ j ∈ s.sprayed x.part x.peer, nth? s.moveHeld.port.linkOut n = some { x with port := 80 + j })) ∧
  (∀ (s : State) (l seq : Nat) (head : BitVec 128) (payload : List Byte), l < 12 → (s.link l).trained = true → seq < 2 ^ 32 →
    let peer := (s.link l).peer.toNat
    let chan := nfld head 74 8
    let ahead := (seq + 2 ^ 32 - tget 0 s.port.rxSeq (seqKey peer chan)) % 2 ^ 32
    let twice : Prop := ∃ p ∈ s.port.linkIn, p.src = peer ∧ p.chan = chan ∧ p.seq = seq
    (2 ^ 31 ≤ ahead ∨ twice → exec (.linkPacketArrival l seq head payload) s = .next s) ∧
    (ahead < 2 ^ 31 → ¬ twice → Ends (.linkPacketArrival l seq head payload) s fun s' => ∃ p : LinkIn,
      s' = { s with port := { s.port with linkIn := s.port.linkIn ++ [p] } } ∧ p.port = 80 + l ∧ p.src = peer ∧ p.chan = chan ∧ p.seq = seq ∧ p.head = head ∧
      p.pay = BitVec.ofNat 64 (ofBytes (payload.take 8)))) ∧
  (∀ (s : State) (i : Nat) (x : LinkPkt), nth? s.port.linkOut i = some x →
    let tag : Word := fld x.head 0 64
    let c := tagCol tag
    let n := tget 0 s.port.txSeq (seqKey x.peer.toNat x.chan)
    let open_ : Prop := (∃ l ∈ s.sprayed x.part x.peer, (if x.pkt.isSome then 1 else 0) ∉ (s.link l).stopped) ∧ s.iterOpen c x.load (tagIter tag) = true ∧
      ∀ r, s.heldRound c x.load (tagIter tag) = some r → r.voided = false
    (x.counted = true → x.since ≤ s.cycle → open_ → let s' := s.acceptLink i
      s'.port.linkOut = setNth s.port.linkOut i { x with seq := n, counted := false, done := [], ops := [], release := [] } ∧
      s'.port.txSeq = tset 0 s.port.txSeq (seqKey x.peer.toNat x.chan) ((n + 1) % 2 ^ 32) ∧
      s'.fab.tokens = s.fab.tokens ++ sent s (some x.port) x.e x.ctx 1 x.done ∧
      s'.colours = (s.inflDown c (1 - outCount x.done)).colours ∧ s'.mem = s.mem ∧ s'.stew = s.stew) ∧
    (x.counted = false ∨ s.cycle < x.since ∨ ¬ open_ → s.acceptLink i = s)) ∧
  (∀ (s : State) (l seq i : Nat), findIdx? (fun x : LinkPkt => !x.counted && x.peer == (s.link l).peer && x.chan == seq / 2 ^ 32 && x.seq == seq % 2 ^ 32) s.port.linkOut 0 = some i →
    (s.link l).trained = true →
    exec (.linkAcknowledgement l seq) s = .next { s with port := { s.port with linkOut := dropNth s.port.linkOut i } }) ∧
  (∀ (s : State) (g : Coll), s.port.linkOut = [] → s.port.colls = [g] →
    let gone : Prop := ∃ m, m < 16 ∧ peerIn g.topo m ≠ 0 ∧ g.waitsOn (peerIn g.topo m) = true ∧ s.sprayed g.part (peerIn g.topo m) = [] ∧
      130000 ≤ s.cycle - s.emptySince g.part (peerIn g.topo m)
    (¬ gone → exec (.spraySetTimeout 0) s = .next s) ∧
    (gone → g.fwd = false → Ends (.spraySetTimeout 0) s fun s' => s'.port.colls = [] ∧ s'.mem = s.mem ∧ s'.stew = s.stew ∧
      s'.fab.tokens = s.fab.tokens ++ sent s (some g.port) g.e g.ctx 1 [⟨g.target, (g.sb ||| 0x40) &&& 0x7F, .ref, 0, none, g.tag, []⟩] ∧
      ∃ ev : Event, fld ev 60 4 = 5#4 ∧ (s'.part g.part).events ++ (s'.part g.part).held = (s.part g.part).events ++ (s.part g.part).held ++ [ev])) ∧
  ∀ (s : State) (n : Nat) (x : LinkPkt), nth? s.port.linkOut n = some x →
    (s.sprayed x.part x.peer ≠ [] ∨ s.cycle - s.emptySince x.part x.peer < 130000 → exec (.spraySetTimeout n) s = .next s) ∧
    (s.sprayed x.part x.peer = [] → 130000 ≤ s.cycle - s.emptySince x.part x.peer → s.port.linkOut = [x] → s.port.colls = [] → 80 ≤ x.port → Ends (.spraySetTimeout n) s fun s' =>
      s'.port.linkOut = [] ∧ (s'.link (x.port - 80)).drops = (s.link (x.port - 80)).drops + 1 ∧ s'.mem = s.mem ∧ s'.stew = s.stew ∧
      s'.fab.tokens = s.fab.tokens ++ (if x.counted then sent s (some x.port) x.e x.ctx 1 (x.done.map fun d => { d with sb := (d.sb ||| 0x40) &&& 0x7F }) else []))

/-- R234, R456: COLL reserves its slot, keeps its tile as this chip's own contribution and joins the collectives in flight; a poisoned
operand raises POISON, a null one sends a null reference at once (log entry 29), a group that is not valid raises CONFIG, and a tile or
buffer that does not fit BUFFER. -/
def Sys2Proof.Claims.CollJoinsItsGroup : Prop :=
  ∀ (o : Ops) (s : State) (f : Firing), s.focus = .node f →
    let a := s.arg f .tile o.a (o.imm.getLsbD 5)
    let p := (s.partOfElem f.e).getD 0
    let g := tget 0 (s.part p).groups (o.imm.toNat / 256)
    let n := o.imm.toNat % 32
    let ha := a.slot.hdr
    let fits : Prop := a.slot.hv = true ∧ (hFmt ha < 3 ∨ hFmt ha = 5)
    let buffer : Prop := ∃ i, i.code = 12 ∧ exec (.coll o) s = .next (s.faultFiring f i)
    s.argFault f a = none →
    (sbPZ a.sb = true → ∃ i, i.code = 6 ∧ exec (.coll o) s = .next (s.faultFiring f i)) ∧
    (sbPZ a.sb = false → sbNL a.sb = true → exec (.coll o) s = .next (s.fire f o 1 (only o.t1 ⟨0, a.sb, .ref, 0, none, f.tag, []⟩) a.sb)) ∧
    (sbDead a.sb = false → g.getLsbD 16 = false → ∃ i, i.code = 7 ∧ exec (.coll o) s = .next (s.faultFiring f i)) ∧
    (sbDead a.sb = false → g.getLsbD 16 = true → (¬ fits ∨ s.buf f.e f.ctx n = none) → buffer) ∧
    ∀ b, sbDead a.sb = false → g.getLsbD 16 = true → fits → s.buf f.e f.ctx n = some b →
      (b.size < fmtBeats (hFmt ha) (hNrow ha) (hNcol ha) → buffer) ∧
      (fmtBeats (hFmt ha) (hNrow ha) (hNcol ha) ≤ b.size → (b.slot b.widx).full = true → exec (.coll o) s = .next (s.unfire f)) ∧
      (fmtBeats (hFmt ha) (hNrow ha) (hNcol ha) ≤ b.size → (b.slot b.widx).full = false → Ends (.coll o) s fun s' => ∃ x : Coll,
        s'.port.colls = s.port.colls ++ [x] ∧ x.part = p ∧ x.grp = o.imm.toNat / 256 ∧ x.tag = f.tag ∧ x.sb = a.sb ∧ x.op = o.imm.toNat / 64 % 4 ∧
        x.sat = o.fl.getLsbD 8 ∧ x.dbuf = n ∧ x.dslot = b.widx ∧ x.target = o.t1 ∧ x.members = g.setWidth 16 ∧ x.got = [] ∧ x.own = s.ownEntry p ∧ x.topo = (s.part p).topo ∧ x.fwd = false ∧
        hNrow x.tile.hdr = hNrow ha ∧ hNcol x.tile.hdr = hNcol ha ∧ hFmt x.tile.hdr = hFmt ha ∧ s'.mem = s.mem ∧ s'.stew = s.stew ∧
        s'.fab.tokens = s.fab.tokens ∧ s'.fab.units = s.fab.units)

/-- R234, R453, R455, R456: a contribution that fits is kept, once from each topology entry, in the order of its peer's sequence numbers. When this chip's own and those of its subtree are there,
the root combines them in ascending rank and ends the collective, and another chip sends its part to its parent, over the link that the topology
names, and ends with what its parent sends; the result goes to the children. A chip that is no member and runs no COLL takes part to forward only (log
entry 66). A collective whose own contribution has waited TMO microseconds fails: a null reference and a COLLFAIL event that names the members that contributed. -/
def Sys2Proof.Claims.CollectivesCombine : Prop :=
  (∀ (s : State) (k c : Nat) (hdr : BitVec 256) (body : List Byte), nth? s.port.colls k = none →
    let j := k - s.port.colls.length
    let p := j / 256
    let grp := j % 256
    let n := c % 16
    let g := tget 0 (s.part p).groups grp
    let t : TilePkt := ⟨hdr, 0, body⟩
    let x : Coll := ⟨p, grp, 0, 0, 0, 0, tagClean (fld hdr 0 64), 0, 0, false, false, 0, 0, 0, 0, s.ownEntry p, t, tset none [] n (some t), fld g 0 16,
      nfld g 17 16, s.cycle, (s.part p).topo, true⟩
    let takes : Prop := pV (s.part p).desc = true ∧ g.getLsbD 16 = true ∧ bit x.members x.own = false ∧ n ∈ x.awaited ∧
      (∀ y ∈ s.port.colls, y.part = p → y.grp = grp → y.fits hdr body = false) ∧ s.collTurn x.topo n (c / 16) = true
    (¬ takes → exec (.collContribution k c hdr body) s = .next s) ∧
    (takes → x.own ≠ 0 → Ends (.collContribution k c hdr body) s fun s' => s'.port.colls = s.port.colls ++ [x] ∧ s'.mem = s.mem ∧ s'.fab = s.fab ∧
      ((∃ m ∈ x.awaited, m ≠ n) → s'.port.linkOut = s.port.linkOut) ∧
      ((∀ m ∈ x.awaited, m = n) → ∃ y : LinkPkt, s'.port.linkOut = s.port.linkOut ++ [y] ∧ y.port = 80 + nfld (tget 0 x.topo x.parent) 4 4 ∧
        y.peer = peerIn x.topo x.parent ∧ y.counted = false))) ∧
  ∀ (s : State) (k : Nat) (g : Coll), nth? s.port.colls k = some g →
    (∀ c hdr body, let n := c % 16
      n ≠ g.own →
      let turn : Prop := tget 0 s.port.rxSeq (seqKey (peerIn g.topo n).toNat 256) = c / 16
      let s1 := s.collTaken g.topo n
      let all : Prop := ∀ m ∈ g.awaited, m ≠ n → (tget none g.got m).isSome = true
      (g.fits hdr body = false ∨ ¬ turn → exec (.collContribution k c hdr body) s = .next s) ∧
      (g.fits hdr body = true → turn → n ∈ g.awaited → tget none g.got n = none →
        let h := { g with got := tset none g.got n (some ⟨hdr, 0, body⟩) }
        (¬ all → exec (.collContribution k c hdr body) s = .next (s1.putColl k h)) ∧
        (all → g.own = 0 → exec (.collContribution k c hdr body) s = .next ((s1.putColl k h).collEnd k h h.combined.1 h.combined.2)) ∧
        (all → g.own ≠ 0 → Ends (.collContribution k c hdr body) s fun s' => ∃ x : LinkPkt,
          s'.port.linkOut = s.port.linkOut ++ [x] ∧ x.port = 80 + nfld (tget 0 g.topo g.parent) 4 4 ∧ x.peer = peerIn g.topo g.parent ∧ x.counted = false ∧
          s'.port.colls = setNth s.port.colls k h ∧ s'.mem = s.mem ∧ s'.fab = s.fab)) ∧
      (g.fits hdr body = true → turn → n ∉ g.awaited → n = g.parent → (∀ m ∈ g.awaited, (tget none g.got m).isSome = true) →
        exec (.collContribution k c hdr body) s = .next (s1.collEnd k g (tileValues ⟨hdr, 0, body⟩) (hSb hdr &&& 0x1F)))) ∧
    (∀ hdr body, g.own < 16 → g.fwd = false → tget none g.got g.own = none → g.since ≤ s.cycle → s.iterOpen (tagCol g.tag) g.load (tagIter g.tag) = true →
      (∃ m ∈ g.awaited, m ≠ g.own ∧ tget none g.got m = none) →
      exec (.collContribution k g.own hdr body) s = .next (s.putColl k { g with got := tset none g.got g.own (some g.tile), since := s.cycle })) ∧
    (∀ vals bits, ∃ ys : List LinkPkt, (s.collEnd k g vals bits).port.linkOut = s.port.linkOut ++ ys ∧
      ys.map (fun y => (y.port, y.peer)) = (g.awaited.filter fun c => c != g.own).map fun c => (80 + nfld (tget 0 g.topo c) 4 4, peerIn g.topo c)) ∧
    (∀ b vals bits, g.fwd = false → s.buf g.e g.ctx g.dbuf = some b → g.dslot < b.slots.length → hFmt g.tile.hdr = 5 →
      let s' := s.collEnd k g vals bits
      let data := packLanes 32 vals
      s'.port.colls = dropNth s.port.colls k ∧ mgetN (s'.elem g.e).pool (b.slotByte g.dslot) data.length = data ∧ s'.mem = s.mem ∧
      (∃ b', s'.buf g.e g.ctx g.dbuf = some b' ∧ (b'.slot g.dslot).full = true ∧ (b'.slot g.dslot).hv = true ∧ (b'.slot g.dslot).hdr = g.tile.hdr) ∧
      s'.fab.tokens = s.fab.tokens ++ sent s (some g.port) g.e g.ctx 1
        [⟨g.target, (g.bits ||| bits) &&& 0x7F, .ref, mkRef g.dbuf g.dslot ((data.length + 63) / 64), none, g.tag, []⟩]) ∧
    (g.fwd = false → (tget none g.got g.own).isSome = true → 1300 * g.tmo ≤ s.cycle - g.since → Ends (.collTimeout k) s fun s' => ∃ ev : Event,
      s'.port.colls = dropNth s.port.colls k ∧ fld ev 60 4 = 5#4 ∧ nfld ev 44 16 = g.grp % 65536 ∧ fld ev 64 64 = tagClean g.tag ∧
      (s'.part g.part).events ++ (s'.part g.part).held = (s.part g.part).events ++ (s.part g.part).held ++ [ev] ∧
      s'.fab.tokens = s.fab.tokens ++ sent s (some g.port) g.e g.ctx 1 [⟨g.target, (g.sb ||| 0x40) &&& 0x7F, .ref, 0, none, g.tag, []⟩] ∧
      s'.mem = s.mem ∧ s'.stew = s.stew) ∧
    (g.fwd = true → 1300 * g.tmo ≤ s.cycle - g.since →
      exec (.collTimeout k) s = .next { s with port := { s.port with colls := dropNth s.port.colls k } }) ∧
    ((g.fwd = false ∧ tget none g.got g.own = none) ∨ s.cycle - g.since < 1300 * g.tmo → exec (.collTimeout k) s = .next s)

/-! ### Windows and control blocks -/

/-- R287, R288, Table 9.2: a store to a binding entry writes a value whose bits 63:13 are zero and whose colour, when bit 12 is set, is of
the partition; any other value traps as PROTECTION and changes no entry. -/
def Sys2Proof.Claims.BindingStores : Prop :=
  ∀ (s : State) (t i : Nat) (v : Word), i < 1024 →
    let p := s.partOfThread t
    let ok : Prop := v.toNat / 8192 = 0 ∧ (v.getLsbD 12 = true → colIn (s.part p).desc (v.toNat % 4096) = true)
    (ok → exec (.bindingStore t i v) s = .next (s.setPart p { s.part p with bind := tset 0 (s.part p).bind i v })) ∧
    (¬ ok → NoTrap s t → Ends (.bindingStore t i v) s fun s' => Trapped s s' t 2 0 (BitVec.ofNat 64 (0x01FF000000000000 + 8 * i)) (s.thread t).pc)

/-- R283, R311, R313, R326, R347: writes of the configuration space. ELATCH keeps WATCH and V of the value and clears its other fields,
and the firings with XL of the same cycle are captured after it; an element that does not exist has none; a
heat entry is cleared whatever is written; a register of an owned context slot takes the value; RETCNT, a register that does not exist and
an element outside the partition's rectangle trap as PROTECTION. Nothing else changes. -/
def Sys2Proof.Claims.ConfigurationSpace : Prop :=
  (∀ (s : State) (e : Nat) (v : Word),
    (2304 ≤ e → exec (.elatchWrite e v) s = .next s) ∧
    (e < 2304 → Ends (.elatchWrite e v) s fun s' => ∃ w x : Word,
      w.getLsbD 63 = v.getLsbD 63 ∧ (∀ i, i < 5 → w.getLsbD i = v.getLsbD i) ∧ (∀ i, 5 ≤ i → i < 63 → w.getLsbD i = false) ∧
      s' = s.setElem e { s.elem e with elatch := x } ∧
      ((s.elem e).shown.1 ≠ s.cycle + 1 → x = w) ∧ (∀ l, (s.elem e).shown = (s.cycle + 1, l) → x = l.foldl latched w))) ∧
  (∀ (s : State) (p i : Nat), i < 1024 → Ends (.heatEntryClear p i) s fun s' =>
    s' = { s with mem := { s.mem with heat := tset 0 s.mem.heat (1024 * p + i) 0 } }) ∧
  (∀ (s : State) (t e : Nat), NoTrap s t → Ends (.retcntWrite t e) s fun s' =>
    Trapped s s' t 2 0 (BitVec.ofNat 64 (0x01FE000001008000 + 8 * e)) (s.thread t).pc) ∧
  (∀ (s : State) (t e : Nat) (v : Word), e < 2304 →
    let d := (s.part (s.partOfThread t)).desc
    (inRect d e = true → exec (.configRegisterWrite t (0x1000000 + 8 * e) v) s = exec (.elatchWrite e v) s) ∧
    (inRect d e = false → NoTrap s t → Ends (.configRegisterWrite t (0x1000000 + 8 * e) v) s fun s' =>
      Trapped s s' t 2 0 (BitVec.ofNat 64 (0x01FE000001000000 + 8 * e)) (s.thread t).pc) ∧
    (NoTrap s t → Ends (.configRegisterWrite t (0x1008000 + 8 * e) v) s fun s' =>
      Trapped s s' t 2 0 (BitVec.ofNat 64 (0x01FE000001008000 + 8 * e)) (s.thread t).pc) ∧
    ∀ c n, c < 4 → n < 1024 →
      let a := 0x1000000000 + 0x8000 * e + 0x2000 * c + 8 * n
      let mine := inRect d e = true ∧ d.getLsbD (27 + c) = true
      (mine → regExists (s.ctx e c).partwd n = true → exec (.configRegisterWrite t a v) s = .next (s.setKreg e c n v)) ∧
      ((¬ mine ∨ regExists (s.ctx e c).partwd n = false) → NoTrap s t → Ends (.configRegisterWrite t a v) s fun s' =>
        Trapped s s' t 2 0 (BitVec.ofNat 64 (0x01FE000000000000 + a)) (s.thread t).pc))

/-- R415, R418, R446: TAKE and ADONE of the 48 queue slots hold 32 bits. When ADONE passes one answer, the hub firmware copies its 16 bytes to the completion
ring of the slot's queue under the function's PASID and sets the pending bit of the queue's vector; nothing else of memory changes. -/
def Sys2Proof.Claims.LaunchWindowCounts : Prop :=
  (∀ (s : State) (q : Nat) (v : Word), 48 ≤ q → exec (.takeWrite q v) s = .next s ∧ exec (.adoneWrite q v) s = .next s) ∧
  ∀ (s : State) (q : Nat) (v : Word), q < 48 →
    let x := s.qslot q
    exec (.takeWrite q v) s = .next (s.setQslot q { x with take := v.setWidth 32 }) ∧
    (v.setWidth 32 = x.copied → exec (.adoneWrite q v) s = .next (s.setQslot q { x with adone := v.setWidth 32 })) ∧
    (v.setWidth 32 = x.copied + 1 → (s.vq x.vq.toNat).closed = false → 0 < nfld (s.vq x.vq.toNat).ctl 0 16 → Ends (.adoneWrite q v) s fun s' =>
      let n := x.vq.toNat
      let vq := s.vq n
      let f := s.vf (n / 1024)
      let at_ := 2 ^ 57 * f.pasid + (vq.cmplbase.toNat + 16 * (vq.cmpl.toNat % nfld vq.ctl 0 16))
      s'.mem = { s.mem with host := msetN s.mem.host at_ (mgetN x.answers (16 * (x.copied.toNat % 64)) 16) } ∧
      s'.qslot q = { x with adone := v.setWidth 32, copied := v.setWidth 32 } ∧ s'.vq n = { vq with cmpl := vq.cmpl + 1 } ∧
      (s'.vf (n / 1024)).msixPend = f.msixPend ||| (1 <<< nfld vq.ctl 32 6) ∧
      s'.stew = s.stew ∧ s'.fab = s.fab ∧ s'.port = s.port ∧ s'.parts = s.parts ∧ s'.colours = s.colours)

/-! ### The cut of a partition -/

/-- R464, R236: during a cut, a round that is still open when its drain bound has passed since the QUIESCE is voided with the younger ones
of its colour and load, without a record; memory stays (the basin engine sets P of what this parks later). An engine request that runs stops before its next chunk,
and the slot of a b2m copy, no longer in progress, expires if its stamp has been reached (R433). -/
def Sys2Proof.Claims.CutStopsRoundsAndEngines : Prop :=
  (∀ (s : State) (p k : Nat) (r : Round), nth? s.fab.rounds k = some r → (s.part p).cut = .draining → colIn (s.part p).desc r.col = true →
    r.state ≠ .committed → r.state ≠ .phase1 → r.voided = false →
    (∀ l, s.loadById p r.load = some l → s.window r.col (some l) * dDepth l.desc ≤ s.cycle - (s.part p).qstart) →
    Ends (.cutDrainTimeout p k) s fun s' =>
      s'.mem = s.mem ∧ s'.stew = s.stew ∧ s'.fab.faults = s.fab.faults ∧ s'.parts = s.parts ∧
      s'.fab.rounds.length = s.fab.rounds.length ∧ ∀ n q q', nth? s.fab.rounds n = some q → nth? s'.fab.rounds n = some q' →
        (q.col = r.col → q.load = r.load → q.state ≠ .committed → q.state ≠ .phase1 → age r.rbase q.rbase < 2 ^ 23 → q'.voided = true) ∧
        ((q.col ≠ r.col ∨ q.load ≠ r.load) → q' = q)) ∧
  ∀ (s : State) (k p : Nat) (g : Engine), nth? s.port.engines k = some g → s.partOfElem g.e = some p → (s.part p).cut = .draining →
    g.state = .running → g.pairs = [] → exec (.cutEngineStop k) s =
      .next (State.copyStops { s with port := { s.port with engines := setNth s.port.engines k { g with state := .stopped } } } g)

/-- R464, R467: the image of a cut is written once the partition has drained, in two steps: its colours are parked, and when every parked
token is in its basin (where a write to a basin fails, the partition is reset: R301) the image goes to the area that QUIESCE named and a QDONE event with its length is sent. Before, nothing happens. -/
def Sys2Proof.Claims.StateImageIsWritten : Prop :=
  ∀ (s : State) (p : Nat),
    let x := s.part p
    ((x.cut = .idle ∨ x.cut = .quiesced ∨ (x.cut = .draining ∧ s.cutDrained p = false) ∨ (x.cut = .parked ∧ s.cutWritten p = false)) →
      exec (.stateImageWrite p) s = .next s) ∧
    (x.cut = .draining → s.cutDrained p = true → exec (.stateImageWrite p) s =
      .next (s.guarded (s.cutMoves p) ((s.parkCut p).setPart p { (s.parkCut p).part p with cut := .parked }))) ∧
    (x.cut = .parked → s.cutWritten p = true → Ends (.stateImageWrite p) s fun s' =>
      let img := s.imageOf p
      let s1 := s.virtWrite p x.qarea.2.2 x.qarea.1 (chunk64 img.length img)
      ∃ ev : Event, s' = (s1.setPart p { s1.part p with cut := .quiesced }).sendEvent p ev ∧ fld ev 60 4 = 6#4 ∧
        fld ev 64 64 = BitVec.ofNat 64 img.length)

/-! ### The host interface -/

namespace Sys2Proof.Claims

/-- A request of a function is done: doubleword 0 of its mailbox holds the code, and the answer its status and value. -/
def asked (s : State) (f code status : Nat) (value : Word) : State :=
  let x := s.vf f
  s.setVf f { x with mailbox := tset 0 x.mailbox 0 (BitVec.ofNat 64 code), status := BitVec.ofNat 8 status, value := value }
/-- The host interface is up: every boot stage is done (R476). -/
def Up (s : State) : Prop := s.mgmt.boot = 7

end Sys2Proof.Claims

/-- R447, R448: a request that only the physical function (number 64 here) may make answers 1 to a virtual function, and changes nothing
else. While the host interface is down no request is taken. -/
def Sys2Proof.Claims.OnlyThePhysicalFunctionMay : Prop :=
  ∀ (s : State) (f n m : Nat) (v d1 d2 d3 d4 d5 d6 : Word) (bs : List Byte) (w : BitVec 512) (k : BitVec 1152) (g : BitVec 1056) (id : BitVec 32), f < 64 →
    let all : List (Nat × Instr) := [(1, .setroot f n v), (4, .loadkey f n bs), (5, .setgroup f n m v), (6, .setpart f n w), (7, .addkey f k g), (8, .revkey f id g),
      (9, .setcolour f d1 d2 d3 d4 d5 d6)]
    (Up s → ∀ x ∈ all, exec x.2 s = .next (asked s f x.1 1 0)) ∧ (¬ Up s → ∀ x ∈ all, exec x.2 s = .next s)

/-- R332, R447, R451, R456, Tables 11.4 and 18.5: SETROOT writes the root entry of an ASID; LOADKEY loads a key slot that no colour or region
names, after which what lines held under the slot's old key is unrelated to what they read as (log entry 5); SETGROUP writes a group entry.
A value out of range answers 2, a key slot in use or a group entry that a collective in flight names 3, and changes nothing else. -/
def Sys2Proof.Claims.RootKeyAndGroupRequests : Prop :=
  ∀ (s : State) (n p : Nat) (v : Word) (bs : List Byte), Up s →
    let rootOk : Prop := n < 65536 ∧ nfld v 1 13 = 0 ∧ nfld v 52 12 = 0
    let keyOk : Prop := 1 ≤ n ∧ n < 256 ∧ Config.unwrapOk bs = true
    let groupOk : Prop := p < 16 ∧ pV (s.part p).desc = true ∧ n < 256 ∧ v.toNat / 2 ^ 33 = 0 ∧ (v.getLsbD 16 = true → nfld v 17 16 ≠ 0)
    (rootOk →
      exec (.setroot 64 n v) s = .next (asked { s with mem := { s.mem with asids := tset 0 s.mem.asids n v } } 64 1 0 0)) ∧
    (¬ rootOk → exec (.setroot 64 n v) s = .next (asked s 64 1 2 0)) ∧
    (keyOk → s.keyNamed n = false → Ends (.loadkey 64 n bs) s fun s' => n ∈ s'.host.keysLoaded ∧ (s'.vf 64).status = 0 ∧
      s'.mem = { s.mem with keys := s.mem.keys.map fun x => if x.2 = n then (x.1, 257 + n) else x } ∧
      s'.stew = s.stew ∧ s'.fab = s.fab ∧ s'.port = s.port ∧ s'.cov = s.cov ∧ s'.parts = s.parts ∧ s'.colours = s.colours) ∧
    (keyOk → s.keyNamed n = true → exec (.loadkey 64 n bs) s = .next (asked s 64 4 3 0)) ∧
    (¬ keyOk → exec (.loadkey 64 n bs) s = .next (asked s 64 4 2 0)) ∧
    let inFlight : Prop := ∃ c ∈ s.port.colls, c.part = p ∧ c.grp = n
    (groupOk → inFlight → exec (.setgroup 64 p n v) s = .next (asked s 64 5 3 0)) ∧
    (groupOk → ¬ inFlight → exec (.setgroup 64 p n v) s = .next (asked (s.setPart p { s.part p with groups := tset 0 (s.part p).groups n v }) 64 5 0 0)) ∧
    (¬ groupOk → exec (.setgroup 64 p n v) s = .next (asked s 64 5 2 0))

/-- R379, R395, R447: RESREGION reserves the free region of lowest number of the partition that owns the ASID, and answers its number;
DESTREGION marks a region for destruction, whose pages are freed as R389 lets them be. Both wait, undone, behind an instruction that the
region's Trimmer has taken (R390). -/
def Sys2Proof.Claims.RegionRequests : Prop :=
  ∀ (s : State) (f asid npage : Nat) (vbase : Word), Up s → f ≤ 64 →
    (∀ p, s.partOfAsid asid = some p → (f = 64 ∨ (s.vf f).part = p) →
      let d := (s.part p).desc
      let ok : Prop := 1 ≤ npage ∧ npage ≤ 4194304 ∧ vbase.toNat % 65536 = 0 ∧ vbase.toNat + 65536 * npage ≤ 2 ^ 57 ∧ s.regionsClash asid vbase.toNat npage = false
      (¬ ok → exec (.resregion f asid npage vbase) s = .next (asked s f 2 2 0)) ∧
      (ok → (∀ r, pRegion0 d ≤ r → r < pRegion0 d + pNregion d → (s.region r).v = true) → exec (.resregion f asid npage vbase) s = .next (asked s f 2 3 0)) ∧
      (∀ r, ok → pRegion0 d ≤ r → r < pRegion0 d + pNregion d → (s.region r).v = false → (∀ q, pRegion0 d ≤ q → q < r → (s.region q).v = true) →
        (s.trimmerHolds r = true → exec (.resregion f asid npage vbase) s = .next s) ∧
        (s.trimmerHolds r = false → Ends (.resregion f asid npage vbase) s fun s' => s' = asked (s.setRegion r (s'.region r)) f 2 0 (BitVec.ofNat 64 r) ∧
          (s'.region r).v = true ∧ (s'.region r).dying = false ∧ (s'.region r).asid = asid ∧ (s'.region r).npage = npage ∧
          (s'.region r).vbase = vbase.toNat ∧ (s'.region r).part = p))) ∧
    (s.partOfAsid asid = none → exec (.resregion f asid npage vbase) s = .next (asked s f 2 2 0)) ∧
    (∀ p, s.partOfAsid asid = some p → f ≠ 64 → (s.vf f).part ≠ p → exec (.resregion f asid npage vbase) s = .next (asked s f 2 1 0)) ∧
    ∀ r,
      let g := s.region r
      (s.trimmerHolds r = true → exec (.destregion f r) s = .next s) ∧
      (s.trimmerHolds r = false →
      (g.v = false → exec (.destregion f r) s = .next (asked s f 3 2 0)) ∧
      (g.v = true → f ≠ 64 → (s.vf f).part ≠ g.part → exec (.destregion f r) s = .next (asked s f 3 1 0)) ∧
      (g.v = true → f = 64 ∨ (s.vf f).part = g.part → g.dying = true → exec (.destregion f r) s = .next (asked s f 3 0 0)) ∧
      (g.v = true → f = 64 ∨ (s.vf f).part = g.part → g.dying = false → Ends (.destregion f r) s fun s' =>
        ((s'.region r).v = false ∨ (s'.region r).dying = true) ∧ (s'.vf f).status = 0 ∧ s'.stew = s.stew ∧ s'.fab = s.fab ∧ s'.colours = s.colours ∧
        ((g.ecur + 1) % 4 = g.eold → (∃ q ∈ s.cov.pages, q.1 / 2 ^ 22 = r ∧ q.2.alloc = true) → s'.cov.pages = s.cov.pages)))

/-- R442, R447, R477: SETPART writes a partition descriptor, FRAMES apart. A descriptor out of range or one that meets another partition
answers 2, one whose changed fields are in use 3, and neither changes a partition. A new partition has empty queues, bindings and groups,
colours at their reset values (R284), threads that nothing has started (R258) and a zero measurement slot; so are the threads of a core that a live
partition gains. -/
def Sys2Proof.Claims.PartitionsAreSet : Prop :=
  ∀ (s : State) (p : Nat) (v : BitVec 512), Up s →
    let w := setFld v 155 32 0
    let d := (s.part p).desc
    let ok : Prop := p < 16 ∧ partFieldsOk w = true ∧ (pV w = true → ∀ q ∈ s.parts, q.1 ≠ p → pV q.2.desc = true → partsMeet w q.2.desc = false)
    (¬ ok → exec (.setpart 64 p v) s = .next (asked s 64 6 2 0)) ∧
    (ok → pV d = true → s.partBusy p d w = true → exec (.setpart 64 p v) s = .next (asked s 64 6 3 0)) ∧
    (ok → pV d = true → s.partBusy p d w = false → Ends (.setpart 64 p v) s fun s' =>
      s' = asked { s.setPart p { s.part p with desc := w } with stew := { s.stew with threads := s'.stew.threads } } 64 6 0 0 ∧
      ∀ t, s'.thread t = if t < 64 ∧ pV w = true ∧ w.getLsbD (106 + t / 4) = true ∧ d.getLsbD (106 + t / 4) = false
        then { Thread.reset with image := (s.thread t).image } else s.thread t) ∧
    (ok → pV w = true → pV d = false → Ends (.setpart 64 p v) s fun s' => (s'.part p).desc = w ∧ (s'.part p).bind = [] ∧ (s'.part p).events = [] ∧
      (s'.part p).groups = [] ∧ (s'.part p).kept = (s.part p).kept ∧ (s'.vf 64).status = 0 ∧
      s'.mgmt = { s.mgmt with slots := tset 0 s.mgmt.slots (8 + p) 0 } ∧ s'.mem = s.mem ∧ s'.fab.tokens = s.fab.tokens ∧ s'.fab.loads = s.fab.loads ∧ s'.stew = { s.stew with threads := s'.stew.threads } ∧
      (∀ t, s'.thread t = if t < 64 ∧ w.getLsbD (106 + t / 4) = true then { Thread.reset with image := (s.thread t).image } else s.thread t) ∧
      (∀ c, s'.colour c = if colIn w c then Colour.reset else s.colour c) ∧ ∀ q, q ≠ p → s'.part q = s.part q)

/-- R480: ADDKEY writes an entry that a valid system entry signs, the first one entry 0, into the free entry of lowest number from 1 on;
REVKEY sets REV. A failed signature answers 2, a full store or a KEYID in use 3, and neither changes the store. -/
def Sys2Proof.Claims.KeyStoreRequests : Prop :=
  ∀ (s : State) (v : BitVec 1152) (g : BitVec 1056) (id : BitVec 32), Up s →
    let ks := s.mgmt.keystore
    let wellFormed : Prop := v.getLsbD 64 = true ∧ nfld v 67 29 = 0 ∧ nfld v 32 32 = 0
    let used : Prop := ks.any (fun k => bit k.2 64 && nfld k.2 0 32 == nfld v 0 32) = true
    (¬ wellFormed ∨ s.keySigned v g = false → exec (.addkey 64 v g) s = .next (asked s 64 7 2 0)) ∧
    (wellFormed → s.keySigned v g = true → used → exec (.addkey 64 v g) s = .next (asked s 64 7 3 0)) ∧
    (wellFormed → s.keySigned v g = true → ¬ used → (∀ n, 1 ≤ n → n < 64 → (tget 0 ks n).getLsbD 64 = true) →
      exec (.addkey 64 v g) s = .next (asked s 64 7 3 0)) ∧
    (∀ n, wellFormed → s.keySigned v g = true → ¬ used → 1 ≤ n → n < 64 → (tget 0 ks n).getLsbD 64 = false →
      (∀ m, 1 ≤ m → m < n → (tget 0 ks m).getLsbD 64 = true) →
      exec (.addkey 64 v g) s = .next (asked { s with mgmt := { s.mgmt with keystore := tset 0 ks n v } } 64 7 0 0)) ∧
    ((∀ k ∈ ks, bit k.2 64 = true → fld k.2 0 32 ≠ id) → exec (.revkey 64 id g) s = .next (asked s 64 8 2 0)) ∧
    ∀ n k, lfind (fun k => bit k.2 64 && fld k.2 0 32 == id) ks = some (n, k) →
      let signed := ks.any fun q => bit q.2 65 && signedBy q.2 (setFld k 66 1 1) g
      (signed = true → exec (.revkey 64 id g) s = .next (asked { s with mgmt := { s.mgmt with keystore := tset 0 ks n (setFld k 66 1 1) } } 64 8 0 0)) ∧
      (signed = false → exec (.revkey 64 id g) s = .next (asked s 64 8 2 0))

/-- R286: SETCOLOUR writes BASIN, BASINLEN, KEYSLOT, ASID, PASID and OWNER of a colour; out of the partition's ranges it answers 2, while
the colour has a token in flight or parked 3, and changes no entry. -/
def Sys2Proof.Claims.ColoursAreSet : Prop :=
  ∀ (s : State) (d1 d2 d3 d4 d5 d6 : Word), Up s →
    let c := d1.toNat % 4096
    let p := s.part (d1.toNat / 4096 % 16)
    let x := s.colour c
    let key := d4.toNat % 256
    let asid := d4.toNat / 65536 % 65536
    let owner := d6.toNat % 128
    let ok : Prop := colIn p.desc c = true ∧ keyIn p.desc key = true ∧ asidIn p.desc asid = true ∧ (owner < 64 ∨ owner = 127) ∧
      colsetOk 0 d2 = true ∧ colsetOk 1 d3 = true ∧ x.quota ≤ d3.toNat
    let same := fun s' : State => s'.mem = s.mem ∧ s'.fab = s.fab ∧ s'.stew = s.stew ∧ s'.parts = s.parts ∧ s'.port = s.port
    let ends := fun (n : Nat) (y : Colour) => Ends (.setcolour 64 d1 d2 d3 d4 d5 d6) s fun s' =>
      s'.colours = tset Colour.reset s.colours c y ∧ (s'.vf 64).status = BitVec.ofNat 8 n ∧ same s'
    let refused := fun (n : Nat) => Ends (.setcolour 64 d1 d2 d3 d4 d5 d6) s fun s' =>
      s'.colours = s.colours ∧ (s'.vf 64).status = BitVec.ofNat 8 n ∧ same s'
    (¬ ok → refused 2) ∧ (ok → s.colLive c = true → refused 3) ∧
    (ok → s.colLive c = false → ends 0 { x with basin := d2, basinlen := d3.toNat, keyslot := key, asid := asid, pasid := d5.toNat % 2 ^ 20, owner := owner })

/-- R445, Table 18.2: a doorbell writes the ring tail of a queue; a store to a queue descriptor writes RINGBASE, CMPLBASE or CTL, unless its
queue is enabled and not empty, when it is ignored, or the store enables a ring whose length is no power of two from 64 to 32,768 (log entry 117). `since`, the model's own, holds the time from which a queue has waited (R413). -/
def Sys2Proof.Claims.QueuesAreWritten : Prop :=
  ∀ (s : State) (f q : Nat) (v : Word), Up s → f < 64 → q < 1024 →
    let n := 1024 * f + q
    let x := s.vq n
    let same := fun s' : State => s'.mem = s.mem ∧ s'.fab = s.fab ∧ s'.stew = s.stew ∧ s'.parts = s.parts ∧ s'.host.vfs = s.host.vfs ∧
      ∀ m, m ≠ n → s'.vq m = s.vq m
    let ends := fun (i : Instr) (y : Vq) => Ends i s fun s' => same s' ∧ ∃ t, s'.vq n = { y with since := t }
    ends (.doorbellWrite f q v) { x with tail := v.setWidth 32 } ∧
    (x.ctl.getLsbD 31 = true → x.tail ≠ x.next → ∀ m, exec (.queueDescriptorWrite f q m v) s = .next s) ∧
    (x.ctl.getLsbD 31 = false ∨ x.tail = x.next →
      ends (.queueDescriptorWrite f q 0 v) { x with ringbase := v &&& ~~~127 } ∧
      ends (.queueDescriptorWrite f q 1 v) { x with cmplbase := v &&& ~~~127 } ∧
      (v.getLsbD 31 = false ∨ (∃ k, 6 ≤ k ∧ k ≤ 15 ∧ v.toNat % 65536 = 2 ^ k) →
        ends (.queueDescriptorWrite f q 2 v) { x with ctl := v &&& 0x3F800FFFFF }) ∧
      (v.getLsbD 31 = true → (∀ k, 6 ≤ k → k ≤ 15 → v.toNat % 65536 ≠ 2 ^ k) → ends (.queueDescriptorWrite f q 2 v) x) ∧
      ends (.queueDescriptorWrite f q 3 v) x)

/-- R445, R447, R448, R452: what the host reads and writes of a virtual function's BAR 0, a doubleword at a time: identity, STALEPRG, mailbox and
answer, queue descriptors and doorbells; a store to a read-only or reserved offset is ignored, and one of mailbox doubleword 7 submits the request,
SETCOLOUR with the mailbox's own operands (log entry 119). A code that is no request answers 2. Nothing answers while the interface is down. A link stops
and goes by lane class. -/
def Sys2Proof.Claims.HostReadsAndStores : Prop :=
  (∀ (s : State) (f a : Nat) (v : Word), 64 < f ∨ a % 8 ≠ 0 ∨ ¬ Up s → s.outside (.hostLoad f a) = .next s ∧ s.outside (.hostStore f a v) = .next s) ∧
  (∀ (s : State) (f : Nat) (v : Word), Up s → f < 64 →
    let x := s.vf f
    let reads : Nat → Word → Prop := fun a w => s.outside (.hostLoad f a) = .next { s with host := { s.host with loaded := w } }
    let mail : Nat → State := fun n => s.setVf f { x with mailbox := tset 0 x.mailbox n v }
    reads 0 (BitVec.ofNat 64 (f + 256 * x.incarn.toNat + 4096 * (x.part % 16))) ∧ reads 8 (x.staleprg.setWidth 64) ∧
    reads 0x80 (x.status.setWidth 64) ∧ reads 0x88 x.value ∧
    (∀ n, n < 8 → reads (0x40 + 8 * n) (tget 0 x.mailbox n)) ∧
    (∀ q, q < 1024 →
      (let y := s.vq (1024 * f + q)
       reads (0x1000 + 32 * q) y.ringbase ∧ reads (0x1008 + 32 * q) y.cmplbase ∧ reads (0x1010 + 32 * q) y.ctl ∧ reads (0x9000 + 8 * q) 0) ∧
      (∀ m, m < 4 → s.outside (.hostStore f (0x1000 + 32 * q + 8 * m) v) = exec (.queueDescriptorWrite f q m v) s) ∧
      s.outside (.hostStore f (0x9000 + 8 * q) v) = exec (.doorbellWrite f q v) s) ∧
    (∀ n, n < 7 → s.outside (.hostStore f (0x40 + 8 * n) v) = .next (mail n)) ∧
    (let d : Nat → Word := fun n => tget 0 ((mail 7).vf f).mailbox n
     (nfld (d 0) 0 8 = 9 → s.outside (.hostStore f 0x78 v) = exec (.setcolour f (d 1) (d 2) (d 3) (d 4) (d 5) (d 6)) (mail 7)) ∧
     (nfld (d 0) 0 8 = 0 ∨ 9 < nfld (d 0) 0 8 → s.outside (.hostStore f 0x78 v) =
       .next ((mail 7).setVf f { (mail 7).vf f with status := 2, value := 0 }))) ∧
    ∀ a, a < 0x40 ∨ (0x80 ≤ a ∧ a < 0x1000) ∨ 0xB400 ≤ a → s.outside (.hostStore f a v) = .next s) ∧
  ∀ (s : State) (l cls : Nat), l < 12 → cls < 2 →
    (∃ x : Link, s.outside (.stopGo l cls true) = .next (s.setLink l { s.link l with stopped := x.stopped }) ∧ ∀ c, c ∈ x.stopped ↔ c = cls ∨ c ∈ (s.link l).stopped) ∧
    ∃ x : Link, s.outside (.stopGo l cls false) = .next (s.setLink l { s.link l with stopped := x.stopped }) ∧ ∀ c, c ∈ x.stopped ↔ c ≠ cls ∧ c ∈ (s.link l).stopped

/-- R450, R328: a function level reset raises INCARN, modulo 16, frees the group slots, and sends shoot-downs of the PASIDs that the function serves; a page response of another INCARN is dropped and
counted, saturating, and one of this INCARN frees its slot; an invalidation makes the page absent and sends a shoot-down of kind 0b00. -/
def Sys2Proof.Claims.PageRequestGroups : Prop :=
  ∀ (s : State) (f i : Nat) (ok : Bool), Up s → f < 64 →
    let x := s.vf f
    (x.waiting = [] → Ends (.functionLevelReset f) s fun s' => s'.vf f = { x with incarn := x.incarn + 1, groups := [] } ∧
      s'.mem = s.mem ∧ s'.stew = s.stew ∧ s'.fab = s.fab ∧ (∀ g, g ≠ f → s'.vf g = s.vf g) ∧
      (∀ n, (n = x.pasid ∨ ∃ c, colIn (s.part x.part).desc c = true ∧ (s.colour c).pasid = n ∧ s.vfOf x.part n = some f) →
        ∃ h ∈ s'.port.shoots, h.thread = none ∧ h.part = x.part ∧ h.kind = 1 ∧ h.asid = hostAsid n) ∧
      (∀ n, n / 1024 ≠ f → s'.vq n = s.vq n) ∧
      ∀ n, n / 1024 = f → s.host.qslots.any (fun q => q.2.v && q.2.vq.toNat == n) = true → s'.vq n ≠ Vq.reset → (s'.vq n).closed = true) ∧
    (i / 32 % 16 ≠ x.incarn.toNat → exec (.pageResponse f i ok) s =
      .next (s.setVf f { x with staleprg := if x.staleprg = BitVec.allOnes 32 then x.staleprg else x.staleprg + 1 })) ∧
    (∀ r, i / 32 % 16 = x.incarn.toNat → tget none x.groups (i % 32) = some r → x.waiting = [] → Ends (.pageResponse f i ok) s fun s' =>
      s'.vf f = { x with groups := tset none x.groups (i % 32) none } ∧ s'.fab = s.fab ∧ s'.stew = s.stew ∧ s'.mem.mem = s.mem.mem) ∧
    ∀ (pasid : Nat) (va : Word), pasid < 2 ^ 20 → Ends (.atsInvalidation pasid va) s fun s' =>
      s'.mem = { s.mem with hostPages := tset 0 s.mem.hostPages (2 ^ 41 * pasid + va.toNat / 65536) 0 } ∧ s'.stew = s.stew ∧ s'.fab = s.fab ∧
      ∀ p ∈ s.parts, pV p.2.desc = true → ∃ h ∈ s'.port.shoots, h.part = p.1 ∧ h.kind = 0 ∧ h.va = va.toNat

/-! ### Resets, errors and halts -/

/-- R444: a partition reset leaves the partition's colours at their reset values, its bindings, event queue and fault ring empty and its
loads, offers and shoot-downs gone; descriptor, groups, kept records and the view key stay. It restarts the threads at the firmware entry. Memory (apart from
the basin entries of purged tokens, R306) and every other partition are as before. -/
def Sys2Proof.Claims.PartitionResetLeaves : Prop :=
  ∀ (s : State) (p : Nat), pV (s.part p).desc = true →
    let d := (s.part p).desc
    Ends (.partitionReset p) s fun s' => let x := s.part p
      (∀ c, colIn d c = true → s'.colour c = Colour.reset) ∧
      (s'.part p).bind = [] ∧ (s'.part p).events = [] ∧ (s'.part p).held = [] ∧ (s'.part p).ring = [] ∧ (s'.part p).order = [] ∧ (s'.part p).cut = .idle ∧
      (s'.part p).desc = x.desc ∧ (s'.part p).groups = x.groups ∧ (s'.part p).kept = x.kept ∧ (s'.part p).viewKey = x.viewKey ∧ (s'.part p).nres = x.nres ∧
      (∀ q, q ≠ p → s'.part q = s.part q) ∧
      (∀ l ∈ s'.fab.loads, l.part ≠ p) ∧ (∀ o ∈ s'.fab.offers, o.part ≠ p) ∧ (∀ h ∈ s'.port.shoots, h.part ≠ p) ∧
      (∀ t, t < 64 → d.getLsbD (106 + t / 4) = true → (s.thread t).started = true →
        s'.thread t = { Thread.reset with started := true, image := (s.thread t).image, asid := BitVec.ofNat 16 (pAsid0 d) }) ∧
      (∀ t, d.getLsbD (106 + t / 4) = false → s'.thread t = s.thread t) ∧
      ((∀ t ∈ s.fab.tokens, t.place.basinAt = none) → s'.mem.mem = s.mem.mem) ∧ s'.mem.asids = s.mem.asids ∧ s'.mgmt = s.mgmt

/-- R22, R457, Table 19.1: what a hardware error does. Corrected and silent errors and link losses change nothing here; consumed data sets PZ of
its token; an unconsumed line is marked; an error of the control state keeps one more record, with PW set, of at most 16, before the
partition's reset. (The encoding of the event's fields is the model's own: see the log.) -/
def Sys2Proof.Claims.ErrorsAreContained : Prop :=
  ∀ (s : State) (c p a : Nat),
    (c = 0 ∨ c = 6 ∨ c = 7 → exec (.errorDetected c p a) s = .next s) ∧
    (∀ t, nth? s.fab.tokens a = some t → Ends (.errorDetected 1 p a) s fun s' => ∃ u, s'.fab.tokens = setNth s.fab.tokens a u ∧ u = { t with sb := u.sb } ∧
      u.sb.getLsbD 5 = true ∧ (∀ i, i ≠ 5 → u.sb.getLsbD i = t.sb.getLsbD i) ∧ s'.mem = s.mem ∧ s'.stew = s.stew) ∧
    (p < 16 → Ends (.errorDetected 2 p a) s fun s' => a / 64 ∈ s'.mem.poison ∧ s'.mem.mem = s.mem.mem ∧ s'.fab = s.fab ∧ s'.stew = s.stew) ∧
    (16 ≤ p → p < 2320 → a < 8192 → Ends (.errorDetected 2 p a) s fun s' => a ∈ (s'.elem (p - 16)).poison ∧
      (s'.elem (p - 16)).pool = (s.elem (p - 16)).pool ∧ s'.mem = s.mem ∧ s'.stew = s.stew) ∧
    (pV (s.part p).desc = true → Ends (.errorDetected 3 p a) s fun s' => ∃ r : BitVec 512,
      (s'.part p).kept = ((s.part p).kept ++ [r]).drop ((s.part p).kept.length + 1 - 16) ∧ r.getLsbD 180 = true ∧ nfld r 192 4 = 6 ∧ nfld r 176 4 = p % 16 ∧
      (s'.part p).events = [] ∧ (s'.part p).ring = [] ∧ ∀ q, q ≠ p → s'.part q = s.part q)

/-- R460: a halted element keeps its state and its priorities, and a released element's sentinel counts go on from the value they held. -/
def Sys2Proof.Claims.DebugHaltAndRelease : Prop :=
  ∀ (s : State) (e : Nat), e < 2304 →
    let el := s.elem e
    (el.halted = false → exec (.debugHalt e) s = .next (s.setElem e { el with halted := true, haltedAt := s.cycle })) ∧
    (el.halted = true → Ends (.debugRelease e) s fun s' => (s'.elem e).halted = false ∧ (s'.elem e).ctxs = el.ctxs ∧
      (∀ c x, tget (⟨0, false⟩ : Sentinel) el.sentinels c = x → el.sentinels.any (fun y => y.1 == c) = true → x.since ≤ el.haltedAt → el.haltedAt ≤ s.cycle →
        s.cycle - (tget (⟨0, false⟩ : Sentinel) (s'.elem e).sentinels c).since = el.haltedAt - x.since) ∧
      (∀ n, n ≠ e → s'.elem n = s.elem n) ∧ s'.mem = s.mem ∧ s'.stew = s.stew ∧ s'.fab.tokens = s.fab.tokens)

/-! ### Queues, launches and loading -/

namespace Sys2Proof.Claims

/-- The launches with the one of record n of queue slot q replaced. -/
def launchesWith (s : State) (l m : Launch) : List Launch := s.host.launches.map fun x => if x.qslot == l.qslot && x.n == l.n then m else x
/-- The k-th launch, in a stage, and not held up by an eviction. -/
def LaunchAt (s : State) (k : Nat) (l : Launch) (g : LStage) : Prop := nth? s.host.launches k = some l ∧ l.stage = g ∧ s.launchPaused l = false
/-- The answer entry of a record in its slot's answer ring (R418). -/
def Answered (s : State) (l : Launch) (data reason code status : Nat) : Prop :=
  mgetN (s.qslot l.qslot).answers (16 * (l.n % 64)) 16 =
    bvBytes (BitVec.ofNat 128 (status + code * 2 ^ 20 + reason * 2 ^ 24 + data * 2 ^ 32 + lrId l.rcd * 2 ^ 64)) 16
/-- Memory, colours and threads are as they were. -/
def Still (s s' : State) : Prop := s'.mem.mem = s.mem.mem ∧ s'.colours = s.colours ∧ s'.stew = s.stew

end Sys2Proof.Claims

/-- R413: a free queue slot takes a queue that waits, of the highest VQPRIO and, of those, one that has waited longest; a slot gives up its
queue only when every record it published has been answered and its queue is empty, is outranked by one that waits, is closed, or has had its
quantum, 2 ms unless the hypervisor firmware has set another. -/
def Sys2Proof.Claims.QueuesTakeTurns : Prop :=
  ∀ (s : State) (q : Nat),
    let x := s.qslot q
    (48 ≤ q ∨ x.v = true ∨ s.waitingVqs = [] → exec (.queueResidency q) s = .next s) ∧
    (q < 48 → x.v = false → s.waitingVqs ≠ [] → Ends (.queueResidency q) s fun s' => ∃ n v, (n, v) ∈ s.waitingVqs ∧
      (∀ y ∈ s.waitingVqs, nfld y.2.ctl 16 4 ≤ nfld v.ctl 16 4 ∧ (nfld y.2.ctl 16 4 = nfld v.ctl 16 4 → v.since ≤ y.2.since)) ∧
      s' = s.setQslot q { x with v := true, vq := BitVec.ofNat 16 n, part := (s.vf (n / 1024)).part, since := s.cycle, quantum := false }) ∧
    (x.v = true → ¬ (x.adone = x.head ∧ x.copied = x.adone) → Ends (.queueQuantumExpiry q) s fun s' =>
      ∃ b, s' = s.setQslot q { x with quantum := b }) ∧
    (x.v = true → x.adone = x.head → x.copied = x.adone →
      let v := s.vq x.vq.toNat
      v.closed = true ∨ v.tail = v.next ∨ x.quantum = true ∨ x.since + 1300 * s.host.quantum ≤ s.cycle ∨ (∃ y ∈ s.waitingVqs, nfld v.ctl 16 4 < nfld y.2.ctl 16 4) →
      Ends (.queueQuantumExpiry q) s fun s' => (s'.qslot q).v = false ∧ (s'.vq x.vq.toNat).next = (if v.closed then 0 else v.next) ∧ Still s s')

/-- R415, R446: the hub firmware publishes the next record of a queue's ring, whole, and HEAD then counts it; it holds back while 64 records
have no answer. A record that does not translate is passed over, once every record before it has been answered, and 5 goes to the completion ring
(its launch is not known: a free value). -/
def Sys2Proof.Claims.RecordsArePublished : Prop :=
  ∀ (s : State) (q : Nat),
    let x := s.qslot q
    let n := x.vq.toNat
    let v := s.vq n
    (64 ≤ (x.head - x.adone).toNat → exec (.recordPublish q) s = .next s) ∧
    (∀ bs, x.v = true → v.closed = false → v.ctl.getLsbD 31 = true → v.tail ≠ v.next → (x.head - x.adone).toNat < 64 → s.ringRecord n v = some bs →
      exec (.recordPublish q) s = .next ((s.setVq n { v with next := v.next + 1 }).setQslot q
        { x with records := msetN x.records (128 * (x.head.toNat % 64)) bs, head := x.head + 1 })) ∧
    (s.ringRecord n v = none → x.adone ≠ x.head ∨ x.copied ≠ x.adone → exec (.recordPublish q) s = .next s) ∧
    (x.v = true → v.closed = false → v.ctl.getLsbD 31 = true → v.tail ≠ v.next → x.adone = x.head → x.copied = x.adone → s.ringRecord n v = none →
      Ends (.recordPublish q) s fun s' => s'.qslot q = x ∧ s'.vq n = { v with next := v.next + 1, cmpl := v.cmpl + 1 } ∧ Still s s' ∧
        (0 < nfld v.ctl 0 16 →
          mgetN s'.mem.host (2 ^ 57 * (s.vf (n / 1024)).pasid + (v.cmplbase.toNat + 16 * (v.cmpl.toNat % nfld v.ctl 0 16))) 1 = [5]))

/-- R419: what the check of a record asks of it, and what admission does: a record that fails is answered 5 with the first failing field;
one that passes gives its QUOTA, CAP, WINDOW, SENTLIM, SEED and CPRIO to its colour, and its launch begins. TAKE counts the record. O
is set afresh by the colour's next admission into each load (R16); a partition without a residency table gets one whose KEYs lie
from 1 to 0xFFFF (R402; log entry 101). -/
def Sys2Proof.Claims.LaunchesAreAdmitted : Prop :=
  ∀ (s : State) (t q : Nat),
    let x := s.qslot q
    let r := s.recordOf q x.take.toNat
    let c := lrCol r
    let y := s.colour c
    let l : Launch := ⟨q, x.take.toNat, x.part, t, r, .place, 0, 0, 0, 0, 0, [], [], none, .idle, [], false⟩
    let w := if lrWindow r = 0 then y.window else lrWindow r
    let z : Colour := { y with quota := lrQuota r, cap := lrCap r, sentlim := lrSentlim r, seed := lrSeed r, cprio := lrCprio r, window := w }
    (s.recordFails x.part (x.vq.toNat / 1024) r = none ↔ (nfld r 592 7 = 0 ∧ nfld r 576 11 = 0 ∧ nfld r 480 11 = 0 ∧ nfld r 3 27 = 0 ∧
      colIn (s.part x.part).desc c = true ∧ y.owner = x.vq.toNat / 1024 ∧ 1 ≤ lrNload r ∧ lrNload r ≤ 16 ∧ lrNparam r ≤ 4 ∧ 1 ≤ lrCap r ∧ lrCap r ≤ 2048 ∧
      1 ≤ lrPrio r ∧ 1 ≤ lrNdone r)) ∧
    (x.v = true → x.take ≠ x.head → s.stewardOf x.part t = true → s.colBusy x.part c = false → s.host.launches = [] →
      (∀ b, s.recordFails x.part (x.vq.toNat / 1024) r = some b → Ends (.launchAdmission t q) s fun s' =>
        (s'.qslot q).take = x.take + 1 ∧ Answered s' l 0 (b / 8) 0 5 ∧ Still s s') ∧
      (s.recordFails x.part (x.vq.toNat / 1024) r = none → y.basinlen < lrQuota r → Ends (.launchAdmission t q) s fun s' =>
        (s'.qslot q).take = x.take + 1 ∧ Answered s' l 0 92 0 5 ∧ Still s s') ∧
      (s.recordFails x.part (x.vq.toNat / 1024) r = none → lrQuota r ≤ y.basinlen → lrWindow r ≤ 8388608 → (lrSentlim r = 0 ∨ 1024 ≤ lrSentlim r) →
        Ends (.launchAdmission t q) s fun s' => (s'.qslot q).take = x.take + 1 ∧ s'.host.launches = [l] ∧ s'.mem = s.mem ∧ s'.stew = s.stew ∧
          s'.colours = tset Colour.reset s.colours c z ∧
          (∀ f ∈ s'.fab.colLoads, f.col = c → f.afresh = true) ∧
          ((s.part x.part).resident = [] → (s.part x.part).claims = [] → let u := s'.part x.part
            1 ≤ u.nres ∧ u.nres ≤ 65535 ∧ 1 ≤ u.klo ∧ u.klo + u.nres ≤ 65536)))

/-- R419, R420, R422, R424: the steps of a launch. Its next load is the resident one of its identities, whose lowest unbound launch sender it
takes and binds to its colour; or an image is checked, and a refused one ends the launch with the code and reason of the check; or the load
is written, a record at a time, into the lowest slot that fits, which it reserves, and raised after the last; with no slot the launch waits, and a
failed RAISE empties the slot and answers 1 or 4. Its parameters, views and rows are then offered, each until its port has let it in; of the tokens that
end a load each is taken, a poisoned one answers 4, and the last load's end answers 0 with the last payload. -/
def Sys2Proof.Claims.LaunchesGoOn : Prop :=
  ∀ (s : State) (k : Nat) (l : Launch),
    let p := l.part
    let goes : State → Launch → Prop := fun s1 m =>
      exec (.loadPlacement k) s = .next { s1 with host := { s1.host with launches := launchesWith s l m } }
    let lets : State → Launch → Offer → Prop := fun s1 m o =>
      exec (.loadPlacement k) s = .next { s1 with fab := { s1.fab with offers := s1.fab.offers ++ [o] }, host := { s1.host with launches := launchesWith s l m } }
    let redone : Nat → Prop := fun it => l.redo = true ∧ behind (s.oldest (lrCol l.rcd) (s.launchLoad l)) it = true
    let unbound : State := if l.sender = 0 then s else s.setPart p { s.part p with bind := tset 0 (s.part p).bind (256 * l.ctx + l.sender) 0 }
    (LaunchAt s k l .place → l.writing = none → s.queued l = true → exec (.loadPlacement k) s = .next s) ∧
    (∀ h body x i, LaunchAt s k l .place → l.writing = none → s.queued l = false → s.readImage l l.j = .ok (h, body) → fld h 128 64 = lrGraphid l.rcd →
      s.residentLoad p h = some x →
      112 ≤ i → i < 256 → (tget 0 (s.part p).bind (256 * dCtx x.desc + i)).getLsbD 12 = false →
      (∀ j, 112 ≤ j → j < i → (tget 0 (s.part p).bind (256 * dCtx x.desc + j)).getLsbD 12 = true) →
      let s1 := s.setPart p { s.part p with bind := tset 0 (s.part p).bind (256 * dCtx x.desc + i) (BitVec.ofNat 64 (4096 + lrCol l.rcd)) }
      goes s1 { l with ctx := dCtx x.desc, sender := i, i := 0, stage := if l.j = 0 then .view else .param }) ∧
    (∀ h body c n, LaunchAt s k l .place → l.writing = none → s.queued l = false → s.readImage l l.j = .ok (h, body) →
      (fld h 128 64 = lrGraphid l.rcd → s.residentLoad p h = none) →
      s.imageFails h body (lrGraphid l.rcd) = some (c, n) → l.sender = 0 → l.n < 2 ^ 32 → Ends (.loadPlacement k) s fun s' => Answered s' l 0 n c 1 ∧ Still s s') ∧
    (∀ h body, LaunchAt s k l .place → l.writing = none → s.queued l = false → s.readImage l l.j = .ok (h, body) →
      (fld h 128 64 = lrGraphid l.rcd → s.residentLoad p h = none) → s.imageFails h body (lrGraphid l.rcd) = none →
      let recs := (parseElems false (descOf h 0 0) (imgNrec h) 0 body).1
      (s.slotFor p recs = none → exec (.loadPlacement k) s = .next s) ∧
      ∀ c, s.slotFor p recs = some c →
        goes s { l with writing := some ⟨descOf h c (lrPrio l.rcd), fld h 480 512, recs.map fun r => r.1, recs⟩ }) ∧
    (∀ w r rest, LaunchAt s k l .place → l.writing = some w → w.left = r :: rest →
      let c := dCtx w.desc
      (s.ctxBusy p c = true ∨ s.elemBusy p r.1 = true → exec (.loadPlacement k) s = .next s) ∧
      (s.ctxBusy p c = false → s.elemBusy p r.1 = false → Ends (.loadPlacement k) s fun s' =>
        s'.ctx r.1 c = { r.2.1 with prio := (s.ctx r.1 c).prio } ∧
        (s'.elem r.1).pool = msetN (s.elem r.1).pool (regByte r.2.1.partwd 0) r.2.2 ∧ (∀ e, e ≠ r.1 → s'.elem e = s.elem e) ∧
        s'.host.launches = launchesWith s l { l with writing := some { w with left := rest } } ∧ s'.mem = s.mem ∧ s'.stew = s.stew ∧
        s'.fab.tokens = s.fab.tokens)) ∧
    (∀ w, LaunchAt s k l .place → l.writing = some w → w.left = [] → l.sender = 0 → l.n < 2 ^ 32 →
      let c := dCtx w.desc
      let foot := s.footOf w.desc
      let pd := (s.part p).desc
      let idle : Prop := s.ctxBusy p c = false ∧ ∀ e ∈ foot, s.elemBusy p e = false
      let inside : Prop := footIn pd w.desc = true ∧ s.footBarred pd w.desc foot = false
      let emptied : State → Prop := fun s' => ∀ e ∈ w.elems, (s'.ctx e c).active = false ∧ (s'.ctx e c).words = [] ∧ (s'.ctx e c).touched = false
      (¬ idle → exec (.loadPlacement k) s = .next s) ∧
      (idle → ¬ inside → Ends (.loadPlacement k) s fun s' => Answered s' l 0 0 2 4 ∧ Still s s' ∧ emptied s') ∧
      (∀ x, idle → inside → s.raiseFails w.desc foot = some x → Ends (.loadPlacement k) s fun s' =>
        Answered s' l 0 x.2.2.1 7 1 ∧ Still s s' ∧ emptied s') ∧
      (idle → inside → s.raiseFails w.desc foot = none → Ends (.loadPlacement k) s fun s' =>
        (∀ e ∈ foot, (s'.ctx e c).active = true ∧ (s'.ctx e c).prio = dPrio w.desc ∧ (s'.ctx e c).words = (s.ctx e c).words) ∧
        (∃ n, s'.fab.loads = s.fab.loads ++ [⟨p, w.desc, foot, n, true⟩]) ∧ s'.host.launches = launchesWith s l { l with writing := none } ∧
        s'.mem = s.mem ∧ s'.stew = s.stew ∧ s'.fab.tokens = s.fab.tokens)) ∧
    (LaunchAt s k l .view → 4 ≤ l.i → goes s { l with i := 0, stage := .param }) ∧
    (LaunchAt s k l .view → l.i < 2 → (lrView l.rcd l.i).getLsbD 95 = false → goes s { l with i := l.i + 1 }) ∧
    (LaunchAt s k l .param → l.i < lrNparam l.rcd →
      let o : Offer := ⟨l.thread, p, l.ctx, lrPport l.rcd l.i, l.sender, mkTag 0 l.ctx 0 0 0, lrParam l.rcd l.i, none, .fresh, s.cycle, .launch l.qslot l.n⟩
      (redone 0 → goes s { l with i := l.i + 1 }) ∧
      (¬ redone 0 → l.asked = .idle ∨ l.asked = .got 1 → lets s { l with asked := .out } o) ∧
      (¬ redone 0 → l.asked = .out → exec (.loadPlacement k) s = .next s) ∧
      (¬ redone 0 → l.asked = .got 0 → goes s { l with i := l.i + 1, asked := .idle }) ∧
      (∀ n, ¬ redone 0 → l.asked = .got n → 2 ≤ n → l.n < 2 ^ 32 → Ends (.loadPlacement k) s fun s' => ∃ r, r < 256 ∧ Answered s' l 0 r 0 5 ∧ Still s s')) ∧
    (LaunchAt s k l .param → lrNparam l.rcd ≤ l.i →
      goes s { l with i := if l.j = 0 then 0 else l.took.length, stage := if l.j = 0 then .rows else .taking }) ∧
    (∀ bs, LaunchAt s k l .rows → l.i < lrNrows l.rcd → s.ldWords l.thread (lrRowlist l.rcd + 32 * l.i) 4 = .ok bs →
      let r : BitVec 256 := BitVec.ofNat 256 (ofBytes bs)
      let adp : Word := fld r 64 64
      let offer : Nat → Offer := fun key =>
        ⟨l.thread, p, l.ctx, lrErow l.rcd, l.sender, mkTag 0 l.ctx 0 key l.i, fld r 0 64, none, .fresh, s.cycle, .launch l.qslot l.n⟩
      let w : ClaimWait := ⟨adp, (s.colour (lrCol l.rcd)).asid, nfld r 128 16, some (l.qslot, l.n), s.rowTag l⟩
      (nth? l.claims l.i = none → adp = 0 ∨ redone l.i → goes s { l with claims := l.claims ++ [65536] }) ∧
      (∀ s1, nth? l.claims l.i = none → adp ≠ 0 → ¬ redone l.i → (∀ v ∈ (s.part p).claims, v.who ≠ some (l.qslot, l.n)) → s.makeClaim p w = some s1 →
        exec (.loadPlacement k) s = .next s1) ∧
      (nth? l.claims l.i = none → adp ≠ 0 → ¬ redone l.i → (∀ v ∈ (s.part p).claims, v.who ≠ some (l.qslot, l.n)) → s.makeClaim p w = none →
        l.n < 2 ^ 32 → l.i < 2 ^ 32 → Ends (.loadPlacement k) s fun s' => Answered s' l l.i 0 0 2 ∧ Still s s') ∧
      (nth? l.claims l.i = some 65536 → ¬ redone l.i → l.asked = .idle → lets s { l with asked := .out } (offer 0)) ∧
      ∀ m, nth? l.claims l.i = some m → m ≠ 65536 →
        ((tget Resident.free (s.part p).resident m).state ≠ 2 → exec (.loadPlacement k) s = .next s) ∧
        ((tget Resident.free (s.part p).resident m).state = 2 → ¬ redone l.i → l.asked = .idle →
          lets s { l with asked := .out } (offer ((s.part p).klo + m)))) ∧
    (LaunchAt s k l .rows → lrNrows l.rcd ≤ l.i → goes s { l with i := l.took.length, stage := .taking }) ∧
    (LaunchAt s k l .taking → l.i < lrNdone l.rcd →
      let c := lrCol l.rcd
      let x : Source := ⟨p, false, l.ctx, lrDonex l.rcd, some c⟩
      (s.exitToken x c = none → exec (.loadPlacement k) s = .next s) ∧
      ∀ n t, s.exitToken x c = some n → nth? s.fab.tokens n = some t →
        (sbPZ t.sb = false → Ends (.loadPlacement k) s fun s' => s'.fab.tokens = dropNth s.fab.tokens n ∧ s'.colours = (s.inflDown c 1).colours ∧
          { l with i := l.i + 1, last := t.pay, took := l.took ++ [tagIter t.tag] } ∈ s'.host.launches ∧ s'.mem = s.mem ∧ s'.stew = s.stew) ∧
        (sbPZ t.sb = true → l.n < 2 ^ 32 → Ends (.loadPlacement k) s fun s' => s'.fab.tokens = dropNth s.fab.tokens n ∧ Answered s' l 0 0 6 4 ∧
          s'.stew = s.stew)) ∧
    (LaunchAt s k l .taking → lrNdone l.rcd ≤ l.i → l.j + 1 < lrNload l.rcd →
      goes unbound { l with j := l.j + 1, sender := 0, i := 0, stage := .place, took := [], redo := false }) ∧
    (LaunchAt s k l .taking → lrNdone l.rcd ≤ l.i → l.j + 1 = lrNload l.rcd → l.n < 2 ^ 32 → Ends (.loadPlacement k) s fun s' =>
      Answered s' l (l.last.toNat % 2 ^ 32) 0 0 0 ∧ s'.colours = s.colours ∧ s'.mem.mem = s.mem.mem ∧
      (l.sender ≠ 0 → (tget 0 (s'.part p).bind (256 * l.ctx + l.sender)) = 0))

/-- R403, R404, Table 15.2: the outcomes of a claim that names no launch: shared, granted in the lowest empty slot, waiting or slot-busy for
a pinned slot; residency once the hub firmware has copied the adapter; and the release, while none waits, of the claim of a row whose last exit
token has been taken, or of none. -/
def Sys2Proof.Claims.AdapterClaims : Prop :=
  ∀ (s : State) (p pin n : Nat) (adp tag row : Word),
    let x := s.part p
    let asid := (s.colour (tagCol tag)).asid
    let e := tget Resident.free x.resident n
    let put : Resident → Part := fun f => { x with resident := tset Resident.free x.resident n f, age := (x.age + 1) % 2 ^ 24 }
    let w : ClaimWait := ⟨adp, asid, pin, none, tag⟩
    let gives : Resident → State → Prop := fun f s' => Still s s' ∧
      s'.parts = (s.setPart p { put f with claims := x.claims.filter (fun v => v != w), rows := x.rows ++ [(tag, n)] }).parts
    let heldBy : Prop := e.state ≠ 0 ∧ e.adp = adp ∧ e.asid = asid
    let no : Prop := x.holderOf adp asid = none
    let waits : State := s.setPart p { x with claims := x.claims ++ [w] }
    let i : Instr := .residencyClaim p adp tag pin
    let ended := fun r : Word × Nat => r.2 == n && s.rowOver p r.1
    (x.holderOf adp asid = some n → heldBy → e.users < 65535 → Ends i s (gives { e with users := e.users + 1, age := x.age })) ∧
    (x.holderOf adp asid = some n → heldBy → 65535 ≤ e.users → exec i s = .next waits) ∧
    (no → pin = 65535 → n < x.nres → e.state = 0 → (∀ m, m < n → (tget Resident.free x.resident m).state ≠ 0) →
      Ends i s (gives ⟨adp, asid, 1, x.age, 1⟩)) ∧
    (no → pin = n → pin ≠ 65535 → n < x.nres → e.users = 0 → ¬ heldBy → Ends i s (gives ⟨adp, asid, 1, x.age, 1⟩)) ∧
    (no → pin = n → pin ≠ 65535 → e.users ≠ 0 → exec i s = .next s) ∧
    (no → pin = 65535 → (∀ m, m < x.nres → (tget Resident.free x.resident m).state ≠ 0) →
      (∀ y ∈ x.resident, y.2.users ≠ 0) → exec i s = .next waits) ∧
    (e.state = 1 → exec (.adapterResident p n) s = .next (s.setPart p { x with resident := tset Resident.free x.resident n { e with state := 2 } })) ∧
    (0 < e.users → x.claims = [] → x.rows.filter ended = [(row, n)] → Ends (.claimRelease p n) s fun s' => Still s s' ∧
      s'.part p = { put { e with users := e.users - 1, age := x.age } with rows := x.rows.filter fun r => !ended r }) ∧
    (x.rows.filter ended = [] → Ends (.claimRelease p n) s fun s' => Still s s' ∧ s'.part p = x)

/-- R308, R421, R407, R458, R462: the oldest ORPHAN event of a partition is answered: with OH set, by answer 6, which leaves the colour as it
stands; else by a PURGE and answer 3; a colour whose launch is answered is left as it stands. A replay without a failed step starts the next generation of the colour in its load and purges the
old one, and its launch, if one runs there, offers its inputs again, but for those of committed iterations (log entry 116); the second mismatch that a comparator reports of one iteration of a launch is answered with status 4 and code POISON. -/
def Sys2Proof.Claims.OrphansAndReplays : Prop :=
  (∀ (s : State) (p i : Nat) (ev : Event) (l : Launch), (∀ j e, j < i → nth? (s.part p).events j = some e → nfld e 60 4 ≠ 3) →
    nth? (s.part p).events i = some ev → nfld ev 60 4 = 3 → s.launchOf p (nfld ev 22 12) = some l → l.n < 2 ^ 32 →
    (lrOh l.rcd = true → Ends (.orphanAnswer p) s fun s' => Answered s' l 0 0 5 6 ∧
      s'.fab = { s.fab with offers := s.fab.offers.filter fun o => !(o.who == .launch l.qslot l.n) } ∧ Still s s' ∧
      (s'.part p).bind = (s.part p).bind ∧ (s'.part p).events.length = (s.part p).events.length - (if (s.part p).held = [] then 1 else 0)) ∧
    (∀ s1, lrOh l.rcd = false → (s.dropEvent p i).purgeNow p (.purge 0 (nfld ev 22 12) 0 0 0) (nfld ev 22 12) = some s1 →
      Ends (.orphanAnswer p) s fun s' => Answered s' l 0 0 5 3 ∧ s'.fab.tokens = s1.fab.tokens)) ∧
  (∀ (s : State) (p i : Nat) (ev : Event), (∀ j e, j < i → nth? (s.part p).events j = some e → nfld e 60 4 ≠ 3) →
    nth? (s.part p).events i = some ev → nfld ev 60 4 = 3 → s.launchOf p (nfld ev 22 12) = none → exec (.orphanAnswer p) s = .next s) ∧
  (∀ (s : State) (p col ctx i : Nat) (ev : Event) (l : Launch), (∀ j e, j < i → nth? (s.part p).events j = some e → failEvent col ctx e = false) →
    nth? (s.part p).events i = some ev → failEvent col ctx ev = true → nfld ev 60 4 = 1 → nfld ev 44 16 = 0xFFF0 → s.launchOf p col = some l →
    l.n < 2 ^ 32 → (2 ^ 32 * l.qslot + l.n, tagIter (fld ev 64 64)) ∈ (s.part p).mismatches →
    Ends (.replay p col ctx) s fun s' => Answered s' l 0 0 cPoison 4 ∧
      s'.fab = { s.fab with offers := s.fab.offers.filter fun o => !(o.who == .launch l.qslot l.n) } ∧ Still s s') ∧
  ∀ (s s1 : State) (p col ctx : Nat) (l : Load), (∀ e ∈ (s.part p).events, failEvent col ctx e = false) →
    s.loadIn p ctx (fun _ => true) = some l → s.carries col l ((s.colLoad col (dLoadid l.desc)).egen + 1).toNat = false →
    (s.setColLoad { s.colLoad col (dLoadid l.desc) with egen := (s.colLoad col (dLoadid l.desc)).egen + 1 }).purgeNow p
      (.purge 1 col (s.colLoad col (dLoadid l.desc)).egen.toNat 0 0) col = some s1 →
    (s1.launchOf p col = none → exec (.replay p col ctx) s = .next s1) ∧
    ∀ m, s1.launchOf p col = some m →
      (m.sender = 0 ∨ m.ctx ≠ ctx → exec (.replay p col ctx) s = .next s1) ∧
      (m.sender ≠ 0 → m.ctx = ctx → Ends (.replay p col ctx) s fun s' => s'.fab.tokens = s1.fab.tokens ∧ Still s1 s' ∧
        (∀ o ∈ s'.fab.offers, o ∈ s1.fab.offers ∧ o.who ≠ .launch m.qslot m.n) ∧ (∀ w ∈ (s'.part m.part).claims, w.who ≠ some (m.qslot, m.n)) ∧
        s'.host.launches = launchesWith s1 m { m with
          claims := [], i := if m.j = 0 then 2 else 0, stage := if m.j = 0 then .view else .param, asked := .idle, redo := true,
          took := m.took.filter fun i => behind (s1.oldest col (dLoadid l.desc)) i })

/-- R436: a drain closes admission by QUOTA 0 and keeps its start and its bound, WINDOW times DEPTH cycles as they stand then, of the load in the slot
that holds the colour; once nothing of the colour is in flight, or the bound has passed, every token of the colour that lies at an element or in a queue is parked. -/
def Sys2Proof.Claims.ColoursDrain : Prop :=
  ∀ (s : State) (p col ctx : Nat) (l : Load), s.loadIn p ctx (fun _ => true) = some l → colIn (s.part p).desc col = true → s.colBusy p col = false →
    (s.drainOf col ctx = none → Ends (.colourDrain p col ctx) s fun s' => s'.colours = tset Colour.reset s.colours col { s.colour col with quota := 0 } ∧
      s'.mem = s.mem ∧ s'.stew = s.stew ∧ s'.fab = s.fab ∧ ∃ b, s'.host.drains = s.host.drains ++ [(col, ctx, s.cycle, b)] ∧
        ((∀ x ∈ s.fab.loads, x.part = p → dCtx x.desc = ctx → x.live = true → x = l) → l ∈ s.fab.loads → l.part = p → dCtx l.desc = ctx → l.live = true →
          b = if s.fab.colLoads.any (fun x => x.col == col && x.load == dLoadid l.desc) then s.window col (some l) * dDepth l.desc else 0)) ∧
    ∀ t0 b, s.drainOf col ctx = some (t0, b) →
      ((s.colour col).inflt ≠ 0 → s.cycle - t0 < b → exec (.colourDrain p col ctx) s = .next s) ∧
      ((s.colour col).inflt = 0 ∨ b ≤ s.cycle - t0 → (∀ t ∈ s.fab.tokens, tagCol t.tag = col → t.place.basinAt = none) →
        (∀ x ∈ s.port.linkOut, x.counted = true → tagCol x.tag ≠ col) → Ends (.colourDrain p col ctx) s fun s' =>
        s'.fab.tokens = s.fab.tokens.map (fun t => if tagCol t.tag = col ∧ t.place.onWay = false then { t with parked := true } else t) ∧ s'.mem = s.mem ∧ s'.stew = s.stew ∧
        ∀ d ∈ s'.host.drains, d ∈ s.host.drains ∧ ¬ (d.1 = col ∧ d.2.1 = ctx))

/-- R438, R439, R440, R441, R247: an eviction that a waiting launch calls for notes the colours bound to its slot. Each of them is drained; a launch with
a save path has a token offered there, and its exit tokens are taken; then SENTL turns its sentinel off. When every path has ended PRIO is 0 at every
element of the partition and the colours are parked; once nothing holds the DROP, the eviction record is kept and the slot emptied. Operations in
progress on the colours or the slot are waited for (R240). The restore ends by writing the colours' settings back. -/
def Sys2Proof.Claims.LoadsAreEvictedAndRestored : Prop :=
  (∀ (s : State) (p ctx : Nat) (load : Word) (l : Load) (m : Launch), s.loadIn p ctx (fun x => dLoadid x.desc == load) = some l →
    s.host.evicted = [] → m ∈ s.host.launches → m.part = p → s.victimOf m = some l → (s.part p).cut = .idle →
    Ends (.eviction p ctx load) s fun s' => ∃ v : Evicted, s' = { s with host := { s.host with evicted := [v] } } ∧ v.part = l.part ∧ v.desc = l.desc ∧
      v.stage = .draining ∧ v.asked = .idle ∧
      v.cols = (s.boundIn l.part (dCtx l.desc)).map (fun b => (b.1, b.2, (s.colour b.1).cap, (s.colour b.1).quota, (s.colour b.1).sentlim)) ∧
      (∀ c, (c, false, 0) ∈ v.path ↔ ∃ i, (c, i) ∈ s.boundIn l.part (dCtx l.desc)) ∧ ∀ x ∈ v.path, x.2 = (false, 0)) ∧
  (∀ (s : State) (p ctx : Nat) (load : Word) (l : Load) (v : Evicted), s.loadIn p ctx (fun x => dLoadid x.desc == load) = some l →
    s.host.evicted = [v] → v.part = p → dCtx v.desc = ctx → dLoadid v.desc = load →
    let still : State → Prop := fun s' => s'.mem = s.mem ∧ s'.stew = s.stew
    let prio0 : State → Prop := fun s' => ∀ e, e < 2304 → inRect (s.part p).desc e = true → (s'.ctx e ctx).prio = 0
    (v.stage = .draining →
      (s.ctxBusy p ctx = true ∨ (∃ x ∈ v.cols, s.colBusy p x.1 = true) → v.path = [] → exec (.eviction p ctx load) s = .next s) ∧
      (v.path = [] → v.cols = [] → s.ctxBusy p ctx = false → Ends (.eviction p ctx load) s fun s' => prio0 s' ∧ still s' ∧ s'.fab.tokens = s.fab.tokens ∧
        s'.host.evicted = [{ v with stage := .parked }]) ∧
      (∀ c i cap quota lim, v.path = [] → v.cols = [(c, i, cap, quota, lim)] → s.ctxBusy p ctx = false → s.colBusy p c = false →
        (∀ t ∈ s.fab.tokens, tagCol t.tag = c → t.place.basinAt = none) → (∀ x ∈ s.port.linkOut, x.counted = true → tagCol x.tag ≠ c) →
        Ends (.eviction p ctx load) s fun s' => prio0 s' ∧ still s' ∧ s'.host.evicted = [{ v with stage := .parked }] ∧
          s'.fab.tokens = s.fab.tokens.map fun t => if tagCol t.tag = c ∧ t.place.onWay = false then { t with parked := true } else t) ∧
      (∀ c n rest, v.path = (c, false, n) :: rest →
        (s.drainOf c ctx = none → s.colBusy p c = false → Ends (.eviction p ctx load) s fun s' => still s' ∧ s'.fab = s.fab ∧
          s'.colours = tset Colour.reset s.colours c { s.colour c with quota := 0 } ∧ ∃ b, s'.host.drains = s.host.drains ++ [(c, ctx, s.cycle, b)]) ∧
        ∀ t0 b, s.drainOf c ctx = some (t0, b) →
          ((s.colour c).inflt ≠ 0 → s.cycle - t0 < b → exec (.eviction p ctx load) s = .next s) ∧
          ((s.colour c).inflt = 0 ∨ b ≤ s.cycle - t0 →
            (s.recordOfCol p c = none ∨ (∃ r, s.recordOfCol p c = some r ∧ lrSv r = false) → s.colBusy p c = false →
              Ends (.eviction p ctx load) s fun s' => still s' ∧ s'.fab.tokens = s.fab.tokens ∧ s'.host.evicted = [{ v with path := rest }] ∧
                s'.colours = tset Colour.reset s.colours c { s.colour c with sentlim := 0 } ∧ ∀ d ∈ s'.host.drains, ¬ (d.1 = c ∧ d.2.1 = ctx)) ∧
            ∀ r, s.recordOfCol p c = some r → lrSv r = true → v.asked = .idle →
              exec (.eviction p ctx load) s = .next { s with
                fab := { s.fab with offers := s.fab.offers ++ [⟨0, l.part, dCtx l.desc, lrSvep r, v.senderOf c,
                  mkTag 0 (dCtx l.desc) 0 0 (s.oldest c (dLoadid l.desc)), 0, none, .fresh, s.cycle, .path (dLoadid l.desc)⟩] },
                host := { s.host with evicted := [{ v with asked := .out }] } })) ∧
      (∀ c n rest, v.path = (c, true, n) :: rest →
        (n = 0 → s.colBusy p c = false → Ends (.eviction p ctx load) s fun s' => still s' ∧ s'.fab.tokens = s.fab.tokens ∧
          s'.host.evicted = [{ v with path := rest }] ∧ s'.colours = tset Colour.reset s.colours c { s.colour c with sentlim := 0 }) ∧
        ∀ k r, n ≠ 0 → s.recordOfCol p c = some r → s.exitToken ⟨p, false, ctx, lrSvx r, some c⟩ c = some k →
          Ends (.eviction p ctx load) s fun s' => still s' ∧ s'.fab.tokens = dropNth s.fab.tokens k ∧
            s'.host.evicted = [{ v with path := (c, true, n - 1) :: rest }])) ∧
    (v.stage = .parked →
      (s.ctxBusy p ctx = true ∨ s.dropWaits l.foot ctx [dLoadid l.desc] = true → exec (.eviction p ctx load) s = .next s) ∧
      (s.ctxBusy p ctx = false → s.dropWaits l.foot ctx [dLoadid l.desc] = false → s.dropRefused l.foot ctx [dLoadid l.desc] = false →
        Ends (.eviction p ctx load) s fun s' => still s' ∧ s'.fab.tokens = s.fab.tokens ∧
          s'.host.evicted = [{ v with rcd := s.evictRecord l, stage := .out }] ∧
          (∀ e ∈ l.foot, (s'.ctx e ctx).active = false ∧ (s'.ctx e ctx).words = [] ∧ (s'.ctx e ctx).bufs = []) ∧
          ∀ x ∈ s'.fab.loads, x ∈ s.fab.loads ∧ ¬ (x.part = l.part ∧ dCtx x.desc = ctx ∧ dLoadid x.desc = dLoadid l.desc)))) ∧
  ∀ (s : State) (k ctx n : Nat) (v : Evicted), nth? s.host.evicted k = some v →
    (v.stage = .out → s.slotFor v.part (parseElems true v.desc 2304 0 (v.rcd.drop 64)).1 ≠ some ctx → exec (.evictedRestore k ctx) s = .next s) ∧
    (v.stage = .back n → v.path = [] → (∃ x ∈ v.cols, s.colBusy v.part x.1 = true) → exec (.evictedRestore k ctx) s = .next s) ∧
    (v.stage = .back n → v.path = [] → (∀ x ∈ v.cols, s.colBusy v.part x.1 = false) →
      Ends (.evictedRestore k ctx) s fun s' => s'.host.evicted = dropNth s.host.evicted k ∧ s'.mem = s.mem ∧ s'.stew = s.stew ∧
        (∀ c i cap quota lim, v.cols = [(c, i, cap, quota, lim)] →
          s'.colours = tset Colour.reset s.colours c { s.colour c with cap := cap, quota := quota, sentlim := lim }) ∧
        (v.cols = [] → s'.colours = s.colours))

/-! ### Boot, telemetry, power and attestation -/

namespace Sys2Proof.Claims

/-- Only the management core's part of the state changes. -/
def MgmtOnly (s s' : State) (p : Mgmt → Prop) : Prop := s' = { s with mgmt := s'.mgmt } ∧ p s'.mgmt
/-- An SPDM transport may be asked: the boot is over, its negotiation state is one the request needs, and it is not to be resynchronised. -/
def Asks (s : State) (x need : Nat) : Prop := x < 2 ∧ Up s ∧ (s.spdm x).resynch = false ∧ need ≤ (s.spdm x).state
/-- An answer, its bytes, and the transcript that grows by both; `q` is the rest of the transport's new state. -/
def Replies (i : Instr) (s : State) (x : Nat) (req ans : List Byte) (q : Spdm) : Prop :=
  exec i s = .next (s.setSpdm x { q with transcript := q.transcript ++ req ++ ans, reply := 0x100, answer := ans })
/-- An error reply with a code; the transport is otherwise as it was (R482). -/
def Refuses (i : Instr) (s : State) (x code : Nat) : Prop := exec i s = .next (s.setSpdm x { s.spdm x with reply := code, answer := [] })

end Sys2Proof.Claims

/-- R475, R476, R477, R482: each boot stage runs after the one before it. A stage that succeeds extends its digest into its measurement slot; the
stage before the host interface is released sets that interface up; one that fails stops the boot with its reason, and the next boot starts
again at stage 0, its slots zero and both responders to be resynchronised. (`stageOk` verifies each image under the key that Table 20.1 names for it.) -/
def Sys2Proof.Claims.BootStagesRunInOrder : Prop :=
  ∀ (s : State) (ok : Bool) (image : List Byte) (sig : BitVec 1056) (reason : Nat),
    let m := s.mgmt
    let i : Instr := .bootStage ok image sig reason
    let good := stageOk (tget 0 m.slots 1) m.boot ok image sig
    let again : Mgmt → Prop := fun n => ∀ x, x < 2 → tget Spdm.reset n.spdm x = { Spdm.reset with resynch := true }
    (m.boot = 7 → exec i s = .next s) ∧
    (m.boot < 7 → m.failed = false → good = true → Ends i s fun s' => MgmtOnly s s' fun n => n.boot = m.boot + 1 ∧ n.failed = false ∧
      n.slots = tset 0 m.slots m.boot (Config.sha512 (bvBytes (tget 0 m.slots m.boot) 64 ++ bvBytes (s.stageDigest m.boot image) 64)) ∧
      n.locked = decide (m.boot = 6) ∧ n.spdm = m.spdm ∧ n.keystore = if m.boot = 5 ∧ image ≠ [] then readKeys image 0 64 else m.keystore) ∧
    (m.boot < 7 → m.failed = false → good = false → Ends i s fun s' => MgmtOnly s s' fun n =>
      n = { m with failed := true, reason := BitVec.ofNat 8 reason }) ∧
    (m.boot < 7 → m.failed = true → ok = true → Ends i s fun s' => MgmtOnly s s' fun n => n.boot = 1 ∧ n.failed = false ∧ n.reason = 0 ∧
      again n ∧ ∀ k, 1 ≤ k → k ≤ 7 → tget 0 n.slots k = 0) ∧
    (m.boot < 7 → m.failed = true → ok = false → Ends i s fun s' => MgmtOnly s s' fun n => n.boot = 0 ∧ n.failed = true ∧
      n.reason = BitVec.ofNat 8 reason ∧ again n ∧ ∀ k, k ≤ 7 → tget 0 n.slots k = 0)

/-- R480, R448, R484, R485, Tables 18.6 and 20.5: the side-band commands and the physical function's BAR 0. SET_OWNER writes entry 0 while the store
is empty; ERASE clears the store while no partition exists; PCAP takes 600 to 2,600 W and ignores other values; a telemetry read returns the
window's doubleword at any time and zero elsewhere. With the host interface up the host reads identity, mailbox, partition descriptors, FRAMES
among them, kept records, all ones where none is held, and the window; it stores to the mailbox, the interrupt table and PCAP alone. The
side-band transport is chosen once. -/
def Sys2Proof.Claims.SideBandCommands : Prop :=
  ∀ (s : State) (v : BitVec 1152) (w : Word) (ok : Bool),
    let m := s.mgmt
    let becomes : Instr → Mgmt → Prop := fun i n => exec i s = .next { s with mgmt := n }
    let shows : Nat → Word → Prop := fun a x => becomes (.telemetryRead a) { m with telemetry := x }
    let reads : Nat → Word → Prop := fun a x => s.outside (.hostLoad 64 a) = .next { s with host := { s.host with loaded := x } }
    (m.keystore = [] → becomes (.setOwner v) { m with keystore := tset 0 [] 0 (setFld v 64 1 1) }) ∧ (m.keystore ≠ [] → exec (.setOwner v) s = .next s) ∧
    ((∀ p ∈ s.parts, pV p.2.desc = false) → becomes .erase { m with keystore := [] }) ∧
    ((∃ p ∈ s.parts, pV p.2.desc = true) → exec .erase s = .next s) ∧
    (600 ≤ w.toNat → w.toNat ≤ 2600 → becomes (.pcap w) { m with
      pcap := w.toNat
      cool := if w.toNat ≤ m.power ∨ 800 ≤ m.temp then s.cycle else m.cool
      hot := if m.temp ≤ 840 ∨ m.fclk ≠ 3 then none else some (m.hot.getD s.cycle) }) ∧
    (w.toNat < 600 ∨ 2600 < w.toNat → exec (.pcap w) s = .next s) ∧
    (m.sideband = 0 → becomes (.dynamicAddressAssignment ok) { m with sideband := if ok then 1 else 2 }) ∧
    (m.sideband ≠ 0 → exec (.dynamicAddressAssignment ok) s = .next s) ∧
    shows 0x20000 1 ∧
    (m.failed = false → 0 < m.boot → m.boot < 8 → Ends (.telemetryRead 0x20008) s fun s' => MgmtOnly s s' fun n =>
      n.telemetry.toNat % 256 = m.boot - 1 ∧ n.telemetry.toNat / 256 = m.reason.toNat) ∧
    (m.failed = true → m.boot < 8 → Ends (.telemetryRead 0x20008) s fun s' => MgmtOnly s s' fun n =>
      n.telemetry.toNat % 256 = m.boot ∧ n.telemetry.toNat / 256 = m.reason.toNat) ∧
    shows 0x20010 (BitVec.ofNat 64 m.pcap) ∧ shows 0x20018 (BitVec.ofNat 64 m.power) ∧ shows 0x20020 (BitVec.ofNat 64 m.fclk) ∧
    shows 0x20028 (BitVec.ofNat 64 m.temp) ∧ shows 0x20030 m.throttle ∧
    (∀ a, a < 0x20000 ∨ 0x20038 ≤ a ∨ a % 8 ≠ 0 → shows a 0) ∧
    (Up s →
      (∃ x, reads 0 x ∧ x.setWidth 32 = Config.devId ∧ (∀ n, n < 16 → x.getLsbD (32 + n) = pV (s.part n).desc) ∧ nfld x 48 16 = 0) ∧
      (∀ k, k < 8 → reads (0x40 + 8 * k) (tget 0 (s.vf 64).mailbox k)) ∧ reads 0x80 ((s.vf 64).status.setWidth 64) ∧ reads 0x88 (s.vf 64).value ∧
      reads 0x1400 (s.vf 64).msixPend ∧
      (∀ k n, k < 8 → n < 16 → reads (0x10000 + 64 * n + 8 * k) ((setFld (s.part n).desc 155 32 (s.part n).frames.length).extractLsb' (64 * k) 64)) ∧
      (∀ k n i, k < 8 → n < 16 → i < 16 →
        (∀ r, nth? (s.part n).kept i = some r → reads (0x14000 + 1024 * n + 64 * i + 8 * k) (r.extractLsb' (64 * k) 64)) ∧
        (nth? (s.part n).kept i = none → reads (0x14000 + 1024 * n + 64 * i + 8 * k) (BitVec.allOnes 64))) ∧
      (∀ a x, 0x20000 ≤ a → a % 8 = 0 → shows a x → reads a x) ∧
      (∀ k, k < 7 → s.outside (.hostStore 64 (0x40 + 8 * k) w) =
        .next (s.setVf 64 { s.vf 64 with mailbox := tset 0 (s.vf 64).mailbox k w })) ∧
      s.outside (.hostStore 64 0x20010 w) = exec (.pcap w) s ∧
      ∀ a, a < 0x40 ∨ (0x80 ≤ a ∧ a < 0x1000) ∨ (0x1400 ≤ a ∧ a ≠ 0x20010) → s.outside (.hostStore 64 a w) = .next s)

/-- R485: FCLK falls by one step when the power exceeds PCAP or the junction reaches 100 °C, 800 in units of 0.125 °C, and rises by one after
10 ms below both limits, a wait that starts again at every change of step and whenever a limit is met; above 105 °C at step 3 for 1 ms every
partition is reset, with a PW = 1 record each, and that time too starts again once the junction has cooled or the step has changed. A
millisecond counts in cycles of the step's clock, and THROTTLE counts a cycle spent below step 0. -/
def Sys2Proof.Claims.ClockAndHeat : Prop :=
  ∀ (s : State) (power temp : Nat),
    let m := s.mgmt
    let sensed : Nat → Mgmt := fun pw => { m with
      power := pw
      temp := temp
      cool := if m.pcap ≤ pw ∨ 800 ≤ temp then s.cycle else m.cool
      hot := if temp ≤ 840 ∨ m.fclk ≠ 3 then none else some (m.hot.getD s.cycle) }
    let n := sensed power
    let mhz := match m.fclk with | 0 => 1300 | 1 => 1100 | 2 => 900 | _ => 650
    let count := if 0 < m.fclk ∧ m.throttle ≠ BitVec.allOnes 64 then m.throttle + 1 else m.throttle
    let past : Prop := m.pcap < power ∨ 800 ≤ temp
    let below : Prop := power < m.pcap ∧ temp < 800
    let becomes : Instr → Mgmt → Prop := fun i n => exec i s = .next { s with mgmt := n }
    (past → m.fclk < 3 → becomes (.fclkStepDown power temp) { n with
      fclk := m.fclk + 1
      cool := s.cycle
      hot := if 840 < temp ∧ m.fclk = 2 then some s.cycle else none }) ∧
    (past → m.fclk = 3 → becomes (.fclkStepDown power temp) n) ∧
    (¬ past → becomes (.fclkStepDown power temp) n) ∧
    (m.fclk ≤ 3 → below → m.cool + 10000 * mhz ≤ s.cycle → becomes (.fclkStepUp power temp) { n with fclk := m.fclk - 1, cool := s.cycle }) ∧
    (¬ below ∨ s.cycle < m.cool + 10000 * mhz → becomes (.fclkStepUp power temp) n) ∧
    (temp ≤ 840 ∨ m.fclk ≠ 3 → becomes (.thermalReset temp) (sensed m.power)) ∧
    (840 < temp → m.fclk = 3 → m.hot = none → becomes (.thermalReset temp) (sensed m.power)) ∧
    (∀ t0, 840 < temp → m.fclk = 3 → m.hot = some t0 → s.cycle < t0 + 650000 → becomes (.thermalReset temp) (sensed m.power)) ∧
    (∀ t0, 840 < temp → m.fclk = 3 → m.hot = some t0 → t0 + 650000 ≤ s.cycle → Ends (.thermalReset temp) s fun s' =>
      ((∀ k ∈ s.fab.tokens, k.place.basinAt = none) → s'.mem.mem = s.mem.mem) ∧
      s'.mgmt = { sensed m.power with hot := none } ∧ ∀ p, p < 16 → pV (s.part p).desc = true → (s'.part p).events = [] ∧ (s'.part p).bind = [] ∧
        ∃ r : BitVec 512, (s'.part p).kept = ((s.part p).kept ++ [r]).drop ((s.part p).kept.length + 1 - 16) ∧ r.getLsbD 180 = true) ∧
    s.clock = { s with cycle := s.cycle + 1, mgmt := { m with throttle := count } } ∧
    (s.port.linkOut = [] → s.port.accesses = [] → s.tick = s.clock)

/-- R478, R481, R482, Table 20.3: what the responder answers to each request, and the six errors of R482 (Busy aside): the negotiation in its
order, a request of another version refused, digests and the chain of slot 0 only, the challenge signed over the transcript and the summary of
all 24 slots, measurements by index, signed when bit 8 asks for it, and at most four sessions of a transport. A session's key stays in the part: the
answer holds the responder's share; KEY_UPDATE moves the key on and END_SESSION clears it. The bytes of requests and answers are the model's own
encoding (see the log). -/
def Obligations.SpdmAnswers : Prop :=
  ∀ (s : State) (x n : Nat) (bs : List Byte),
    let p := s.spdm x
    let open_ : Prop := n ∈ p.sessions ∧ n ∉ p.opening
    let byte := BitVec.ofNat 8 n
    let sum := bvBytes (Config.sha512 s.mgmt.allSlots) 64
    let sid := p.nextSess
    let slot := bvBytes (tget 0 s.mgmt.slots (n - 1)) 64
    let sign : List Byte → List Byte := fun l => bvBytes (Config.attestSign (p.transcript ++ l)) 132
    (x < 2 → Up s → Replies (.getVersion x) s x [0x84] [0x12, 0x13] { Spdm.reset with state := 1, nextSess := p.nextSess }) ∧
    (Asks s x 1 → p.state = 1 → n = 0x12 ∨ n = 0x13 → Replies (.getCapabilities x n) s x [0xE1, byte] [byte] { p with state := 2, version := n }) ∧
    (Asks s x 1 → n ≠ 0x12 → n ≠ 0x13 → Refuses (.getCapabilities x n) s x 0x41) ∧
    (Asks s x 2 → p.state = 2 → Replies (.negotiateAlgorithms x true) s x [0xE3] [1] { p with state := 3 } ∧ Refuses (.negotiateAlgorithms x false) s x 0x01) ∧
    (x < 2 → Up s → p.resynch = false → p.state < 3 → Refuses (.getDigests x) s x 0x04 ∧ Refuses (.getCertificate x n) s x 0x04 ∧
      Refuses (.challenge x bs) s x 0x04 ∧ Refuses (.getMeasurements x n) s x 0x04 ∧ Refuses (.keyExchange x bs) s x 0x04) ∧
    (Asks s x 3 →
      Replies (.getDigests x) s x [0x81] (1 :: bvBytes (Config.sha512 Config.certChain) 64) p ∧
      Replies (.getCertificate x 0) s x [0x82, 0] Config.certChain p ∧ (n ≠ 0 → Refuses (.getCertificate x n) s x 0x01) ∧
      (bs.length = 32 ∨ (bs.length = 33 ∧ bs.head? = some 0) → Replies (.challenge x bs) s x (0x83 :: bs) (sum ++ sign ((0x83 :: bs) ++ sum)) p) ∧
      (bs.length ≠ 32 → bs.length ≠ 33 ∨ bs.head? ≠ some 0 → Refuses (.challenge x bs) s x 0x01) ∧
      Replies (.getMeasurements x 0) s x [0xE0, 0, 0] [24] p ∧
      (1 ≤ n → n ≤ 24 → Replies (.getMeasurements x n) s x [0xE0, 0, byte] slot p ∧
        Replies (.getMeasurements x (256 + n)) s x [0xE0, 1, byte] (slot ++ sign ([0xE0, 1, byte] ++ slot)) p) ∧
      (n = 0xFF → Ends (.getMeasurements x n) s fun s' => (s'.spdm x).answer = s.mgmt.allSlots ∧ (s'.spdm x).reply = 0x100) ∧
      ((24 < n ∧ n < 0xFF) ∨ 512 ≤ n → Refuses (.getMeasurements x n) s x 0x01) ∧
      (bs.length ≠ 132 → Refuses (.keyExchange x bs) s x 0x01) ∧
      (bs.length = 132 → 4 ≤ p.sessions.length → Refuses (.keyExchange x bs) s x 0x0A) ∧
      (bs.length = 132 → p.sessions.length < 4 → Replies (.keyExchange x bs) s x (0xE4 :: bs)
        (bvBytes (BitVec.ofNat 16 sid) 2 ++ Config.dheShare x sid ++ sign ((0xE4 :: bs) ++ Config.dheShare x sid))
        { p with sessions := p.sessions ++ [sid], opening := p.opening ++ [sid], nextSess := sid + 1, keys := tset 0 p.keys sid (Config.dheSecret x sid bs) }) ∧
      (n ∈ p.sessions → n ∈ p.opening → Replies (.finish x n) s x [0xE5, byte] [] { p with opening := p.opening.filter fun k => k != n }) ∧
      (open_ → Replies (.keyUpdate x n) s x [0xE9, byte] [] { p with keys := tset 0 p.keys n (Config.nextKey (tget 0 p.keys n)) } ∧
        Replies (.heartbeat x n) s x [0xE8, byte] [] p ∧
        Replies (.endSession x n) s x [0xEC, byte] [] { p with sessions := p.sessions.filter fun k => k != n, keys := tset 0 p.keys n 0 }) ∧
      (n ∉ p.sessions → Refuses (.finish x n) s x 0x01 ∧ Refuses (.keyUpdate x n) s x 0x01 ∧ Refuses (.heartbeat x n) s x 0x01 ∧ Refuses (.endSession x n) s x 0x01)) ∧
    (Asks s x 0 → Refuses (.spdmUnsupportedRequest x n) s x 0x07) ∧
    (x < 2 → Up s → p.resynch = true → Refuses (.getDigests x) s x 0x43) ∧
    (x < 2 → Up s → n ≠ 0x12 → n ≠ 0x13 → n < 256 → ∀ i ∈ ([.getDigests (x + 2 * n), .challenge (x + 2 * n) bs, .getMeasurements (x + 2 * n) 0,
      .keyExchange (x + 2 * n) bs, .getCertificate (x + 2 * n) 0] : List Instr), n ≠ 0 → Refuses i s x 0x41) ∧
    (¬ Up s → s.mgmt.failed = false → exec (.getDigests 0) s = .next s ∧ Refuses (.getDigests 1) s 1 0x03)

/-! ### Encoding, the step and reset -/

/-- R67, R68, R103: what the encoder writes for a word instruction whose operands are encodable, the decoder reads back whole, with every
operand at every value the encoding admits. -/
def Obligations.DecodeReadsWhatEncodeWrites : Prop :=
  ∀ i : Instr, encodable i = true → ∃ w, encode i = some w ∧ decode w = .ok i

/-- R67, R68, R103: every word has at most one reading and no bit of it is dropped: a word that decodes is the encoding of what it decodes
to, so two words that decode to one instruction are one word. -/
def Obligations.DecodeDropsNoBit : Prop :=
  (∀ (w : SlotWord) (i : Instr), decode w = .ok i → encode i = some w) ∧
  ∀ (v w : SlotWord) (i : Instr), decode v = .ok i → decode w = .ok i → v = w

/-- Words that the spec writes out (R113, R125, R135, R144, R157, R260, R263, 17's node 38) decode to the instructions they stand for, and refused
are an OPC that Table 3.11 does not assign (0xFF), an FN that Table 4.5 does not assign (0x20 with FN 1), and a specifier in each place that Table
3.2 reserves (0xC10). -/
def Obligations.WordsOfTheSpecDecode : Prop :=
  decode 0x2C07401402FFF8000010000000000000 = .ok (.crc ⟨.u8, .reg 1, .reg 2, .none, 0x800001, 0, 0, 0⟩) ∧
  decode 0xEB00FFFFFFFFF0000000000000000005 = .ok (.trap ⟨.x64, .none, .none, .none, 0, 0, 0, 5⟩) ∧
  decode 0x0201000001FFF800208E0001C0000000 = .ok (.steer ⟨.i32, .port 0, .port 1, .none, 0x800208, 0xE0001C, 0, 0⟩) ∧
  decode 0x0C0A000FFFFFFE0000D0000008000001 = .ok (.delay ⟨.f32, .port 0, .none, .none, 0xE0000D, 0, 0x800, 1⟩) ∧
  decode 0x603A00000140CE000280000004C00000 = .ok (.ffma ⟨.f32, .port 0, .port 1, .reg 12, 0xE00028, 0, 0x4C0, 0⟩) ∧
  decode 0x1401402403FFF8000040000000000000 = .ok (.sendt ⟨.i32, .reg 2, .reg 3, .none, 0x800004, 0, 0, 0⟩) ∧
  decode 0xE900402403FFF8000080000000000001 = .ok (.fltrd ⟨.x64, .reg 2, .reg 3, .none, 0x800008, 0, 0, 1⟩) ∧
  decode 0x800A000001FFFE0003C0000000000044 = .ok (.vadd ⟨.f32, .port 0, .port 1, .none, 0xE0003C, 0, 0, 0x44⟩) ∧
  decode 0xFF00FFFFFFFFF0000000000000000000 = .error .unassigned ∧ decode 0x2010FFFFFFFFF0000000000000000000 = .error .unassigned ∧
  decode 0xEB00C10FFFFFF0000000000000000005 = .error .operandA ∧ decode 0xEB00FFFC10FFF0000000000000000005 = .error .operandB ∧
  decode 0xEB00FFFFFFC100000000000000000005 = .error .operandC

/-- R132, R83, R85, R273, R6, R488: what one step does. An issued firing runs the instruction of its slot word. Else the agenda's first entry
moves: a thread that can run fetches the word at its program counter and runs its instruction, or traps when the word is illegal or outside the
image; an event that is no word happens; the outside acts; or the cycle ends. With the agenda empty the lowest thread that can run does, and else
the cycle ends. A cycle that ends first brings, one in a step, the events that are due in it, and the next begins when none is. (The agenda is the
model's own schedule, log entry 1; what is due is log entry 3.) -/
def Obligations.StepRunsTheDecodedInstruction : Prop :=
  (∀ (s : State) (f : Firing) (i : Instr), s.focus = .node f → decode f.word = .ok i → step s = exec i s) ∧
  (∀ (s : State) (t0 t : Nat) (rest : List Move), s.focus = .thread t0 →
    (s.agenda = .run t :: rest ∨ (s.agenda = [] ∧ rest = [] ∧ s.nextThread = some t ∧ s.runnable t = true)) →
    let s1 : State := { s with agenda := rest, focus := .thread t }
    let th := s.thread t
    let im := s.image th.image
    let w := tget 0 im.words th.pc.toNat
    (s.runnable t = true → ∀ i, th.pc.toNat < im.size → decode w = .ok i → legal im.version .steward i = true → step s = exec i s1) ∧
    (s.runnable t = true → (im.size ≤ th.pc.toNat ∨ (∀ i, decode w = .ok i → legal im.version .steward i = false)) →
      step s = exec (.illegalWordFetch t) s1) ∧
    (s.runnable t = false → step s = .next { s with agenda := rest })) ∧
  (∀ (s : State) (t0 : Nat) (i : Instr) (rest : List Move), s.focus = .thread t0 → s.agenda = .happen i :: rest →
    (encode i = none → step s = exec i { s with agenda := rest }) ∧ (encode i ≠ none → step s = .next { s with agenda := rest })) ∧
  (∀ (s : State) (t0 : Nat) (rest : List Move), s.focus = .thread t0 →
    (s.agenda = .tick :: rest ∨ (s.agenda = [] ∧ rest = [] ∧ s.nextThread = none)) →
    (s.due = none → step s = .next (State.tick { s with agenda := rest })) ∧
    ∀ d, s.due = some d → step s = s.happen d) ∧
  (∀ (s : State) (d : Timed), s.due = some d → s.happen d ≠ .next s) ∧
  ∀ (s : State) (t0 : Nat) (m : Move) (rest : List Move), s.focus = .thread t0 → s.agenda = m :: rest →
    (∀ t, m ≠ .run t) → (∀ i, m ≠ .happen i) → m ≠ .tick → step s = State.outside { s with agenda := rest } m

/-- What reset leaves, as far as the spec says: no partition, no load, no thread started and no boot stage done, the colour table at Table 9.1's
values, credit, matching stores, event queues, fault rings and queue slots empty, PCAP 2,600 W, FCLK step 0, THROTTLE 0, and measurement slots
zero; every root entry is invalid. Registers and memory read zero, which is the model's choice (log entries 4, 7 and 9). The invariant of
`StepsKeepMemoryCanonical` holds. -/
def Obligations.ResetState : Prop :=
  let s := State.reset
  (∀ p, (s.part p).desc = 0 ∧ (s.part p).events = [] ∧ (s.part p).ring = [] ∧ (s.part p).bind = [] ∧ (s.part p).cut = .idle) ∧
  (∀ t, (s.thread t).started = false ∧ ∀ n, (s.thread t).reg n = 0) ∧ s.fab.loads = [] ∧ s.fab.tokens = [] ∧
  (∀ c, (s.colour c).inflt = 0 ∧ (s.colour c).sentlim = 65536 ∧ (s.colour c).window = 0 ∧ (s.colour c).cprio = 0 ∧ (s.colour c).cap = 16 ∧
    (s.colour c).quota = 0 ∧ (s.colour c).basinlen = 0 ∧ (s.colour c).basin = 0 ∧ (s.colour c).seed = 0 ∧ (s.colour c).owner = 127) ∧
  (∀ q, (s.qslot q).v = false) ∧ (∀ a, (tget 0 s.mem.asids a) = 0) ∧ (∀ a, mget s.mem.mem a = 0) ∧
  s.mgmt.boot = 0 ∧ s.mgmt.pcap = 2600 ∧ s.mgmt.fclk = 0 ∧ s.mgmt.throttle = 0 ∧ (∀ n, tget 0 s.mgmt.slots n = 0) ∧ s.mgmt.keystore = [] ∧
  Canonical s

/-- Every step keeps the canonical form of physical, host and peer memory and of the table of the key slots that lines were written under, and
none changes the fused columns (FUSEMAP of R261 is read-only). -/
def Obligations.StepsKeepMemoryCanonical : Prop :=
  ∀ (s s' : State), Canonical s → step s = .next s' → Canonical s' ∧ s'.mem.fuse = s.mem.fuse

/-! ### The obligations that join statements of one matter -/

/-- Integer arithmetic: wrapping, saturating, division, minima and comparisons, on stewards and in the fabric. -/
def Obligations.IntegerArithmetic : Prop := Claims.IntegerArithmeticWraps ∧ Claims.SaturatingSumsClamp ∧ Claims.DivisionResults ∧ Claims.MinMaxAndCompare

/-- Bitwise operations, shifts, bit counts, byte reversal, LI, SEL, CRC and MIX. -/
def Obligations.BitInstructions : Prop := Claims.BitwiseAndShifts ∧ Claims.BitCountsAndByteReversal ∧ Claims.LiSelCrcMix

/-- The floating-point instructions run on every operand; comparisons, classes and MAXI. -/
def Obligations.FloatInstructions : Prop := Claims.FloatInstructionsComplete ∧ Claims.FloatComparisonsAndClasses ∧ Claims.MaxiRanksPairs

/-- Floating-point arithmetic on NaN, infinite, zero and finite operands: the exact result rounded once. -/
def Obligations.FloatSpecialOperands : Prop := Claims.FloatSpecialOperands ∧ Claims.FloatFiniteOperands

/-- Taking a trap, TRAP and RETT, and the trap of an illegal word. -/
def Obligations.TrapsAndReturn : Prop := Claims.TrapEntry ∧ Claims.TrapAndReturn ∧ Claims.IllegalWordTraps

/-- A thread starts, halts and is restarted. -/
def Obligations.ThreadsStartHaltAndRestart : Prop := Claims.ThreadsStart ∧ Claims.HaltStopsTheThread

/-- SENDT makes an offer and an entry port decides it. -/
def Obligations.OffersAtEntryPorts : Prop := Claims.SendtOffersOrTraps ∧ Claims.EntryPortDecides

/-- WAITT takes an event or a token, waits, or traps. -/
def Obligations.WaittTakesOrWaits : Prop := Claims.WaittTakesWaitsOrTraps ∧ Claims.WaittLimitPasses

/-- LD and ST: their traps and their effects on registers and memory. -/
def Obligations.StewardLoadsAndStores : Prop := Claims.LoadStoreTraps ∧ Claims.LoadStoreEffects

/-- PURGE, PARK and PRIO send their messages, and the thread goes on when they have arrived. -/
def Obligations.TowpathOperations : Prop := Claims.TowpathOperationsStart ∧ Claims.TowpathMessagesArrive

/-- QSET, WINSET, SENTL, COLSET, PARTW, CFGW and CFGRD. -/
def Obligations.ColoursAndConfigurationWords : Prop := Claims.ColourSettings ∧ Claims.ConfigurationWords

/-- RAISE and DROP check, refuse or act. -/
def Obligations.RaiseAndDrop : Prop := Claims.RaiseChecksOrStarts ∧ Claims.RaiseRefusesEmptyOrActive ∧ Claims.DropRefusesOrEmpties

/-- UNPARK, TLBI and GENRET. -/
def Obligations.UnparkTlbiGenret : Prop := Claims.UnparkAnswers ∧ Claims.TlbiAndGenret

/-- QUIESCE begins a cut, the cut drains and writes its image, RESUME opens the partition again. -/
def Obligations.CutAndResume : Prop := Claims.QuiesceAndResume ∧ Claims.CutStopsRoundsAndEngines ∧ Claims.StateImageIsWritten

/-- The flow nodes that pass, route, null, delay and retag tokens. -/
def Obligations.FlowNodes : Prop := Claims.FlowNodesPassTokens ∧ Claims.RoutingOperands ∧ Claims.DelayAndTagsetKeepTheWindow

/-- JOINN counts, BAR orders and EMIT writes events. -/
def Obligations.CountsBarriersAndEvents : Prop := Claims.JoinnCountsAndSums ∧ Claims.BarOrdersIterations ∧ Claims.EmitWritesAnEventOrWaits

/-- Tokens cross the mesh and enter matching within CAP and the ways of a set. -/
def Obligations.TokensReachMatching : Prop := Claims.MeshDeliversTokens ∧ Claims.MatchingTakesTokens ∧ Claims.NewEntriesKeepCapAndWays

/-- The choice of an element, the firing that it issues, and the streams of ITER. -/
def Obligations.FiringsAreSelected : Prop := Claims.SelectionOrder ∧ Claims.ElementIssuesOneFiring ∧ Claims.IterBeginsAStream ∧ Claims.IterIssuesIndexes

/-- Units send their results, exit queues keep CAP, tile packets land in their slot. -/
def Obligations.ResultsLeaveElements : Prop := Claims.UnitsSendTheirResults ∧ Claims.ExitQueuesHoldCap ∧ Claims.TilePacketsLand

/-- Basins take and return tokens, credit keeps BASINLEN, a sentinel reports once. -/
def Obligations.BasinsCreditAndSentinels : Prop := Claims.BasinsTakeAndReturnTokens ∧ Claims.CreditKeepsBasinlen ∧ Claims.SentinelReportsOnce

/-- Vector operands are checked; lane-wise instructions, quantisation, scans, permutations and reductions of vectors. -/
def Obligations.VectorInstructions : Prop := Claims.OperandSlotsAreChecked ∧ Claims.VectorLanes ∧ Claims.VectorQuantScanPermute ∧ Claims.VectorReductions

/-- The tile instructions that write a slot or send a tile. -/
def Obligations.TileResultsAndHeaders : Prop := Claims.TileResults ∧ Claims.ThdrWritesAHeader ∧ Claims.TsendSendsTiles

/-- Accumulators are cleared, added to, multiplied into and drained. -/
def Obligations.AccumulatorsAndProducts : Prop := Claims.AccumulatorsClearAndAdd ∧ Claims.ProductsAccumulate ∧ Claims.GroupsClose ∧ Claims.TdrainWritesTheTile

/-- AGEN, PARAM and the access nodes reach their port, whose checks come first. -/
def Obligations.AccessNodes : Prop := Claims.WorkingCopies ∧ Claims.AgenAndParam ∧ Claims.AccessNodesReachTheirPort ∧ Claims.AccessAddressesAndChecks

/-- Loads deliver their datum, stores and updates enter the round. -/
def Obligations.LoadsStoresAndUpdates : Prop := Claims.LoadsDeliver ∧ Claims.StoresEnterTheRound ∧ Claims.UpdateValues

/-- OFORK, OJOIN, XLAT, page walks and read-ahead. -/
def Obligations.WalksAndReadAhead : Prop := Claims.ChainAndXlat ∧ Claims.PageWalksReadTheirEntries ∧ Claims.ReadAheadKeepsDatums

/-- Rounds open, complete, prepare and commit their stores. -/
def Obligations.RoundsOpenAndCommit : Prop := Claims.RoundsOpen ∧ Claims.RoundsCompleteAndPrepare ∧ Claims.RoundsCommit

/-- A fault voids its round and writes its record; held updates go on. -/
def Obligations.FaultsVoidRounds : Prop := Claims.FaultsVoidAndRecord ∧ Claims.HeldUpdatesGoOn

/-- BFAL, BFFR, BFLIFE and BFWR complete: buffers are allocated, freed, kept and written. -/
def Obligations.BuffersAllocateFreeAndFill : Prop := Claims.BuffersAllocateAndFree ∧ Claims.BfwrWritesItsPlace

/-- View instructions reach their Trimmer, which changes views and frees pages. -/
def Obligations.ViewsAndPages : Prop := Claims.ViewNodesReachTheirTrimmer ∧ Claims.TrimmersChangeViews ∧ Claims.PagesAreFreed

/-- XFER is requested, moves its chunks and completes. -/
def Obligations.BlockCopies : Prop := Claims.XferRequests ∧ Claims.CopiesMoveChunks ∧ Claims.CopiesComplete

/-- WEIR is requested and scans its candidates. -/
def Obligations.WeirSelects : Prop := Claims.WeirRequests ∧ Claims.WeirScans

/-- LSEND, LRECV, the links, and collectives. -/
def Obligations.LinksAndCollectives : Prop := Claims.LsendHandsOver ∧ Claims.LrecvTakesTheNext ∧ Claims.LinksCarryPackets ∧ Claims.CollJoinsItsGroup ∧ Claims.CollectivesCombine

/-- Stores into the control, configuration and launch windows. -/
def Obligations.WindowStores : Prop := Claims.BindingStores ∧ Claims.ConfigurationSpace ∧ Claims.LaunchWindowCounts

/-- Mailbox requests of the physical function. -/
def Obligations.PhysicalFunctionRequests : Prop := Claims.OnlyThePhysicalFunctionMay ∧ Claims.RootKeyAndGroupRequests ∧ Claims.KeyStoreRequests

/-- RESREGION, DESTREGION and SETCOLOUR. -/
def Obligations.RegionsAndColoursAreSet : Prop := Claims.RegionRequests ∧ Claims.ColoursAreSet

/-- SETPART, and what a partition reset leaves. -/
def Obligations.PartitionsAreSetAndReset : Prop := Claims.PartitionsAreSet ∧ Claims.PartitionResetLeaves

/-- Virtual queues are written, BAR 0 reads and stores, queues take turns in the queue slots, and their records are published. -/
def Obligations.VirtualQueues : Prop := Claims.QueuesAreWritten ∧ Claims.HostReadsAndStores ∧ Claims.QueuesTakeTurns ∧ Claims.RecordsArePublished

/-- Function resets, page responses, invalidations, hardware errors and debug halts. -/
def Obligations.PageRequestsErrorsAndHalts : Prop := Claims.PageRequestGroups ∧ Claims.ErrorsAreContained ∧ Claims.DebugHaltAndRelease

/-- Launches are admitted, placed and offered, and adapters claimed. -/
def Obligations.LaunchesRun : Prop := Claims.LaunchesAreAdmitted ∧ Claims.LaunchesGoOn ∧ Claims.AdapterClaims

/-- Orphans are answered, steps replayed, colours drained, loads evicted and restored. -/
def Obligations.ReplaysDrainsAndEvictions : Prop := Claims.OrphansAndReplays ∧ Claims.ColoursDrain ∧ Claims.LoadsAreEvictedAndRestored

/-- Boot stages, side-band commands, and the fabric clock. -/
def Obligations.BootSideBandAndClock : Prop := Claims.BootStagesRunInOrder ∧ Claims.SideBandCommands ∧ Claims.ClockAndHeat
end

