-- ==== Sys2Proof/Laws/Bits.lean ====
section
/-! SUPPORT. Laws of bit fields: a field of a packed vector reads as its value, and the bits of a vector with one field replaced. -/

namespace Sys2Proof.Machine

theorem nfld_lt {n : Nat} (w : BitVec n) (lo len : Nat) : nfld w lo len < 2 ^ len := Nat.mod_lt _ (Nat.two_pow_pos len)

theorem fld_toNat {n : Nat} (w : BitVec n) (lo len : Nat) : (fld w lo len).toNat = nfld w lo len := by
  simp [fld, nfld, Nat.shiftRight_eq_div_pow]

theorem fld_eq_of_nfld {n : Nat} (w : BitVec n) (lo len v : Nat) (h : nfld w lo len = v % 2 ^ len) : fld w lo len = BitVec.ofNat len v := by
  apply BitVec.eq_of_toNat_eq
  rw [fld_toNat, h, BitVec.toNat_ofNat]

/-- The field that ends a vector needs no cut. -/
theorem nfld_top {n : Nat} (w : BitVec n) (lo len : Nat) (h : n = lo + len) : nfld w lo len = w.toNat / 2 ^ lo := by
  unfold nfld
  apply Nat.mod_eq_of_lt
  have := w.isLt
  subst h
  rw [Nat.div_lt_iff_lt_mul (Nat.two_pow_pos lo), ← Nat.pow_add, Nat.add_comm len lo]
  exact this

/-! ### Packed fields -/

/-- Fields stand from high to low below bit `hi`, without overlap. -/
def packDown : Nat → List (Nat × Nat × Nat) → Bool
  | _, [] => true
  | hi, (lo, len, _) :: fs => decide (lo + len ≤ hi) && packDown lo fs

theorem packNat_lt (hi : Nat) (fs : List (Nat × Nat × Nat)) (h : packDown hi fs = true) : packNat fs < 2 ^ hi := by
  induction fs generalizing hi with
  | nil => exact Nat.two_pow_pos hi
  | cons f fs ih =>
    obtain ⟨lo, len, v⟩ := f
    simp only [packDown, Bool.and_eq_true, decide_eq_true_eq] at h
    have h1 := ih lo h.2
    have h2 : v % 2 ^ len < 2 ^ len := Nat.mod_lt _ (Nat.two_pow_pos len)
    have h3 : v % 2 ^ len * 2 ^ lo + 2 ^ lo ≤ 2 ^ len * 2 ^ lo := by
      rw [← Nat.succ_mul]; exact Nat.mul_le_mul_right _ h2
    have h4 : 2 ^ len * 2 ^ lo ≤ 2 ^ hi := by
      rw [← Nat.pow_add]; exact Nat.pow_le_pow_right (by decide) (by omega)
    simp only [packNat]
    omega

theorem packDown_mem (hi : Nat) (fs : List (Nat × Nat × Nat)) (h : packDown hi fs = true) (lo len v : Nat) (hm : (lo, len, v) ∈ fs) : lo + len ≤ hi := by
  induction fs generalizing hi with
  | nil => cases hm
  | cons g gs ih =>
    obtain ⟨lo2, len2, v2⟩ := g
    simp only [packDown, Bool.and_eq_true, decide_eq_true_eq] at h
    rcases List.mem_cons.mp hm with heq | hm'
    · injection heq with e1 e2; injection e2 with e2 e3; subst e1; subst e2; exact h.1
    · have := ih lo2 h.2 hm'; omega

theorem packNat_field (hi : Nat) (fs : List (Nat × Nat × Nat)) (h : packDown hi fs = true) (lo len v : Nat) (hm : (lo, len, v) ∈ fs) :
    packNat fs / 2 ^ lo % 2 ^ len = v % 2 ^ len := by
  induction fs generalizing hi with
  | nil => cases hm
  | cons f fs ih =>
    obtain ⟨lo1, len1, v1⟩ := f
    simp only [packDown, Bool.and_eq_true, decide_eq_true_eq] at h
    simp only [packNat]
    rcases List.mem_cons.mp hm with heq | hm
    · injection heq with e1 e2; injection e2 with e2 e3; subst e1; subst e2; subst e3
      have h1 := packNat_lt lo fs h.2
      rw [Nat.add_comm, Nat.add_mul_div_right _ _ (Nat.two_pow_pos lo), Nat.div_eq_of_lt h1, Nat.zero_add, Nat.mod_mod]
    · have hle : lo + len ≤ lo1 := packDown_mem lo1 fs h.2 lo len v hm
      rw [← ih lo1 h.2 hm]
      obtain ⟨k, rfl⟩ : ∃ k, lo1 = lo + len + k := ⟨lo1 - (lo + len), by omega⟩
      have e : v1 % 2 ^ len1 * 2 ^ (lo + len + k) + packNat fs = packNat fs + (v1 % 2 ^ len1 * 2 ^ k * 2 ^ len) * 2 ^ lo := by
        rw [Nat.pow_add, Nat.pow_add, Nat.add_comm]; simp only [Nat.mul_comm, Nat.mul_left_comm, Nat.mul_assoc]
      rw [e, Nat.add_mul_div_right _ _ (Nat.two_pow_pos lo), Nat.add_mul_mod_self_right]

/-- A field of a packed vector reads as its value, cut to its width. -/
theorem nfld_pack (n : Nat) (fs : List (Nat × Nat × Nat)) (lo len v : Nat) (h : packDown n fs = true) (hm : (lo, len, v) ∈ fs) :
    nfld (pack n fs) lo len = v % 2 ^ len := by
  unfold nfld pack
  rw [BitVec.toNat_ofNat, Nat.mod_eq_of_lt (packNat_lt n fs h)]
  exact packNat_field n fs h lo len v hm

theorem fld_pack (n : Nat) (fs : List (Nat × Nat × Nat)) (lo len v : Nat) (h : packDown n fs = true) (hm : (lo, len, v) ∈ fs) :
    fld (pack n fs) lo len = BitVec.ofNat len v := fld_eq_of_nfld _ _ _ _ (nfld_pack n fs lo len v h hm)

/-! ### A field replaced -/

/-- The bits of a vector with one field replaced: the field's are the value's, the others stay. -/
theorem setFld_getLsbD {n : Nat} (w : BitVec n) (lo len v i : Nat) (h : lo + len ≤ n) :
    (setFld w lo len v).getLsbD i = if lo ≤ i ∧ i < lo + len then (v % 2 ^ len).testBit (i - lo) else w.getLsbD i := by
  have hb : ∀ x : BitVec n, x.getLsbD i = x.toNat.testBit i := fun _ => rfl
  unfold setFld nfld
  rw [hb, hb, BitVec.toNat_ofNat]
  have hw := w.isLt
  generalize w.toNat = x at *
  have hlt : v % 2 ^ len < 2 ^ len := Nat.mod_lt _ (Nat.two_pow_pos len)
  have hp : 2 ^ (lo + len) = 2 ^ lo * 2 ^ len := Nat.pow_add 2 lo len
  have e1 : x - x / 2 ^ lo % 2 ^ len * 2 ^ lo = x % 2 ^ lo + 2 ^ (lo + len) * (x / 2 ^ (lo + len)) := by
    have h1 := Nat.div_add_mod x (2 ^ lo)
    have h2 := Nat.div_add_mod (x / 2 ^ lo) (2 ^ len)
    rw [Nat.div_div_eq_div_mul, ← hp] at h2
    have h3 : 2 ^ lo * (x / 2 ^ lo) = 2 ^ (lo + len) * (x / 2 ^ (lo + len)) + x / 2 ^ lo % 2 ^ len * 2 ^ lo := by
      rw [← h2, Nat.mul_add, ← Nat.mul_assoc, ← hp, h2, Nat.mul_comm (2 ^ lo) (x / 2 ^ lo % 2 ^ len)]
    omega
  rw [e1]
  generalize v % 2 ^ len = q at *
  have hm : x % 2 ^ lo < 2 ^ lo := Nat.mod_lt _ (Nat.two_pow_pos lo)
  have hq : 2 ^ lo * q + x % 2 ^ lo < 2 ^ (lo + len) := by
    have : 2 ^ lo * q + 2 ^ lo ≤ 2 ^ lo * 2 ^ len := by rw [← Nat.mul_succ]; exact Nat.mul_le_mul_left _ hlt
    omega
  have e2 : x % 2 ^ lo + 2 ^ (lo + len) * (x / 2 ^ (lo + len)) + q * 2 ^ lo = 2 ^ (lo + len) * (x / 2 ^ (lo + len)) + (2 ^ lo * q + x % 2 ^ lo) := by
    rw [Nat.mul_comm q]; omega
  rw [e2]
  have hlt2 : 2 ^ (lo + len) * (x / 2 ^ (lo + len)) + (2 ^ lo * q + x % 2 ^ lo) < 2 ^ n := by
    obtain ⟨k, rfl⟩ : ∃ k, n = lo + len + k := ⟨n - (lo + len), by omega⟩
    have h4 : x / 2 ^ (lo + len) < 2 ^ k := by
      rw [Nat.div_lt_iff_lt_mul (Nat.two_pow_pos _), ← Nat.pow_add, Nat.add_comm k]; exact hw
    have h5 : 2 ^ (lo + len) * (x / 2 ^ (lo + len)) + 2 ^ (lo + len) ≤ 2 ^ (lo + len) * 2 ^ k := by
      rw [← Nat.mul_succ]; exact Nat.mul_le_mul_left _ h4
    rw [← Nat.pow_add] at h5
    omega
  rw [Nat.mod_eq_of_lt hlt2, Nat.testBit_two_pow_mul_add _ hq]
  by_cases h1 : i < lo + len
  · rw [if_pos h1, Nat.testBit_two_pow_mul_add _ hm]
    by_cases h2 : i < lo
    · rw [if_pos h2, if_neg (by omega), Nat.testBit_mod_two_pow]; simp [h2]
    · rw [if_neg h2, if_pos ⟨by omega, h1⟩]
  · rw [if_neg h1, if_neg (by omega), Nat.testBit_div_two_pow]; congr 1; omega

/-- The field replaced reads as the value. -/
theorem nfld_setFld {n : Nat} (w : BitVec n) (lo len v : Nat) (h : lo + len ≤ n) : nfld (setFld w lo len v) lo len = v % 2 ^ len := by
  apply Nat.eq_of_testBit_eq
  intro i
  have hb := setFld_getLsbD w lo len v (lo + i) h
  have e : (setFld w lo len v).getLsbD (lo + i) = (setFld w lo len v).toNat.testBit (lo + i) := rfl
  rw [e] at hb
  unfold nfld
  rw [Nat.testBit_mod_two_pow, Nat.testBit_div_two_pow]
  by_cases hi : i < len
  · rw [Nat.add_comm i lo, hb, if_pos ⟨by omega, by omega⟩]; simp [hi]
  · simp [hi, Nat.testBit_mod_two_pow]

/-- A field beside the one replaced stays. -/
theorem nfld_setFld_ne {n : Nat} (w : BitVec n) (lo len v lo' len' : Nat) (h : lo + len ≤ n) (hd : lo' + len' ≤ lo ∨ lo + len ≤ lo') :
    nfld (setFld w lo len v) lo' len' = nfld w lo' len' := by
  apply Nat.eq_of_testBit_eq
  intro i
  have hb := setFld_getLsbD w lo len v (lo' + i) h
  have e : (setFld w lo len v).getLsbD (lo' + i) = (setFld w lo len v).toNat.testBit (lo' + i) := rfl
  have e' : w.getLsbD (lo' + i) = w.toNat.testBit (lo' + i) := rfl
  rw [e, e'] at hb
  unfold nfld
  rw [Nat.testBit_mod_two_pow, Nat.testBit_mod_two_pow, Nat.testBit_div_two_pow, Nat.testBit_div_two_pow]
  by_cases hi : i < len'
  · rw [Nat.add_comm i lo', hb, if_neg (by omega)]
  · simp [hi]

end Sys2Proof.Machine
end

