-- ==== Sys2Proof/Laws/Decode.lean ====
section
/-! SUPPORT. The decoder reads back each field that the encoder writes; an operand specifier and a type read back as themselves. -/

namespace Sys2Proof

open Sys2Proof.Machine

theorem toNat_append_add {m n : Nat} (x : BitVec m) (y : BitVec n) : (x ++ y).toNat = x.toNat * 2 ^ n + y.toNat := by
  rw [BitVec.toNat_append, ← Nat.shiftLeft_add_eq_or_of_lt y.isLt, Nat.shiftLeft_eq]

/-- An encoded word as a number. -/
theorem wordOf_toNat (opc : BitVec 8) (fn : BitVec 4) (o : Ops) :
    (wordOf opc fn o).toNat = (((((((((opc.toNat * 2 ^ 4 + fn.toNat) * 2 ^ 4 + (tyCode o.ty).toNat) * 2 ^ 12 + (opndBits o.a).toNat) * 2 ^ 12 +
      (opndBits o.b).toNat) * 2 ^ 12 + (opndBits o.c).toNat) * 2 ^ 24 + o.t0.toNat) * 2 ^ 24 + o.t1.toNat) * 2 ^ 12 + o.fl.toNat) * 2 ^ 16 + o.imm.toNat) := by
  have h : wordOf opc fn o = opc ++ fn ++ tyCode o.ty ++ opndBits o.a ++ opndBits o.b ++ opndBits o.c ++ o.t0 ++ o.t1 ++ o.fl ++ o.imm := rfl
  rw [h]
  simp only [toNat_append_add]

theorem fld_eq_ofNat {n : Nat} (w : BitVec n) (lo len : Nat) : fld w lo len = BitVec.ofNat len (nfld w lo len) := by
  apply BitVec.eq_of_toNat_eq
  simp [fld, nfld, Nat.shiftRight_eq_div_pow]

theorem fld_of_nfld {n len : Nat} (w : BitVec n) (lo : Nat) (v : BitVec len) (h : nfld w lo len = v.toNat) : fld w lo len = v := by
  rw [fld_eq_ofNat, h]; simp

/-- Every field of an encoded word. -/
theorem wordOf_fields (opc : BitVec 8) (fn : BitVec 4) (o : Ops) :
    nfld (wordOf opc fn o) 120 8 = opc.toNat ∧ nfld (wordOf opc fn o) 116 4 = fn.toNat ∧ nfld (wordOf opc fn o) 112 4 = (tyCode o.ty).toNat ∧
    nfld (wordOf opc fn o) 100 12 = (opndBits o.a).toNat ∧ nfld (wordOf opc fn o) 88 12 = (opndBits o.b).toNat ∧
    nfld (wordOf opc fn o) 76 12 = (opndBits o.c).toNat ∧ nfld (wordOf opc fn o) 52 24 = o.t0.toNat ∧ nfld (wordOf opc fn o) 28 24 = o.t1.toNat ∧
    nfld (wordOf opc fn o) 16 12 = o.fl.toNat ∧ nfld (wordOf opc fn o) 0 16 = o.imm.toNat ∧ nfld (wordOf opc fn o) 0 2 = nfld o.imm 0 2 := by
  have h := wordOf_toNat opc fn o
  have h1 := opc.isLt; have h2 := fn.isLt; have h3 := (tyCode o.ty).isLt; have h4 := (opndBits o.a).isLt; have h5 := (opndBits o.b).isLt
  have h6 := (opndBits o.c).isLt; have h7 := o.t0.isLt; have h8 := o.t1.isLt; have h9 := o.fl.isLt; have h10 := o.imm.isLt
  unfold nfld
  rw [h]
  refine ⟨?_, ?_, ?_, ?_, ?_, ?_, ?_, ?_, ?_, ?_, ?_⟩ <;> omega

@[simp] theorem tyOf_tyCode (t : Ty) : tyOf (tyCode t) = t := by cases t <;> rfl

/-- A specifier other than the illegal port 3 reads back. -/
theorem opndOf_opndBits (x : Opnd) (h : x ≠ .port 3) : opndOf (opndBits x) = some x := by
  cases x with
  | port n =>
    revert h
    revert n
    decide
  | reg n =>
    have h1 : nfld (opndBits (.reg n)) 10 2 = 1 := by have := n.isLt; have : (1 : BitVec 2).toNat = 1 := rfl; simp only [opndBits, nfld, toNat_append_add]; omega
    have h2 : fld (opndBits (.reg n)) 0 10 = n := fld_of_nfld _ _ _ (by have := n.isLt; simp only [opndBits, nfld, toNat_append_add]; omega)
    simp [opndOf, h1, h2]
  | lit v =>
    have h1 : nfld (opndBits (.lit v)) 10 2 = 2 := by have := v.isLt; have : (2 : BitVec 2).toNat = 2 := rfl; simp only [opndBits, nfld, toNat_append_add]; omega
    have h2 : fld (opndBits (.lit v)) 0 10 = v := fld_of_nfld _ _ _ (by have := v.isLt; simp only [opndBits, nfld, toNat_append_add]; omega)
    simp [opndOf, h1, h2]
  | acc n => revert n; decide
  | buf n => revert n; decide
  | imm => decide
  | none => decide

/-- No operand of an instruction is the illegal port 3. -/
def portsLegal (o : Ops) : Prop := o.a ≠ .port 3 ∧ o.b ≠ .port 3 ∧ o.c ≠ .port 3

/-- The decoder reads back what the encoder wrote. -/
theorem decode_wordOf (opc : BitVec 8) (fn : BitVec 4) (o : Ops) (f : Ops → Instr)
    (hi : instrOf opc.toNat fn.toNat (nfld o.imm 0 2) = some f) (hp : portsLegal o) : decode (wordOf opc fn o) = .ok (f o) := by
  obtain ⟨h1, h2, h3, h4, h5, h6, h7, h8, h9, h10, h11⟩ := wordOf_fields opc fn o
  unfold decode
  rw [h1, h2, h11, hi, fld_of_nfld _ _ _ h4, fld_of_nfld _ _ _ h5, fld_of_nfld _ _ _ h6, fld_of_nfld _ _ _ h3, fld_of_nfld _ _ _ h7,
    fld_of_nfld _ _ _ h8, fld_of_nfld _ _ _ h9, fld_of_nfld _ _ _ h10]
  simp [opndOf_opndBits _ hp.1, opndOf_opndBits _ hp.2.1, opndOf_opndBits _ hp.2.2]

end Sys2Proof
end

