-- ==== Sys2Proof/Laws/Table.lean ====
section
/-! SUPPORT. Laws of tables and memory: a read after a write, and the canonical form, which every write keeps. -/

namespace Sys2Proof.Machine

variable {α : Type} [DecidableEq α] {d : α}

theorem twfFrom_mono {lo lo' : Nat} (t : Tbl α) (h : lo' ≤ lo) (w : twfFrom d lo t = true) : twfFrom d lo' t = true := by
  cases t with
  | nil => rfl
  | cons e t => simp [twfFrom] at *; exact ⟨⟨by omega, w.1.2⟩, w.2⟩

theorem tget_below {lo i : Nat} (t : Tbl α) (h : i < lo) (w : twfFrom d lo t = true) : tget d t i = d := by
  induction t generalizing lo with
  | nil => rfl
  | cons e t ih =>
    obtain ⟨k, v⟩ := e
    simp [twfFrom] at w
    have hk : k ≠ i := by omega
    simp [tget, hk]
    exact ih (lo := k + 1) (by omega) w.2

theorem twfFrom_filter {lo : Nat} (p : Nat × α → Bool) (t : Tbl α) (w : twfFrom d lo t = true) : twfFrom d lo (t.filter p) = true := by
  induction t generalizing lo with
  | nil => rfl
  | cons e t ih =>
    obtain ⟨k, v⟩ := e
    simp [twfFrom] at w
    simp only [List.filter]
    split
    · simp [twfFrom, w.1]; exact ih w.2
    · exact twfFrom_mono _ (by omega) (ih w.2)

/-- Dropping entries keeps the canonical form. -/
theorem twf_filter (p : Nat × α → Bool) (t : Tbl α) (w : twf d t = true) : twf d (t.filter p) = true := twfFrom_filter p t w

theorem twfFrom_tset {lo : Nat} (t : Tbl α) (i : Nat) (v : α) (h : lo ≤ i) (w : twfFrom d lo t = true) : twfFrom d lo (tset d t i v) = true := by
  induction t generalizing lo with
  | nil => by_cases hv : v = d <;> simp [tset, hv, twfFrom, h]
  | cons e t ih =>
    obtain ⟨k, u⟩ := e
    simp [twfFrom] at w
    obtain ⟨⟨hk, hu⟩, ht⟩ := w
    simp only [tset]
    split
    · next hik =>
      split
      · simp [twfFrom, hk, hu]; exact twfFrom_filter _ t ht
      · next hv => simp [twfFrom, h, hv, hu, ht]; omega
    · next hik =>
      split
      · next hki =>
        split
        · exact twfFrom_mono _ (by omega) (twfFrom_filter _ t ht)
        · next hv => subst hki; simp [twfFrom, hv, ht, h]
      · next hki => simp [twfFrom, hk, hu]; exact ih (by omega) ht

/-- A write keeps the canonical form. -/
theorem twf_tset (t : Tbl α) (i : Nat) (v : α) (w : twf d t = true) : twf d (tset d t i v) = true := twfFrom_tset t i v (Nat.zero_le i) w

omit [DecidableEq α] in
theorem tget_tdel (t : Tbl α) (i j : Nat) : tget d (tdel t i) j = if i = j then d else tget d t j := by
  induction t with
  | nil => simp [tdel, tget]
  | cons e t ih =>
    obtain ⟨k, u⟩ := e
    simp only [tdel, List.filter] at *
    by_cases hk : k = i
    · subst hk
      simp
      rw [ih]
      by_cases hj : k = j <;> simp [tget, hj]
    · have : (k != i) = true := by simpa using hk
      simp only [this, tget]
      by_cases hj : k = j
      · have : i ≠ j := by omega
        simp [hj, this]
      · simp [hj]; exact ih

/-- A read after a write, of any table. -/
theorem tget_tset (t : Tbl α) (i j : Nat) (v : α) : tget d (tset d t i v) j = if i = j then v else tget d t j := by
  induction t with
  | nil => by_cases hv : v = d <;> by_cases hj : i = j <;> simp [tset, hv, tget, hj]
  | cons e t ih =>
    obtain ⟨k, u⟩ := e
    simp only [tset]
    split
    · next hik =>
      split
      · next hv =>
        simp only [tget, tget_tdel]
        by_cases hj : i = j
        · have : k ≠ j := by omega
          simp [this, hj, hv]
        · by_cases hk : k = j <;> simp [hj, hk]
      · simp [tget]
    · next hik =>
      split
      · next hki =>
        subst hki
        split
        · next hv =>
          rw [tget_tdel, hv]
          by_cases hj : k = j <;> simp [tget, hj]
        · by_cases hj : k = j <;> simp [tget, hj]
      · next hki =>
        by_cases hj : k = j
        · subst hj; have : i ≠ k := fun e => hki e.symm
          simp [tget, this]
        · simp [tget, hj]; exact ih

/-- A write to a key reads back. -/
@[simp] theorem tget_tset_same (t : Tbl α) (i : Nat) (v : α) : tget d (tset d t i v) i = v := by simp [tget_tset]
/-- A write to a key leaves every other one alone. -/
theorem tget_tset_ne (t : Tbl α) (i j : Nat) (v : α) (h : i ≠ j) : tget d (tset d t i v) j = tget d t j := by simp [tget_tset, h]

/-! ### Memory -/

theorem mem_wf_mset (m : Memory) (a : Nat) (b : Byte) (w : Memory.wf m = true) : Memory.wf (mset m a b) = true := twf_tset m a b w

theorem mem_wf_msetN (m : Memory) (a : Nat) (l : List Byte) (w : Memory.wf m = true) : Memory.wf (msetN m a l) = true := by
  induction l generalizing m a with
  | nil => exact w
  | cons b l ih => exact ih _ _ (mem_wf_mset m a b w)

theorem mem_wf_filter (p : Nat × Byte → Bool) (m : Memory) (w : Memory.wf m = true) : Memory.wf (m.filter p) = true := twf_filter p m w

theorem mget_mset (m : Memory) (a b : Nat) (v : Byte) : mget (mset m a v) b = if a = b then v else mget m b := tget_tset m a b v

/-- A write leaves every byte outside it alone. -/
theorem mget_msetN_out (m : Memory) (a b : Nat) (l : List Byte) (h : b < a ∨ a + l.length ≤ b) :
    mget (msetN m a l) b = mget m b := by
  induction l generalizing m a with
  | nil => rfl
  | cons v l ih =>
    simp only [List.length_cons] at h
    simp only [msetN]
    rw [ih (mset m a v) (a + 1) (by omega), mget_mset m a b v]
    have : a ≠ b := by omega
    simp [this]

/-- A read after a write of several bytes. -/
theorem mgetN_msetN (m : Memory) (a : Nat) (l : List Byte) : mgetN (msetN m a l) a l.length = l := by
  induction l generalizing m a with
  | nil => rfl
  | cons v l ih =>
    simp only [msetN, List.length_cons, mgetN]
    rw [ih, mget_msetN_out _ (a + 1) a l (by omega), mget_mset m a a v]
    simp

end Sys2Proof.Machine
end

