-- ==== Sys2Proof/Laws/Mem.lean ====
section
/-! SUPPORT. Laws of physical memory: every operation on it keeps the canonical form and the fused columns, and a read after a write. -/

namespace Sys2Proof.Machine

/-- The canonical form of `Canonical`, of the memory alone. -/
def Mem.Canon (m : Mem) : Prop :=
  Memory.wf m.mem = true ∧ Memory.wf m.host = true ∧ Memory.wf m.peer = true ∧ twf noKey m.keys = true

theorem canonical_iff (s : State) : Canonical s ↔ s.mem.Canon := Iff.rfl

/-- Memory keeps its canonical form and its fused columns from `m` to `m'`. -/
def Mem.Keeps (m m' : Mem) : Prop := (m.Canon → m'.Canon) ∧ m'.fuse = m.fuse

@[refl] theorem Mem.Keeps.refl (m : Mem) : m.Keeps m := ⟨id, rfl⟩
theorem Mem.Keeps.trans {a b c : Mem} (h : a.Keeps b) (k : b.Keeps c) : a.Keeps c := ⟨fun x => k.1 (h.1 x), k.2.trans h.2⟩
/-- Memory that is the same keeps its form. -/
theorem Mem.Keeps.of_eq {a b : Mem} (h : b = a) : a.Keeps b := h ▸ refl a

theorem Mem.keeps_mem (m : Mem) (a : Nat) (l : List Byte) : m.Keeps { m with mem := msetN m.mem a l } :=
  ⟨fun h => ⟨mem_wf_msetN _ _ _ h.1, h.2⟩, rfl⟩
theorem Mem.keeps_host (m : Mem) (a : Nat) (l : List Byte) : m.Keeps { m with host := msetN m.host a l } :=
  ⟨fun h => ⟨h.1, mem_wf_msetN _ _ _ h.2.1, h.2.2⟩, rfl⟩
theorem Mem.keeps_peer (m : Mem) (a : Nat) (l : List Byte) : m.Keeps { m with peer := msetN m.peer a l } :=
  ⟨fun h => ⟨h.1, h.2.1, mem_wf_msetN _ _ _ h.2.2.1, h.2.2.2⟩, rfl⟩
theorem Mem.keeps_keys (m : Mem) (l k : Nat) : m.Keeps { m with keys := tset noKey m.keys l k } :=
  ⟨fun h => ⟨h.1, h.2.1, h.2.2.1, twf_tset _ _ _ h.2.2.2⟩, rfl⟩

theorem Mem.rekey_keeps (m : Mem) (key a : Nat) : m.Keeps (m.rekey key a) := by
  unfold Mem.rekey
  dsimp only
  split
  · exact m.keeps_keys _ _
  · exact (m.keeps_mem _ _).trans (Mem.keeps_keys _ _ _)

theorem Mem.write1_keeps (m : Mem) (key a : Nat) (b : Byte) : m.Keeps (m.write1 key a b) :=
  (m.rekey_keeps key a).trans ⟨fun h => ⟨mem_wf_mset _ _ _ h.1, h.2⟩, rfl⟩

theorem Mem.write_keeps (m : Mem) (key a : Nat) (l : List Byte) : m.Keeps (m.write key a l) := by
  induction l generalizing m a with
  | nil => exact .refl _
  | cons b l ih => exact (m.write1_keeps key a b).trans (ih _ _)

theorem Mem.clearSb_keeps (m : Mem) (a n : Nat) : m.Keeps (m.clearSb a n) := ⟨id, rfl⟩

theorem twf_keys_foldl (ls : List Nat) (key : Nat) (t : Tbl Nat) (h : twf noKey t = true) :
    twf noKey (ls.foldl (fun t l => tset noKey t l key) t) = true := by
  induction ls generalizing t with
  | nil => exact h
  | cons l ls ih => exact ih _ (twf_tset _ _ _ h)

theorem Mem.zeroFrame_keeps (m : Mem) (key frame : Nat) : m.Keeps (m.zeroFrame key frame) :=
  by
  refine ⟨fun h => ⟨mem_wf_filter _ _ h.1, h.2.1, h.2.2.1, ?_⟩, rfl⟩
  generalize hl : rangeFrom (frame / 64) 1024 = ls
  simp only [Mem.zeroFrame, hl]
  exact twf_keys_foldl _ _ _ h.2.2.2

theorem twfFrom_keyLoad (n : Nat) (t : Tbl Nat) (lo : Nat) (h : twfFrom noKey lo t = true) :
    twfFrom noKey lo (t.map fun x => if x.2 = n then (x.1, 257 + n) else x) = true := by
  induction t generalizing lo with
  | nil => rfl
  | cons e t ih =>
    obtain ⟨k, v⟩ := e
    simp [twfFrom] at h
    simp only [List.map, twfFrom]
    split
    · have hk : 257 + n ≠ noKey := by unfold noKey; omega
      simp [h.1.1, ih _ h.2, hk]
    · simp [h.1, ih _ h.2]

/-- Loading a key slot renames the slot of the lines written under it (R447, R451). -/
theorem Mem.keyLoad_keeps (m : Mem) (n : Nat) : m.Keeps { m with keys := m.keys.map fun x => if x.2 = n then (x.1, 257 + n) else x } :=
  ⟨fun h => ⟨h.1, h.2.1, h.2.2.1, twfFrom_keyLoad n _ _ h.2.2.2⟩, rfl⟩

end Sys2Proof.Machine
end

