-- ==== Sys2Proof/Laws/State.lean ====
section
/-! SUPPORT. The fields of the state after each of its updates: one lemma per field and update, so that no proof unfolds an update. -/

namespace Sys2Proof.Machine

variable (s : State)

@[simp] theorem State.setThread_agenda (t : Nat) (v : Thread) : (s.setThread t v).agenda = s.agenda := rfl
@[simp] theorem State.setThread_focus (t : Nat) (v : Thread) : (s.setThread t v).focus = s.focus := rfl
@[simp] theorem State.setThread_fresh (t : Nat) (v : Thread) : (s.setThread t v).fresh = s.fresh := rfl
@[simp] theorem State.setThread_cycle (t : Nat) (v : Thread) : (s.setThread t v).cycle = s.cycle := rfl
@[simp] theorem State.setThread_mem (t : Nat) (v : Thread) : (s.setThread t v).mem = s.mem := rfl
@[simp] theorem State.setThread_stew (t : Nat) (v : Thread) : (s.setThread t v).stew = { s.stew with threads := tset Thread.reset s.stew.threads t v } := rfl
@[simp] theorem State.setThread_parts (t : Nat) (v : Thread) : (s.setThread t v).parts = s.parts := rfl
@[simp] theorem State.setThread_colours (t : Nat) (v : Thread) : (s.setThread t v).colours = s.colours := rfl
@[simp] theorem State.setThread_fab (t : Nat) (v : Thread) : (s.setThread t v).fab = s.fab := rfl
@[simp] theorem State.setThread_port (t : Nat) (v : Thread) : (s.setThread t v).port = s.port := rfl
@[simp] theorem State.setThread_cov (t : Nat) (v : Thread) : (s.setThread t v).cov = s.cov := rfl
@[simp] theorem State.setThread_host (t : Nat) (v : Thread) : (s.setThread t v).host = s.host := rfl
@[simp] theorem State.setThread_mgmt (t : Nat) (v : Thread) : (s.setThread t v).mgmt = s.mgmt := rfl

@[simp] theorem State.setPart_agenda (p : Nat) (v : Part) : (s.setPart p v).agenda = s.agenda := rfl
@[simp] theorem State.setPart_focus (p : Nat) (v : Part) : (s.setPart p v).focus = s.focus := rfl
@[simp] theorem State.setPart_fresh (p : Nat) (v : Part) : (s.setPart p v).fresh = s.fresh := rfl
@[simp] theorem State.setPart_cycle (p : Nat) (v : Part) : (s.setPart p v).cycle = s.cycle := rfl
@[simp] theorem State.setPart_mem (p : Nat) (v : Part) : (s.setPart p v).mem = s.mem := rfl
@[simp] theorem State.setPart_stew (p : Nat) (v : Part) : (s.setPart p v).stew = s.stew := rfl
@[simp] theorem State.setPart_parts (p : Nat) (v : Part) : (s.setPart p v).parts = tset Part.reset s.parts p v := rfl
@[simp] theorem State.setPart_colours (p : Nat) (v : Part) : (s.setPart p v).colours = s.colours := rfl
@[simp] theorem State.setPart_fab (p : Nat) (v : Part) : (s.setPart p v).fab = s.fab := rfl
@[simp] theorem State.setPart_port (p : Nat) (v : Part) : (s.setPart p v).port = s.port := rfl
@[simp] theorem State.setPart_cov (p : Nat) (v : Part) : (s.setPart p v).cov = s.cov := rfl
@[simp] theorem State.setPart_host (p : Nat) (v : Part) : (s.setPart p v).host = s.host := rfl
@[simp] theorem State.setPart_mgmt (p : Nat) (v : Part) : (s.setPart p v).mgmt = s.mgmt := rfl

@[simp] theorem State.setColour_agenda (c : Nat) (v : Colour) : (s.setColour c v).agenda = s.agenda := rfl
@[simp] theorem State.setColour_focus (c : Nat) (v : Colour) : (s.setColour c v).focus = s.focus := rfl
@[simp] theorem State.setColour_fresh (c : Nat) (v : Colour) : (s.setColour c v).fresh = s.fresh := rfl
@[simp] theorem State.setColour_cycle (c : Nat) (v : Colour) : (s.setColour c v).cycle = s.cycle := rfl
@[simp] theorem State.setColour_mem (c : Nat) (v : Colour) : (s.setColour c v).mem = s.mem := rfl
@[simp] theorem State.setColour_stew (c : Nat) (v : Colour) : (s.setColour c v).stew = s.stew := rfl
@[simp] theorem State.setColour_parts (c : Nat) (v : Colour) : (s.setColour c v).parts = s.parts := rfl
@[simp] theorem State.setColour_colours (c : Nat) (v : Colour) : (s.setColour c v).colours = tset Colour.reset s.colours c v := rfl
@[simp] theorem State.setColour_fab (c : Nat) (v : Colour) : (s.setColour c v).fab = s.fab := rfl
@[simp] theorem State.setColour_port (c : Nat) (v : Colour) : (s.setColour c v).port = s.port := rfl
@[simp] theorem State.setColour_cov (c : Nat) (v : Colour) : (s.setColour c v).cov = s.cov := rfl
@[simp] theorem State.setColour_host (c : Nat) (v : Colour) : (s.setColour c v).host = s.host := rfl
@[simp] theorem State.setColour_mgmt (c : Nat) (v : Colour) : (s.setColour c v).mgmt = s.mgmt := rfl

@[simp] theorem State.setElem_agenda (e : Nat) (v : Elem) : (s.setElem e v).agenda = s.agenda := rfl
@[simp] theorem State.setElem_focus (e : Nat) (v : Elem) : (s.setElem e v).focus = s.focus := rfl
@[simp] theorem State.setElem_fresh (e : Nat) (v : Elem) : (s.setElem e v).fresh = s.fresh := rfl
@[simp] theorem State.setElem_cycle (e : Nat) (v : Elem) : (s.setElem e v).cycle = s.cycle := rfl
@[simp] theorem State.setElem_mem (e : Nat) (v : Elem) : (s.setElem e v).mem = s.mem := rfl
@[simp] theorem State.setElem_stew (e : Nat) (v : Elem) : (s.setElem e v).stew = s.stew := rfl
@[simp] theorem State.setElem_parts (e : Nat) (v : Elem) : (s.setElem e v).parts = s.parts := rfl
@[simp] theorem State.setElem_colours (e : Nat) (v : Elem) : (s.setElem e v).colours = s.colours := rfl
@[simp] theorem State.setElem_fab (e : Nat) (v : Elem) : (s.setElem e v).fab = { s.fab with elems := tset Elem.reset s.fab.elems e v } := rfl
@[simp] theorem State.setElem_port (e : Nat) (v : Elem) : (s.setElem e v).port = s.port := rfl
@[simp] theorem State.setElem_cov (e : Nat) (v : Elem) : (s.setElem e v).cov = s.cov := rfl
@[simp] theorem State.setElem_host (e : Nat) (v : Elem) : (s.setElem e v).host = s.host := rfl
@[simp] theorem State.setElem_mgmt (e : Nat) (v : Elem) : (s.setElem e v).mgmt = s.mgmt := rfl

@[simp] theorem State.setCtx_agenda (e c : Nat) (v : Ctx) : (s.setCtx e c v).agenda = s.agenda := rfl
@[simp] theorem State.setCtx_focus (e c : Nat) (v : Ctx) : (s.setCtx e c v).focus = s.focus := rfl
@[simp] theorem State.setCtx_fresh (e c : Nat) (v : Ctx) : (s.setCtx e c v).fresh = s.fresh := rfl
@[simp] theorem State.setCtx_cycle (e c : Nat) (v : Ctx) : (s.setCtx e c v).cycle = s.cycle := rfl
@[simp] theorem State.setCtx_mem (e c : Nat) (v : Ctx) : (s.setCtx e c v).mem = s.mem := rfl
@[simp] theorem State.setCtx_stew (e c : Nat) (v : Ctx) : (s.setCtx e c v).stew = s.stew := rfl
@[simp] theorem State.setCtx_parts (e c : Nat) (v : Ctx) : (s.setCtx e c v).parts = s.parts := rfl
@[simp] theorem State.setCtx_colours (e c : Nat) (v : Ctx) : (s.setCtx e c v).colours = s.colours := rfl
@[simp] theorem State.setCtx_port (e c : Nat) (v : Ctx) : (s.setCtx e c v).port = s.port := rfl
@[simp] theorem State.setCtx_cov (e c : Nat) (v : Ctx) : (s.setCtx e c v).cov = s.cov := rfl
@[simp] theorem State.setCtx_host (e c : Nat) (v : Ctx) : (s.setCtx e c v).host = s.host := rfl
@[simp] theorem State.setCtx_mgmt (e c : Nat) (v : Ctx) : (s.setCtx e c v).mgmt = s.mgmt := rfl

@[simp] theorem State.setTokens_agenda (l : List Token) : (s.setTokens l).agenda = s.agenda := rfl
@[simp] theorem State.setTokens_focus (l : List Token) : (s.setTokens l).focus = s.focus := rfl
@[simp] theorem State.setTokens_fresh (l : List Token) : (s.setTokens l).fresh = s.fresh := rfl
@[simp] theorem State.setTokens_cycle (l : List Token) : (s.setTokens l).cycle = s.cycle := rfl
@[simp] theorem State.setTokens_mem (l : List Token) : (s.setTokens l).mem = s.mem := rfl
@[simp] theorem State.setTokens_stew (l : List Token) : (s.setTokens l).stew = s.stew := rfl
@[simp] theorem State.setTokens_parts (l : List Token) : (s.setTokens l).parts = s.parts := rfl
@[simp] theorem State.setTokens_colours (l : List Token) : (s.setTokens l).colours = s.colours := rfl
@[simp] theorem State.setTokens_fab (l : List Token) : (s.setTokens l).fab = { s.fab with tokens := l } := rfl
@[simp] theorem State.setTokens_port (l : List Token) : (s.setTokens l).port = s.port := rfl
@[simp] theorem State.setTokens_cov (l : List Token) : (s.setTokens l).cov = s.cov := rfl
@[simp] theorem State.setTokens_host (l : List Token) : (s.setTokens l).host = s.host := rfl
@[simp] theorem State.setTokens_mgmt (l : List Token) : (s.setTokens l).mgmt = s.mgmt := rfl

@[simp] theorem State.setVf_agenda (f : Nat) (v : Vf) : (s.setVf f v).agenda = s.agenda := rfl
@[simp] theorem State.setVf_focus (f : Nat) (v : Vf) : (s.setVf f v).focus = s.focus := rfl
@[simp] theorem State.setVf_fresh (f : Nat) (v : Vf) : (s.setVf f v).fresh = s.fresh := rfl
@[simp] theorem State.setVf_cycle (f : Nat) (v : Vf) : (s.setVf f v).cycle = s.cycle := rfl
@[simp] theorem State.setVf_mem (f : Nat) (v : Vf) : (s.setVf f v).mem = s.mem := rfl
@[simp] theorem State.setVf_stew (f : Nat) (v : Vf) : (s.setVf f v).stew = s.stew := rfl
@[simp] theorem State.setVf_parts (f : Nat) (v : Vf) : (s.setVf f v).parts = s.parts := rfl
@[simp] theorem State.setVf_colours (f : Nat) (v : Vf) : (s.setVf f v).colours = s.colours := rfl
@[simp] theorem State.setVf_fab (f : Nat) (v : Vf) : (s.setVf f v).fab = s.fab := rfl
@[simp] theorem State.setVf_port (f : Nat) (v : Vf) : (s.setVf f v).port = s.port := rfl
@[simp] theorem State.setVf_cov (f : Nat) (v : Vf) : (s.setVf f v).cov = s.cov := rfl
@[simp] theorem State.setVf_host (f : Nat) (v : Vf) : (s.setVf f v).host = { s.host with vfs := tset Vf.reset s.host.vfs f v } := rfl
@[simp] theorem State.setVf_mgmt (f : Nat) (v : Vf) : (s.setVf f v).mgmt = s.mgmt := rfl

@[simp] theorem State.setVq_agenda (q : Nat) (v : Vq) : (s.setVq q v).agenda = s.agenda := rfl
@[simp] theorem State.setVq_focus (q : Nat) (v : Vq) : (s.setVq q v).focus = s.focus := rfl
@[simp] theorem State.setVq_fresh (q : Nat) (v : Vq) : (s.setVq q v).fresh = s.fresh := rfl
@[simp] theorem State.setVq_cycle (q : Nat) (v : Vq) : (s.setVq q v).cycle = s.cycle := rfl
@[simp] theorem State.setVq_mem (q : Nat) (v : Vq) : (s.setVq q v).mem = s.mem := rfl
@[simp] theorem State.setVq_stew (q : Nat) (v : Vq) : (s.setVq q v).stew = s.stew := rfl
@[simp] theorem State.setVq_parts (q : Nat) (v : Vq) : (s.setVq q v).parts = s.parts := rfl
@[simp] theorem State.setVq_colours (q : Nat) (v : Vq) : (s.setVq q v).colours = s.colours := rfl
@[simp] theorem State.setVq_fab (q : Nat) (v : Vq) : (s.setVq q v).fab = s.fab := rfl
@[simp] theorem State.setVq_port (q : Nat) (v : Vq) : (s.setVq q v).port = s.port := rfl
@[simp] theorem State.setVq_cov (q : Nat) (v : Vq) : (s.setVq q v).cov = s.cov := rfl
@[simp] theorem State.setVq_host (q : Nat) (v : Vq) : (s.setVq q v).host = { s.host with vqs := tset Vq.reset s.host.vqs q v } := rfl
@[simp] theorem State.setVq_mgmt (q : Nat) (v : Vq) : (s.setVq q v).mgmt = s.mgmt := rfl

@[simp] theorem State.setQslot_agenda (q : Nat) (v : Qslot) : (s.setQslot q v).agenda = s.agenda := rfl
@[simp] theorem State.setQslot_focus (q : Nat) (v : Qslot) : (s.setQslot q v).focus = s.focus := rfl
@[simp] theorem State.setQslot_fresh (q : Nat) (v : Qslot) : (s.setQslot q v).fresh = s.fresh := rfl
@[simp] theorem State.setQslot_cycle (q : Nat) (v : Qslot) : (s.setQslot q v).cycle = s.cycle := rfl
@[simp] theorem State.setQslot_mem (q : Nat) (v : Qslot) : (s.setQslot q v).mem = s.mem := rfl
@[simp] theorem State.setQslot_stew (q : Nat) (v : Qslot) : (s.setQslot q v).stew = s.stew := rfl
@[simp] theorem State.setQslot_parts (q : Nat) (v : Qslot) : (s.setQslot q v).parts = s.parts := rfl
@[simp] theorem State.setQslot_colours (q : Nat) (v : Qslot) : (s.setQslot q v).colours = s.colours := rfl
@[simp] theorem State.setQslot_fab (q : Nat) (v : Qslot) : (s.setQslot q v).fab = s.fab := rfl
@[simp] theorem State.setQslot_port (q : Nat) (v : Qslot) : (s.setQslot q v).port = s.port := rfl
@[simp] theorem State.setQslot_cov (q : Nat) (v : Qslot) : (s.setQslot q v).cov = s.cov := rfl
@[simp] theorem State.setQslot_host (q : Nat) (v : Qslot) : (s.setQslot q v).host = { s.host with qslots := tset Qslot.reset s.host.qslots q v } := rfl
@[simp] theorem State.setQslot_mgmt (q : Nat) (v : Qslot) : (s.setQslot q v).mgmt = s.mgmt := rfl

@[simp] theorem State.setRegion_agenda (r : Nat) (v : Region) : (s.setRegion r v).agenda = s.agenda := rfl
@[simp] theorem State.setRegion_focus (r : Nat) (v : Region) : (s.setRegion r v).focus = s.focus := rfl
@[simp] theorem State.setRegion_fresh (r : Nat) (v : Region) : (s.setRegion r v).fresh = s.fresh := rfl
@[simp] theorem State.setRegion_cycle (r : Nat) (v : Region) : (s.setRegion r v).cycle = s.cycle := rfl
@[simp] theorem State.setRegion_mem (r : Nat) (v : Region) : (s.setRegion r v).mem = s.mem := rfl
@[simp] theorem State.setRegion_stew (r : Nat) (v : Region) : (s.setRegion r v).stew = s.stew := rfl
@[simp] theorem State.setRegion_parts (r : Nat) (v : Region) : (s.setRegion r v).parts = s.parts := rfl
@[simp] theorem State.setRegion_colours (r : Nat) (v : Region) : (s.setRegion r v).colours = s.colours := rfl
@[simp] theorem State.setRegion_fab (r : Nat) (v : Region) : (s.setRegion r v).fab = s.fab := rfl
@[simp] theorem State.setRegion_port (r : Nat) (v : Region) : (s.setRegion r v).port = s.port := rfl
@[simp] theorem State.setRegion_cov (r : Nat) (v : Region) : (s.setRegion r v).cov = { s.cov with regions := tset Region.reset s.cov.regions r v } := rfl
@[simp] theorem State.setRegion_host (r : Nat) (v : Region) : (s.setRegion r v).host = s.host := rfl
@[simp] theorem State.setRegion_mgmt (r : Nat) (v : Region) : (s.setRegion r v).mgmt = s.mgmt := rfl

@[simp] theorem State.setPage_agenda (r p : Nat) (v : PageRec) : (s.setPage r p v).agenda = s.agenda := rfl
@[simp] theorem State.setPage_focus (r p : Nat) (v : PageRec) : (s.setPage r p v).focus = s.focus := rfl
@[simp] theorem State.setPage_fresh (r p : Nat) (v : PageRec) : (s.setPage r p v).fresh = s.fresh := rfl
@[simp] theorem State.setPage_cycle (r p : Nat) (v : PageRec) : (s.setPage r p v).cycle = s.cycle := rfl
@[simp] theorem State.setPage_mem (r p : Nat) (v : PageRec) : (s.setPage r p v).mem = s.mem := rfl
@[simp] theorem State.setPage_stew (r p : Nat) (v : PageRec) : (s.setPage r p v).stew = s.stew := rfl
@[simp] theorem State.setPage_parts (r p : Nat) (v : PageRec) : (s.setPage r p v).parts = s.parts := rfl
@[simp] theorem State.setPage_colours (r p : Nat) (v : PageRec) : (s.setPage r p v).colours = s.colours := rfl
@[simp] theorem State.setPage_fab (r p : Nat) (v : PageRec) : (s.setPage r p v).fab = s.fab := rfl
@[simp] theorem State.setPage_port (r p : Nat) (v : PageRec) : (s.setPage r p v).port = s.port := rfl
@[simp] theorem State.setPage_cov (r p : Nat) (v : PageRec) : (s.setPage r p v).cov = { s.cov with pages := tset PageRec.reset s.cov.pages (pageKey r p) v } := rfl
@[simp] theorem State.setPage_host (r p : Nat) (v : PageRec) : (s.setPage r p v).host = s.host := rfl
@[simp] theorem State.setPage_mgmt (r p : Nat) (v : PageRec) : (s.setPage r p v).mgmt = s.mgmt := rfl

@[simp] theorem State.setView_agenda (k : Nat) (v : View) : (s.setView k v).agenda = s.agenda := rfl
@[simp] theorem State.setView_focus (k : Nat) (v : View) : (s.setView k v).focus = s.focus := rfl
@[simp] theorem State.setView_fresh (k : Nat) (v : View) : (s.setView k v).fresh = s.fresh := rfl
@[simp] theorem State.setView_cycle (k : Nat) (v : View) : (s.setView k v).cycle = s.cycle := rfl
@[simp] theorem State.setView_mem (k : Nat) (v : View) : (s.setView k v).mem = s.mem := rfl
@[simp] theorem State.setView_stew (k : Nat) (v : View) : (s.setView k v).stew = s.stew := rfl
@[simp] theorem State.setView_parts (k : Nat) (v : View) : (s.setView k v).parts = s.parts := rfl
@[simp] theorem State.setView_colours (k : Nat) (v : View) : (s.setView k v).colours = s.colours := rfl
@[simp] theorem State.setView_fab (k : Nat) (v : View) : (s.setView k v).fab = s.fab := rfl
@[simp] theorem State.setView_port (k : Nat) (v : View) : (s.setView k v).port = s.port := rfl
@[simp] theorem State.setView_cov (k : Nat) (v : View) : (s.setView k v).cov = { s.cov with views := tset View.reset s.cov.views k v } := rfl
@[simp] theorem State.setView_host (k : Nat) (v : View) : (s.setView k v).host = s.host := rfl
@[simp] theorem State.setView_mgmt (k : Nat) (v : View) : (s.setView k v).mgmt = s.mgmt := rfl

@[simp] theorem State.setLink_agenda (l : Nat) (v : Link) : (s.setLink l v).agenda = s.agenda := rfl
@[simp] theorem State.setLink_focus (l : Nat) (v : Link) : (s.setLink l v).focus = s.focus := rfl
@[simp] theorem State.setLink_fresh (l : Nat) (v : Link) : (s.setLink l v).fresh = s.fresh := rfl
@[simp] theorem State.setLink_cycle (l : Nat) (v : Link) : (s.setLink l v).cycle = s.cycle := rfl
@[simp] theorem State.setLink_mem (l : Nat) (v : Link) : (s.setLink l v).mem = s.mem := rfl
@[simp] theorem State.setLink_stew (l : Nat) (v : Link) : (s.setLink l v).stew = s.stew := rfl
@[simp] theorem State.setLink_parts (l : Nat) (v : Link) : (s.setLink l v).parts = s.parts := rfl
@[simp] theorem State.setLink_colours (l : Nat) (v : Link) : (s.setLink l v).colours = s.colours := rfl
@[simp] theorem State.setLink_fab (l : Nat) (v : Link) : (s.setLink l v).fab = s.fab := rfl
@[simp] theorem State.setLink_port (l : Nat) (v : Link) : (s.setLink l v).port = { s.port with links := tset Link.reset s.port.links l v } := rfl
@[simp] theorem State.setLink_cov (l : Nat) (v : Link) : (s.setLink l v).cov = s.cov := rfl
@[simp] theorem State.setLink_host (l : Nat) (v : Link) : (s.setLink l v).host = s.host := rfl
@[simp] theorem State.setLink_mgmt (l : Nat) (v : Link) : (s.setLink l v).mgmt = s.mgmt := rfl

@[simp] theorem State.setSpdm_agenda (x : Nat) (v : Spdm) : (s.setSpdm x v).agenda = s.agenda := rfl
@[simp] theorem State.setSpdm_focus (x : Nat) (v : Spdm) : (s.setSpdm x v).focus = s.focus := rfl
@[simp] theorem State.setSpdm_fresh (x : Nat) (v : Spdm) : (s.setSpdm x v).fresh = s.fresh := rfl
@[simp] theorem State.setSpdm_cycle (x : Nat) (v : Spdm) : (s.setSpdm x v).cycle = s.cycle := rfl
@[simp] theorem State.setSpdm_mem (x : Nat) (v : Spdm) : (s.setSpdm x v).mem = s.mem := rfl
@[simp] theorem State.setSpdm_stew (x : Nat) (v : Spdm) : (s.setSpdm x v).stew = s.stew := rfl
@[simp] theorem State.setSpdm_parts (x : Nat) (v : Spdm) : (s.setSpdm x v).parts = s.parts := rfl
@[simp] theorem State.setSpdm_colours (x : Nat) (v : Spdm) : (s.setSpdm x v).colours = s.colours := rfl
@[simp] theorem State.setSpdm_fab (x : Nat) (v : Spdm) : (s.setSpdm x v).fab = s.fab := rfl
@[simp] theorem State.setSpdm_port (x : Nat) (v : Spdm) : (s.setSpdm x v).port = s.port := rfl
@[simp] theorem State.setSpdm_cov (x : Nat) (v : Spdm) : (s.setSpdm x v).cov = s.cov := rfl
@[simp] theorem State.setSpdm_host (x : Nat) (v : Spdm) : (s.setSpdm x v).host = s.host := rfl
@[simp] theorem State.setSpdm_mgmt (x : Nat) (v : Spdm) : (s.setSpdm x v).mgmt = { s.mgmt with spdm := tset Spdm.reset s.mgmt.spdm x v } := rfl

@[simp] theorem State.setMem_agenda (m : Mem) : (s.setMem m).agenda = s.agenda := rfl
@[simp] theorem State.setMem_focus (m : Mem) : (s.setMem m).focus = s.focus := rfl
@[simp] theorem State.setMem_fresh (m : Mem) : (s.setMem m).fresh = s.fresh := rfl
@[simp] theorem State.setMem_cycle (m : Mem) : (s.setMem m).cycle = s.cycle := rfl
@[simp] theorem State.setMem_mem (m : Mem) : (s.setMem m).mem = m := rfl
@[simp] theorem State.setMem_stew (m : Mem) : (s.setMem m).stew = s.stew := rfl
@[simp] theorem State.setMem_parts (m : Mem) : (s.setMem m).parts = s.parts := rfl
@[simp] theorem State.setMem_colours (m : Mem) : (s.setMem m).colours = s.colours := rfl
@[simp] theorem State.setMem_fab (m : Mem) : (s.setMem m).fab = s.fab := rfl
@[simp] theorem State.setMem_port (m : Mem) : (s.setMem m).port = s.port := rfl
@[simp] theorem State.setMem_cov (m : Mem) : (s.setMem m).cov = s.cov := rfl
@[simp] theorem State.setMem_host (m : Mem) : (s.setMem m).host = s.host := rfl
@[simp] theorem State.setMem_mgmt (m : Mem) : (s.setMem m).mgmt = s.mgmt := rfl

@[simp] theorem State.focusOn_agenda (t : Nat) : (s.focusOn t).agenda = s.agenda := rfl
@[simp] theorem State.focusOn_focus (t : Nat) : (s.focusOn t).focus = .thread t := rfl
@[simp] theorem State.focusOn_fresh (t : Nat) : (s.focusOn t).fresh = s.fresh := rfl
@[simp] theorem State.focusOn_cycle (t : Nat) : (s.focusOn t).cycle = s.cycle := rfl
@[simp] theorem State.focusOn_mem (t : Nat) : (s.focusOn t).mem = s.mem := rfl
@[simp] theorem State.focusOn_stew (t : Nat) : (s.focusOn t).stew = s.stew := rfl
@[simp] theorem State.focusOn_parts (t : Nat) : (s.focusOn t).parts = s.parts := rfl
@[simp] theorem State.focusOn_colours (t : Nat) : (s.focusOn t).colours = s.colours := rfl
@[simp] theorem State.focusOn_fab (t : Nat) : (s.focusOn t).fab = s.fab := rfl
@[simp] theorem State.focusOn_port (t : Nat) : (s.focusOn t).port = s.port := rfl
@[simp] theorem State.focusOn_cov (t : Nat) : (s.focusOn t).cov = s.cov := rfl
@[simp] theorem State.focusOn_host (t : Nat) : (s.focusOn t).host = s.host := rfl
@[simp] theorem State.focusOn_mgmt (t : Nat) : (s.focusOn t).mgmt = s.mgmt := rfl

@[simp] theorem State.setMgmt_agenda (m : Mgmt) : (s.setMgmt m).agenda = s.agenda := rfl
@[simp] theorem State.setMgmt_focus (m : Mgmt) : (s.setMgmt m).focus = s.focus := rfl
@[simp] theorem State.setMgmt_fresh (m : Mgmt) : (s.setMgmt m).fresh = s.fresh := rfl
@[simp] theorem State.setMgmt_cycle (m : Mgmt) : (s.setMgmt m).cycle = s.cycle := rfl
@[simp] theorem State.setMgmt_mem (m : Mgmt) : (s.setMgmt m).mem = s.mem := rfl
@[simp] theorem State.setMgmt_stew (m : Mgmt) : (s.setMgmt m).stew = s.stew := rfl
@[simp] theorem State.setMgmt_parts (m : Mgmt) : (s.setMgmt m).parts = s.parts := rfl
@[simp] theorem State.setMgmt_colours (m : Mgmt) : (s.setMgmt m).colours = s.colours := rfl
@[simp] theorem State.setMgmt_fab (m : Mgmt) : (s.setMgmt m).fab = s.fab := rfl
@[simp] theorem State.setMgmt_port (m : Mgmt) : (s.setMgmt m).port = s.port := rfl
@[simp] theorem State.setMgmt_cov (m : Mgmt) : (s.setMgmt m).cov = s.cov := rfl
@[simp] theorem State.setMgmt_host (m : Mgmt) : (s.setMgmt m).host = s.host := rfl
@[simp] theorem State.setMgmt_mgmt (m : Mgmt) : (s.setMgmt m).mgmt = m := rfl

@[simp] theorem State.setAgen_agenda (a : Agen) : (s.setAgen a).agenda = s.agenda := rfl
@[simp] theorem State.setAgen_focus (a : Agen) : (s.setAgen a).focus = s.focus := rfl
@[simp] theorem State.setAgen_fresh (a : Agen) : (s.setAgen a).fresh = s.fresh := rfl
@[simp] theorem State.setAgen_cycle (a : Agen) : (s.setAgen a).cycle = s.cycle := rfl
@[simp] theorem State.setAgen_mem (a : Agen) : (s.setAgen a).mem = s.mem := rfl
@[simp] theorem State.setAgen_stew (a : Agen) : (s.setAgen a).stew = s.stew := rfl
@[simp] theorem State.setAgen_parts (a : Agen) : (s.setAgen a).parts = s.parts := rfl
@[simp] theorem State.setAgen_colours (a : Agen) : (s.setAgen a).colours = s.colours := rfl
@[simp] theorem State.setAgen_fab (a : Agen) : (s.setAgen a).fab = s.fab := rfl
@[simp] theorem State.setAgen_cov (a : Agen) : (s.setAgen a).cov = s.cov := rfl
@[simp] theorem State.setAgen_host (a : Agen) : (s.setAgen a).host = s.host := rfl
@[simp] theorem State.setAgen_mgmt (a : Agen) : (s.setAgen a).mgmt = s.mgmt := rfl

@[simp] theorem State.setAccess_agenda (a : Access) : (s.setAccess a).agenda = s.agenda := rfl
@[simp] theorem State.setAccess_focus (a : Access) : (s.setAccess a).focus = s.focus := rfl
@[simp] theorem State.setAccess_fresh (a : Access) : (s.setAccess a).fresh = s.fresh := rfl
@[simp] theorem State.setAccess_cycle (a : Access) : (s.setAccess a).cycle = s.cycle := rfl
@[simp] theorem State.setAccess_mem (a : Access) : (s.setAccess a).mem = s.mem := rfl
@[simp] theorem State.setAccess_stew (a : Access) : (s.setAccess a).stew = s.stew := rfl
@[simp] theorem State.setAccess_parts (a : Access) : (s.setAccess a).parts = s.parts := rfl
@[simp] theorem State.setAccess_colours (a : Access) : (s.setAccess a).colours = s.colours := rfl
@[simp] theorem State.setAccess_fab (a : Access) : (s.setAccess a).fab = s.fab := rfl
@[simp] theorem State.setAccess_cov (a : Access) : (s.setAccess a).cov = s.cov := rfl
@[simp] theorem State.setAccess_host (a : Access) : (s.setAccess a).host = s.host := rfl
@[simp] theorem State.setAccess_mgmt (a : Access) : (s.setAccess a).mgmt = s.mgmt := rfl

@[simp] theorem State.setEngine_agenda (g : Engine) : (s.setEngine g).agenda = s.agenda := rfl
@[simp] theorem State.setEngine_focus (g : Engine) : (s.setEngine g).focus = s.focus := rfl
@[simp] theorem State.setEngine_fresh (g : Engine) : (s.setEngine g).fresh = s.fresh := rfl
@[simp] theorem State.setEngine_cycle (g : Engine) : (s.setEngine g).cycle = s.cycle := rfl
@[simp] theorem State.setEngine_mem (g : Engine) : (s.setEngine g).mem = s.mem := rfl
@[simp] theorem State.setEngine_stew (g : Engine) : (s.setEngine g).stew = s.stew := rfl
@[simp] theorem State.setEngine_parts (g : Engine) : (s.setEngine g).parts = s.parts := rfl
@[simp] theorem State.setEngine_colours (g : Engine) : (s.setEngine g).colours = s.colours := rfl
@[simp] theorem State.setEngine_fab (g : Engine) : (s.setEngine g).fab = s.fab := rfl
@[simp] theorem State.setEngine_cov (g : Engine) : (s.setEngine g).cov = s.cov := rfl
@[simp] theorem State.setEngine_host (g : Engine) : (s.setEngine g).host = s.host := rfl
@[simp] theorem State.setEngine_mgmt (g : Engine) : (s.setEngine g).mgmt = s.mgmt := rfl

@[simp] theorem State.putColl_agenda (k : Nat) (g : Coll) : (s.putColl k g).agenda = s.agenda := rfl
@[simp] theorem State.putColl_focus (k : Nat) (g : Coll) : (s.putColl k g).focus = s.focus := rfl
@[simp] theorem State.putColl_fresh (k : Nat) (g : Coll) : (s.putColl k g).fresh = s.fresh := rfl
@[simp] theorem State.putColl_cycle (k : Nat) (g : Coll) : (s.putColl k g).cycle = s.cycle := rfl
@[simp] theorem State.putColl_mem (k : Nat) (g : Coll) : (s.putColl k g).mem = s.mem := rfl
@[simp] theorem State.putColl_stew (k : Nat) (g : Coll) : (s.putColl k g).stew = s.stew := rfl
@[simp] theorem State.putColl_parts (k : Nat) (g : Coll) : (s.putColl k g).parts = s.parts := rfl
@[simp] theorem State.putColl_colours (k : Nat) (g : Coll) : (s.putColl k g).colours = s.colours := rfl
@[simp] theorem State.putColl_fab (k : Nat) (g : Coll) : (s.putColl k g).fab = s.fab := rfl
@[simp] theorem State.putColl_port (k : Nat) (g : Coll) : (s.putColl k g).port = { s.port with colls := setNth s.port.colls k g } := rfl
@[simp] theorem State.putColl_cov (k : Nat) (g : Coll) : (s.putColl k g).cov = s.cov := rfl
@[simp] theorem State.putColl_host (k : Nat) (g : Coll) : (s.putColl k g).host = s.host := rfl
@[simp] theorem State.putColl_mgmt (k : Nat) (g : Coll) : (s.putColl k g).mgmt = s.mgmt := rfl

@[simp] theorem State.putShoot_agenda (k : Nat) (h : Shoot) : (s.putShoot k h).agenda = s.agenda := rfl
@[simp] theorem State.putShoot_focus (k : Nat) (h : Shoot) : (s.putShoot k h).focus = s.focus := rfl
@[simp] theorem State.putShoot_fresh (k : Nat) (h : Shoot) : (s.putShoot k h).fresh = s.fresh := rfl
@[simp] theorem State.putShoot_cycle (k : Nat) (h : Shoot) : (s.putShoot k h).cycle = s.cycle := rfl
@[simp] theorem State.putShoot_mem (k : Nat) (h : Shoot) : (s.putShoot k h).mem = s.mem := rfl
@[simp] theorem State.putShoot_stew (k : Nat) (h : Shoot) : (s.putShoot k h).stew = s.stew := rfl
@[simp] theorem State.putShoot_parts (k : Nat) (h : Shoot) : (s.putShoot k h).parts = s.parts := rfl
@[simp] theorem State.putShoot_colours (k : Nat) (h : Shoot) : (s.putShoot k h).colours = s.colours := rfl
@[simp] theorem State.putShoot_fab (k : Nat) (h : Shoot) : (s.putShoot k h).fab = s.fab := rfl
@[simp] theorem State.putShoot_port (k : Nat) (h : Shoot) : (s.putShoot k h).port = { s.port with shoots := setNth s.port.shoots k h } := rfl
@[simp] theorem State.putShoot_cov (k : Nat) (h : Shoot) : (s.putShoot k h).cov = s.cov := rfl
@[simp] theorem State.putShoot_host (k : Nat) (h : Shoot) : (s.putShoot k h).host = s.host := rfl
@[simp] theorem State.putShoot_mgmt (k : Nat) (h : Shoot) : (s.putShoot k h).mgmt = s.mgmt := rfl

@[simp] theorem State.setRound_agenda (r : Round) : (s.setRound r).agenda = s.agenda := rfl
@[simp] theorem State.setRound_focus (r : Round) : (s.setRound r).focus = s.focus := rfl
@[simp] theorem State.setRound_fresh (r : Round) : (s.setRound r).fresh = s.fresh := rfl
@[simp] theorem State.setRound_cycle (r : Round) : (s.setRound r).cycle = s.cycle := rfl
@[simp] theorem State.setRound_mem (r : Round) : (s.setRound r).mem = s.mem := rfl
@[simp] theorem State.setRound_stew (r : Round) : (s.setRound r).stew = s.stew := rfl
@[simp] theorem State.setRound_parts (r : Round) : (s.setRound r).parts = s.parts := rfl
@[simp] theorem State.setRound_colours (r : Round) : (s.setRound r).colours = s.colours := rfl
@[simp] theorem State.setRound_port (r : Round) : (s.setRound r).port = s.port := rfl
@[simp] theorem State.setRound_cov (r : Round) : (s.setRound r).cov = s.cov := rfl
@[simp] theorem State.setRound_host (r : Round) : (s.setRound r).host = s.host := rfl
@[simp] theorem State.setRound_mgmt (r : Round) : (s.setRound r).mgmt = s.mgmt := rfl

@[simp] theorem State.putRound_agenda (k : Nat) (r : Round) : (s.putRound k r).agenda = s.agenda := rfl
@[simp] theorem State.putRound_focus (k : Nat) (r : Round) : (s.putRound k r).focus = s.focus := rfl
@[simp] theorem State.putRound_fresh (k : Nat) (r : Round) : (s.putRound k r).fresh = s.fresh := rfl
@[simp] theorem State.putRound_cycle (k : Nat) (r : Round) : (s.putRound k r).cycle = s.cycle := rfl
@[simp] theorem State.putRound_mem (k : Nat) (r : Round) : (s.putRound k r).mem = s.mem := rfl
@[simp] theorem State.putRound_stew (k : Nat) (r : Round) : (s.putRound k r).stew = s.stew := rfl
@[simp] theorem State.putRound_parts (k : Nat) (r : Round) : (s.putRound k r).parts = s.parts := rfl
@[simp] theorem State.putRound_colours (k : Nat) (r : Round) : (s.putRound k r).colours = s.colours := rfl
@[simp] theorem State.putRound_fab (k : Nat) (r : Round) : (s.putRound k r).fab = { s.fab with rounds := setNth s.fab.rounds k r } := rfl
@[simp] theorem State.putRound_port (k : Nat) (r : Round) : (s.putRound k r).port = s.port := rfl
@[simp] theorem State.putRound_cov (k : Nat) (r : Round) : (s.putRound k r).cov = s.cov := rfl
@[simp] theorem State.putRound_host (k : Nat) (r : Round) : (s.putRound k r).host = s.host := rfl
@[simp] theorem State.putRound_mgmt (k : Nat) (r : Round) : (s.putRound k r).mgmt = s.mgmt := rfl

@[simp] theorem State.putOp_agenda (k : Nat) (q : SysOp) : (s.putOp k q).agenda = s.agenda := rfl
@[simp] theorem State.putOp_focus (k : Nat) (q : SysOp) : (s.putOp k q).focus = s.focus := rfl
@[simp] theorem State.putOp_fresh (k : Nat) (q : SysOp) : (s.putOp k q).fresh = s.fresh := rfl
@[simp] theorem State.putOp_cycle (k : Nat) (q : SysOp) : (s.putOp k q).cycle = s.cycle := rfl
@[simp] theorem State.putOp_mem (k : Nat) (q : SysOp) : (s.putOp k q).mem = s.mem := rfl
@[simp] theorem State.putOp_stew (k : Nat) (q : SysOp) : (s.putOp k q).stew = s.stew := rfl
@[simp] theorem State.putOp_parts (k : Nat) (q : SysOp) : (s.putOp k q).parts = s.parts := rfl
@[simp] theorem State.putOp_colours (k : Nat) (q : SysOp) : (s.putOp k q).colours = s.colours := rfl
@[simp] theorem State.putOp_fab (k : Nat) (q : SysOp) : (s.putOp k q).fab = { s.fab with sysops := setNth s.fab.sysops k q } := rfl
@[simp] theorem State.putOp_port (k : Nat) (q : SysOp) : (s.putOp k q).port = s.port := rfl
@[simp] theorem State.putOp_cov (k : Nat) (q : SysOp) : (s.putOp k q).cov = s.cov := rfl
@[simp] theorem State.putOp_host (k : Nat) (q : SysOp) : (s.putOp k q).host = s.host := rfl
@[simp] theorem State.putOp_mgmt (k : Nat) (q : SysOp) : (s.putOp k q).mgmt = s.mgmt := rfl

@[simp] theorem State.putToken_agenda (k : Nat) (t : Token) : (s.putToken k t).agenda = s.agenda := rfl
@[simp] theorem State.putToken_focus (k : Nat) (t : Token) : (s.putToken k t).focus = s.focus := rfl
@[simp] theorem State.putToken_fresh (k : Nat) (t : Token) : (s.putToken k t).fresh = s.fresh := rfl
@[simp] theorem State.putToken_cycle (k : Nat) (t : Token) : (s.putToken k t).cycle = s.cycle := rfl
@[simp] theorem State.putToken_mem (k : Nat) (t : Token) : (s.putToken k t).mem = s.mem := rfl
@[simp] theorem State.putToken_stew (k : Nat) (t : Token) : (s.putToken k t).stew = s.stew := rfl
@[simp] theorem State.putToken_parts (k : Nat) (t : Token) : (s.putToken k t).parts = s.parts := rfl
@[simp] theorem State.putToken_colours (k : Nat) (t : Token) : (s.putToken k t).colours = s.colours := rfl
@[simp] theorem State.putToken_fab (k : Nat) (t : Token) : (s.putToken k t).fab = { s.fab with tokens := setNth s.fab.tokens k t } := rfl
@[simp] theorem State.putToken_port (k : Nat) (t : Token) : (s.putToken k t).port = s.port := rfl
@[simp] theorem State.putToken_cov (k : Nat) (t : Token) : (s.putToken k t).cov = s.cov := rfl
@[simp] theorem State.putToken_host (k : Nat) (t : Token) : (s.putToken k t).host = s.host := rfl
@[simp] theorem State.putToken_mgmt (k : Nat) (t : Token) : (s.putToken k t).mgmt = s.mgmt := rfl

@[simp] theorem State.setColLoad_agenda (v : ColLoad) : (s.setColLoad v).agenda = s.agenda := rfl
@[simp] theorem State.setColLoad_focus (v : ColLoad) : (s.setColLoad v).focus = s.focus := rfl
@[simp] theorem State.setColLoad_fresh (v : ColLoad) : (s.setColLoad v).fresh = s.fresh := rfl
@[simp] theorem State.setColLoad_cycle (v : ColLoad) : (s.setColLoad v).cycle = s.cycle := rfl
@[simp] theorem State.setColLoad_mem (v : ColLoad) : (s.setColLoad v).mem = s.mem := rfl
@[simp] theorem State.setColLoad_stew (v : ColLoad) : (s.setColLoad v).stew = s.stew := rfl
@[simp] theorem State.setColLoad_parts (v : ColLoad) : (s.setColLoad v).parts = s.parts := rfl
@[simp] theorem State.setColLoad_colours (v : ColLoad) : (s.setColLoad v).colours = s.colours := rfl
@[simp] theorem State.setColLoad_port (v : ColLoad) : (s.setColLoad v).port = s.port := rfl
@[simp] theorem State.setColLoad_cov (v : ColLoad) : (s.setColLoad v).cov = s.cov := rfl
@[simp] theorem State.setColLoad_host (v : ColLoad) : (s.setColLoad v).host = s.host := rfl
@[simp] theorem State.setColLoad_mgmt (v : ColLoad) : (s.setColLoad v).mgmt = s.mgmt := rfl

@[simp] theorem State.setCredit_agenda (e c : Nat) (v : Credit) : (s.setCredit e c v).agenda = s.agenda := rfl
@[simp] theorem State.setCredit_focus (e c : Nat) (v : Credit) : (s.setCredit e c v).focus = s.focus := rfl
@[simp] theorem State.setCredit_fresh (e c : Nat) (v : Credit) : (s.setCredit e c v).fresh = s.fresh := rfl
@[simp] theorem State.setCredit_cycle (e c : Nat) (v : Credit) : (s.setCredit e c v).cycle = s.cycle := rfl
@[simp] theorem State.setCredit_mem (e c : Nat) (v : Credit) : (s.setCredit e c v).mem = s.mem := rfl
@[simp] theorem State.setCredit_stew (e c : Nat) (v : Credit) : (s.setCredit e c v).stew = s.stew := rfl
@[simp] theorem State.setCredit_parts (e c : Nat) (v : Credit) : (s.setCredit e c v).parts = s.parts := rfl
@[simp] theorem State.setCredit_colours (e c : Nat) (v : Credit) : (s.setCredit e c v).colours = s.colours := rfl
@[simp] theorem State.setCredit_port (e c : Nat) (v : Credit) : (s.setCredit e c v).port = s.port := rfl
@[simp] theorem State.setCredit_cov (e c : Nat) (v : Credit) : (s.setCredit e c v).cov = s.cov := rfl
@[simp] theorem State.setCredit_host (e c : Nat) (v : Credit) : (s.setCredit e c v).host = s.host := rfl
@[simp] theorem State.setCredit_mgmt (e c : Nat) (v : Credit) : (s.setCredit e c v).mgmt = s.mgmt := rfl

@[simp] theorem State.setBuf_agenda (e c b : Nat) (v : Option Buf) : (s.setBuf e c b v).agenda = s.agenda := rfl
@[simp] theorem State.setBuf_focus (e c b : Nat) (v : Option Buf) : (s.setBuf e c b v).focus = s.focus := rfl
@[simp] theorem State.setBuf_fresh (e c b : Nat) (v : Option Buf) : (s.setBuf e c b v).fresh = s.fresh := rfl
@[simp] theorem State.setBuf_cycle (e c b : Nat) (v : Option Buf) : (s.setBuf e c b v).cycle = s.cycle := rfl
@[simp] theorem State.setBuf_mem (e c b : Nat) (v : Option Buf) : (s.setBuf e c b v).mem = s.mem := rfl
@[simp] theorem State.setBuf_stew (e c b : Nat) (v : Option Buf) : (s.setBuf e c b v).stew = s.stew := rfl
@[simp] theorem State.setBuf_parts (e c b : Nat) (v : Option Buf) : (s.setBuf e c b v).parts = s.parts := rfl
@[simp] theorem State.setBuf_colours (e c b : Nat) (v : Option Buf) : (s.setBuf e c b v).colours = s.colours := rfl
@[simp] theorem State.setBuf_port (e c b : Nat) (v : Option Buf) : (s.setBuf e c b v).port = s.port := rfl
@[simp] theorem State.setBuf_cov (e c b : Nat) (v : Option Buf) : (s.setBuf e c b v).cov = s.cov := rfl
@[simp] theorem State.setBuf_host (e c b : Nat) (v : Option Buf) : (s.setBuf e c b v).host = s.host := rfl
@[simp] theorem State.setBuf_mgmt (e c b : Nat) (v : Option Buf) : (s.setBuf e c b v).mgmt = s.mgmt := rfl

@[simp] theorem State.setLaunch_agenda (l : Launch) : (s.setLaunch l).agenda = s.agenda := rfl
@[simp] theorem State.setLaunch_focus (l : Launch) : (s.setLaunch l).focus = s.focus := rfl
@[simp] theorem State.setLaunch_fresh (l : Launch) : (s.setLaunch l).fresh = s.fresh := rfl
@[simp] theorem State.setLaunch_cycle (l : Launch) : (s.setLaunch l).cycle = s.cycle := rfl
@[simp] theorem State.setLaunch_mem (l : Launch) : (s.setLaunch l).mem = s.mem := rfl
@[simp] theorem State.setLaunch_stew (l : Launch) : (s.setLaunch l).stew = s.stew := rfl
@[simp] theorem State.setLaunch_parts (l : Launch) : (s.setLaunch l).parts = s.parts := rfl
@[simp] theorem State.setLaunch_colours (l : Launch) : (s.setLaunch l).colours = s.colours := rfl
@[simp] theorem State.setLaunch_fab (l : Launch) : (s.setLaunch l).fab = s.fab := rfl
@[simp] theorem State.setLaunch_port (l : Launch) : (s.setLaunch l).port = s.port := rfl
@[simp] theorem State.setLaunch_cov (l : Launch) : (s.setLaunch l).cov = s.cov := rfl
@[simp] theorem State.setLaunch_mgmt (l : Launch) : (s.setLaunch l).mgmt = s.mgmt := rfl

@[simp] theorem State.clock_agenda : (s.clock).agenda = s.agenda := rfl
@[simp] theorem State.clock_focus : (s.clock).focus = s.focus := rfl
@[simp] theorem State.clock_fresh : (s.clock).fresh = s.fresh := rfl
@[simp] theorem State.clock_cycle : (s.clock).cycle = s.cycle + 1 := rfl
@[simp] theorem State.clock_mem : (s.clock).mem = s.mem := rfl
@[simp] theorem State.clock_stew : (s.clock).stew = s.stew := rfl
@[simp] theorem State.clock_parts : (s.clock).parts = s.parts := rfl
@[simp] theorem State.clock_colours : (s.clock).colours = s.colours := rfl
@[simp] theorem State.clock_fab : (s.clock).fab = s.fab := rfl
@[simp] theorem State.clock_port : (s.clock).port = s.port := rfl
@[simp] theorem State.clock_cov : (s.clock).cov = s.cov := rfl
@[simp] theorem State.clock_host : (s.clock).host = s.host := rfl

@[simp] theorem Thread.setReg_pc (h : Thread) (n : Nat) (v : Word) : (h.setReg n v).pc = h.pc := rfl
@[simp] theorem Thread.setReg_status (h : Thread) (n : Nat) (v : Word) : (h.setReg n v).status = h.status := rfl
@[simp] theorem Thread.setReg_tvec (h : Thread) (n : Nat) (v : Word) : (h.setReg n v).tvec = h.tvec := rfl
@[simp] theorem Thread.setReg_epc (h : Thread) (n : Nat) (v : Word) : (h.setReg n v).epc = h.epc := rfl
@[simp] theorem Thread.setReg_ecause (h : Thread) (n : Nat) (v : Word) : (h.setReg n v).ecause = h.ecause := rfl
@[simp] theorem Thread.setReg_eval (h : Thread) (n : Nat) (v : Word) : (h.setReg n v).eval = h.eval := rfl
@[simp] theorem Thread.setReg_scratch (h : Thread) (n : Nat) (v : Word) : (h.setReg n v).scratch = h.scratch := rfl
@[simp] theorem Thread.setReg_asid (h : Thread) (n : Nat) (v : Word) : (h.setReg n v).asid = h.asid := rfl
@[simp] theorem Thread.setReg_evtx0 (h : Thread) (n : Nat) (v : Word) : (h.setReg n v).evtx0 = h.evtx0 := rfl
@[simp] theorem Thread.setReg_evtx1 (h : Thread) (n : Nat) (v : Word) : (h.setReg n v).evtx1 = h.evtx1 := rfl
@[simp] theorem Thread.setReg_started (h : Thread) (n : Nat) (v : Word) : (h.setReg n v).started = h.started := rfl
@[simp] theorem Thread.setReg_halted (h : Thread) (n : Nat) (v : Word) : (h.setReg n v).halted = h.halted := rfl
@[simp] theorem Thread.setReg_image (h : Thread) (n : Nat) (v : Word) : (h.setReg n v).image = h.image := rfl
@[simp] theorem Thread.setReg_stall (h : Thread) (n : Nat) (v : Word) : (h.setReg n v).stall = h.stall := rfl
@[simp] theorem Thread.setReg_busy (h : Thread) (n : Nat) (v : Word) : (h.setReg n v).busy = h.busy := rfl
@[simp] theorem Thread.setDest_pc (h : Thread) (d : Option Nat) (v : Word) : (h.setDest d v).pc = h.pc := by cases d <;> rfl
@[simp] theorem Thread.setDest_status (h : Thread) (d : Option Nat) (v : Word) : (h.setDest d v).status = h.status := by cases d <;> rfl
@[simp] theorem Thread.setDest_tvec (h : Thread) (d : Option Nat) (v : Word) : (h.setDest d v).tvec = h.tvec := by cases d <;> rfl
@[simp] theorem Thread.setDest_epc (h : Thread) (d : Option Nat) (v : Word) : (h.setDest d v).epc = h.epc := by cases d <;> rfl
@[simp] theorem Thread.setDest_ecause (h : Thread) (d : Option Nat) (v : Word) : (h.setDest d v).ecause = h.ecause := by cases d <;> rfl
@[simp] theorem Thread.setDest_eval (h : Thread) (d : Option Nat) (v : Word) : (h.setDest d v).eval = h.eval := by cases d <;> rfl
@[simp] theorem Thread.setDest_scratch (h : Thread) (d : Option Nat) (v : Word) : (h.setDest d v).scratch = h.scratch := by cases d <;> rfl
@[simp] theorem Thread.setDest_asid (h : Thread) (d : Option Nat) (v : Word) : (h.setDest d v).asid = h.asid := by cases d <;> rfl
@[simp] theorem Thread.setDest_evtx0 (h : Thread) (d : Option Nat) (v : Word) : (h.setDest d v).evtx0 = h.evtx0 := by cases d <;> rfl
@[simp] theorem Thread.setDest_evtx1 (h : Thread) (d : Option Nat) (v : Word) : (h.setDest d v).evtx1 = h.evtx1 := by cases d <;> rfl
@[simp] theorem Thread.setDest_started (h : Thread) (d : Option Nat) (v : Word) : (h.setDest d v).started = h.started := by cases d <;> rfl
@[simp] theorem Thread.setDest_halted (h : Thread) (d : Option Nat) (v : Word) : (h.setDest d v).halted = h.halted := by cases d <;> rfl
@[simp] theorem Thread.setDest_image (h : Thread) (d : Option Nat) (v : Word) : (h.setDest d v).image = h.image := by cases d <;> rfl
@[simp] theorem Thread.setDest_stall (h : Thread) (d : Option Nat) (v : Word) : (h.setDest d v).stall = h.stall := by cases d <;> rfl
@[simp] theorem Thread.setDest_busy (h : Thread) (d : Option Nat) (v : Word) : (h.setDest d v).busy = h.busy := by cases d <;> rfl
@[simp] theorem Thread.advance_pc (h : Thread) : h.advance.pc = h.pc + 1 := rfl
@[simp] theorem Thread.advance_regs (h : Thread) : h.advance.regs = h.regs := rfl
@[simp] theorem Thread.advance_status (h : Thread) : h.advance.status = h.status := rfl
@[simp] theorem Thread.advance_tvec (h : Thread) : h.advance.tvec = h.tvec := rfl
@[simp] theorem Thread.advance_epc (h : Thread) : h.advance.epc = h.epc := rfl
@[simp] theorem Thread.advance_ecause (h : Thread) : h.advance.ecause = h.ecause := rfl
@[simp] theorem Thread.advance_eval (h : Thread) : h.advance.eval = h.eval := rfl
@[simp] theorem Thread.advance_scratch (h : Thread) : h.advance.scratch = h.scratch := rfl
@[simp] theorem Thread.advance_asid (h : Thread) : h.advance.asid = h.asid := rfl
@[simp] theorem Thread.advance_evtx0 (h : Thread) : h.advance.evtx0 = h.evtx0 := rfl
@[simp] theorem Thread.advance_evtx1 (h : Thread) : h.advance.evtx1 = h.evtx1 := rfl
@[simp] theorem Thread.advance_started (h : Thread) : h.advance.started = h.started := rfl
@[simp] theorem Thread.advance_halted (h : Thread) : h.advance.halted = h.halted := rfl
@[simp] theorem Thread.advance_image (h : Thread) : h.advance.image = h.image := rfl
@[simp] theorem Thread.advance_stall (h : Thread) : h.advance.stall = h.stall := rfl
@[simp] theorem Thread.advance_busy (h : Thread) : h.advance.busy = h.busy := rfl

/-! ### Reads of what was written -/

theorem State.thread_setThread (t u : Nat) (v : Thread) : (s.setThread t v).thread u = if t = u then v else s.thread u := tget_tset ..
@[simp] theorem State.thread_setThread_same (t : Nat) (v : Thread) : (s.setThread t v).thread t = v := tget_tset_same ..
theorem State.part_setPart (p q : Nat) (v : Part) : (s.setPart p v).part q = if p = q then v else s.part q := tget_tset ..
@[simp] theorem State.part_setPart_same (p : Nat) (v : Part) : (s.setPart p v).part p = v := tget_tset_same ..
theorem State.colour_setColour (c d : Nat) (v : Colour) : (s.setColour c v).colour d = if c = d then v else s.colour d := tget_tset ..
@[simp] theorem State.colour_setColour_same (c : Nat) (v : Colour) : (s.setColour c v).colour c = v := tget_tset_same ..
theorem State.elem_setElem (e f : Nat) (v : Elem) : (s.setElem e v).elem f = if e = f then v else s.elem f := tget_tset ..
@[simp] theorem State.elem_setElem_same (e : Nat) (v : Elem) : (s.setElem e v).elem e = v := tget_tset_same ..
@[simp] theorem State.ctx_setCtx_same (e c : Nat) (v : Ctx) : (s.setCtx e c v).ctx e c = v := by
  simp [State.setCtx, State.ctx]
theorem State.ctx_setCtx (e f c d : Nat) (v : Ctx) : (s.setCtx e c v).ctx f d = if e = f ∧ c = d then v else s.ctx f d := by
  by_cases h : e = f
  · subst h; simp [State.setCtx, State.ctx, tget_tset]
  · simp [State.setCtx, State.ctx, State.elem_setElem, h]
@[simp] theorem State.buf_setBuf_same (e c b : Nat) (v : Option Buf) : (s.setBuf e c b v).buf e c b = v := by
  simp [State.setBuf, State.buf]
theorem Thread.reg_setReg (h : Thread) (n m : Nat) (v : Word) : (h.setReg n v).reg m = if n = m then v else h.reg m := tget_tset ..

end Sys2Proof.Machine
end

