-- ==== Sys2Proof/Laws/Ops.lean ====
section
/-! SUPPORT. What each shared operation can do, said once: reading a focus, taking a trap and returning, ending a steward word,
events, free values, sending tokens, faults of activations, firings, and requests of the host. -/

namespace Sys2Proof.Machine

/-! ### Reading the focus -/

theorem State.onThread_thread {s : State} {t : Nat} (h : s.focus = .thread t) (g : Nat → Thread → State) :
    s.onThread g = .next (g t (s.thread t)) := by simp [State.onThread, h]
theorem State.onThread_node {s : State} {f : Firing} (h : s.focus = .node f) (g : Nat → Thread → State) :
    s.onThread g = .next { s with focus := .thread 0 } := by simp [State.onThread, h]
/-- An instruction of a steward always answers a next state. -/
theorem State.onThread_next (s : State) (g : Nat → Thread → State) : ∃ s', s.onThread g = .next s' := by
  unfold State.onThread; split <;> exact ⟨_, rfl⟩

/-- A system instruction in supervisor mode has its effect (R238). -/
theorem State.sys_super {s : State} {t : Nat} (h : s.focus = .thread t) (m : (s.thread t).super = true) (g : Nat → Nat → State) :
    s.sys g = .next (g t (s.partOfThread t)) := by simp [State.sys, State.onThread_thread h, m]
/-- A system instruction in user mode traps (R238). -/
theorem State.sys_user {s : State} {t : Nat} (h : s.focus = .thread t) (m : (s.thread t).super = false) (g : Nat → Nat → State) :
    s.sys g = .next (s.trapPrivilege t) := by simp [State.sys, State.onThread_thread h, m]

/-- A dataflow instruction has its effect on a firing. -/
theorem State.flow_node {s : State} {f : Firing} (h : s.focus = .node f) (g : Firing → State) : s.flow g = .next (g f) := by
  simp [State.flow, h]
/-- A dataflow instruction always answers a next state. -/
theorem State.flow_next (s : State) (g : Firing → State) : ∃ s', s.flow g = .next s' := by
  unfold State.flow; split <;> exact ⟨_, rfl⟩

/-! ### The end of a steward word -/

/-- Writing a destination writes that register and no other (R77). -/
theorem Thread.setDest_reg (th : Thread) (d : Option Nat) (v : Word) (n : Nat) :
    (th.setDest d v).reg n = if d = some n then v else th.reg n := by
  cases d with
  | none => rfl
  | some m => simp [Thread.setDest, Thread.setReg, Thread.reg, tget_tset]

/-- A steward word that ends writes its destination, goes on, and leaves the other threads alone. -/
theorem State.finishWord_thread (s : State) (t u : Nat) (d : Option Nat) (v : Word) :
    (s.finishWord t d v).thread u = if t = u then ((s.thread t).setDest d v).advance else s.thread u := tget_tset _ _ _ _

/-! ### Traps (R258, R259) -/

/-- Taking a trap: MODE and TB set, PMODE the old MODE, no other bit of STATUS changed. -/
theorem trapStatus_getLsbD (st : Word) (i : Nat) :
    (trapStatus st).getLsbD i = if i = 8 ∨ i = 10 then true else if i = 9 then st.getLsbD 8 else st.getLsbD i := by
  unfold trapStatus
  rw [setFld_getLsbD _ _ _ _ _ (by decide), setFld_getLsbD _ _ _ _ _ (by decide), setFld_getLsbD _ _ _ _ _ (by decide)]
  by_cases a : i = 10
  · subst a; simp
  by_cases b : i = 8
  · subst b; simp
  by_cases c : i = 9
  · subst c
    show _ = st.toNat.testBit 8
    simp [nfld, Nat.testBit, Nat.shiftRight_eq_div_pow]
  simp only [a, b, c, or_self, if_false]
  rw [if_neg (by omega), if_neg (by omega), if_neg (by omega)]

/-- Returning: MODE takes PMODE and TB clears; no other bit of STATUS changes. -/
theorem rettStatus_getLsbD (st : Word) (i : Nat) :
    (rettStatus st).getLsbD i = if i = 10 then false else if i = 8 then st.getLsbD 9 else st.getLsbD i := by
  unfold rettStatus
  rw [setFld_getLsbD _ _ _ _ _ (by decide), setFld_getLsbD _ _ _ _ _ (by decide)]
  by_cases a : i = 10
  · subst a; simp
  by_cases b : i = 8
  · subst b
    show _ = st.toNat.testBit 9
    simp [nfld, Nat.testBit, Nat.shiftRight_eq_div_pow]
  simp only [a, b, if_false]
  rw [if_neg (by omega), if_neg (by omega)]

/-- A trap of a thread with TB clear: what it saves, and where the thread goes. -/
theorem State.takeTrap_enter {s : State} {t : Nat} (h : (s.thread t).tb = false) (code eval n : Nat) (epc : Word) :
    s.takeTrap t code eval n epc = s.setThread t { s.thread t with
      epc := epc, ecause := pack 64 [(0, 4, code), (16, 16, n)], eval := BitVec.ofNat 64 eval,
      status := trapStatus (s.thread t).status, pc := (s.thread t).tvec, stall := .none } := by simp [State.takeTrap, h]
/-- A trap of a thread with TB set halts it. -/
theorem State.takeTrap_halt {s : State} {t : Nat} (h : (s.thread t).tb = true) (code eval n : Nat) (epc : Word) :
    s.takeTrap t code eval n epc = s.haltThread t 1 (s.thread t).pc := by simp [State.takeTrap, h]

/-- Returning from a trap, read at every thread. -/
theorem State.returnTrap_thread (s : State) (t u : Nat) :
    (s.returnTrap t).thread u =
      if t = u then { s.thread t with pc := (s.thread t).epc, status := rettStatus (s.thread t).status } else s.thread u := tget_tset _ _ _ _

/-! ### Events (R264) -/

/-- Sending an event changes the queue of its partition alone. -/
theorem State.sendEvent_eq (s : State) (p : Nat) (ev : Event) :
    s.sendEvent p ev = s.setPart p { s.part p with events := (s.part p).events ++ [ev] } ∧ (s.part p).events.length < 256 ∧ (s.part p).held = [] ∨
    s.sendEvent p ev = s.setPart p { s.part p with held := (s.part p).held ++ [ev] } ∧ (256 ≤ (s.part p).events.length ∨ (s.part p).held ≠ []) := by
  unfold State.sendEvent
  dsimp only
  split
  · rename_i h; exact .inl ⟨rfl, by simpa using h⟩
  · rename_i h; refine .inr ⟨rfl, ?_⟩
    by_cases c : (s.part p).events.length < 256
    · right; simpa [c] using h
    · left; omega
/-- Every part of the state but the partitions is as before. -/
theorem State.sendEvent_frame (s : State) (p : Nat) (ev : Event) : ∃ v, s.sendEvent p ev = s.setPart p v := by
  obtain ⟨h, -⟩ | ⟨h, -⟩ := s.sendEvent_eq p ev <;> exact ⟨_, h⟩
/-- No event is lost or reordered: queue and held events together gain it at the end. -/
theorem State.sendEvent_all (s : State) (p : Nat) (ev : Event) :
    ((s.sendEvent p ev).part p).events ++ ((s.sendEvent p ev).part p).held = (s.part p).events ++ (s.part p).held ++ [ev] := by
  obtain ⟨h, -, k⟩ | ⟨h, -⟩ := s.sendEvent_eq p ev
  · unfold State.part at k
    rw [h]; simp [State.part, State.setPart, k]
  · rw [h]; simp [State.part, State.setPart]

/-- An event that is taken is the oldest one; the others keep their order. -/
theorem State.takeEvent_eq {s s' : State} {p : Nat} {ev : Event} (h : s.takeEvent p = some (ev, s')) :
    ∃ es hs, (s.part p).events ++ (s.part p).held = ev :: (es ++ hs) ∧ s' = s.setPart p { s.part p with events := es, held := hs } := by
  unfold State.takeEvent at h
  dsimp only at h
  split at h
  · cases h
  · rename_i es he
    split at h
    · rename_i hh; cases h; exact ⟨es, [], by simp [he, hh], by rw [← hh]⟩
    · rename_i x hs hh; cases h; exact ⟨es ++ [x], hs, by simp [he, hh], rfl⟩

/-! ### Free values, counts and tokens -/

/-- A free value advances the counter, and nothing else changes. -/
theorem State.free_eq (s : State) : s.free = (Config.freeValue s.fresh, { s with fresh := s.fresh + 1 }) := rfl

theorem State.inflUp_frame (s : State) (c n : Nat) : s.inflUp c n = s ∨ ∃ v, s.inflUp c n = s.setColour c v := by
  unfold State.inflUp; split
  · exact .inl rfl
  · exact .inr ⟨_, rfl⟩
theorem State.inflDown_frame (s : State) (c n : Nat) : s.inflDown c n = s ∨ ∃ v, s.inflDown c n = s.setColour c v := by
  unfold State.inflDown; split
  · exact .inl rfl
  · exact .inr ⟨_, rfl⟩

/-- Sending results adds tokens at the end and changes nothing else (R269). -/
theorem State.sendFrom_eq (s : State) (port : Option Nat) (e c lag : Nat) (os : List Out) :
    ∃ ts, s.sendFrom port e c lag os = s.setTokens (s.fab.tokens ++ ts) ∧ ts.length ≤ os.length := by
  induction os generalizing s lag with
  | nil => exact ⟨[], by simp [State.sendFrom, State.setTokens], Nat.le_refl 0⟩
  | cons o os ih =>
    unfold State.sendFrom
    split
    · rename_i t _
      obtain ⟨ts, h, l⟩ := ih (s.addToken t) (lag + 1)
      exact ⟨t :: ts, by rw [h]; simp [State.addToken, State.setTokens], by simp; omega⟩
    · obtain ⟨ts, h, l⟩ := ih s (lag + 1)
      exact ⟨ts, h, by simp; omega⟩

/-! ### Faults of activations (R262, R344, R345) -/

/-- Parking a range changes the tokens, the joins and the parked ranges. -/
theorem State.parkRange_frame (s : State) (part col lo hi : Nat) (load : Option Word) :
    ∃ toks js ps, s.parkRange part col lo hi load = { s with fab := { s.fab with parks := ps, tokens := toks, joins := js } } := ⟨_, _, _, rfl⟩

/-- Raising a fault changes the tokens, the joins, the parked ranges and the faults that wait; no record is written yet. -/
theorem State.raiseFault_frame (s : State) (f : FaultInfo) :
    ∃ toks js ps fs, s.raiseFault f = { s with fab := { s.fab with parks := ps, tokens := toks, joins := js, faults := fs } } := by
  unfold State.raiseFault
  dsimp only
  split
  · exact ⟨_, _, _, _, rfl⟩
  split
  · split
    · exact ⟨_, _, _, _, rfl⟩
    · split <;> exact ⟨_, _, _, _, rfl⟩
  · exact ⟨_, _, _, _, rfl⟩

/-- A fault that a purge covers changes nothing (R242). -/
theorem State.raiseFault_purged {s : State} {f : FaultInfo} (h : s.purgedAt f.e f.tag = true) : s.raiseFault f = s := by
  simp [State.raiseFault, h]

/-- A record that is written changes its partition alone. -/
theorem State.writeRecord_frame {s s' : State} {p : Nat} {rcd : BitVec 512} {event : Nat → Event} (h : s.writeRecord p rcd event = some s') :
    ∃ v w, s' = (s.setPart p v).setPart p w := by
  unfold State.writeRecord at h
  dsimp only at h
  split at h
  · cases h
  · cases h
    obtain ⟨v, hv⟩ := (s.setPart p _).sendEvent_frame p _
    exact ⟨_, v, hv⟩

/-! ### Firings (R276, R294, R295) -/

/-- A firing that is done issuing: the elements, the colours and the units change; no thread, partition or memory does. -/
theorem State.fire_frame (s : State) (f : Firing) (o : Ops) (lat : Nat) (outs : List Out) (bits : BitVec 8) :
    ∃ es cs us, s.fire f o lat outs bits =
      { s with colours := cs, fab := { s.fab with elems := es, units := us }, focus := .thread 0 } := by
  unfold State.fire State.latch State.settle State.spendCredit State.inflDown State.toUnit
  split <;> split <;> (try split) <;> exact ⟨_, _, _, rfl⟩

/-- A firing puts one operation into a unit, and its results are those given. -/
theorem State.fire_units (s : State) (f : Firing) (o : Ops) (lat : Nat) (outs : List Out) (bits : BitVec 8) :
    (s.fire f o lat outs bits).fab.units = s.fab.units ++ [⟨f.e, f.ctx, f.slot, f.tag, s.cycle + lat, 0, none, outs, none, [], []⟩] := by
  unfold State.fire State.latch State.settle State.spendCredit State.inflDown State.toUnit
  split <;> split <;> (try split) <;> rfl

/-- A computation on a steward writes its destination and its sticky bits and goes on when its latency has passed; the other threads are as before. -/
theorem State.compute_thread {s : State} {t : Nat} (h : s.focus = .thread t) (o : Ops) (lat : Nat) (vals : List Val) (r : Word × BitVec 8) :
    s.compute o lat vals r =
      s.setThread t { (((s.thread t).setDest (stewDest o.t0) r.1).sticky r.2).advance with busy := s.cycle + lat } := by simp [State.compute, h]
/-- A computation in the fabric fires with one result, to both targets. -/
theorem State.compute_node {s : State} {f : Firing} (h : s.focus = .node f) (o : Ops) (lat : Nat) (vals : List Val) (r : Word × BitVec 8) :
    s.compute o lat vals r = s.fire f o lat
      (outBoth o ⟨0, (sbResult (sbOr (vals.map fun x => x.sb)) r).2, .scalar, (sbResult (sbOr (vals.map fun x => x.sb)) r).1, none, f.tag, []⟩)
      (sbResult (sbOr (vals.map fun x => x.sb)) r).2 := by simp [State.compute, h]

/-! ### Requests of the host (R332, R397) -/

/-- A request is ignored from a function that does not exist, and while the device does not run. -/
theorem State.request_ignored {s : State} {f : Nat} (h : 64 < f ∨ s.hostUp = false) (code : Nat) (k : State → State) :
    s.request f code k = .next s := by
  unfold State.request
  rw [if_pos (by simpa using h)]
/-- A request that is taken leaves its code in the mailbox and is performed. -/
theorem State.request_taken {s : State} {f : Nat} (h : f ≤ 64) (u : s.hostUp = true) (code : Nat) (k : State → State) :
    s.request f code k = .next (k (s.setVf f { s.vf f with mailbox := tset 0 (s.vf f).mailbox 0 (BitVec.ofNat 64 code) })) := by
  unfold State.request
  rw [if_neg (by simp [u]; omega)]
/-- A request always answers a next state. -/
theorem State.request_next (s : State) (f code : Nat) (k : State → State) : ∃ s', s.request f code k = .next s' := ⟨_, rfl⟩
/-- An answer changes the function that asked alone. -/
theorem State.reqDone_eq (s : State) (f status : Nat) (v : Word) :
    s.reqDone f status v = s.setVf f { s.vf f with status := BitVec.ofNat 8 status, value := v } := rfl

/-! ### Steps that do nothing -/

/-- Where no basin entry fails, what follows is done (R301). -/
theorem State.guarded_eq {s : State} {l : List Token} (h : s.basinFails l = none) (k : State) : s.guarded l k = k := by
  simp [State.guarded, h]
/-- An access whose chain no engine started is as it was (R358). -/
theorem State.afterEngine_eq {s : State} {a : Access} (h : a.hist.contains fromEngine = false) : s.afterEngine a = (s, a) := by
  simp only [State.afterEngine, h, Bool.false_eq_true, if_false]
/-- A link leaves a packet that it cannot accept (R453). -/
theorem State.acceptLink_waits {s : State} {i : Nat} {x : LinkPkt} (h : nth? s.port.linkOut i = some x) (c : s.canAccept x = false) :
    s.acceptLink i = s := by
  simp [State.acceptLink, h, c]
/-- With empty link queues and no access at a port a cycle moves the clock alone. -/
theorem State.tick_eq {s : State} (h : s.port.linkOut = []) (a : s.port.accesses = []) : s.tick = s.clock := by
  have w : s.starve = s := by simp [State.starve, a]
  have l : s.clock.port.linkOut = [] := h
  simp only [State.tick, State.acceptLinks, w, l]
  rfl
/-- What is found satisfies the test. -/
theorem lfind_true {α : Type} {p : α → Bool} {l : List α} {x : α} (h : lfind p l = some x) : p x = true := by
  induction l with
  | nil => simp [lfind] at h
  | cons y l ih =>
    unfold lfind at h
    split at h
    · next c => cases h; exact c
    · exact ih h
/-- An event that is due does something. -/
theorem State.due_acts {s : State} {d : Timed} (h : s.due = some d) : s.happen d ≠ .next s := by
  have a := lfind_true h
  intro e
  simp [State.acts, e] at a
/-- A cycle ends with the next cycle when nothing is due, and else with what is. -/
theorem State.endCycle_next {s : State} (h : s.due = none) (l : List Move) : s.endCycle l = .next (State.tick { s with agenda := l }) := by
  simp [State.endCycle, h]
theorem State.endCycle_due {s : State} {d : Timed} (h : s.due = some d) (l : List Move) : s.endCycle l = s.happen d := by
  simp [State.endCycle, h]
/-- Nothing started ends with no access. -/
@[simp] theorem State.endStarted_none (s : State) : s.endStarted none = s := rfl

/-- What a place of a list holds is in the list. -/
theorem nth?_mem {α : Type} {l : List α} {n : Nat} {x : α} (h : nth? l n = some x) : x ∈ l := by
  induction l generalizing n with
  | nil => simp [nth?] at h
  | cons y l ih => cases n with
    | zero => simp [nth?] at h; simp [h]
    | succ n => exact List.mem_cons_of_mem _ (ih h)
/-- The k-th port of the rounds stands with its own round. -/
theorem State.roundPorts_nth {s : State} {n i p : Nat} {r : Round} (h : nth? s.roundPorts n = some (i, p, r)) : nth? s.fab.rounds i = some r := by
  have m := nth?_mem h
  unfold State.roundPorts at m
  obtain ⟨l, hl, hm⟩ := List.mem_flatten.mp m
  obtain ⟨j, -, rfl⟩ := List.mem_map.mp hl
  split at hm
  · next q hq =>
    obtain ⟨a, -, e⟩ := List.mem_map.mp hm
    cases e; exact hq
  · simp at hm

end Sys2Proof.Machine
end

