-- ==== Sys2Proof/Laws/PerInstr.lean ====
section
/-! SUPPORT. The family Enc: what the encoder writes for an instruction, the decoder reads back whole; an event has no word. One lemma for
each constructor of Instr. -/

namespace Sys2Proof.Laws.Enc

open Sys2Proof Sys2Proof.Machine

/-- A word instruction whose operands are encodable is read back from its word; an event has no word. -/
def Statement (i : Instr) : Prop :=
  (sig i = none → encode i = none) ∧ (encodable i = true → ∃ w, encode i = some w ∧ decode w = .ok i)

/-- The instruction of a row's OPC and FN has the statement. -/
theorem word (i : Instr) (g : Sig) (f : Ops → Instr) (hs : sig i = some g)
    (hi : encodable i = true → instrOf (BitVec.ofNat 8 g.opc).toNat (BitVec.ofNat 4 g.fn).toNat (nfld g.o.imm 0 2) = some f) (hf : f g.o = i) : Statement i := by
  constructor
  · intro h; rw [hs] at h; cases h
  · intro h
    refine ⟨_, by simp only [encode, hs]; rfl, ?_⟩
    have hi := hi h
    simp [encodable, hs] at h
    rw [decode_wordOf _ _ _ _ hi ⟨h.1.1.1, h.1.1.2, h.1.2⟩, hf]

/-- An event has no word. -/
theorem event (i : Instr) (h : sig i = none) : Statement i := ⟨fun _ => by simp [encode, h], fun e => by simp [encodable, h] at e⟩

theorem nop (o : Ops) : Statement (.nop o) := word _ _ (.nop ·) rfl (fun _ => rfl) rfl
theorem copy (o : Ops) : Statement (.copy o) := word _ _ (.copy ·) rfl (fun _ => rfl) rfl
theorem steer (o : Ops) : Statement (.steer o) := word _ _ (.steer ·) rfl (fun _ => rfl) rfl
theorem merge (o : Ops) : Statement (.merge o) := word _ _ (.merge ·) rfl (fun _ => rfl) rfl
theorem gate (o : Ops) : Statement (.gate o) := word _ _ (.gate ·) rfl (fun _ => rfl) rfl
theorem sink (o : Ops) : Statement (.sink o) := word _ _ (.sink ·) rfl (fun _ => rfl) rfl
theorem nullt (o : Ops) : Statement (.nullt o) := word _ _ (.nullt ·) rfl (fun _ => rfl) rfl
theorem joinn (o : Ops) : Statement (.joinn o) := word _ _ (.joinn ·) rfl (fun _ => rfl) rfl
theorem iter (o : Ops) : Statement (.iter o) := word _ _ (.iter ·) rfl (fun _ => rfl) rfl
theorem tagset (o : Ops) : Statement (.tagset o) := word _ _ (.tagset ·) rfl (fun _ => rfl) rfl
theorem tagget (o : Ops) : Statement (.tagget o) := word _ _ (.tagget ·) rfl (fun _ => rfl) rfl
theorem keyset (o : Ops) : Statement (.keyset o) := word _ _ (.keyset ·) rfl (fun _ => rfl) rfl
theorem keyget (o : Ops) : Statement (.keyget o) := word _ _ (.keyget ·) rfl (fun _ => rfl) rfl
theorem genchk (o : Ops) : Statement (.genchk o) := word _ _ (.genchk ·) rfl (fun _ => rfl) rfl
theorem delay (o : Ops) : Statement (.delay o) := word _ _ (.delay ·) rfl (fun _ => rfl) rfl
theorem entry (o : Ops) : Statement (.entry o) := word _ _ (.entry ·) rfl (fun _ => rfl) rfl
theorem emit (o : Ops) : Statement (.emit o) := word _ _ (.emit ·) rfl (fun _ => rfl) rfl
theorem bar (o : Ops) : Statement (.bar o) := word _ _ (.bar ·) rfl (fun _ => rfl) rfl
theorem br (o : Ops) : Statement (.br o) := word _ _ (.br ·) rfl (fun _ => rfl) rfl
theorem brcEq (o : Ops) : Statement (.brcEq o) := word _ _ (.brcEq ·) rfl (fun _ => rfl) rfl
theorem brcNe (o : Ops) : Statement (.brcNe o) := word _ _ (.brcNe ·) rfl (fun _ => rfl) rfl
theorem brcLt (o : Ops) : Statement (.brcLt o) := word _ _ (.brcLt ·) rfl (fun _ => rfl) rfl
theorem brcGe (o : Ops) : Statement (.brcGe o) := word _ _ (.brcGe ·) rfl (fun _ => rfl) rfl
theorem brcLtu (o : Ops) : Statement (.brcLtu o) := word _ _ (.brcLtu ·) rfl (fun _ => rfl) rfl
theorem brcGeu (o : Ops) : Statement (.brcGeu o) := word _ _ (.brcGeu ·) rfl (fun _ => rfl) rfl
theorem call (o : Ops) : Statement (.call o) := word _ _ (.call ·) rfl (fun _ => rfl) rfl
theorem ret (o : Ops) : Statement (.ret o) := word _ _ (.ret ·) rfl (fun _ => rfl) rfl
theorem sendt (o : Ops) : Statement (.sendt o) := word _ _ (.sendt ·) rfl (fun _ => rfl) rfl
theorem waitt (o : Ops) : Statement (.waitt o) := word _ _ (.waitt ·) rfl (fun _ => rfl) rfl
theorem halt (o : Ops) : Statement (.halt o) := word _ _ (.halt ·) rfl (fun _ => rfl) rfl
theorem ld (o : Ops) : Statement (.ld o) := word _ _ (.ld ·) rfl (fun _ => rfl) rfl
theorem st (o : Ops) : Statement (.st o) := word _ _ (.st ·) rfl (fun _ => rfl) rfl
theorem li (o : Ops) : Statement (.li o) := word _ _ (.li ·) rfl (fun _ => rfl) rfl
theorem add (o : Ops) : Statement (.add o) := word _ _ (.add ·) rfl (fun _ => rfl) rfl
theorem sub (o : Ops) : Statement (.sub o) := word _ _ (.sub ·) rfl (fun _ => rfl) rfl
theorem adds (o : Ops) : Statement (.adds o) := word _ _ (.adds ·) rfl (fun _ => rfl) rfl
theorem subs (o : Ops) : Statement (.subs o) := word _ _ (.subs ·) rfl (fun _ => rfl) rfl
theorem neg (o : Ops) : Statement (.neg o) := word _ _ (.neg ·) rfl (fun _ => rfl) rfl
theorem abs (o : Ops) : Statement (.abs o) := word _ _ (.abs ·) rfl (fun _ => rfl) rfl
theorem mul (o : Ops) : Statement (.mul o) := word _ _ (.mul ·) rfl (fun _ => rfl) rfl
theorem mulh (o : Ops) : Statement (.mulh o) := word _ _ (.mulh ·) rfl (fun _ => rfl) rfl
theorem mulhu (o : Ops) : Statement (.mulhu o) := word _ _ (.mulhu ·) rfl (fun _ => rfl) rfl
theorem mad (o : Ops) : Statement (.mad o) := word _ _ (.mad ·) rfl (fun _ => rfl) rfl
theorem div (o : Ops) : Statement (.div o) := word _ _ (.div ·) rfl (fun _ => rfl) rfl
theorem divu (o : Ops) : Statement (.divu o) := word _ _ (.divu ·) rfl (fun _ => rfl) rfl
theorem rem (o : Ops) : Statement (.rem o) := word _ _ (.rem ·) rfl (fun _ => rfl) rfl
theorem remu (o : Ops) : Statement (.remu o) := word _ _ (.remu ·) rfl (fun _ => rfl) rfl
theorem min (o : Ops) : Statement (.min o) := word _ _ (.min ·) rfl (fun _ => rfl) rfl
theorem max (o : Ops) : Statement (.max o) := word _ _ (.max ·) rfl (fun _ => rfl) rfl
theorem minu (o : Ops) : Statement (.minu o) := word _ _ (.minu ·) rfl (fun _ => rfl) rfl
theorem maxu (o : Ops) : Statement (.maxu o) := word _ _ (.maxu ·) rfl (fun _ => rfl) rfl
theorem and (o : Ops) : Statement (.and o) := word _ _ (.and ·) rfl (fun _ => rfl) rfl
theorem or (o : Ops) : Statement (.or o) := word _ _ (.or ·) rfl (fun _ => rfl) rfl
theorem xor (o : Ops) : Statement (.xor o) := word _ _ (.xor ·) rfl (fun _ => rfl) rfl
theorem andn (o : Ops) : Statement (.andn o) := word _ _ (.andn ·) rfl (fun _ => rfl) rfl
theorem not (o : Ops) : Statement (.not o) := word _ _ (.not ·) rfl (fun _ => rfl) rfl
theorem shl (o : Ops) : Statement (.shl o) := word _ _ (.shl ·) rfl (fun _ => rfl) rfl
theorem shr (o : Ops) : Statement (.shr o) := word _ _ (.shr ·) rfl (fun _ => rfl) rfl
theorem sar (o : Ops) : Statement (.sar o) := word _ _ (.sar ·) rfl (fun _ => rfl) rfl
theorem rol (o : Ops) : Statement (.rol o) := word _ _ (.rol ·) rfl (fun _ => rfl) rfl
theorem clz (o : Ops) : Statement (.clz o) := word _ _ (.clz ·) rfl (fun _ => rfl) rfl
theorem ctz (o : Ops) : Statement (.ctz o) := word _ _ (.ctz ·) rfl (fun _ => rfl) rfl
theorem popc (o : Ops) : Statement (.popc o) := word _ _ (.popc ·) rfl (fun _ => rfl) rfl
theorem bswap (o : Ops) : Statement (.bswap o) := word _ _ (.bswap ·) rfl (fun _ => rfl) rfl
theorem bfx (o : Ops) : Statement (.bfx o) := word _ _ (.bfx ·) rfl (fun _ => rfl) rfl
theorem bfi (o : Ops) : Statement (.bfi o) := word _ _ (.bfi ·) rfl (fun _ => rfl) rfl
theorem sext (o : Ops) : Statement (.sext o) := word _ _ (.sext ·) rfl (fun _ => rfl) rfl
theorem zext (o : Ops) : Statement (.zext o) := word _ _ (.zext ·) rfl (fun _ => rfl) rfl
theorem cmpEq (o : Ops) : Statement (.cmpEq o) := word _ _ (.cmpEq ·) rfl (fun _ => rfl) rfl
theorem cmpNe (o : Ops) : Statement (.cmpNe o) := word _ _ (.cmpNe ·) rfl (fun _ => rfl) rfl
theorem cmpLt (o : Ops) : Statement (.cmpLt o) := word _ _ (.cmpLt ·) rfl (fun _ => rfl) rfl
theorem cmpLe (o : Ops) : Statement (.cmpLe o) := word _ _ (.cmpLe ·) rfl (fun _ => rfl) rfl
theorem cmpGt (o : Ops) : Statement (.cmpGt o) := word _ _ (.cmpGt ·) rfl (fun _ => rfl) rfl
theorem cmpGe (o : Ops) : Statement (.cmpGe o) := word _ _ (.cmpGe ·) rfl (fun _ => rfl) rfl
theorem cmpLtu (o : Ops) : Statement (.cmpLtu o) := word _ _ (.cmpLtu ·) rfl (fun _ => rfl) rfl
theorem cmpLeu (o : Ops) : Statement (.cmpLeu o) := word _ _ (.cmpLeu ·) rfl (fun _ => rfl) rfl
theorem cmpGtu (o : Ops) : Statement (.cmpGtu o) := word _ _ (.cmpGtu ·) rfl (fun _ => rfl) rfl
theorem cmpGeu (o : Ops) : Statement (.cmpGeu o) := word _ _ (.cmpGeu ·) rfl (fun _ => rfl) rfl
theorem sel (o : Ops) : Statement (.sel o) := word _ _ (.sel ·) rfl (fun _ => rfl) rfl
theorem addx (o : Ops) : Statement (.addx o) := word _ _ (.addx ·) rfl (fun _ => rfl) rfl
theorem crc (o : Ops) : Statement (.crc o) := word _ _ (.crc ·) rfl (fun _ => rfl) rfl
theorem mix (o : Ops) : Statement (.mix o) := word _ _ (.mix ·) rfl (fun _ => rfl) rfl
theorem fadd (o : Ops) : Statement (.fadd o) := word _ _ (.fadd ·) rfl (fun _ => rfl) rfl
theorem fsub (o : Ops) : Statement (.fsub o) := word _ _ (.fsub ·) rfl (fun _ => rfl) rfl
theorem fmul (o : Ops) : Statement (.fmul o) := word _ _ (.fmul ·) rfl (fun _ => rfl) rfl
theorem ffma (o : Ops) : Statement (.ffma o) := word _ _ (.ffma ·) rfl (fun _ => rfl) rfl
theorem fdiv (o : Ops) : Statement (.fdiv o) := word _ _ (.fdiv ·) rfl (fun _ => rfl) rfl
theorem fsqrt (o : Ops) : Statement (.fsqrt o) := word _ _ (.fsqrt ·) rfl (fun _ => rfl) rfl
theorem frsq (o : Ops) : Statement (.frsq o) := word _ _ (.frsq ·) rfl (fun _ => rfl) rfl
theorem frcp (o : Ops) : Statement (.frcp o) := word _ _ (.frcp ·) rfl (fun _ => rfl) rfl
theorem fexp2 (o : Ops) : Statement (.fexp2 o) := word _ _ (.fexp2 ·) rfl (fun _ => rfl) rfl
theorem flog2 (o : Ops) : Statement (.flog2 o) := word _ _ (.flog2 ·) rfl (fun _ => rfl) rfl
theorem fmin (o : Ops) : Statement (.fmin o) := word _ _ (.fmin ·) rfl (fun _ => rfl) rfl
theorem fmax (o : Ops) : Statement (.fmax o) := word _ _ (.fmax ·) rfl (fun _ => rfl) rfl
theorem fabs (o : Ops) : Statement (.fabs o) := word _ _ (.fabs ·) rfl (fun _ => rfl) rfl
theorem fneg (o : Ops) : Statement (.fneg o) := word _ _ (.fneg ·) rfl (fun _ => rfl) rfl
theorem fcmpEq (o : Ops) : Statement (.fcmpEq o) := word _ _ (.fcmpEq ·) rfl (fun _ => rfl) rfl
theorem fcmpNe (o : Ops) : Statement (.fcmpNe o) := word _ _ (.fcmpNe ·) rfl (fun _ => rfl) rfl
theorem fcmpLt (o : Ops) : Statement (.fcmpLt o) := word _ _ (.fcmpLt ·) rfl (fun _ => rfl) rfl
theorem fcmpLe (o : Ops) : Statement (.fcmpLe o) := word _ _ (.fcmpLe ·) rfl (fun _ => rfl) rfl
theorem fcmpGt (o : Ops) : Statement (.fcmpGt o) := word _ _ (.fcmpGt ·) rfl (fun _ => rfl) rfl
theorem fcmpGe (o : Ops) : Statement (.fcmpGe o) := word _ _ (.fcmpGe ·) rfl (fun _ => rfl) rfl
theorem fcmpUn (o : Ops) : Statement (.fcmpUn o) := word _ _ (.fcmpUn ·) rfl (fun _ => rfl) rfl
theorem fclass (o : Ops) : Statement (.fclass o) := word _ _ (.fclass ·) rfl (fun _ => rfl) rfl
theorem fcvt (o : Ops) : Statement (.fcvt o) := word _ _ (.fcvt ·) rfl (fun _ => rfl) rfl
theorem fround (o : Ops) : Statement (.fround o) := word _ _ (.fround ·) rfl (fun _ => rfl) rfl
theorem maxi (o : Ops) : Statement (.maxi o) := word _ _ (.maxi ·) rfl (fun _ => rfl) rfl
theorem vadd (o : Ops) : Statement (.vadd o) := word _ _ (.vadd ·) rfl (fun _ => rfl) rfl
theorem vsub (o : Ops) : Statement (.vsub o) := word _ _ (.vsub ·) rfl (fun _ => rfl) rfl
theorem vmul (o : Ops) : Statement (.vmul o) := word _ _ (.vmul ·) rfl (fun _ => rfl) rfl
theorem vfma (o : Ops) : Statement (.vfma o) := word _ _ (.vfma ·) rfl (fun _ => rfl) rfl
theorem vmin (o : Ops) : Statement (.vmin o) := word _ _ (.vmin ·) rfl (fun _ => rfl) rfl
theorem vmax (o : Ops) : Statement (.vmax o) := word _ _ (.vmax ·) rfl (fun _ => rfl) rfl
theorem vabs (o : Ops) : Statement (.vabs o) := word _ _ (.vabs ·) rfl (fun _ => rfl) rfl
theorem vexp2 (o : Ops) : Statement (.vexp2 o) := word _ _ (.vexp2 ·) rfl (fun _ => rfl) rfl
theorem vlog2 (o : Ops) : Statement (.vlog2 o) := word _ _ (.vlog2 ·) rfl (fun _ => rfl) rfl
theorem vrcp (o : Ops) : Statement (.vrcp o) := word _ _ (.vrcp ·) rfl (fun _ => rfl) rfl
theorem vrsq (o : Ops) : Statement (.vrsq o) := word _ _ (.vrsq ·) rfl (fun _ => rfl) rfl
theorem vcvt (o : Ops) : Statement (.vcvt o) := word _ _ (.vcvt ·) rfl (fun _ => rfl) rfl
theorem vqnt (o : Ops) : Statement (.vqnt o) := word _ _ (.vqnt ·) rfl (fun _ => rfl) rfl
theorem vdqnt (o : Ops) : Statement (.vdqnt o) := word _ _ (.vdqnt ·) rfl (fun _ => rfl) rfl
theorem vcmpEq (o : Ops) : Statement (.vcmpEq o) := word _ _ (.vcmpEq ·) rfl (fun _ => rfl) rfl
theorem vcmpNe (o : Ops) : Statement (.vcmpNe o) := word _ _ (.vcmpNe ·) rfl (fun _ => rfl) rfl
theorem vcmpLt (o : Ops) : Statement (.vcmpLt o) := word _ _ (.vcmpLt ·) rfl (fun _ => rfl) rfl
theorem vcmpLe (o : Ops) : Statement (.vcmpLe o) := word _ _ (.vcmpLe ·) rfl (fun _ => rfl) rfl
theorem vcmpGt (o : Ops) : Statement (.vcmpGt o) := word _ _ (.vcmpGt ·) rfl (fun _ => rfl) rfl
theorem vcmpGe (o : Ops) : Statement (.vcmpGe o) := word _ _ (.vcmpGe ·) rfl (fun _ => rfl) rfl
theorem vcmpUn (o : Ops) : Statement (.vcmpUn o) := word _ _ (.vcmpUn ·) rfl (fun _ => rfl) rfl
theorem vsel (o : Ops) : Statement (.vsel o) := word _ _ (.vsel ·) rfl (fun _ => rfl) rfl
theorem vredSum (o : Ops) : Statement (.vredSum o) := word _ _ (.vredSum ·) rfl (fun _ => rfl) rfl
theorem vredMin (o : Ops) : Statement (.vredMin o) := word _ _ (.vredMin ·) rfl (fun _ => rfl) rfl
theorem vredMax (o : Ops) : Statement (.vredMax o) := word _ _ (.vredMax ·) rfl (fun _ => rfl) rfl
theorem vscanSum (o : Ops) : Statement (.vscanSum o) := word _ _ (.vscanSum ·) rfl (fun _ => rfl) rfl
theorem vscanMin (o : Ops) : Statement (.vscanMin o) := word _ _ (.vscanMin ·) rfl (fun _ => rfl) rfl
theorem vscanMax (o : Ops) : Statement (.vscanMax o) := word _ _ (.vscanMax ·) rfl (fun _ => rfl) rfl
theorem vmaxi (o : Ops) : Statement (.vmaxi o) := word _ _ (.vmaxi ·) rfl (fun _ => rfl) rfl
theorem vnoise (o : Ops) : Statement (.vnoise o) := word _ _ (.vnoise ·) rfl (fun _ => rfl) rfl
theorem vbcast (o : Ops) : Statement (.vbcast o) := word _ _ (.vbcast ·) rfl (fun _ => rfl) rfl
theorem vperm (o : Ops) : Statement (.vperm o) := word _ _ (.vperm ·) rfl (fun _ => rfl) rfl
theorem tmma (o : Ops) : Statement (.tmma o) := word _ _ (.tmma ·) rfl (fun _ => rfl) rfl
theorem tmmq (o : Ops) : Statement (.tmmq o) := word _ _ (.tmmq ·) rfl (fun _ => rfl) rfl
theorem tclr (o : Ops) : Statement (.tclr o) := word _ _ (.tclr ·) rfl (fun _ => rfl) rfl
theorem tacc (o : Ops) : Statement (.tacc o) := word _ _ (.tacc ·) rfl (fun _ => rfl) rfl
theorem tdrain (o : Ops) : Statement (.tdrain o) := word _ _ (.tdrain ·) rfl (fun _ => rfl) rfl
theorem ttrn (o : Ops) : Statement (.ttrn o) := word _ _ (.ttrn ·) rfl (fun _ => rfl) rfl
theorem tcvt (o : Ops) : Statement (.tcvt o) := word _ _ (.tcvt ·) rfl (fun _ => rfl) rfl
theorem thdr (o : Ops) : Statement (.thdr o) := word _ _ (.thdr ·) rfl (fun _ => rfl) rfl
theorem trec (o : Ops) : Statement (.trec o) := word _ _ (.trec ·) rfl (fun _ => rfl) rfl
theorem tred (o : Ops) : Statement (.tred o) := word _ _ (.tred ·) rfl (fun _ => rfl) rfl
theorem race (o : Ops) : Statement (.race o) := word _ _ (.race ·) rfl (fun _ => rfl) rfl
theorem tsend (o : Ops) : Statement (.tsend o) := word _ _ (.tsend ·) rfl (fun _ => rfl) rfl
theorem agen (o : Ops) : Statement (.agen o) := word _ _ (.agen ·) rfl (fun _ => rfl) rfl
theorem lds (o : Ops) : Statement (.lds o) := word _ _ (.lds ·) rfl (fun _ => rfl) rfl
theorem sts (o : Ops) : Statement (.sts o) := word _ _ (.sts ·) rfl (fun _ => rfl) rfl
theorem ldr (o : Ops) : Statement (.ldr o) := word _ _ (.ldr ·) rfl (fun _ => rfl) rfl
theorem str (o : Ops) : Statement (.str o) := word _ _ (.str ·) rfl (fun _ => rfl) rfl
theorem updAdd (o : Ops) : Statement (.updAdd o) := word _ _ (.updAdd ·) rfl (fun _ => rfl) rfl
theorem updMin (o : Ops) : Statement (.updMin o) := word _ _ (.updMin ·) rfl (fun _ => rfl) rfl
theorem updMax (o : Ops) : Statement (.updMax o) := word _ _ (.updMax ·) rfl (fun _ => rfl) rfl
theorem updOr (o : Ops) : Statement (.updOr o) := word _ _ (.updOr ·) rfl (fun _ => rfl) rfl
theorem updAnd (o : Ops) : Statement (.updAnd o) := word _ _ (.updAnd ·) rfl (fun _ => rfl) rfl
theorem updXchg (o : Ops) : Statement (.updXchg o) := word _ _ (.updXchg ·) rfl (fun _ => rfl) rfl
theorem updCas (o : Ops) : Statement (.updCas o) := word _ _ (.updCas ·) rfl (fun _ => rfl) rfl
theorem acqld (o : Ops) : Statement (.acqld o) := word _ _ (.acqld ·) rfl (fun _ => rfl) rfl
theorem relst (o : Ops) : Statement (.relst o) := word _ _ (.relst ·) rfl (fun _ => rfl) rfl
theorem ofork (o : Ops) : Statement (.ofork o) := word _ _ (.ofork ·) rfl (fun _ => rfl) rfl
theorem ojoin (o : Ops) : Statement (.ojoin o) := word _ _ (.ojoin ·) rfl (fun _ => rfl) rfl
theorem xlat (o : Ops) : Statement (.xlat o) := word _ _ (.xlat ·) rfl (fun _ => rfl) rfl
theorem param (o : Ops) : Statement (.param o) := word _ _ (.param ·) rfl (fun _ => rfl) rfl
theorem bfal (o : Ops) : Statement (.bfal o) := word _ _ (.bfal ·) rfl (fun _ => rfl) rfl
theorem bffr (o : Ops) : Statement (.bffr o) := word _ _ (.bffr ·) rfl (fun _ => rfl) rfl
theorem bflife (o : Ops) : Statement (.bflife o) := word _ _ (.bflife ·) rfl (fun _ => rfl) rfl
theorem bfwr (o : Ops) : Statement (.bfwr o) := word _ _ (.bfwr ·) rfl (fun _ => rfl) rfl
theorem bfrd (o : Ops) : Statement (.bfrd o) := word _ _ (.bfrd ·) rfl (fun _ => rfl) rfl
theorem bfqry (o : Ops) : Statement (.bfqry o) := word _ _ (.bfqry ·) rfl (fun _ => rfl) rfl
theorem renew (o : Ops) : Statement (.renew o) := word _ _ (.renew ·) rfl (fun _ => rfl) rfl
theorem viewmk (o : Ops) : Statement (.viewmk o) := word _ _ (.viewmk ·) rfl (fun _ => rfl) rfl
theorem viewdup (o : Ops) : Statement (.viewdup o) := word _ _ (.viewdup ·) rfl (fun _ => rfl) rfl
theorem narrow (o : Ops) : Statement (.narrow o) := word _ _ (.narrow ·) rfl (fun _ => rfl) rfl
theorem viewq (o : Ops) : Statement (.viewq o) := word _ _ (.viewq ·) rfl (fun _ => rfl) rfl
theorem viewdrop (o : Ops) : Statement (.viewdrop o) := word _ _ (.viewdrop ·) rfl (fun _ => rfl) rfl
theorem xferM2m (o : Ops) : Statement (.xferM2m o) := word _ _ (.xferM2m ·) rfl (by
  intro h; simp [encodable, sig] at h; simp [h.2]; rfl) rfl
theorem xferM2b (o : Ops) : Statement (.xferM2b o) := word _ _ (.xferM2b ·) rfl (by
  intro h; simp [encodable, sig] at h; simp [h.2]; rfl) rfl
theorem xferB2m (o : Ops) : Statement (.xferB2m o) := word _ _ (.xferB2m ·) rfl (by
  intro h; simp [encodable, sig] at h; simp [h.2]; rfl) rfl
theorem weir (o : Ops) : Statement (.weir o) := word _ _ (.weir ·) rfl (fun _ => rfl) rfl
theorem coll (o : Ops) : Statement (.coll o) := word _ _ (.coll ·) rfl (fun _ => rfl) rfl
theorem lsend (o : Ops) : Statement (.lsend o) := word _ _ (.lsend ·) rfl (fun _ => rfl) rfl
theorem lrecv (o : Ops) : Statement (.lrecv o) := word _ _ (.lrecv ·) rfl (fun _ => rfl) rfl
theorem purgeCol (o : Ops) : Statement (.purgeCol o) := word _ _ (.purgeCol ·) rfl (fun _ => rfl) rfl
theorem purgeGen (o : Ops) : Statement (.purgeGen o) := word _ _ (.purgeGen ·) rfl (fun _ => rfl) rfl
theorem purgeIter (o : Ops) : Statement (.purgeIter o) := word _ _ (.purgeIter ·) rfl (fun _ => rfl) rfl
theorem park (o : Ops) : Statement (.park o) := word _ _ (.park ·) rfl (fun _ => rfl) rfl
theorem unpark (o : Ops) : Statement (.unpark o) := word _ _ (.unpark ·) rfl (fun _ => rfl) rfl
theorem qset (o : Ops) : Statement (.qset o) := word _ _ (.qset ·) rfl (fun _ => rfl) rfl
theorem prio (o : Ops) : Statement (.prio o) := word _ _ (.prio ·) rfl (fun _ => rfl) rfl
theorem winset (o : Ops) : Statement (.winset o) := word _ _ (.winset ·) rfl (fun _ => rfl) rfl
theorem sentl (o : Ops) : Statement (.sentl o) := word _ _ (.sentl ·) rfl (fun _ => rfl) rfl
theorem colset (o : Ops) : Statement (.colset o) := word _ _ (.colset ·) rfl (fun _ => rfl) rfl
theorem partw (o : Ops) : Statement (.partw o) := word _ _ (.partw ·) rfl (fun _ => rfl) rfl
theorem cfgw (o : Ops) : Statement (.cfgw o) := word _ _ (.cfgw ·) rfl (fun _ => rfl) rfl
theorem cfgrd (o : Ops) : Statement (.cfgrd o) := word _ _ (.cfgrd ·) rfl (fun _ => rfl) rfl
theorem raise (o : Ops) : Statement (.raise o) := word _ _ (.raise ·) rfl (fun _ => rfl) rfl
theorem drop (o : Ops) : Statement (.drop o) := word _ _ (.drop ·) rfl (fun _ => rfl) rfl
theorem tlbi (o : Ops) : Statement (.tlbi o) := word _ _ (.tlbi ·) rfl (fun _ => rfl) rfl
theorem genret (o : Ops) : Statement (.genret o) := word _ _ (.genret ·) rfl (fun _ => rfl) rfl
theorem quiesce (o : Ops) : Statement (.quiesce o) := word _ _ (.quiesce ·) rfl (fun _ => rfl) rfl
theorem resume (o : Ops) : Statement (.resume o) := word _ _ (.resume ·) rfl (fun _ => rfl) rfl
theorem fltrd (o : Ops) : Statement (.fltrd o) := word _ _ (.fltrd ·) rfl (fun _ => rfl) rfl
theorem csrr (o : Ops) : Statement (.csrr o) := word _ _ (.csrr ·) rfl (fun _ => rfl) rfl
theorem csrw (o : Ops) : Statement (.csrw o) := word _ _ (.csrw ·) rfl (fun _ => rfl) rfl
theorem trap (o : Ops) : Statement (.trap o) := word _ _ (.trap ·) rfl (fun _ => rfl) rfl
theorem rett (o : Ops) : Statement (.rett o) := word _ _ (.rett ·) rfl (fun _ => rfl) rfl
theorem illegalWordFetch (t : Nat) : Statement (.illegalWordFetch t) := event _ rfl
theorem iterIssue (k : Nat) : Statement (.iterIssue k) := event _ rfl
theorem emitSpaceResume (e : Nat) : Statement (.emitSpaceResume e) := event _ rfl
theorem waittTimeout (t : Nat) : Statement (.waittTimeout t) := event _ rfl
theorem updLineReleased (k : Nat) : Statement (.updLineReleased k) := event _ rfl
theorem threadStart (t : Nat) : Statement (.threadStart t) := event _ rfl
theorem threadRestart (t : Nat) (pc : Word) : Statement (.threadRestart t pc) := event _ rfl
theorem tokenMatch (e : Nat) : Statement (.tokenMatch e) := event _ rfl
theorem fireSelection (e : Nat) : Statement (.fireSelection e) := event _ rfl
theorem unitCompletion (e : Nat) : Statement (.unitCompletion e) := event _ rfl
theorem flitDelivery (k : Nat) : Statement (.flitDelivery k) := event _ rfl
theorem entryOffer (k : Nat) : Statement (.entryOffer k) := event _ rfl
theorem entryOfferReleased (k : Nat) : Statement (.entryOfferReleased k) := event _ rfl
theorem exitQueueArrival (k : Nat) : Statement (.exitQueueArrival k) := event _ rfl
theorem tilePacketArrival (e : Nat) : Statement (.tilePacketArrival e) := event _ rfl
theorem basinEngineTurn (e : Nat) : Statement (.basinEngineTurn e) := event _ rfl
theorem basinBundleReturn (e : Nat) : Statement (.basinBundleReturn e) := event _ rfl
theorem basinProbeReply (e : Nat) : Statement (.basinProbeReply e) := event _ rfl
theorem basinRefill (e : Nat) (col : Nat) : Statement (.basinRefill e col) := event _ rfl
theorem parkedTokenWriteback (k : Nat) : Statement (.parkedTokenWriteback k) := event _ rfl
theorem creditGrant (e : Nat) (col : Nat) : Statement (.creditGrant e col) := event _ rfl
theorem creditReturn (e : Nat) (col : Nat) : Statement (.creditReturn e col) := event _ rfl
theorem sentinelExpiry (e : Nat) (col : Nat) : Statement (.sentinelExpiry e col) := event _ rfl
theorem retcntTick (e : Nat) : Statement (.retcntTick e) := event _ rfl
theorem slotExpiry (e : Nat) (c : Nat) (b : Nat) (n : Nat) : Statement (.slotExpiry e c b n) := event _ rfl
theorem bankWalkRenewal (e : Nat) : Statement (.bankWalkRenewal e) := event _ rfl
theorem keepWalkRenewal (e : Nat) : Statement (.keepWalkRenewal e) := event _ rfl
theorem roundOpen (k : Nat) : Statement (.roundOpen k) := event _ rfl
theorem roundCompleteReport (k : Nat) (pnum : Nat) : Statement (.roundCompleteReport k pnum) := event _ rfl
theorem roundPrepare (k : Nat) : Statement (.roundPrepare k) := event _ rfl
theorem roundCommit (k : Nat) : Statement (.roundCommit k) := event _ rfl
theorem releasePhase (k : Nat) : Statement (.releasePhase k) := event _ rfl
theorem roundVoid (k : Nat) : Statement (.roundVoid k) := event _ rfl
theorem faultRecordWrite (k : Nat) : Statement (.faultRecordWrite k) := event _ rfl
theorem readAhead (k : Nat) : Statement (.readAhead k) := event _ rfl
theorem portAccessPerformed (k : Nat) : Statement (.portAccessPerformed k) := event _ rfl
theorem pageWalk (k : Nat) : Statement (.pageWalk k) := event _ rfl
theorem shootdownArrival (k : Nat) : Statement (.shootdownArrival k) := event _ rfl
theorem shootdownAck (k : Nat) : Statement (.shootdownAck k) := event _ rfl
theorem reconfigurationToken (k : Nat) : Statement (.reconfigurationToken k) := event _ rfl
theorem copyChunk (k : Nat) : Statement (.copyChunk k) := event _ rfl
theorem xferCompletion (k : Nat) : Statement (.xferCompletion k) := event _ rfl
theorem weirRequestArrival (k : Nat) : Statement (.weirRequestArrival k) := event _ rfl
theorem weirContextTake (k : Nat) : Statement (.weirContextTake k) := event _ rfl
theorem weirChunk (k : Nat) : Statement (.weirChunk k) := event _ rfl
theorem weirResultSend (k : Nat) : Statement (.weirResultSend k) := event _ rfl
theorem weirCompletion (k : Nat) : Statement (.weirCompletion k) := event _ rfl
theorem weirResume (k : Nat) : Statement (.weirResume k) := event _ rfl
theorem trimmerChange (d : Nat) : Statement (.trimmerChange d) := event _ rfl
theorem pageFree (r : Nat) (p : Nat) : Statement (.pageFree r p) := event _ rfl
theorem linkTraining (l : Nat) (v : Nat) (peer : BitVec 32) : Statement (.linkTraining l v peer) := event _ rfl
theorem linkPacketArrival (l : Nat) (seq : Nat) (head : BitVec 128) (payload : List Byte) : Statement (.linkPacketArrival l seq head payload) := event _ rfl
theorem linkLoss (l : Nat) : Statement (.linkLoss l) := event _ rfl
theorem spraySetTimeout (n : Nat) : Statement (.spraySetTimeout n) := event _ rfl
theorem collContribution (k : Nat) (n : Nat) (hdr : BitVec 256) (body : List Byte) : Statement (.collContribution k n hdr body) := event _ rfl
theorem collTimeout (k : Nat) : Statement (.collTimeout k) := event _ rfl
theorem bindingStore (t : Nat) (i : Nat) (v : Word) : Statement (.bindingStore t i v) := event _ rfl
theorem configRegisterWrite (t : Nat) (a : Nat) (v : Word) : Statement (.configRegisterWrite t a v) := event _ rfl
theorem elatchWrite (e : Nat) (v : Word) : Statement (.elatchWrite e v) := event _ rfl
theorem retcntWrite (t : Nat) (e : Nat) : Statement (.retcntWrite t e) := event _ rfl
theorem heatEntryClear (pnum : Nat) (i : Nat) : Statement (.heatEntryClear pnum i) := event _ rfl
theorem recordPublish (q : Nat) : Statement (.recordPublish q) := event _ rfl
theorem takeWrite (q : Nat) (v : Word) : Statement (.takeWrite q v) := event _ rfl
theorem adoneWrite (q : Nat) (v : Word) : Statement (.adoneWrite q v) := event _ rfl
theorem queueResidency (q : Nat) : Statement (.queueResidency q) := event _ rfl
theorem launchAdmission (t : Nat) (q : Nat) : Statement (.launchAdmission t q) := event _ rfl
theorem loadPlacement (k : Nat) : Statement (.loadPlacement k) := event _ rfl
theorem residencyClaim (p : Nat) (adp : Word) (tag : Word) (pin : Nat) : Statement (.residencyClaim p adp tag pin) := event _ rfl
theorem adapterResident (p : Nat) (n : Nat) : Statement (.adapterResident p n) := event _ rfl
theorem claimRelease (p : Nat) (n : Nat) : Statement (.claimRelease p n) := event _ rfl
theorem orphanAnswer (k : Nat) : Statement (.orphanAnswer k) := event _ rfl
theorem replay (p : Nat) (col : Nat) (ctx : Nat) : Statement (.replay p col ctx) := event _ rfl
theorem colourDrain (p : Nat) (col : Nat) (ctx : Nat) : Statement (.colourDrain p col ctx) := event _ rfl
theorem eviction (p : Nat) (ctx : Nat) (load : Word) : Statement (.eviction p ctx load) := event _ rfl
theorem evictedRestore (k : Nat) (ctx : Nat) : Statement (.evictedRestore k ctx) := event _ rfl
theorem setroot (f : Nat) (asid : Nat) (v : Word) : Statement (.setroot f asid v) := event _ rfl
theorem resregion (f : Nat) (asid : Nat) (npage : Nat) (vbase : Word) : Statement (.resregion f asid npage vbase) := event _ rfl
theorem destregion (f : Nat) (r : Nat) : Statement (.destregion f r) := event _ rfl
theorem loadkey (f : Nat) (n : Nat) (wrapped : List Byte) : Statement (.loadkey f n wrapped) := event _ rfl
theorem setgroup (f : Nat) (p : Nat) (g : Nat) (v : Word) : Statement (.setgroup f p g v) := event _ rfl
theorem setpart (f : Nat) (p : Nat) (v : BitVec 512) : Statement (.setpart f p v) := event _ rfl
theorem addkey (f : Nat) (v : BitVec 1152) (sig : BitVec 1056) : Statement (.addkey f v sig) := event _ rfl
theorem revkey (f : Nat) (keyid : BitVec 32) (sig : BitVec 1056) : Statement (.revkey f keyid sig) := event _ rfl
theorem setcolour (f : Nat) (d1 : Word) (d2 : Word) (d3 : Word) (d4 : Word) (d5 : Word) (d6 : Word) : Statement (.setcolour f d1 d2 d3 d4 d5 d6) := event _ rfl
theorem doorbellWrite (f : Nat) (q : Nat) (v : Word) : Statement (.doorbellWrite f q v) := event _ rfl
theorem queueDescriptorWrite (f : Nat) (q : Nat) (n : Nat) (v : Word) : Statement (.queueDescriptorWrite f q n v) := event _ rfl
theorem functionLevelReset (f : Nat) : Statement (.functionLevelReset f) := event _ rfl
theorem pageResponse (f : Nat) (i : Nat) (ok : Bool) : Statement (.pageResponse f i ok) := event _ rfl
theorem atsInvalidation (pasid : Nat) (va : Word) : Statement (.atsInvalidation pasid va) := event _ rfl
theorem partitionReset (p : Nat) : Statement (.partitionReset p) := event _ rfl
theorem errorDetected (c : Nat) (p : Nat) (a : Nat) : Statement (.errorDetected c p a) := event _ rfl
theorem debugHalt (e : Nat) : Statement (.debugHalt e) := event _ rfl
theorem debugRelease (e : Nat) : Statement (.debugRelease e) := event _ rfl
theorem cutDrainTimeout (p : Nat) (k : Nat) : Statement (.cutDrainTimeout p k) := event _ rfl
theorem cutEngineStop (k : Nat) : Statement (.cutEngineStop k) := event _ rfl
theorem stateImageWrite (p : Nat) : Statement (.stateImageWrite p) := event _ rfl
theorem fclkStepDown (power : Nat) (temp : Nat) : Statement (.fclkStepDown power temp) := event _ rfl
theorem fclkStepUp (power : Nat) (temp : Nat) : Statement (.fclkStepUp power temp) := event _ rfl
theorem thermalReset (temp : Nat) : Statement (.thermalReset temp) := event _ rfl
theorem pcap (v : Word) : Statement (.pcap v) := event _ rfl
theorem bootStage (ok : Bool) (image : List Byte) (sig : BitVec 1056) (reason : Nat) : Statement (.bootStage ok image sig reason) := event _ rfl
theorem setOwner (v : BitVec 1152) : Statement (.setOwner v) := event _ rfl
theorem erase : Statement (.erase) := event _ rfl
theorem telemetryRead (a : Nat) : Statement (.telemetryRead a) := event _ rfl
theorem getVersion (x : Nat) : Statement (.getVersion x) := event _ rfl
theorem getCapabilities (x : Nat) (v : Nat) : Statement (.getCapabilities x v) := event _ rfl
theorem negotiateAlgorithms (x : Nat) (ok : Bool) : Statement (.negotiateAlgorithms x ok) := event _ rfl
theorem getDigests (x : Nat) : Statement (.getDigests x) := event _ rfl
theorem getCertificate (x : Nat) (n : Nat) : Statement (.getCertificate x n) := event _ rfl
theorem challenge (x : Nat) (nonce : List Byte) : Statement (.challenge x nonce) := event _ rfl
theorem getMeasurements (x : Nat) (i : Nat) : Statement (.getMeasurements x i) := event _ rfl
theorem keyExchange (x : Nat) (share : List Byte) : Statement (.keyExchange x share) := event _ rfl
theorem finish (x : Nat) (n : Nat) : Statement (.finish x n) := event _ rfl
theorem keyUpdate (x : Nat) (n : Nat) : Statement (.keyUpdate x n) := event _ rfl
theorem heartbeat (x : Nat) (n : Nat) : Statement (.heartbeat x n) := event _ rfl
theorem endSession (x : Nat) (n : Nat) : Statement (.endSession x n) := event _ rfl
theorem spdmUnsupportedRequest (x : Nat) (code : Nat) : Statement (.spdmUnsupportedRequest x code) := event _ rfl
theorem towpathMessageArrival (k : Nat) (e : Nat) : Statement (.towpathMessageArrival k e) := event _ rfl
theorem linkAcknowledgement (l : Nat) (seq : Nat) : Statement (.linkAcknowledgement l seq) := event _ rfl
theorem queueQuantumExpiry (q : Nat) : Statement (.queueQuantumExpiry q) := event _ rfl
theorem dynamicAddressAssignment (ok : Bool) : Statement (.dynamicAddressAssignment ok) := event _ rfl

end Sys2Proof.Laws.Enc
end

