-- ==== Sys2Proof/Tests/Slice0.lean ====
section
/-! SUPPORT. Tests of the model: decoding words written out from the spec's tables, the checks of WellFormed on ill-formed words, small
steps with results worked out from the spec's rules, and for every claim of Certificates/Slice0 that has hypotheses a state and operands
that meet them (`witness_<claim>`, one value for each clause). -/

set_option maxRecDepth 20000
set_option exponentiation.threshold 4000

namespace Sys2Proof.Tests

open Sys2Proof Sys2Proof.Machine

/-! ### Helpers: small states -/

/-- Operands with nothing set. -/
def ops0 : Ops := ⟨.x64, .none, .none, .none, 0, 0, 0, 0⟩
/-- The state after reset with thread 0 holding a value in w1 and a status. -/
def thr (st v : Word) : State := State.reset.setThread 0 { Thread.reset with status := st, regs := tset 0 [] 1 v, started := true }
/-- A firing of slot word 0 of element 0. -/
def fir (w : SlotWord) (tag : Word) (ops : Tbl (Option Token)) : Firing := ⟨0, 0, 0, w, tag, ops⟩
/-- A scalar token for a port of slot word 0 of element 0. -/
def tok (port : Nat) (tag pay : Word) : Token := ⟨tag, 0, .scalar, pay, none, .node 0 0 port, .cand 0, false, 0, 0, []⟩
/-- The state after reset with a firing in focus whose port p0 holds a token and p1 another. -/
def nod (w : SlotWord) (tag p0 p1 : Word) : State :=
  { State.reset with focus := .node (fir w tag [(0, some (tok 0 tag p0)), (1, some (tok 1 tag p1))]) }
/-- Memory with a page table of ASID 0 that maps the first 16 GiB to itself, writable. -/
def mem16 : Mem := { State.reset.mem with mem := [(0x4000, 1), (0x4001, 0x80), (0x8000, 0xB)], asids := [(0, 0x4001)] }

/-! ### WellFormed refuses an ill-formed word for each of its checks (R83) -/

/-- Words that are legal in the fabric, in version 5. -/
def okCopy : Ops := { ops0 with a := .port 0, t0 := 0xE00004 }
def okAdd : Ops := { ops0 with ty := .i32, a := .port 0, b := .port 1, t0 := 0xE00004 }
def okSel : Ops := { ops0 with ty := .i32, a := .port 0, b := .port 1, c := .reg 2, t0 := 0xE00004 }
def okMma : Ops := { ops0 with ty := .tile, a := .port 0, b := .port 1, c := .acc 0, t0 := 0xE00004 }
def okLdr : Ops := { ops0 with ty := .i32, a := .port 0, t0 := 0xE00004 }
def okAgen : Ops := { ops0 with a := .reg 0, t0 := 0xC00000 }
def okXfer : Ops := { ops0 with a := .port 0, b := .port 1, c := .port 2, t0 := 0xC00000, t1 := 0xE00004 }
theorem test_wf_accepts :
    legal 5 .fabric (.copy okCopy) = true ∧ legal 5 .fabric (.add okAdd) = true ∧ legal 5 .fabric (.sel okSel) = true ∧ legal 5 .fabric (.tmma okMma) = true ∧
    legal 5 .fabric (.ldr okLdr) = true ∧ legal 5 .fabric (.agen okAgen) = true ∧ legal 5 .fabric (.xferM2m okXfer) = true ∧
    legal 5 .fabric (.vadd { okAdd with imm := 0x60 }) = true ∧ legal 5 .steward (.call { ops0 with t0 := 0x800001 }) = true ∧
    legal 5 .steward (.ret { ops0 with a := .reg 1 }) = true ∧ legal 5 .steward (.li { ops0 with t0 := 0x800001 }) = true := by decide
/-- Versions of Table 3.16, forms and types. -/
theorem test_wf_versions_forms_types :
    legal 2 .fabric (.copy okCopy) = false ∧ legal 6 .fabric (.copy okCopy) = false ∧ legal 3 .fabric (.copy { okCopy with fl := 0x20 }) = false ∧
    legal 3 .fabric (.keyset { okCopy with b := .lit 1 }) = false ∧ legal 4 .fabric (.copy { okCopy with ty := .view }) = false ∧
    legal 4 .fabric (.viewq { okCopy with ty := .view }) = false ∧ legal 3 .fabric (.vdqnt { okAdd with ty := .f32, c := .reg 0, imm := 0xC00 }) = false ∧
    legal 5 .fabric (.br ops0) = false ∧ legal 5 .steward (.copy okCopy) = false ∧ legal 5 .fabric (.add { okAdd with ty := .f32 }) = false ∧
    legal 5 .fabric (.copy { okCopy with ty := .q8 }) = false ∧ legal 5 .fabric (.threadStart 0) = false := by decide
/-- Operand fields. -/
theorem test_wf_operands :
    legal 5 .fabric (.copy { okCopy with a := .reg 1 }) = false ∧ legal 5 .fabric (.copy { okCopy with b := .reg 1 }) = false ∧
    legal 5 .fabric (.merge { okCopy with b := .lit 1 }) = false ∧ legal 5 .fabric (.add { okAdd with c := .imm }) = false ∧
    legal 5 .fabric (.add { okAdd with a := .port 3 }) = false ∧ legal 5 .fabric (.add { okAdd with a := .acc 1 }) = false ∧
    legal 5 .steward (.add { ops0 with ty := .i32, a := .reg 64, b := .reg 1 }) = false ∧ legal 5 .steward (.add { ops0 with ty := .i32, a := .port 0, b := .reg 1 }) = false ∧
    legal 5 .fabric (.sel { okSel with ty := .pred, c := .lit 2 }) = false ∧ legal 5 .fabric (.sel { okSel with a := .lit 2, b := .port 0 }) = false ∧
    legal 5 .fabric (.li { okCopy with ty := .i32, a := .none }) = false ∧ legal 5 .steward (.ret { ops0 with a := .lit 1 }) = false ∧
    legal 5 .fabric (.vadd { okAdd with a := .reg 1, b := .port 0 }) = false ∧ legal 5 .fabric (.vadd { okAdd with b := .imm }) = false ∧
    legal 5 .fabric (.tmma { okMma with c := .reg 0 }) = false ∧ legal 5 .fabric (.agen { okAgen with b := .port 1 }) = false ∧
    legal 5 .fabric (.bfal { okCopy with a := .reg 1 }) = false ∧ legal 5 .fabric (.ldr { okLdr with imm := 0x80 }) = false ∧
    legal 5 .fabric (.ldr { okLdr with b := .port 1 }) = false ∧ legal 5 .fabric (.thdr { okMma with c := .reg 1 }) = false := by decide
/-- The ports of a word (R71), and the port that a memory node names (R192). -/
theorem test_wf_ports :
    legal 5 .fabric (.add { okAdd with b := .port 0 }) = false ∧ legal 5 .fabric (.add { okAdd with a := .port 2 }) = false ∧
    legal 5 .fabric (.add { okAdd with a := .port 1, b := .reg 0 }) = false ∧ legal 5 .fabric (.ldr { okLdr with a := .reg 1 }) = false := by decide
/-- IMM, by its rules. -/
theorem test_wf_imm :
    legal 5 .fabric (.copy { okCopy with imm := 1 }) = false ∧ legal 5 .fabric (.fadd { okAdd with ty := .f32, imm := 1 }) = false ∧
    legal 5 .fabric (.delay { okCopy with imm := 0 }) = false ∧ legal 5 .fabric (.delay { okCopy with imm := 4097 }) = false ∧
    legal 5 .fabric (.vadd { okAdd with b := .reg 1, imm := 0x40 }) = false ∧ legal 5 .fabric (.vadd { okAdd with imm := 0x100 }) = false ∧
    legal 5 .fabric (.tcvt { okCopy with ty := .tile, imm := 0x700 }) = false ∧ legal 5 .fabric (.fcvt { okCopy with ty := .i32, imm := 1 }) = false ∧
    legal 5 .fabric (.vcvt { okCopy with ty := .i32, imm := 0x300 }) = false ∧ legal 5 .fabric (.vqnt { okSel with ty := .q8, imm := 0x100 }) = false ∧
    legal 5 .fabric (.vdqnt { okSel with ty := .f32, imm := 0x100 }) = false ∧ legal 5 .fabric (.vredSum { okCopy with ty := .i32, imm := 1 }) = false ∧
    legal 5 .fabric (.vmaxi { okAdd with ty := .f32, imm := 2 }) = false ∧ legal 5 .fabric (.tred { okCopy with ty := .tile, imm := 0x3000 }) = false ∧
    legal 5 .fabric (.race { okAdd with ty := .bf16, imm := 0 }) = false ∧ legal 5 .fabric (.ldr { okLdr with imm := 0x100 }) = false ∧
    legal 5 .fabric (.acqld { okLdr with imm := 0 }) = false ∧ legal 5 .fabric (.viewq { okCopy with ty := .view, imm := 1 }) = false ∧
    legal 5 .fabric (.xlat { okCopy with imm := 80 }) = false ∧ legal 5 .fabric (.param { okCopy with imm := 0x280 }) = false ∧
    legal 5 .fabric (.bfwr { okAdd with imm := 0x40 }) = false ∧ legal 5 .fabric (.xferM2m { okXfer with imm := 1 }) = false ∧
    legal 5 .fabric (.weir { okXfer with ty := .f32, imm := 0x180 }) = false ∧ legal 5 .fabric (.coll { okCopy with ty := .tile, t0 := 0xD40000, t1 := 0xE00004, imm := 0xC0 }) = false ∧
    legal 5 .fabric (.lrecv { ops0 with t0 := 0xE00004, imm := 0xC00 }) = false ∧ legal 5 .fabric (.thdr { okAdd with ty := .tile, b := .reg 1, imm := 1 }) = false ∧
    legal 5 .steward (.li { ops0 with ty := .pred, t0 := 0x800001, imm := 2 }) = false ∧ legal 5 .steward (.tlbi { ops0 with a := .reg 1, b := .reg 2, imm := 3 }) = false := by decide
/-- FL: bits 4:0, and the fabric's flags on a steward (R74). -/
theorem test_wf_flags :
    legal 5 .fabric (.copy { okCopy with fl := 1 }) = false ∧ legal 5 .steward (.ret { ops0 with a := .reg 1, fl := 0x800 }) = false ∧
    legal 5 .steward (.ret { ops0 with a := .reg 1, fl := 0x20 }) = false := by decide
/-- T0 and T1, by their rules. -/
theorem test_wf_targets :
    legal 5 .fabric (.copy { okCopy with t0 := 0 }) = false ∧ legal 5 .fabric (.copy { okCopy with t0 := 4 }) = false ∧ legal 5 .fabric (.copy { okCopy with t0 := 0xE00007 }) = false ∧
    legal 5 .fabric (.copy { okCopy with t0 := 0xE00204 }) = false ∧ legal 5 .fabric (.copy { okCopy with t0 := 0xA00010 }) = false ∧
    legal 5 .fabric (.copy { okCopy with t0 := 0xD90000 }) = false ∧ legal 5 .fabric (.add { okAdd with t0 := 0, t1 := 0xE00004 }) = false ∧
    legal 5 .fabric (.nop { ops0 with t0 := 0xE00004 }) = false ∧ legal 5 .fabric (.vadd { okAdd with t0 := 0x808004 }) = false ∧
    legal 5 .fabric (.ttrn { okCopy with ty := .tile, t0 := 0 }) = false ∧ legal 5 .fabric (.ofork okCopy) = false ∧ legal 5 .fabric (.agen { okAgen with t0 := 0xE00004 }) = false ∧
    legal 5 .fabric (.xferM2m { okXfer with t0 := 0xD40000 }) = false ∧ legal 5 .fabric (.xferM2m { okXfer with t1 := 0 }) = false ∧
    legal 5 .fabric (.xferM2b { okXfer with b := .none, c := .port 1, imm := 1, t1 := 0xA00000 }) = false ∧
    legal 5 .fabric (.weir { okXfer with ty := .f32, t1 := 0xE00080 }) = false ∧ legal 5 .fabric (.coll { okCopy with ty := .tile, t1 := 0xE00004 }) = false ∧
    legal 5 .fabric (.lsend okCopy) = false ∧ legal 5 .fabric (.tsend { okCopy with ty := .tile, t0 := 0xA00000 }) = false ∧
    legal 5 .fabric (.bfwr { okAdd with imm := 0x20, t0 := 0xA00000 }) = false ∧ legal 5 .steward (.call ops0) = false ∧
    legal 5 .steward (.call { ops0 with t0 := 0x800040 }) = false ∧ legal 5 .steward (.call { ops0 with t0 := 0x800001, t1 := 0x800001 }) = false ∧
    legal 5 .steward (.waitt { ops0 with a := .reg 1, t0 := 0x80003F }) = false ∧ legal 5 .steward (.ret { ops0 with a := .reg 1, t0 := 0x800001 }) = false := by decide

/-! ### Decoding: for every family a word written out from Tables 3.1 to 3.6 and the family's own table -/

/-- The words that the spec writes out itself (R113, R125, R135, R144, R157, R260, R263). -/
theorem test_decode_spec_words :
    (decode 0x2C07401402FFF8000010000000000000).toOption = some (.crc ⟨.u8, .reg 1, .reg 2, .none, 0x800001, 0, 0, 0⟩) ∧
    (decode 0xEB00FFFFFFFFF0000000000000000005).toOption = some (.trap ⟨.x64, .none, .none, .none, 0, 0, 0, 5⟩) ∧
    (decode 0x0201000001FFF800208E0001C0000000).toOption = some (.steer ⟨.i32, .port 0, .port 1, .none, 0x800208, 0xE0001C, 0, 0⟩) ∧
    (decode 0x0C0A000FFFFFFE0000D0000008000001).toOption = some (.delay ⟨.f32, .port 0, .none, .none, 0xE0000D, 0, 0x800, 1⟩) ∧
    (decode 0x603A00000140CE000280000004C00000).toOption = some (.ffma ⟨.f32, .port 0, .port 1, .reg 12, 0xE00028, 0, 0x4C0, 0⟩) ∧
    (decode 0x1401402403FFF8000040000000000000).toOption = some (.sendt ⟨.i32, .reg 2, .reg 3, .none, 0x800004, 0, 0, 0⟩) ∧
    (decode 0xE900402403FFF8000080000000000001).toOption = some (.fltrd ⟨.x64, .reg 2, .reg 3, .none, 0x800008, 0, 0, 1⟩) ∧
    (decode 0x800A000001FFFE0003C0000000000044).toOption = some (.vadd ⟨.f32, .port 0, .port 1, .none, 0xE0003C, 0, 0, 0x44⟩) := by decide
/-- A word of flow of control in the fabric (Table 4.1). -/
theorem test_decode_tagset : (decode 0x0901000D00FFFE000140000008000007).toOption =
    some (.tagset ⟨.i32, .port 0, .imm, .none, 0xE00014, 0x0, 0x800, 0x7⟩) := by decide
/-- A word of the steward (Table 4.2). -/
theorem test_decode_waitt : (decode 0x1500405FFFFFF80003E0000000000009).toOption =
    some (.waitt ⟨.x64, .reg 5, .none, .none, 0x80003E, 0x0, 0x0, 0x9⟩) := by decide
/-- A word of the steward's memory accesses (R138). -/
theorem test_decode_st : (decode 0xCE15407BFEFFF000000000000000FFF8).toOption =
    some (.st ⟨.i16, .reg 7, .lit 1022, .none, 0x0, 0x0, 0x0, 0xFFF8⟩) := by decide
/-- A word of integers (Table 4.5). -/
theorem test_decode_bfi : (decode 0x281400000192C80820AA000031000000).toOption =
    some (.bfi ⟨.u64, .port 0, .port 1, .lit 300, 0x80820A, 0xA00003, 0x100, 0x0⟩) := by decide
/-- A word of scalar floating point (Table 5.1). -/
theorem test_decode_fcvt : (decode 0x6509000FFFFFFE000090000001C00002).toOption =
    some (.fcvt ⟨.f16, .port 0, .none, .none, 0xE00009, 0x0, 0x1C0, 0x2⟩) := by decide
/-- A word of vectors (Table 5.5). -/
theorem test_decode_vqnt : (decode 0x821C000001002E0003000000002008E3).toOption =
    some (.vqnt ⟨.q4, .port 0, .port 1, .port 2, 0xE00030, 0x0, 0x20, 0x8E3⟩) := by decide
/-- A word of tiles (Table 5.8). -/
theorem test_decode_tmma : (decode 0xA00E000001C09E000100000002000040).toOption =
    some (.tmma ⟨.tile, .port 0, .port 1, .acc 9, 0xE00010, 0x0, 0x200, 0x40⟩) := by decide
/-- A word of addresses and accesses (Table 6.3). -/
theorem test_decode_agen : (decode 0xB000410000FFFCFC0000000000000000).toOption =
    some (.agen ⟨.x64, .reg 16, .port 0, .none, 0xCFC000, 0x0, 0x0, 0x0⟩) := by decide
/-- A word of updates (Table 6.3). -/
theorem test_decode_updCas : (decode 0xB262000001002E000080000000000083).toOption =
    some (.updCas ⟨.u32, .port 0, .port 1, .port 2, 0xE00008, 0x0, 0x0, 0x83⟩) := by decide
/-- A word of buffers (Table 6.6). -/
theorem test_decode_bfwr : (decode 0xB736000001FFFE0000C000000000003F).toOption =
    some (.bfwr ⟨.i8, .port 0, .port 1, .none, 0xE0000C, 0x0, 0x0, 0x3F⟩) := by decide
/-- A word of views (Table 6.8). -/
theorem test_decode_narrow : (decode 0xB82F000403001E000180000000000080).toOption =
    some (.narrow ⟨.view, .port 0, .reg 3, .port 1, 0xE00018, 0x0, 0x0, 0x80⟩) := by decide
/-- A word of copy engines (R228). -/
theorem test_decode_xferB2m : (decode 0xD000000001002D70000E000050000012).toOption =
    some (.xferB2m ⟨.x64, .port 0, .port 1, .port 2, 0xD70000, 0xE00005, 0x0, 0x12⟩) := by decide
/-- A word of the Weir (R232). -/
theorem test_decode_weir : (decode 0xD108000001002C04000E000040000080).toOption =
    some (.weir ⟨.bf16, .port 0, .port 1, .port 2, 0xC04000, 0xE00004, 0x0, 0x80⟩) := by decide
/-- A word of collectives (R234). -/
theorem test_decode_coll : (decode 0xD20E000FFFFFFD40000E000061000142).toOption =
    some (.coll ⟨.tile, .port 0, .none, .none, 0xD40000, 0xE00006, 0x100, 0x142⟩) := by decide
/-- A word of links (R235). -/
theorem test_decode_lrecv : (decode 0xD40EFFFFFFFFFE000110000000000B07).toOption =
    some (.lrecv ⟨.tile, .none, .none, .none, 0xE00011, 0x0, 0x0, 0xB07⟩) := by decide
/-- A word of system instructions (Table 7.1). -/
theorem test_decode_cfgw : (decode 0xE40040140243F80003F0000000000000).toOption =
    some (.cfgw ⟨.x64, .reg 1, .reg 2, .reg 63, 0x80003F, 0x0, 0x0, 0x0⟩) := by decide
/-- Unassigned OPC and FN, and reserved operand specifiers. -/
theorem test_decode_refuses :
    (decode 0xFF00FFFFFFFFF0000000000000000000).toOption = none ∧ (decode 0x202F0000001FFF000000000000000000).toOption = none ∧
    (decode 0x2100004FFFFFF0000000000000000000).toOption = none ∧ (decode 0x2100D01000FFF0000000000000000000).toOption = none := by decide

/-! ### Witnesses: integer and floating-point claims -/

theorem witness_values : State.reset.focus = .thread 0 ∧ (nod 0 0 0 0).focus = .node (fir 0 0 [(0, some (tok 0 0 0)), (1, some (tok 1 0 0))]) := by
  decide
/-- The integer types, as the statements name them. -/
def intTy : Ty → Bool
  | .x64 => true | .i32 => true | .u32 => true | .i64 => true | .u64 => true | .i16 => true | .i8 => true | .u8 => true | _ => false
theorem witness_FieldInstructions : intTy ({ ops0 with ty := .i32 } : Ops).ty = true := by decide
theorem witness_BitCountsAndByteReversal : intTy ({ ops0 with ty := .u8 } : Ops).ty = true := by decide
theorem witness_MaxiRanksPairs : isFp ({ ops0 with ty := .f32 } : Ops).ty = true := by decide
/-- 1, -3/2, 2 ^ 24 and the F16 number 1. -/
theorem witness_FloatFiniteOperands :
    fmtF32.read 0x3F800000 = .fin false (2 ^ 23) (-23) ∧ fmtF32.read 0xBFC00000 = .fin true (3 * 2 ^ 22) (-23) ∧ fmtF32.read 0x4B800000 = .fin false (2 ^ 23) 1 ∧
    fmtF16.read 0x3C00 = .fin false (2 ^ 10) (-10) ∧ (2 ^ (fmtF32.fb + 2) ≤ 2 ^ 25 ∧ 3 < 4 ∧ 2 ^ 23 ≠ 0) ∧ (isFp .f32 = true ∧ fmtOf .f32 = fmtF32 ∧ isFp .f16 = true ∧ Ty.f16 ≠ .f32) ∧
    intTy .i32 = true := by decide
/-- 1 and 2 ^ 13, which are whole, 3/2, which is not, and their logarithms. -/
theorem witness_ExponentialsAndLogarithms :
    fmtF32.read 0x3F800000 = .fin false (2 ^ 23) (-23) ∧ fmtF32.read 0x46000000 = .fin false (2 ^ 23) (-10) ∧ fmtF32.read 0x3FC00000 = .fin false (3 * 2 ^ 22) (-23) ∧
    4096 * 2 ^ 10 ≤ 2 ^ 23 ∧ 3 * 2 ^ 22 ≠ 0 := by decide
theorem witness_LiSelCrcMix : ({ ops0 with ty := .pred, imm := 1 } : Ops).imm = 1 ∧ ({ ops0 with imm := 0 } : Ops).imm = 0 := by decide
/-- FloatSpecialOperands and RoundingIsCorrect: the NaN, infinities, zeros and a negative number of F32. -/
theorem witness_FloatSpecialOperands : (0x7FC00000 / 2 ^ 23 % 256 = 255 ∧ 0x7FC00000 % 2 ^ 23 ≠ 0) ∧ (0xFF800000 / 2 ^ 23 % 256 = 255 ∧
    0xFF800000 % 2 ^ 23 = 0 ∧ 0xFF800000 / 2 ^ 31 % 2 = 1) ∧ (0x80000000 / 2 ^ 23 % 256 = 0 ∧ 0x80000000 % 2 ^ 23 = 0) ∧
    (0xBF800000 / 2 ^ 31 % 2 = 1 ∧ 0xBF800000 / 2 ^ 23 % 256 = 127) := by decide
/-- RoundingIsCorrect: the largest number of F32 plus half a unit overflows under RNE, and one third of it does not. -/
theorem witness_RoundingIsCorrect :
    ((fmtF32.round 0 false false (2 ^ 25 - 1) 103 false).2.getLsbD 2 = true) ∧
    ((fmtF32.round 3 false false 3 0 false).2.getLsbD 2 = false) := by decide

/-! ### Witnesses: traps and steward control -/

theorem witness_TrapEntry : (15 < 16 ∧ 65535 < 65536) ∧ ((thr 0x100 0).thread 0).status.getLsbD 10 = false ∧
    ((thr 0x500 0).thread 0).status.getLsbD 10 = true := by decide
theorem witness_TrapAndReturn : (thr 0x100 0).focus = .thread 0 ∧ ((thr 0x100 0).thread 0).status.getLsbD 8 = true ∧
    ((thr 0x100 0).thread 0).status.getLsbD 10 = false := by decide
theorem witness_SystemInstructionsTrapInUserMode : (thr 0 0).focus = .thread 0 ∧ ((thr 0 0).thread 0).status.getLsbD 8 = false ∧
    ((thr 0 0).thread 0).status.getLsbD 10 = false := by decide
/-- A thread at the end of its image; at a word that does not decode; at a word of the fabric only. -/
def img (n : Nat) (w : SlotWord) : State :=
  { thr 0x100 0 with stew := { (thr 0x100 0).stew with images := tset Image.none [] 0 ⟨5, [(0, w)], n, 0, 0⟩ } }
theorem witness_IllegalWordTraps :
    (((img 0 1).thread 0).started = true ∧ ((img 0 1).thread 0).halted = false ∧ ((img 0 1).thread 0).status.getLsbD 10 = false) ∧
    ((img 0 1).image 0).size ≤ ((img 0 1).thread 0).pc.toNat ∧
    (decode (tget 0 ((img 1 0xFF000000000000000000000000000000).image 0).words 0)).toOption = none ∧
    ((decode (tget 0 ((img 1 0x0201000001FFF800208E0001C0000000).image 0).words 0)).toOption.map fun i => legal 5 .steward i) = some false := by
  decide
theorem witness_BranchesMoveTheCounter : State.reset.focus = .thread 0 ∧ ({ ops0 with a := .reg 1 } : Ops).a = .reg 1 := by decide
theorem witness_HaltStopsTheThread : (State.reset.setThread 0 { Thread.reset with halted := true, started := true }).thread 0 =
    { Thread.reset with halted := true, started := true } := by decide
/-- Partition 0 with core 0, the whole fabric, colours 0 to 3 and ASIDs 0 to 3. -/
def part1 : State := State.reset.setPart 0 { Part.reset with
  desc := pack 512 [(187, 100, 2 ^ 100 - 1), (155, 32, 100), (138, 17, 16), (106, 16, 1), (97, 9, 4), (89, 8, 1), (72, 17, 4), (43, 13, 4), (27, 4, 15),
    (20, 7, 48), (13, 7, 48), (0, 1, 1)] }
theorem witness_ThreadsStart : 0 < 64 ∧ part1.hasPart 0 = true ∧ (part1.thread 0).started = false ∧ part1.imageOk (part1.image 0) = false := by decide
/-- A steward image without words whose header passes the checks of Table 3.15: its digest is the opaque one of its bytes. -/
def hdr0 : BitVec 2048 := pack 2048 [(288, 32, 4), (48, 16, 256), (32, 16, 5), (0, 32, 0x54535744)]
def hdr1 : BitVec 2048 := setFld hdr0 480 512 (Config.sha512 (bvBytes hdr0 256 ++ bvBytes (crc32c []) 4)).toNat
def startable : State := { part1 with mgmt := { part1.mgmt with keystore := [(0, 1 <<< 64)] } }
/-- That a signature verifies is the cryptography's (an opaque constant); with one that does, the image starts a thread. -/
theorem witness_ThreadsStart_image (hv : ∀ k l g, Config.ecdsaVerify k l g = true) :
    startable.hasPart 0 = true ∧ (startable.thread 0).started = false ∧ startable.imageOk ⟨5, [], 0, hdr1, crc32c []⟩ = true := by
  refine ⟨by decide, by decide, ?_⟩
  have hz : setFld (setFld hdr1 480 512 0) 992 1056 0 = hdr0 := by
    apply BitVec.eq_of_getLsbD_eq
    intro i hi
    have : ∀ j, 480 ≤ j → hdr0.getLsbD j = false := by
      intro j hj
      have : hdr0.toNat < 2 ^ 480 := by decide
      exact Nat.testBit_lt_two_pow (Nat.lt_of_lt_of_le this (Nat.pow_le_pow_right (by decide) hj))
    simp only [hdr1, setFld_getLsbD _ _ _ _ _ (show 480 + 512 ≤ 2048 by decide), setFld_getLsbD _ _ _ _ _ (show 992 + 1056 ≤ 2048 by decide)]
    by_cases h1 : 992 ≤ i
    · simp only [h1, this i (by omega)]; simp; omega
    · by_cases h2 : 480 ≤ i
      · simp only [h1, h2, this i h2]; simp; omega
      · simp [h1, h2]
  have off : ∀ lo len, lo + len ≤ 480 → nfld hdr1 lo len = nfld hdr0 lo len := fun lo len h =>
    nfld_setFld_ne _ 480 512 _ lo len (by decide) (.inl h)
  have dig : fld hdr1 480 512 = Config.sha512 (bvBytes hdr0 256 ++ bvBytes (crc32c []) 4) :=
    (fld_eq_of_nfld _ 480 512 _ (nfld_setFld _ 480 512 _ (by decide))).trans (BitVec.ofNat_toNat _ _ |>.trans (BitVec.setWidth_eq _))
  have none' : ((rangeFrom 0 0).map fun i => bvBytes (tget (0 : SlotWord) [] i) 16).flatten = [] := rfl
  unfold State.imageOk
  simp only [none', List.append_nil, decide_true, hz, off _ _ (show 0 + 32 ≤ 480 by decide), off _ _ (show 48 + 16 ≤ 480 by decide), off _ _ (show 32 + 16 ≤ 480 by decide),
    off _ _ (show 288 + 32 ≤ 480 by decide), off _ _ (show 192 + 96 ≤ 480 by decide), off _ _ (show 320 + 32 ≤ 480 by decide),
    off _ _ (show 384 + 32 ≤ 480 by decide), off _ _ (show 416 + 64 ≤ 480 by decide), off _ _ (show 352 + 32 ≤ 480 by decide), dig, hv]
  decide
/-- Descriptors of SENDT in w1: a bit above 54, a proxy in user mode, a proxy below 64, a sender without PX, and the two that are good. -/
theorem witness_SendtOffersOrTraps :
    ((thr 0x100 (2 ^ 55)).opVal .x64 0 (.reg 1)).v.toNat / 2 ^ 55 = 1 ∧
    (((thr 0 (2 ^ 54)).opVal .x64 0 (.reg 1)).v.getLsbD 54 = true ∧ ((thr 0 0).thread 0).status.getLsbD 8 = false) ∧
    (((thr 0x100 (2 ^ 54 + 63 * 2 ^ 46)).opVal .x64 0 (.reg 1)).v.toNat / 2 ^ 46 % 256 = 63) ∧
    (((thr 0x100 (2 ^ 46)).opVal .x64 0 (.reg 1)).v.toNat / 2 ^ 46 % 256 = 1 ∧ ((thr 0x100 (2 ^ 46)).opVal .x64 0 (.reg 1)).v.getLsbD 54 = false) ∧
    (((thr 0x100 (2 ^ 54 + 64 * 2 ^ 46)).opVal .x64 0 (.reg 1)).v.toNat / 2 ^ 46 % 256 = 64 ∧
      ((thr 0x100 (2 ^ 54 + 64 * 2 ^ 46)).opVal .x64 0 (.reg 1)).v.toNat / 2 ^ 55 = 0) ∧
    ((thr 0x100 0).opVal .x64 0 (.reg 1)).v = 0 := by decide
/-- A load of partition 0 in context slot 0 with entry port 0, LOADID 7 and a footprint of element 0, live. -/
def load1 : Load := ⟨0, pack 512 [(448, 64, 7), (352, 32, 16), (320, 32, 4), (304, 16, 1), (288, 16, 1), (272, 16, 1), (264, 8, 1), (256, 8, 1), (236, 4, 5)],
  [0], 0, true⟩
/-- An offer of thread 0, and a state with it, with a binding of sender 0 to colour 0, or without, and with a quota. -/
def offer1 : Offer := ⟨0, 0, 0, 0, 0, 0, 5, some 1, .fresh, 0, .thread⟩
def offered (cut : Cut) (loads : List Load) (bind : Word) (quota : Nat) (ops : List SysOp) : State :=
  let s1 := part1.setPart 0 { part1.part 0 with cut := cut, bind := tset 0 [] 0 bind }
  let s2 := s1.setColour 0 { Colour.reset with quota := quota }
  { s2 with cycle := 1, fab := { s2.fab with offers := [offer1], loads := loads, sysops := ops } }
theorem witness_EntryPortDecides :
    (nth? (offered .parked [] 0 0 []).fab.offers 0 = some offer1 ∧ ((offered .parked [] 0 0 []).part 0).cut ≠ .idle) ∧
    ((offered .idle [] 0 0 []).loadIn 0 0 fun l => bit (dEntrymask l.desc) 0 && l.live) = none ∧
    ((offered .idle [load1] 0 0 []).loadIn 0 0 fun l => bit (dEntrymask l.desc) 0 && l.live) = some load1 ∧
    (offered .idle [load1] 0 0 []).offerTurn offer1 = true ∧ ({ offered .idle [load1] 0 0 [] with cycle := 0 } : State).offerTurn offer1 = false ∧
    (tget 0 ((offered .idle [load1] 0 0 []).part 0).bind 0).getLsbD 12 = false ∧
    (tget 0 ((offered .idle [load1] 4096 0 []).part 0).bind 0).getLsbD 12 = true ∧
    ((offered .idle [load1] 4096 0 [⟨0, 0, .purge 0 0 0 0 0, [], 0, [], none⟩]).fab.sysops.any fun x =>
      match x.kind with | .purge _ col _ _ _ => col == 0 | _ => false) = true ∧
    ((offered .idle [load1] 4096 0 []).colour 0).quota ≤ ((offered .idle [load1] 4096 0 []).colour 0).inflt ∧
    ((offered .idle [load1] 4096 1 []).colour 0).inflt < ((offered .idle [load1] 4096 1 []).colour 0).quota := by decide
/-- An offer ahead of O's window, in a load with a round source, and one of a path that brings a load back. -/
def roundsAhead : State :=
  let s := offered .idle [load1] 4096 1 []
  let iter : SlotWord := (encode (.iter { ops0 with a := .port 0, t0 := 0xE00004, t1 := 0xE00008, fl := 0x200 })).getD 0
  (s.setCtx 0 0 { Ctx.reset with active := true, words := [(0, some iter)] }).setColLoad ⟨0, 7, 0, some 0, false, 0⟩
theorem witness_EntryPortDecides_ahead :
    roundsAhead.hasRounds load1 = true ∧ (roundsAhead.colLoad 0 7).first.isSome = true ∧
    roundsAhead.window 0 (some load1) ≤ age (roundsAhead.oldest 0 7) (tagIter (mkTag 0 0 0 0 4)) ∧
    (match ({ offer1 with who := .path 7 } : Offer).who with | .path _ => true | _ => false) = true := by decide
/-- WAITT: a bad descriptor, a proxy in user mode, an event to take, none to take, and a token at exit port 0, clean and poisoned. -/
def waits (sb : BitVec 8) (ev : List Event) : State :=
  let s1 := (thr 0x100 0).setPart 0 { Part.reset with bind := tset 0 [] 0 4096, events := ev }
  { s1 with fab := { s1.fab with tokens := [⟨0, sb, .scalar, 9, none, .exit 0, .exitq, false, 0, 7, []⟩] } }
theorem witness_WaittTakesWaitsOrTraps :
    ((thr 0x100 65536).focus = .thread 0 ∧ (thr 0x100 65536).stew.waiters = [] ∧ ((thr 0x100 65536).opVal .x64 0 (.reg 1)).v.toNat / 65536 = 1) ∧
    (((thr 0 128).opVal .x64 0 (.reg 1)).v.getLsbD 7 = true ∧ ((thr 0 128).thread 0).status.getLsbD 8 = false) ∧
    (((thr 0x100 64).opVal .x64 0 (.reg 1)).v.getLsbD 6 = true ∧ ((waits 0 [5]).part 0).events = [5] ∧ ((waits 0 [5]).part 0).held = []) ∧
    ((waits 0 []).exitToken ⟨0, false, 0, 0, some 0⟩ 0 = some 0 ∧ (nth? (waits 0 []).fab.tokens 0).isSome = true ∧ sbPZ 0 = false ∧ sbPZ 0x20 = true ∧
      (tget 0 ((waits 0x20 []).part 0).bind 0).getLsbD 12 = true) ∧
    (((waits 0 []).part 0).events = [] ∧ ((waits 0 []).thread 0).stall = .none) := by decide
/-- WAITT.x64 w1 -> w2 in the image of a thread whose limit of cycle 0 has passed. -/
def limitWord : SlotWord := (encode (.waitt { ops0 with a := .reg 1, t0 := 0x800002, imm := 1 })).getD 0
def limited : State :=
  let s := img 1 limitWord
  s.setThread 0 { s.thread 0 with regs := [(1, 64)], stall := .waitt (some 0) }
theorem witness_WaittLimitPasses : (limited.thread 0).stall = .waitt (some 0) ∧ 0 ≤ limited.cycle ∧
    (decode (tget 0 (limited.image 0).words 0)).toOption = some (.waitt { ops0 with a := .reg 1, t0 := 0x800002, imm := 1 }) ∧
    ((limited.thread 0).reg 1).getLsbD 6 = true ∧ (limited.part 0).events = [] := by decide
/-- LD and ST: a bit above 56, a window at an odd address, a misaligned address, an address that is not mapped, a covered page, a
poisoned line, and an address that is mapped for reading and writing. -/
def covered : Mem := { State.reset.mem with
  mem := [(0x4000, 1), (0x4001, 0x80), (0x8000, 1), (0x8001, 1), (0x8002, 1), (0x10100, 1), (0x10102, 2), (0x20000, 1), (0x20002, 3), (0x30000, 0x2B)], asids := [(0, 0x4001)] }
theorem witness_LoadStoreTraps :
    windowOf (0x1FF * 2 ^ 48 + 1) ≠ .none ∧ windowOf 0x1FE000000000000 ≠ .none ∧ windowOf 3 = .none ∧ 3 % 4 ≠ 0 ∧
    (thr 0x100 0).walkPlain 0 8 false = .fail 1 ∧
    (match ({ State.reset with mem := { mem16 with poison := [0] } }).walkPlain 0 8 false with | .ok x => x.cv | _ => true) = false ∧
    ({ mem16 with poison := [0] } : Mem).bad 8 8 = true ∧
    (match ({ State.reset with mem := covered }).walkPlain 0 8 false with | .ok x => x.cv | _ => false) = true := by decide
theorem witness_LoadStoreEffects :
    ({ State.reset with mem := mem16 }).walkPlain 0 8 false = .ok ⟨0, 0, 34, 0, true, false, false, false⟩ ∧
    ({ State.reset with mem := mem16 }).walkPlain 0 8 true = .ok ⟨0, 0, 34, 0, true, false, false, true⟩ ∧ mem16.bad 8 8 = false ∧
    windowOf 8 = .none := by decide

/-! ### Witnesses: system instructions -/

/-- Thread 0 of partition 0 in supervisor mode, with w1, w2 and w3. -/
def sup (a b c : Word) : State := part1.setThread 0 { Thread.reset with started := true, regs := [(1, a), (2, b), (3, c)] }
/-- A register of thread 0 read as an operand. -/
def reg (s : State) (n : BitVec 10) : Word := (s.opVal .x64 0 (.reg n)).v
theorem witness_super : (sup 0 0 0).focus = .thread 0 ∧ ((sup 0 0 0).thread 0).status.getLsbD 8 = true ∧
    ((sup 0 0 0).thread 0).status.getLsbD 10 = false ∧ (sup 0 0 0).partOfThread 0 = 0 := by decide
theorem witness_SystemOperandChecks :
    (reg (sup 4096 0 0) 1).toNat / 4096 ≠ 0 ∧ (reg (sup 65536 0 0) 1).toNat / 65536 ≠ 0 ∧ (reg (sup 4096 0 0) 1).toNat / 4096 % 16 ≠ 0 ∧
    (reg (sup 4 0 0) 1).toNat / 4 ≠ 0 ∧ (reg (sup 0 16 0) 2).toNat / 16 ≠ 0 ∧ 8388608 < (reg (sup 0 8388609 0) 2).toNat ∧
    ((reg (sup 0 1 0) 2).toNat ≠ 0 ∧ (reg (sup 0 1023 0) 2).toNat < 1024) ∧ 2 ^ 32 ≤ (reg (sup 0 (2 ^ 32) 0) 2).toNat ∧
    selOk (reg (sup 48 0 0) 1) = false ∧ 160 ≤ (reg (sup (160 * 2 ^ 24) 0 0) 1).toNat / 2 ^ 24 % 256 ∧
    (colIn ((sup 4 0 0).part 0).desc 4 = false ∧ (reg (sup 4 1 0) 1).toNat / 4096 = 0) ∧
    bit (pCtxmask (pack 512 [(27, 4, 7)])) 3 = false ∧
    (selOk (reg (sup 47 0 0) 1) = true ∧ inRect (pack 512 [(20, 7, 1), (13, 7, 1)] : BitVec 512) 47 = false) := by decide
theorem witness_TowpathOperationsStart :
    (colIn ((sup 3 0 0).part 0).desc 3 = true ∧ (sup 3 0 0).colBusy 0 3 = false ∧ (reg (sup 3 0 0) 1).toNat / 4096 = 0) ∧
    (reg (sup 0xF003 0 0) 1).toNat / 65536 = 0 ∧ (reg (sup 0xFFFFFFFFFFFF0003 0 0) 1).toNat / 4096 % 16 = 0 ∧
    ((reg (sup 3 15 0) 1).toNat / 4 = 0 ∧ (reg (sup 3 15 0) 2).toNat / 16 = 0 ∧ bit (pCtxmask ((sup 3 15 0).part 0).desc) 3 = true ∧
      (sup 3 15 0).ctxBusy 0 3 = false) := by decide
theorem witness_ColourSettings :
    (colIn ((sup 3 0 0).part 0).desc 3 = true ∧ (sup 3 0 0).colBusy 0 3 = false ∧ (reg (sup 3 0 0) 1).toNat / 4096 = 0) ∧
    ((reg (sup 3 (2 ^ 32) 0) 2).toNat / 2 ^ 32 = 1 ∧ (reg (sup 3 (2048 * 2 ^ 32) 0) 2).toNat / 2 ^ 32 = 2048 ∧ (2048 * 2 ^ 32) / 2 ^ 44 = 0) ∧
    ((reg (sup 3 1 0) 2).toNat = 1 ∧ (reg (sup 3 8388608 0) 2).toNat ≤ 8388608) ∧ ((reg (sup 3 1024 0) 2).toNat = 1024 ∧ 2 ^ 32 - 1 < 2 ^ 32) ∧
    (colsetOk 0 0 = true ∧ colsetOk 1 16 = true ∧ colsetOk 6 15 = true ∧ keyIn ((sup 0 0 0).part 0).desc 4 = true ∧ asidIn ((sup 0 0 0).part 0).desc 3 = true) ∧
    (0 < ({ Colour.reset with quota := 1 } : Colour).quota ∧ (sup 3 0 0).colLive 3 = false ∧
      ((sup 3 0 0).setColour 3 { Colour.reset with inflt := 1 }).colLive 3 = true) := by decide
theorem witness_ConfigurationWords :
    (selOk (reg (sup 0x302F2F 0 0) 1) = false ∧ selOk (reg (sup 0x032F2F 0 0) 1) = true ∧ inRect ((sup 0 0 0).part 0).desc 2303 = true ∧
      bit (pCtxmask ((sup 0 0 0).part 0).desc) 3 = true ∧ (sup 0 0 0).elemBusy 0 2303 = false) ∧
    (((sup 0 0 0).ctx 2303 3).active = false ∧ (sup 0 0 0).partwOk 2303 3 0x20000 = true ∧ (sup 0 0 0).partwOk 2303 3 (-1) = false) ∧
    (((sup 0 0 0).setCtx 2303 3 { Ctx.reset with active := true }).ctx 2303 3).active = true ∧ (159 < 160 ∧ (128 ≤ 159 → reg (sup 0 0 0) 3 = 0)) := by decide
/-- `load1` with no entry ports. -/
def load0 : Load := { load1 with desc := setFld load1.desc 288 16 0 }
/-- A state whose memory holds the descriptor of `load0` at virtual address 0; element 0 has received a CFGW. -/
def raising (touched active : Bool) : State :=
  let s := sup 0 0 0
  let m := ((List.range 64).map fun i => (i, (load0.desc >>> (8 * i)).setWidth 8)).filter fun x => x.2 != 0
  let s1 := s.setCtx 0 0 { Ctx.reset with touched := touched, active := active }
  { s1 with mem := { mem16 with mem := m ++ mem16.mem } }
/-- RAISE and DROP find the descriptor, which is in range, and nothing in their way. -/
theorem witness_RaiseChecksOrStarts :
    (match (raising true false).sysRead 0 0 64 with | .ok bs => BitVec.ofNat 512 (ofBytes bs) == load0.desc | .error _ => false) = true ∧
    (load0.desc.getLsbD 197 = false ∧ descOk load0.desc = true ∧ footIn (part1.part 0).desc load0.desc = true ∧
      bit (pCtxmask (part1.part 0).desc) (dCtx load0.desc) = true) := by decide
theorem witness_RaiseFinds :
    (raising true false).footOf load0.desc = [0] ∧ (raising true false).footBarred (part1.part 0).desc load0.desc [0] = false ∧
    (raising true false).ctxBusy 0 0 = false ∧ (raising true false).elemBusy 0 0 = false ∧
    (raising true false).raiseFails load0.desc [0] = none ∧ ((raising true true).raiseFails load0.desc [0]).isSome = true := by decide
theorem witness_RaiseRefusesEmptyOrActive : ((raising true true).ctx 0 (dCtx load0.desc)).active = true := by decide
theorem witness_DropRefusesOrEmpties :
    (raising true false).dropWaits [0] 0 [7] = false ∧ (raising true false).dropRefused [0] 0 [7] = false ∧
    ({ raising true true with fab := { (raising true true).fab with tokens := [⟨0, 0, .scalar, 9, none, .node 0 0 0, .cand 0, false, 0, 7, []⟩] } }).dropRefused
      [0] 0 [7] = true := by decide
theorem witness_UnparkAnswers :
    ((reg (sup 3 7 0) 2).toNat / 8 = 0 ∧ (reg (sup 3 7 0) 2).getLsbD 2 = true ∧ bit (pCtxmask ((sup 3 7 0).part 0).desc) 3 = true) ∧
    ((sup 3 7 0).parkedHomes 3 0 0).any (fun h => (sup 3 7 0).ctxBusy 0 h.2.1) = false ∧
    (sup 3 7 0).unparkStatus 0 3 0 0 none = 0 ∧
    ({ sup 3 7 0 with fab := { (sup 3 7 0).fab with tokens := [⟨mkTag 3 0 0 0 0, 0, .scalar, 9, none, .node 0 0 0, .cand 0, true, 0, 7, []⟩] } }).unparkStatus
      0 3 0 0 none ≠ 0 := by decide
theorem witness_TlbiAndGenret :
    ((sup 0 0 0).ctxBusy 0 0 = false ∧ asidIn ((sup 0 0 0).part 0).desc 3 = true ∧ (reg (sup 3 0 0) 1).toNat < 65536 ∧ 2 < 3) ∧
    (({ sup 0 0 0 with fab := { (sup 0 0 0).fab with loads := [load1] } }).loadIn 0 0 fun _ => true) = some load1 ∧
    ({ sup 0 0 0 with fab := { (sup 0 0 0).fab with loads := [load1] } }).carries 0 load1 1 = false ∧
    ({ sup 0 0 0 with fab := { (sup 0 0 0).fab with loads := [load1], tokens := [⟨mkTag 0 0 1 0 0, 0, .scalar, 9, none, .node 0 0 0, .cand 0, false, 0, 7, []⟩] } }).carries
      0 load1 1 = true := by decide
theorem witness_QuiesceAndResume :
    ((sup 0 0 0).part 0).cut = .idle ∧ (sup 0 0 0).fab.sysops.any (fun q => q.part == 0) = false ∧ (((sup 0 0 0).setPart 0 { (sup 0 0 0).part 0 with cut := .quiesced }).part 0).cut = .quiesced ∧
    ((reg (sup 64 (2 ^ 63) 0) 1).toNat % 64 = 0 ∧ (reg (sup 0 0 0) 1).toNat = 0 ∧ (reg (sup 0 0 0) 2).toNat = 0) := by decide
theorem witness_FltrdReadsAndReleases : (reg (sup 63 7 0) 1).toNat < 64 ∧ (reg (sup 63 7 0) 2).toNat < 8 := by decide
theorem witness_ControlRegisters :
    (asidIn ((sup 3 0 0).part 0).desc (reg (sup 3 0 0) 1).toNat = true ∧ asidIn ((sup 4 0 0).part 0).desc (reg (sup 4 0 0) 1).toNat = false) ∧
    ((reg (sup 400 0 0) 1).toNat ≤ 400 ∧ 400 < (reg (sup 401 0 0) 1).toNat) ∧
    ((reg (sup 256 0 0) 1).toNat / 256 % 2 ^ 24 ≠ 0 ∧ (reg (sup 0xB0 0 0) 1).toNat / 16 % 16 ≤ 11 ∧ (reg (sup 1 0 0) 1).toNat % 16 < 0x302 - 0x300 ∧
      (reg (sup 2 0 0) 1).toNat % 16 = 2) := by decide

/-! ### Witnesses: flow nodes -/

/-- COPY.x64 p0 -> the same element, slot word 1, port 0; and a state whose firing of it has a token at p0 and one at p1. -/
def copyOps : Ops := { ops0 with a := .port 0, t0 := 0xE00004 }
def copyWord : SlotWord := (encode (.copy copyOps)).getD 0
theorem witness_IterBeginsAStream : (nod 0 0 5 6).focus = .node (fir 0 0 [(0, some (tok 0 0 5)), (1, some (tok 1 0 6))]) ∧
    (fir 0 0 [(0, some (tok 0 0 5)), (1, some (tok 1 0 6))]).tok 0 = some (tok 0 0 5) := by decide
theorem witness_FlowNodesPassTokens : (nod copyWord 0 5 6).focus = .node (fir copyWord 0 [(0, some (tok 0 0 5)), (1, some (tok 1 0 6))]) ∧
    (fir copyWord 0 [(0, some (tok 0 0 5)), (1, some (tok 1 0 6))]).tok 0 = some (tok 0 0 5) ∧
    (fir copyWord 0 [(0, some (tok 0 0 5)), (1, some (tok 1 0 6))]).tok 1 = some (tok 1 0 6) ∧
    (fir copyWord 0 [(1, some (tok 1 0 6))]).tok 0 = none ∧ (fir copyWord 0 [(1, some (tok 1 0 6))]).tok 1 = some (tok 1 0 6) := by decide
theorem witness_RoutingOperands : ({ copyOps with b := .port 1 } : Ops).b = .port 1 ∧ ({ copyOps with b := .lit 0x200 } : Ops).b = .lit 0x200 ∧
    ({ copyOps with b := .reg 1023 } : Ops).b = .reg 1023 := by decide
/-- DELAY and TAGSET: with O unset the window of a colour outside a load is its own; iteration 3 lies inside a window of 4, and 4 does not. -/
def windowed : State := (nod copyWord 0 5 6).setColour 0 { Colour.reset with window := 4 }
theorem witness_DelayAndTagsetKeepTheWindow :
    age (windowed.oldest 0 0) 3 < windowed.window 0 (windowed.loadAt 0 0) ∧ ¬ age (windowed.oldest 0 0) 4 < windowed.window 0 (windowed.loadAt 0 0) ∧
    windowed.purgedAt 0 0 = false ∧ windowed.roundOf 0 (windowed.loadidAt 0 0) 0 = none ∧ sbNL 0x40 = true ∧ sbPZ 0x20 = true := by decide
/-- JOINN: no count held, and one of 1 held, with n = 1, 2 and 3. -/
def joined : State := { nod copyWord 0 5 6 with fab := { (nod copyWord 0 5 6).fab with joins := [⟨0, 0, 0, 1, 7, 0, [], 0, false, 0⟩] } }
theorem witness_JoinnCountsAndSums :
    lfind (fun j : Join => j.e == 0 && j.slot == 0 && tagEq j.tag 0) (nod copyWord 0 5 6).fab.joins = none ∧
    lfind (fun j : Join => j.e == 0 && j.slot == 0 && tagEq j.tag 0) joined.fab.joins = some ⟨0, 0, 0, 1, 7, 0, [], 0, false, 0⟩ ∧
    (1 < 2 ∧ 1 + 1 < 3 ∧ 2 ≤ 1 + 1 ∧ 1 ≤ 1) := by decide
/-- BAR: NEXT is O at first; a token of iteration O is NEXT, one of O + 1 is held, and with NEXT at 1 one of 0 is older. -/
theorem witness_BarOrdersIterations :
    (nod copyWord 0 5 6).barNext 0 0 0 0 = 0 ∧ tagIter (mkTag 0 0 0 0 1) = 1 ∧
    (age ((nod copyWord 0 5 6).oldest 0 0) 0 ≤ age ((nod copyWord 0 5 6).oldest 0 0) 1) ∧
    ({ nod copyWord 0 5 6 with fab := { (nod copyWord 0 5 6).fab with bars := [⟨0, 0, 0, 0, 1⟩] } }).barNext 0 0 0 0 = 1 ∧ age 0 0 < age 0 1 ∧
    (nod copyWord 0 5 6).fab.tokens = [] := by decide
/-- EMIT: space for an event; 224 events held; and a firing that waits. -/
def emitting (n : Nat) : State :=
  let s := { part1 with focus := (nod copyWord 0 5 6).focus, fab := { part1.fab with tokens := [{ tok 0 0 5 with place := .emitWait }] } }
  s.setPart 0 { s.part 0 with events := List.replicate n 0 }
theorem witness_EmitWritesAnEventOrWaits :
    (decide (((emitting 223).part 0).events.length < 224) && ((emitting 223).part 0).held.isEmpty) = true ∧
    (decide (((emitting 224).part 0).events.length < 224) && ((emitting 224).part 0).held.isEmpty) = false ∧
    (emitting 0).partOfElem 0 = some 0 ∧
    findIdx? (fun t : Token => t.place == .emitWait && !t.parked && (match t.dst with | .node g _ _ => g == 0 | _ => false)) (emitting 0).fab.tokens 0 = some 0 := by
  decide

/-! ### Witnesses: the element's cycle -/

/-- Element 0 of `part1` with an active context slot 0 of priority 1 that holds COPY at 0, and tokens. -/
def elemWith (w : SlotWord) (l : List Token) : State :=
  let s := part1.setElem 0 { Elem.reset with ctxs := [(0, { Ctx.reset with active := true, prio := 1, words := [(0, some w)] })] }
  let s1 := s.setColour 0 { Colour.reset with basinlen := 10, window := 4, quota := 4 }
  { s1 with fab := { s1.fab with tokens := l, loads := [load1] } }
/-- A token of element 0 at a place. -/
def tokAt (p : Place) : Token := { tok 0 0 5 with place := p, load := 7 }
theorem witness_MeshDeliversTokens :
    nth? (elemWith copyWord [tokAt (.mesh 0 0)]).fab.tokens 0 = some (tokAt (.mesh 0 0)) ∧ (tokAt (.mesh 0 0)).elem = some 0 ∧
    (elemWith copyWord [tokAt (.mesh 0 0)]).spillCount 0 < 16 ∧ (elemWith copyWord [tokAt (.mesh 0 0)]).purgedAt 0 0 = false ∧ (tokAt (.mesh 0 0)).isRef = false ∧
    ({ tokAt (.mesh 0 0) with kind := .ref } : Token).isRef = true ∧
    ({ elemWith copyWord [tokAt (.mesh 0 0)] with fab := { (elemWith copyWord [tokAt (.mesh 0 0)]).fab with
      sysops := [⟨0, 0, .purge 0 0 0 0 0, [], 0, [], none⟩] } }).purgedAt 0 0 = true ∧
    ((elemWith copyWord [tokAt (.mesh 0 0)]).fab.tokens.take 0).any (fun u : Token => u.goesWith (tokAt (.mesh 0 0)) 0) = false ∧
    (elemWith copyWord []).parkedFor 0 7 = false ∧
    ({ elemWith copyWord [] with fab := { (elemWith copyWord []).fab with parks := [⟨0, 0, 0, 0, none, []⟩] } } : State).parkedFor 0 7 = true := by decide
theorem witness_MatchingTakesTokens :
    nextInput 0 0 [tokAt (.input 0)] 0 none = some (0, 0, tokAt (.input 0)) ∧ nth? (elemWith copyWord [tokAt (.input 0)]).fab.tokens 0 = some (tokAt (.input 0)) ∧
    (elemWith copyWord [tokAt (.input 0)]).purgedAt 0 0 = false ∧ (elemWith copyWord [tokAt (.input 0)]).nodeWord 0 0 0 = some copyWord ∧
    (elemWith copyWord [tokAt (.input 0)]).nodeWord 0 0 1 = none ∧ (elemWith copyWord [tokAt (.input 0)]).parkedFor 0 7 = false ∧
    ({ elemWith copyWord [tokAt (.input 0)] with fab := { (elemWith copyWord []).fab with parks := [⟨0, 0, 0, 0, none, []⟩] } } : State).parkedFor 0 7 = true ∧
    ((rowOf copyWord).map fun g => (g.opc, portKind g 0, (elemWith copyWord [tokAt (.input 0)]).matchPlace 0 g (tokAt (.input 0)))) =
      some (1, some .scalar, some (.cand 1)) ∧
    ((rowOf copyWord).map fun g => decide (portKind g 0 ≠ some .tile)) = some true ∧ (rowOf ((encode (.nop ops0)).getD 0)).map Sig.opc = some 0 ∧
    (rowOf ((encode (.entry { ops0 with ty := .i32, t0 := 0xE00004 })).getD 0)).map Sig.opc = some 0x0D := by decide
/-- ADD of p0 and p1: its first token takes an entry. -/
def addWord : SlotWord := (encode (.add { ops0 with a := .port 0, b := .port 1, t0 := 0xE00004 })).getD 0
theorem witness_NewEntriesKeepCapAndWays :
    ((rowOf addWord).map fun g => (elemWith addWord [tokAt (.input 0)]).matchPlace 0 g (tokAt (.input 0))) = some (some (.entry 1)) := by decide
theorem witness_SelectionOrder :
    ((elemWith copyWord [tokAt (.cand 0)]).choose 0 ((elemWith copyWord [tokAt (.cand 0)]).cands 0)).isSome = true ∧
    ((elemWith copyWord [tokAt (.cand 0)]).cands 0).all (fun y => decide (((elemWith copyWord [tokAt (.cand 0)]).ctx 0 y.ctx).prio ≤ 15)) = true := by decide
/-- An ITER stream of two indexes at slot word 0. -/
def iterWord : SlotWord := (encode (.iter { ops0 with a := .port 0, t0 := 0xE00004, t1 := 0xE00008 })).getD 0
def streaming (k : Nat) : State :=
  let s0 := elemWith iterWord []
  let s := s0.setElem 0 { s0.elem 0 with credits := [(0, ⟨5, 0⟩)] }
  { s with fab := { s.fab with streams := [⟨0, 0, 0, 0, 2, k, false, 7, false, [], 0⟩] } }
/-- What the element's choice falls on. -/
def chosen (s : State) : Option Pick := let r := s.readyFirings 0; (r.2.choose 0 r.1).map fun y => y.pick
/-- The colour may take no entry; the spill queue has places. -/
def capless : State := (elemWith copyWord [tokAt (.cand 0)]).setColour 0 { Colour.reset with cap := 0 }
theorem witness_ElementIssuesOneFiring :
    (elemWith copyWord [tokAt (.cand 0)]).canIssue 0 = true ∧ (match chosen (elemWith copyWord [tokAt (.cand 0)]) with | some (.fire _ _) => true | _ => false) = true ∧
    (match chosen (streaming 0) with | some (.issue _) => true | _ => false) = true ∧ chosen (elemWith copyWord []) = none ∧
    (({ Elem.reset with halted := true } : Elem).halted = true ∧ 0 < ({ Elem.reset with issued := 1 } : Elem).issued) ∧
    (tokAt (.cand 0)).place = .cand 0 ∧ tokAt (.cand 0) ∈ (elemWith copyWord [tokAt (.cand 0)]).fab.tokens ∧
    (elemWith copyWord [tokAt (.cand 0)]).roomFor 0 (tokAt (.cand 0)) = true ∧ capless.roomFor 0 (tokAt (.cand 0)) = false ∧ capless.spillCount 0 < 16 := by decide
theorem witness_IterIssuesIndexes :
    (streaming 1).canIssue 0 = true ∧ (streaming 1).slotWord 0 0 0 = some iterWord ∧ 1 < 2 ∧ 2 ≤ 2 ∧
    chosen (streaming 1) = some (.issue ⟨0, 0, 0, 0, 2, 1, false, 7, false, [], 0⟩) ∧ chosen (streaming 2) = some (.issue ⟨0, 0, 0, 0, 2, 2, false, 7, false, [], 0⟩) := by decide
theorem witness_UnitsSendTheirResults :
    firstUnit 0 [⟨0, 0, 0, 0, 0, 0, none, [⟨0xE00004, 0, .scalar, 5, none, 0, []⟩], none, [], []⟩] =
      some ⟨0, 0, 0, 0, 0, 0, none, [⟨0xE00004, 0, .scalar, 5, none, 0, []⟩], none, [], []⟩ ∧
    fabTarget 0xE00004 = some (.here 1 0) ∧ fabTarget 0xE001FE = some (.here 127 2) := by decide
theorem witness_ExitQueuesHoldCap :
    (⟨0, 0, .scalar, 5, none, .exit 0, .exitIn 0 0, false, 0, 7, []⟩ : Token).place = .exitIn 0 0 ∧ 0 < ((elemWith copyWord []).colour 0).cap ∧
    ¬ 0 < ({ Colour.reset with cap := 0 } : Colour).cap := by decide
/-- A token that reaches exit port 0 in cycle 1, or that an UNPARK sends there, in a state of that cycle. -/
def exiting (due : Nat) : Token := ⟨0, 0, .scalar, 5, none, .exit 0, .exitIn due 0, false, 0, 7, []⟩
def exits (cap : Nat) (due : Nat) : State := { ((elemWith copyWord [exiting due]).setColour 0 { Colour.reset with cap := cap, basinlen := 4 }) with cycle := 1, mem := mem16 }
theorem witness_ExitQueuesHoldCap_clauses :
    nth? (exits 1 1).fab.tokens 0 = some (exiting 1) ∧ 0 < 1 ∧ 1 ≤ (exits 1 1).cycle ∧ (exits 1 2).cycle < 2 ∧
    ((exits 1 1).fab.tokens.take 0).any (fun _ => true) = false ∧ ((exits 1 1).fab.tokens.drop 1).any (fun _ => true) = false ∧
    ((exits 1 1).fab.tokens.filter fun u => u.place == .exitq).length < ((exits 1 1).colour 0).cap ∧ (exits 1 1).fab.tokens.any (fun u => u.inBasin) = false ∧
    (match ((exits 0 1).setTokens [{ exiting 1 with place := .basin 0 }]).basinStore 0 0 (exiting 1).basinEntry with | .ok _ => true | .error _ => false) = true ∧
    (match ({ (exits 0 1).setTokens [{ exiting 1 with place := .basin 0 }] with mem := State.reset.mem } : State).basinStore 0 0 (exiting 1).basinEntry with
      | .ok _ => false | .error _ => true) = true ∧
    ((exits 1 0).exitRoom ((exits 1 0).exitDie (exiting 0)) 0 = true ∧ nth? (exits 1 0).fab.tokens 0 = some (exiting 0)) := by decide
/-- A tile packet of one FP32 element for buffer 0, slot 0, and a state whose buffer 0 has one line. -/
def pkt1 : TilePkt := ⟨hdrAddr (mkHdr 0 0 1 0 0 0 0 0 0) 0 0 0 0, 0, List.replicate 64 0⟩
def tilesAt (p : TilePkt) : State :=
  let s := elemWith copyWord [{ tokAt (.input 0) with kind := .tile, pkt := some p }]
  s.setCtx 0 0 { s.ctx 0 0 with bufs := [(0, some ⟨0, 1, 1, 0, false, 0, [Slot.empty]⟩)] }
theorem witness_TilePacketsLand :
    findIdx? (fun t : Token => t.kind == .tile && t.elem == some 0 && (match t.place with | .input due => decide (due ≤ 0) | _ => false))
      (tilesAt pkt1).fab.tokens 0 = some 0 ∧
    (tileOk pkt1 = true ∧ sbDead (hSb pkt1.hdr) = false ∧ ((tilesAt pkt1).buf 0 0 0).isSome = true ∧ hDslot pkt1.hdr < 1 ∧ hBeats pkt1.hdr ≤ 1) ∧
    (tileOk ⟨hdrAddr (mkHdr 0 0 0 0 0 0 0 0 0) 0 0x40 0 0, 0, []⟩ = true ∧ sbDead (hSb (hdrAddr (mkHdr 0 0 0 0 0 0 0 0 0) 0 0x40 0 0)) = true) ∧
    tileOk ⟨hdrAddr (mkHdr 0 0 2 0 0 0 0 0 0) 0 0 0 0, 0, []⟩ = false ∧
    nth? (tilesAt pkt1).fab.tokens 0 = some { tokAt (.input 0) with kind := .tile, pkt := some pkt1 } ∧ (tilesAt pkt1).purgedAt 0 0 = false ∧
    ((tilesAt pkt1).buf 0 0 1 = none ∧ hDslot (hdrAddr (mkHdr 0 0 1 0 0 0 0 0 0) 0 0 0 1) = 1) := by decide
/-- Basins: a spilled token, and a parked one in an entry, whose colour's basin is mapped. -/
def basins (l : List Token) : State :=
  let s := elemWith addWord l
  { s with mem := mem16 }
theorem witness_BasinsTakeAndReturnTokens :
    nextFrom (tget 0 (basins [tokAt .spill]).fab.spillTurn 0) 2304 ((basins [tokAt .spill]).spillers 0) = some 0 ∧ dieOf 0 = 0 ∧
    (basins [tokAt .spill]).basinCol 0 = 0 ∧ (basins [tokAt (.basin 0), { tok 1 0 5 with place := .basin 1, load := 7 }]).basinFails
      [tokAt (.basin 0), { tok 1 0 5 with place := .basin 1, load := 7 }] = none ∧
    oldestOf ((basins [tokAt .spill]).fab.tokens.filter fun t => t.place == .spill && t.elem == some 0) = some (tokAt .spill) ∧
    (match (basins [tokAt .spill]).basinStore 0 0 (tokAt .spill).basinEntry with | .ok _ => true | .error _ => false) = true ∧
    ((basins [tokAt (.basin 0), { tok 1 0 5 with place := .basin 1, load := 7 }]).bundleOf 0 0).isSome = true ∧
    ((basins [tokAt (.entry 0), { tok 1 0 5 with place := .basin 1, load := 7 }]).probe 0 0).isSome = true ∧
    (basins [tokAt (.basin 0)]).refill 0 0 = some (tokAt (.basin 0)) ∧
    (basins [{ tokAt (.basin 0) with dst := .exit 0 }]).refill (2304 + (basins []).exitDie { tokAt (.basin 0) with dst := .exit 0 }) 0 =
      some { tokAt (.basin 0) with dst := .exit 0 } ∧
    (basins [tokAt (.basin 0)]).roomFor 0 (tokAt (.basin 0)) = true := by decide
theorem witness_BasinsTakeAndReturnTokens_parked :
    ({ tokAt .exitq with dst := .exit 0, parked := true } : Token).place = .exitq ∧ ({ tokAt (.entry 0) with parked := true } : Token).parked = true ∧
    (match (basins [{ tokAt (.basin 0) with dst := .exit 0, parked := true }]).basinStore 0 0 ({ tokAt .exitq with dst := .exit 0, parked := true } : Token).basinEntry with
      | .ok _ => true | .error _ => false) = true := by decide
theorem witness_CreditKeepsBasinlen :
    (lfind (fun a : Ask => a.col == 0) [⟨0, 0, 10⟩] = some ⟨0, 0, 10⟩ ∧ (((elemWith copyWord []).elem 0).credits.filter fun y => y.2.units != 0).length < 32 ∧
      0 + 10 ≤ ((elemWith copyWord []).colour 0).basinlen ∧ ((elemWith copyWord []).colour 0).basinlen < 0 + 11) ∧
    (0 < (tget (⟨0, 0⟩ : Credit) ((streaming 0).elem 0).credits 0).units ∧ 1024 ≤ 1024 - 0 ∧ (elemWith copyWord []).holds 0 0 = 0) := by decide
theorem witness_SentinelReportsOnce :
    (elemWith copyWord [tokAt .spill]).holdsAny 0 0 = true ∧ ((elemWith copyWord []).elem 0).halted = false ∧
    ((elemWith copyWord []).colour 0).sentlim ≠ 0 ∧ 65536 ≤ 65536 - 0 ∧ ((elemWith copyWord []).colour 0).sentlim = 65536 := by decide
theorem witness_TowpathMessagesArrive :
    nth? [(⟨0, 0, .prio 1 2, [0, 1], 0, [], none⟩ : SysOp)] 0 = some ⟨0, 0, .prio 1 2, [0, 1], 0, [], none⟩ ∧ 0 ∈ [0, 1] ∧
    [0, 1].filter (fun f => f != 0) = [1] ∧ [0].filter (fun f => f != 0) = [] := by decide

/-! ### Witnesses: vectors and tiles -/

/-- A full slot of one line, buffers 0 (two lines a slot, slot 0 full) and 1 (slot 0 empty, its write index), and a firing whose ports p0
and p1 refer to slot 0 of buffer 0, with a colour window. -/
def full (e : Bool) : Slot := { Slot.empty with full := true, data := true, lines := 1, exp := e, hdr := mkHdr 0 0 1 0 0 0 0 0 0 }
def bufs (e : Bool) : Tbl (Option Buf) := [(0, some ⟨0, 2, 2, 0, false, 0, [full e, Slot.empty]⟩), (1, some ⟨4, 2, 2, 0, false, 0, [Slot.empty, Slot.empty]⟩)]
def refTok (port n : Nat) (sb : BitVec 8) : Token := { tok port 0 (mkRef 0 0 n) with kind := .ref, sb := sb }
def vecFir (n : Nat) (sb : BitVec 8) : Firing := fir 0 0 [(0, some (refTok 0 n sb)), (1, some (refTok 1 n 0))]
def vec (e : Bool) (n : Nat) (sb : BitVec 8) : State :=
  { State.reset.setCtx 0 0 { Ctx.reset with active := true, bufs := bufs e } with focus := .node (vecFir n sb) }
/-- VADD.i32 p0, p1 -> b1. -/
def vecOps : Ops := { ops0 with ty := .i32, a := .port 0, b := .port 1, imm := 1, t0 := 0xE00004 }
def vecArg (s : State) : Arg := s.arg (vecFir 1 0) .i32 (.port 0) false
theorem witness_OperandSlotsAreChecked :
    (vecArg (vec false 1 0)).ref = some (0, 0) ∧ ((vec false 1 0).buf 0 0 2 = none ∧ ((vec false 1 0).buf 0 0 0).isSome = true) ∧
    (full true).full = true ∧ (full true).exp = true ∧ (full false).exp = false ∧ Slot.empty.full = false ∧
    (((vec false 3 0).arg (vecFir 3 0) .i32 (.port 0) false).lines = 3 ∧ 2 < 3 ∧ (vecArg (vec false 1 0)).lines ≤ 2) ∧
    ((vec true 1 0).argsFault (vecFir 1 0) ((vec true 1 0).vargs (vecFir 1 0) vecOps .i32 .i32 .i32)).isSome = true ∧
    ((vec false 1 0x40).argsFault (vecFir 1 0x40) ((vec false 1 0x40).vargs (vecFir 1 0x40) vecOps .i32 .i32 .i32) = none ∧
      sbDead (argsSb ((vec false 1 0x40).vargs (vecFir 1 0x40) vecOps .i32 .i32 .i32)) = true) ∧
    sbDead (argsSb ((vec false 1 0).vargs (vecFir 1 0) vecOps .i32 .i32 .i32)) = false := by decide
/-- A firing of VADD whose destination slot is full. -/
def vaddFir : Firing := fir ((encode (.vadd vecOps)).getD 0) 0 [(0, some (refTok 0 1 0)), (1, some (refTok 1 1 0))]
def vecFull : State := State.reset.setCtx 0 0 { Ctx.reset with active := true, bufs := tset none (bufs false) 1 (some ⟨4, 2, 2, 0, false, 0, [full false, Slot.empty]⟩) }
theorem witness_OperandSlotsAreChecked_destination :
    (decode vaddFir.word).toOption = some (.vadd vecOps) ∧ ((sig (.vadd vecOps)).map fun g => ({ vecFull with focus := .node vaddFir } : State).deadOperand vaddFir g) = some false ∧
    vecFull.buf 0 0 1 = some ⟨4, 2, 2, 0, false, 0, [full false, Slot.empty]⟩ ∧ (full false).full = true := by decide
theorem witness_VectorLanes :
    (vec false 1 0).focus = .node (vecFir 1 0) ∧
    (vec false 1 0).argsFault (vecFir 1 0) ((vec false 1 0).vargs (vecFir 1 0) vecOps .i32 .i32 .i32) = none ∧
    ((vecArg (vec false 1 0)).lanes .i32 ((vecArg (vec false 1 0)).count .i32)).isSome = true ∧ (vecArg (vec false 1 0)).count .i32 = 16 ∧
    (vec false 1 0).buf 0 0 1 = some ⟨4, 2, 2, 0, false, 0, [Slot.empty, Slot.empty]⟩ ∧ ([Slot.empty, Slot.empty].map Slot.full) = [false, false] := by
  decide
/-- The scalar operands of VQNT, VBCAST and the like are literals; the exact value 3 is quantised with a scale of 2. -/
theorem witness_VectorQuantScanPermute :
    (fmtF16.read 0x4000 = .fin false 1024 (-9)) ∧ ((vec false 1 0).opVal .u32 0 (.lit 2)).v.toNat % 2 ^ 32 = 2 ∧ 0 < 2 ∧ 2 ≤ 2 ∧
    (vecArg (vec false 1 0)).ref.isSome = true ∧ ((vec false 1 0).arg (vecFir 1 0) .u32 (.port 1) false).ref.isSome = true := by decide
theorem witness_VectorReductions :
    isFp .f32 = true ∧ isFp .i32 = false ∧ ((vecArg (vec false 1 0)).lanes .i32 16).isSome = true ∧ ((vecArg (vec false 1 0)).lanes .i32 16) ≠ some [] ∧
    (1 ≤ 32 ∧ 32 ≤ 64 ∧ 32 ≤ ((vec false 1 0).arg (vecFir 1 0) .bf16 (.port 0) false).lines * 32 ∧ 8 ≤ 8) := by decide
/-- The header of buffer 0's slot names a shape of 1 x 1 and a format, and the accumulator bank is 2 banks long. -/
def tileCtx (h : BitVec 256) (a : Acc) : State :=
  let sl : Slot := { full false with hdr := h, hv := true }
  let bs : Tbl (Option Buf) := [(0, some ⟨0, 2, 2, 0, false, 0, [sl, Slot.empty]⟩), (1, some ⟨4, 2, 2, 0, false, 0, [Slot.empty, Slot.empty]⟩)]
  let c : Ctx := { Ctx.reset with active := true, partwd := 0x20000, accs := tset Acc.reset [] 0 a, bufs := bs }
  { State.reset.setCtx 0 0 c with focus := .node (vecFir 1 0) }
def tileArg (s : State) : Arg := s.arg (vecFir 1 0) .tile (.port 0) false
def tcOps : Ops := { ops0 with ty := .tile, a := .port 0, b := .port 1, c := .acc 0, imm := 1, t0 := 0xE00004 }
/-- The accumulator of tag 0 with KC 0. -/
def accMine : Acc := { Acc.reset with owner := some 0 }
theorem witness_TileResults :
    ((tileArg (tileCtx (mkHdr 0 0 1 0 0 0 0 0 0) Acc.reset)).slot.hv = true ∧
      hFmt (tileArg (tileCtx (mkHdr 0 0 1 0 0 0 0 0 0) Acc.reset)).slot.hdr = 0 ∧ hNrow (tileArg (tileCtx (mkHdr 0 0 1 0 0 0 0 0 0) Acc.reset)).slot.hdr = 0) ∧
    ((tileArg (tileCtx (mkHdr 0 0 1 0 0 0 0 0 5) Acc.reset)).slot.hdr = mkHdr 0 0 1 0 0 0 0 0 5 ∧ hFmt (mkHdr 0 0 1 0 0 0 0 0 5) = 5) ∧
    ({ tcOps with imm := 0x4501 } : Ops).imm.getLsbD 14 = true ∧ ({ tcOps with imm := 0x4501 } : Ops).imm.toNat / 256 % 16 = 5 := by decide
/-- THDR: a good word for one FP32 element (0), and a word with the group of a quantised format missing. -/
theorem witness_ThdrWritesAHeader :
    ((tileArg (tileCtx 0 Acc.reset)).ref = some (0, 0) ∧ 0 < 2 ∧ fmtBeats 0 0 0 ≤ (tileArg (tileCtx 0 Acc.reset)).lines) ∧
    (3 * 2 ^ 42 / 2 ^ 42 % 16 = 3 ∧ 3 * 2 ^ 42 / 2 ^ 46 % 4 = 0) ∧
    (((tileCtx 0 Acc.reset).arg (vecFir 2 0) .tile (.port 1) false).lines = 2 ∧ 2 ≤ 2) := by decide
theorem witness_TsendSendsTiles :
    (tileArg (tileCtx 0 Acc.reset)).slot.hv = true ∧ (tileArg (vec false 1 0)).slot.hv = false ∧
    (tileCtx 0 Acc.reset).argsFault (vecFir 1 0) [tileArg (tileCtx 0 Acc.reset)] = none ∧
    sbDead ((vec false 1 0x20).arg (vecFir 1 0x20) .tile (.port 0) false).sb = true := by decide
theorem witness_AccumulatorsClearAndAdd :
    (accExists ((tileCtx 0 accMine).ctx 0 0).partwd (accOf tcOps) = true ∧ partwdOk ((tileCtx 0 accMine).ctx 0 0).partwd = true) ∧
    ((tileCtx 0 accMine).acc 0 0 0).gleft = 0 ∧ ((tileCtx 0 Acc.reset).acc 0 0 0).owner = none ∧ ((tileCtx 0 accMine).acc 0 0 0).owner = some 0 ∧
    ((tileCtx 0 { accMine with owner := some 64 }).acc 0 0 0).owner = some 64 ∧ tagEq 64 0 = false ∧
    (tileCtx 0 accMine).matrixRoom 0 = true ∧ ((tileCtx 0 accMine).opVal .x64 0 (.port 0)).sb < 0x80#8 ∧ ((tileCtx 0 accMine).acc 0 0 0).mode = .unset ∧
    ((tileCtx 0 accMine).acc 0 0 0).shape = none := by decide
/-- The matrix queue has no room. -/
def matrixFull : State :=
  let s := tileCtx 0 accMine
  { s with fab := { s.fab with units := List.replicate 8 ⟨0, 0, 0, 0, 100, 2, some 0, [], none, [], []⟩ } }
/-- Formats of the products: INT8 (6), FP32 (0) and Q8 (3) with a group; the shapes of one element fit, and those of two columns do not. -/
theorem witness_ProductsAccumulate :
    matrixFull.matrixRoom 0 = false ∧ ((tileCtx 0 accMine).acc 0 0 0).ownedBy 0 = true ∧ ((tileCtx 0 Acc.reset).acc 0 0 0).ownedBy 64 = false ∧
    hTcol (mkHdr 0 0 1 0 0 0 0 0 6) = 0 ∧ hTcol (mkHdr 1 0 1 0 0 0 0 0 6) ≠ ((tileCtx 0 accMine).acc 0 0 0).kc ∧ hFmt (mkHdr 0 0 1 0 0 0 0 0 6) = 6 ∧ hNcol (mkHdr 0 0 1 1 0 0 0 0 6) = 1 ∧ hNrow (mkHdr 0 0 1 1 0 0 0 0 6) = 0 ∧
    (hFmt (mkHdr 0 0 1 0 0 0 1 2 3) = 3 ∧ hGrp (mkHdr 0 0 1 0 0 0 1 2 3) = 2 ∧ hRax (mkHdr 0 0 1 0 0 1 1 2 3) = 1 ∧ 0 % groupTiles 2 = 0) := by decide
theorem witness_GroupsClose :
    ({ accMine with gleft := 1, shape := some (1, 1) } : Acc).gleft ≠ 0 ∧ (List.replicate 32 (List.replicate 32 (0 : Nat))).length = 32 ∧
    (List.replicate 32 (List.replicate 32 (0 : Nat))).all (fun r => r.length == 32) = true := by decide
theorem witness_TdrainWritesTheTile :
    ((tileCtx 0 { accMine with shape := some (32, 32), mode := .float }).acc 0 0 0).ownedBy 0 = true ∧
    (tileCtx 0 accMine).matrixBusy 0 0 0 = false ∧ matrixFull.matrixBusy 0 0 0 = true ∧
    ((tileCtx 0 { accMine with shape := some (32, 32), mode := .float }).acc 0 0 0).shape = some (32, 32) ∧
    (tileCtx 0 accMine).buf 0 0 1 = some ⟨4, 2, 2, 0, false, 0, [Slot.empty, Slot.empty]⟩ ∧
    (match (tileCtx 0 accMine).buf 0 0 0 with | some b => (b.slot b.widx).full | none => false) = true := by decide

/-! ### Witnesses: memory access and rounds -/

/-- A random record of 16 doublewords at address 0, an AGEN of k0 for port 0 in slot word 1, and an XLAT in slot word 2. -/
def shape1 : Shape := pack 384 [(64, 2, 3), (69, 1, 1), (70, 7, 2), (128, 32, 16), (160, 32, 8)]
def agenW : SlotWord := (encode (.agen { ops0 with a := .reg 0, t0 := 0xC00000 })).getD 0
def xlatW : SlotWord := (encode (.xlat { ops0 with a := .port 0, t0 := 0xE00004 })).getD 0
def ldrOps (t : Ty) : Ops := { ops0 with ty := t, a := .port 0, imm := 1, t0 := 0xE00004 }
def ldrW : SlotWord := (encode (.ldr (ldrOps .x64))).getD 0
def round1 (st : RState) : Round := ⟨0, 7, 0, 0, 4, st, false, [0], [], [], (0, 0), false, 0, [(0, 1024)], [], 0⟩
def acc1 (k : AKind) (null : Bool) : Access :=
  ⟨0, k, 0, 0, 0, 0, ldrW, 0, 0, 0, 5, 0, none, [], 1, some ⟨0, 0, 34, 0, true, false, false, false⟩, none, 0, null, false, [], 0, 7⟩
/-- Element 0 with these words, its registers holding `shape1` or not, accesses, rounds, stores and AGEN copies. -/
def mems (good poison : Bool) (as : List Access) (rs : List Round) (sts : List Store) (gs : List Agen) : State :=
  let pool := ((List.range 48).map fun i => (i, (shape1 >>> (8 * i)).setWidth 8)).filter fun x => good && x.2 != 0
  let words : Tbl (Option SlotWord) := [(0, some ldrW), (1, some agenW), (2, some xlatW)]
  let c : Ctx := { Ctx.reset with active := true, partwd := 0x100, words := words }
  let s := part1.setElem 0 { Elem.reset with ctxs := [(0, c)], pool := pool, poison := if poison then [0] else [] }
  let s1 : State := { s with mem := mem16, focus := .node (fir ldrW 0 [(0, some (tok 0 0 5)), (1, some (tok 1 0 5))]) }
  { s1 with fab := { s1.fab with rounds := rs, loads := [load1] }, port := { s1.port with accesses := as, stores := sts, agens := gs } }
def hit1 : Xent := ⟨0, 0, 34, 0, true, false, false, false⟩
def agen1 : Agen := ⟨0, 0, 1, 0, shape1, [], some (0, 0), none, 0, []⟩
theorem witness_WorkingCopies :
    (mems true false [] [] [] [agen1]).agenOf 0 0 1 0 = some agen1 ∧ (mems true false [] [] [] []).agenOf 0 0 1 0 = none ∧
    poolPoisoned ((mems true true [] [] [] []).elem 0) 0 48 = true ∧ poolPoisoned ((mems true false [] [] [] []).elem 0) 0 48 = false ∧
    (mems true false [] [] [] []).shapeOk 0 0 agenW 0 = false ∧
    (wOpc agenW = 0xB0 ∧ (mems true false [] [] [] []).shapeOk 0 0 agenW shape1 = true ∧ (mems true false [] [] [] []).nodesOk 0 0 1 shape1 = true ∧
      BitVec.ofNat 384 (ofBytes (mgetN ((mems true false [] [] [] []).elem 0).pool (regByte 0x100 0) 48)) = shape1) := by decide
/-- AGEN and PARAM: a copy is taken, or not, and a new extent of 0 breaks the rules of a record. -/
theorem witness_AgenAndParam :
    (match (mems true false [] [] [] []).takeCopy (fir ldrW 0 []) 1 0 with | .ok _ => true | .error _ => false) = true ∧
    (match (mems false false [] [] [] []).takeCopy (fir ldrW 0 []) 1 0 with | .ok _ => false | .error _ => true) = true ∧
    (mems true false [] [] [] []).shapeOk 0 0 agenW (setFld shape1 128 32 5) = true ∧
    (mems true false [] [] [] []).shapeOk 0 0 agenW (setFld shape1 128 32 0) = false ∧ sbPZ 0x20 = true ∧ sbDead 0 = false := by decide
theorem witness_AccessNodesReachTheirPort :
    (mems true false [] [] [] [agen1]).focus = .node (fir ldrW 0 [(0, some (tok 0 0 5)), (1, some (tok 1 0 5))]) ∧
    ((mems true false [] [] [] [agen1]).agenOf 0 0 1 0).map Agen.region = some (some (0, 0)) ∧ (mems true false [] [] [] []).agenOf 0 0 1 0 = none ∧
    AKind.sts.stores = true ∧ AKind.ldr.stores = false ∧ sbPZ 0x20 = true ∧ sbDead 0 = false := by decide
/-- Stream addresses: two digits below their extents, and a position beyond the shape; random ones; every space. -/
def shape2 : Shape := pack 384 [(64, 2, 3), (66, 2, 1), (128, 32, 4), (160, 32, 8), (192, 32, 3), (224, 32, 64)]
theorem witness_AccessAddressesAndChecks :
    (shCls shape2 = false ∧ shNdim shape2 = 2 ∧ shE shape2 0 = 4 ∧ shE shape2 1 = 3 ∧ ([3, 2] : List Nat).length = 2 ∧ (0 + age 0 11) % 2 ^ 32 = 3 + 4 * 2) ∧
    4 * 3 ≤ (0 + age 0 12) % 2 ^ 32 ∧ (shCls shape1 = true ∧ shE shape1 0 ≤ 16 ∧ ¬ shE shape1 0 ≤ 15) ∧
    4 % shEsz shape1 ≠ 0 ∧ 8 % shEsz shape1 = 0 ∧ spaceOf 93 = .config ∧ spaceOf 80 = .peer ∧ spaceOf 79 = .global ∧ spaceOf 92 = .host ∧
    2 ^ 57 - 8 < 2 ^ 57 ∧ tget 0 mem16.peerFail 5 = 0 ∧ tget 0 ({ mem16 with peerFail := [(5, 2)] } : Mem).peerFail 5 = 2 ∧
    windowOf 0x1FF000000000000 ≠ .none ∧ windowOf 8 = .none := by decide
theorem witness_PortTakes :
    (mems true false [acc1 .ldr false] [round1 .opened] [] [agen1]).accessOpen (acc1 .ldr false) = true ∧
    (acc1 .ldr false).at_ < 100 ∧ (acc1 .ldr false).held = false ∧ (acc1 .ldr true).null = true := by decide
/-- LoadsDeliver and StoresEnterTheRound: the checks of an access that passes; a datum that is clean and one that is poisoned; with a round, and
behind O; a store buffer with room; an update whose line is held and one whose line is free. -/
theorem witness_LoadsDeliver :
    ((mems true false [acc1 .ldr false] [round1 .opened] [] [agen1]).afterEngine (acc1 .ldr false)).2 = acc1 .ldr false ∧
    (match accessAddr shape1 (some (0, 0)) 0 0 with | .ok n => n == 0 | .error _ => false) = true ∧
    (match (mems true false [acc1 .ldr false] [round1 .opened] [] [agen1]).spaceStep agen1 shape1 0 0 0 0 0 false (acc1 .ldr false).frame with
      | .ok _ pa _ _ => pa == 0 | _ => false) = true ∧
    ((mems true false [] [] [] []).readDatum [] 0 0 0 8).2.2 = false ∧
    (({ mems true false [] [] [] [] with mem := { mem16 with poison := [0] } } : State).readDatum [] 0 0 0 8).2.2 = true ∧
    (mems true false [acc1 .ldr false] [round1 .opened] [] [agen1]).aheadFor (acc1 .ldr false) = none ∧
    (mems true false [acc1 .ldr false] [round1 .opened] [] [agen1]).agenOf 0 0 1 0 = some agen1 := by decide
/-- A check of a store that fails, by its page and by alignment. -/
theorem witness_AccessAddressesAndChecks_fails :
    (match (mems true false [] [] [] [agen1]).spaceStep agen1 shape1 0 0 0 0 0 true (some ⟨0, 0, 34, 0, false, false, false, false⟩) with | .denied n _ => n == 0 | _ => false) = true ∧
    (match (mems true false [] [] [] [agen1]).spaceStep agen1 shape1 0 0 0 4 4 true none with | .bad c a => c == 11 && a == 4 | _ => false) = true ∧
    hit1.hits 0 5 = true := by decide
theorem witness_StoresEnterTheRound :
    ((mems true false [acc1 .str false] [round1 .opened] [] [agen1]).roundOf 0 7 0).isSome = true ∧
    ((mems true false [acc1 .str false] [] [] [agen1]).roundOf 0 7 0) = none ∧
    (match (mems true false [acc1 .str false] [round1 .opened] [] [agen1]).entryFor 0 (round1 .opened) 0 false with | some m => decide (m < 1024) | none => false) = true ∧
    (mems true false [acc1 (.upd 0) false] [round1 .opened] [] [agen1]).lineHeld (acc1 (.upd 0) false) 0 = false := by decide
theorem witness_UpdateValues : wTy ldrW = .x64 ∧ wTy ((encode (.updCas (ldrOps .u32))).getD 0) = .u32 ∧ 2 ^ 32 - 1 < 2 ^ tyBits .u32 ∧
    nfld ((encode (.updCas (ldrOps .u32))).getD 0) 116 4 = 6 := by decide
theorem witness_ChainAndXlat :
    ({ Elem.reset with xlat := [hit1] } : Elem).lookup 0 5 false = some hit1 ∧ Elem.reset.lookup 0 5 false = none ∧ sbDead 0x40 = true ∧
    (match (mems true false [] [] [] []).walkPort 0 0 5 false with | (.ok _, _) => true | _ => false) = true ∧
    (match (mems true false [] [] [] []).walkPort 0 1 5 false with | (.fail _, _) => true | _ => false) = true := by decide
theorem witness_PageWalksReadTheirEntries :
    (tget 0 State.reset.mem.asids 0).getLsbD 0 = false ∧ (tget 0 mem16.asids 0).getLsbD 0 = true ∧ isMemory 0x6000000000 = false ∧ isMemory 0x4000 = true ∧
    ({ mem16 with poison := [0x200] } : Mem).bad 0x8000 8 = true ∧ mem16.bad 0x4000 8 = false ∧ entryBad 5 0 = true ∧ entryBad 0x8001 0 = false ∧
    (0xB : Word).getLsbD 1 = true ∧ entryBad 0xB 1 = false ∧ (0x3 : Word).getLsbD 3 = false ∧ (0x8001 : Word).getLsbD 1 = false := by decide
/-- Read-ahead: a stream record of four doublewords whose AGEN serves an LDS. -/
def shape3 : Shape := pack 384 [(64, 2, 3), (70, 7, 2), (128, 32, 4), (160, 32, 8)]
def agen3 : Agen := ⟨0, 0, 1, 0, shape3, [], some (0, 0), none, 0, []⟩
def aheads : State :=
  let s0 := mems true false [] [round1 .opened] [] [agen3]
  let s := s0.setElem 0 { s0.elem 0 with xlat := [hit1] }
  s.setCtx 0 0 { s.ctx 0 0 with words := tset none (s.ctx 0 0).words 0 (encode (.lds (ldrOps .x64))) }
theorem witness_ReadAheadKeepsDatums :
    aheads.roundOf 0 (aheads.loadidAt 0 0) 0 = some (round1 .opened) ∧ (shCls shape3 = false ∧ agen3.got.contains agen3.ra = false ∧ shVw shape3 = false ∧ aheads.hasLds agen3 = true) ∧
    (match accessAddr shape3 (some (0, 0)) 0 0 with | .ok n => n == 0 | .error _ => false) = true ∧
    (match aheads.spaceStep agen3 shape3 0 0 0 0 0 false none with | .ok _ _ _ _ => true | _ => false) = true ∧
    (aheads.readDatum [] 0 0 0 8).2.2 = false := by decide

/-- Rounds: a stream that may open one, the reports, the oldest complete round, and a prepared one with a store, of RELST or not. -/
def store1 (rel marked : Bool) : Store :=
  ⟨0, 0, 0, 0, 7, 0, 0, 0, 0, some hit1, 0, [1, 2], 0, rel, marked, false, false, none, 0, 0, 0, 1, 0, 0, none, [], false, false⟩
def opens (cut : Cut) (rs : List Round) : State :=
  let s := mems true false [] rs [] []
  let s1 := s.setColour 0 { Colour.reset with window := 16 }
  let s2 := s1.setPart 0 { s1.part 0 with cut := cut }
  { s2 with fab := { s2.fab with streams := [⟨0, 0, 0, 0, 8, 0, true, 7, false, [], 0⟩] } }
theorem witness_RoundsOpen :
    (opens .idle []).mayOpen ⟨0, 0, 0, 0, 8, 0, true, 7, false, [], 0⟩ load1 = true ∧ (opens .parked []).mayOpen ⟨0, 0, 0, 0, 8, 0, true, 7, false, [], 0⟩ load1 = false ∧
    (opens .idle []).loadAt 0 0 = some load1 ∧ (opens .idle []).earlier load1 = [] ∧
    lfind (fun l : Load => dCtx l.desc == 0 && l.part == (opens .idle []).partOfCol 0) (opens .idle []).fab.loads = some load1 := by decide
/-- An earlier load of the graph, whose passage holds ports 0 and the controllers. -/
def load2 : Load := { load1 with order := 1, foot := [1] }
def passing : State :=
  let s := opens .idle []
  { s with fab := { s.fab with loads := [load1, load2], passages := [(0, 1, [0, 200])] } }
theorem witness_RoundsOpen_passages :
    load1 ∈ passing.fab.loads ∧ load1.part = load2.part ∧ dGraphid load1.desc = dGraphid load2.desc ∧ load1.order < load2.order ∧ passing.earlier load2 ≠ [] ∧
    nth? passing.fab.passages 0 = some (0, 1, [0, 200]) ∧ lfind (fun l : Load => l.order == 1) passing.fab.loads = some load2 ∧
    passing.passes (passing.earlier load2) 0 0 = true ∧
    ({ passing with fab := { passing.fab with rounds := [round1 .opened] } } : State).passes (passing.earlier load2) 0 0 = false := by decide
theorem witness_RoundsCompleteAndPrepare :
    nth? (mems true false [] [round1 .opened] [] []).fab.rounds 0 = some (round1 .opened) ∧ (mems true false [] [round1 .opened] [] []).roundLoad (round1 .opened) = some load1 ∧
    0 ∈ (round1 .opened).ports ∧ 0 ∉ (round1 .opened).done ∧ (mems true false [] [round1 .complete] [] []).isOldest (round1 .complete) = true ∧
    (mems true false [] [round1 .complete] [store1 false true] []).voiding (round1 .complete) = false ∧
    (mems true false [] [round1 .complete, { round1 .opened with rbase := 16777212 }] [] []).isOldest (round1 .complete) = false ∧
    ([store1 false true].filter fun st => st.of (round1 .complete)) = [store1 false true] ∧
    (match (mems true false [] [] [] []).retranslate { store1 false true with frame := none } with | .error n => n == 1 | .ok _ => false) = true ∧
    ({ round1 .opened with restored := true } : Round).restored = true ∧ (mems true false [] [] [] []).roundLeft (round1 .opened) = false ∧
    (mems true false [acc1 .ldr false] [] [] []).roundLeft (round1 .opened) = true := by decide
theorem witness_RoundsCommit :
    nth? (mems true false [] [round1 .prepared] [store1 false false] []).roundPorts 0 = some (0, 0, round1 .prepared) ∧
    (mems true false [] [round1 .prepared] [store1 false false] []).voiding (round1 .prepared) = false ∧ spaceOf (store1 true false).port ≠ .config ∧
    (store1 true false).release = true ∧ (round1 .phase1).state = .phase1 ∧ 0 ∉ (round1 .prepared).acked ∧ 0 ∈ ({ round1 .phase1 with acked := [0] } : Round).acked ∧
    (∀ q ∈ (mems true false [] [] [] []).releaseScope { round1 .phase1 with acked := [0] } (store1 true false), q ∈ [0]) ∧
    ¬ (∀ q ∈ (mems true false [] [] [] []).releaseScope (round1 .phase1) (store1 true false), q ∈ (round1 .phase1).acked) ∧
    (mems true false [] [] [] []).peerRefuses (store1 true false) = none ∧
    ({ mems true false [] [] [] [] with mem := { mem16 with peerFail := [(0, 6)] } } : State).peerRefuses { store1 false false with port := 80 } = some 6 := by decide
/-- Faults: one of an uncommitted round that is not yet done, one that is, an empty ring and a full one, and a fault that joins another. -/
def pend (done : Bool) : PendFault := ⟨0, pack 512 [(320, 64, 7), (272, 24, 0), (296, 24, 2)], 0, some 0, done, false⟩
theorem witness_FaultsVoidAndRecord :
    (tokAt (.cand 0)).inBasin = false ∧ (tokAt (.cand 0)).place.onWay = false ∧ (pend false).round = some 0 ∧ (pend false).done = false ∧ (pend true).done = true ∧ tget none (part1.part 0).ring 0 = none ∧
    ((List.range 64).all fun i => (tget none ((List.range 64).map fun i => (i, some (0 : BitVec 512))) i).isSome) = true ∧
    (mems true false [] [round1 .opened] [] []).purgedAt 0 0 = false ∧
    (mems true false [] [round1 .opened] [] []).roundOf 0 ((mems true false [] [round1 .opened] [] []).loadidAt 0 0) 0 = some (round1 .opened) := by decide
theorem witness_HeldUpdatesGoOn :
    ({ acc1 (.upd 0) false with held := true } : Access).held = true ∧ (store1 false false).marked = false ∧
    ({ mems true false [] [round1 .opened] [{ store1 false false with replay := true, upd := some (5, ldrW) }] [] with
      port := { (mems true false [] [] [] []).port with stores := [{ store1 false false with replay := true, upd := some (5, ldrW) }] } } : State).replayLeft =
      [{ store1 false false with replay := true, upd := some (5, ldrW) }] ∧
    (mems true false [{ acc1 (.upd 0) false with held := true }] [round1 .opened] [] []).accessOpen { acc1 (.upd 0) false with held := true } = true ∧
    (match (mems true false [] [] [] []).entryFor 0 (round1 .opened) 0 false with | some n => decide (n < 1024) | none => false) = true := by decide
/-- With no free line of its own and 512 overflow lines, a port has no entry for a RELST. -/
theorem witness_HeldUpdatesGoOn_full :
    (mems true false [] [] ((List.range 512).map fun i => { store1 true false with entry := 1024 + i }) []).entryFor 0 { round1 .opened with room := [(0, 0)] } 0 true = none := by
  have keep : ∀ l : List Nat, ((l.map fun i => { store1 true false with entry := 1024 + i }).filter fun st => st.of { round1 .opened with room := [(0, 0)] } && st.port == 0 && !st.replay)
      = l.map fun i => { store1 true false with entry := 1024 + i } := fun l => by
    rw [List.filter_eq_self]; intro a h; obtain ⟨i, -, rfl⟩ := List.mem_map.mp h; rfl
  have spilt : ∀ l : List Nat, ((l.map fun i => { store1 true false with entry := 1024 + i }).filter fun st => !st.null && (decide (1024 ≤ st.entry)) == true).map (fun st => st.entry)
      = l.map fun i => 1024 + i := fun l => by
    rw [List.filter_eq_self.mpr (fun a h => by obtain ⟨i, -, rfl⟩ := List.mem_map.mp h; simp [store1]), List.map_map]; rfl
  have apart : ∀ l : List Nat, l.Nodup → l.eraseDups = l := by
    intro l
    induction l with
    | nil => intro _; rfl
    | cons a l ih =>
      intro h
      have hs := List.nodup_cons.mp h
      rw [List.eraseDups_cons, List.filter_eq_self.mpr (fun b hb => by simp; rintro rfl; exact hs.1 hb), ih hs.2]
  have many : ((List.range 512).map fun i => 1024 + i).eraseDups.length = 512 := by
    rw [apart _ (List.Pairwise.map _ (fun a b (h : a ≠ b) => show 1024 + a ≠ 1024 + b by omega) List.nodup_range), List.length_map, List.length_range]
  unfold State.entryFor
  simp only [mems, keep, entriesIn, spilt, many]
  simp [tget]

/-! ### Witnesses: buffers and views -/

/-- A scratchpad of one bank with a keep quota of 32 lines, and a buffer descriptor of two slots of one line, LIFE 400, kept or not. -/
def padCtx (bs : Tbl (Option Buf)) : Ctx := { Ctx.reset with active := true, partwd := 0x2001000000, bufs := bs }
def bfalDesc (keep : Nat) (life : Nat) : Nat := packNat [(0, 5, 3), (21, 13, 1), (34, 4, 1), (38, 9, life), (47, 1, keep)]
def bufAt (bs : Tbl (Option Buf)) (p0 p1 : Word) : State :=
  let s := part1.setCtx 0 0 (padCtx bs)
  { s with focus := .node (fir 0 0 [(0, some (tok 0 0 p0)), (1, some (tok 1 0 p1))]) }
def buf1 (q : Slot) (keep : Bool) : Buf := ⟨0, 1, 2, 10, keep, 0, [q, Slot.empty]⟩
theorem witness_BuffersAllocateAndFree :
    (sbDead (sbOr [0, 0]) = false ∧ sbDead (sbOr [0, 0x40]) = true) ∧
    ((bufAt [] 0 0).buf 0 0 3 = none ∧ 32 * 0 ≤ 0 ∧ 0 + 1 * 2 ≤ 32 * 0 + 32 * nfld (0x2001000000 : Word) 24 8 ∧ nfld (0x2001000000 : Word) 32 13 = 32) ∧
    (nfld (BitVec.ofNat 64 (bfalDesc 1 400)) 38 9 = 400 ∧ (BitVec.ofNat 64 (bfalDesc 1 400)).getLsbD 47 = true ∧ nfld (BitVec.ofNat 64 (bfalDesc 1 401)) 38 9 = 401) ∧
    ctxKept (padCtx []) + 2 ≤ 32 ∧ ¬ ctxKept (padCtx [(0, some ⟨0, 31, 1, 10, true, 0, [Slot.empty]⟩)]) + 2 ≤ 32 ∧
    (bufAt [(3, some (buf1 Slot.empty false))] 400 0).buf 0 0 3 = some (buf1 Slot.empty false) ∧ nfld (400 : Word) 0 9 = 400 ∧
    (0x401 : Word).toNat / 2 ^ 10 = 1 := by decide
theorem witness_BfwrWritesItsPlace :
    sbPZ 0x20 = true ∧ sbNL 0x40 = true ∧ (buf1 Slot.empty false).slots.length = (buf1 Slot.empty false).depth ∧
    (nfld (0x1003F : Word) 20 44 = 0 ∧ nfld (0x1003F : Word) 0 16 * 1 < 64 ∧ nfld (0x1003F : Word) 16 4 = 1) ∧ ¬ nfld (0x40 : Word) 0 16 * 1 < 64 ∧
    ((buf1 (full false) false).slot 0).full = true ∧ ((buf1 Slot.empty false).slot 0).full = false ∧
    ((buf1 { Slot.empty with data := true, exp := true } false).slot 0).exp = true := by decide
/-- A renewal of slot 0 of buffer 0 with its last line, to stamp 10. -/
def renewing : State :=
  let s := bufAt [(0, some (buf1 { full false with renew := some 10 } false))] 0 0
  { s with fab := { s.fab with units := [⟨0, 0, 0, 0, 0, 0, none, [], none, [], [(0, 0)]⟩] } }
theorem witness_BuffersReadAndRenew :
    ((vec false 1 0).arg (vecFir 1 0) .u8 (.port 0) false).ref = some (0, 0) ∧
    (vec false 1 0).argFault (vecFir 1 0) ((vec false 1 0).arg (vecFir 1 0) .u8 (.port 0) false) = none ∧ 63 < 64 * 1 ∧ 64 * 1 ≤ 64 ∧
    (bufAt [] 0 0).buf 0 0 0 = none ∧ (vec false 1 0).buf 0 0 0 = some ⟨0, 2, 2, 0, false, 0, [full false, Slot.empty]⟩ ∧ 2 ≤ 2 ∧ 1 < 2 ∧ (full true).exp = true ∧
    (full false).full = true ∧ sbDead 0x40 = true ∧ firstUnit 0 renewing.fab.units = some ⟨0, 0, 0, 0, 0, 0, none, [], none, [], [(0, 0)]⟩ ∧
    renewing.purgedAt 0 0 = false ∧ renewing.buf 0 0 0 = some (buf1 { full false with renew := some 10 } false) ∧
    1 ≤ ((10 : BitVec 32) - (renewing.elem 0).retcnt).toNat ∧ ((10 : BitVec 32) - (renewing.elem 0).retcnt).toNat ≤ 400 := by
  decide
/-- The keep walk has lines of the kept slot 0 of buffer 0 left. -/
def keeping (n : Nat) : State :=
  let s := bufAt [(0, some (buf1 { full false with kept := true, renew := some 400 } true))] 0 0
  { s.setElem 0 { s.elem 0 with keepNext := true, keepAt := some (0, 0, 0, n) } with cycle := 8 }
/-- A life unit of element 0 may end; a slot whose REMAIN falls to EXPWARN with it. -/
def ticking (st : BitVec 32) : State :=
  let s := bufAt [(0, some (buf1 { full false with stamp := st } false))] 0 0
  { s.setPart 0 { s.part 0 with expwarn := 20 } with cycle := 1040 }
theorem witness_SlotsExpireAndAreKept_ticks :
    (ticking 1).lifeMin = 1040 ∧ (ticking 1).lifeMin ≤ (ticking 1).cycle - ((ticking 1).elem 0).tickAt ∧ (keeping 2).cycle - ((keeping 2).elem 0).tickAt < (keeping 2).lifeMin ∧
    (ticking 1).copying 0 0 0 0 = false ∧ (ticking 21).partOfElem 0 = some 0 ∧ ((ticking 21).part 0).expwarn + 1 = ((21 : BitVec 32) - ((ticking 21).elem 0).retcnt).toNat ∧
    ((ticking 21).ctx 0 0).prio = 0 ∧ ((ticking 21).elem 0).slots.all (fun y => !(y.1 == 0 && y.2.1 == 0 && y.2.2.1 == 0) || y.2.2.2 == { full false with stamp := 21 }) = true := by decide
theorem witness_SlotsExpireAndAreKept :
    ((keeping 2).keepGoing 0 = some (0, 0, 0, 2) ∧ ((keeping 2).elem 0).walkAt ≤ (keeping 2).cycle ∧ (keeping 2).settled 0 = true ∧ (keeping 2).bankUsed 0 0 = false ∧ ((keeping 2).elem 0).keepNext = true ∧
      (bufAt [] 0 0).keepGoing 0 = none ∧ ((keeping 2).buf 0 0 0).map (fun b => (b.slot 0).renew) = some (some 400) ∧ 1 < 2 ∧ 2 ≤ (⟨0, 2, 2, 0, false, 0, []⟩ : Buf).size) ∧
    ((full false).data = true ∧ ((full false).stamp - 0 : BitVec 32).toNat = 0 ∧ 400 < ((0 : BitVec 32) - 1).toNat) ∧
    ((bufAt [(0, some (buf1 (full false) false))] 0 0).buf 0 0 0 = some (buf1 (full false) false)) ∧
    ((bufAt [] 0 0).elem 0).keepNext = false ∧
    leastLife 0 (({ Elem.reset with ctxs := [(0, padCtx [(0, some (buf1 { full false with kept := true, stamp := 99 } true))])] } : Elem).slots) none =
      some (0, 0, 0, { full false with kept := true, stamp := 99 }) ∧
    leastLife 0 (({ Elem.reset with ctxs := [(0, padCtx [(0, some (buf1 { full false with kept := true, stamp := 100 } true))])] } : Elem).slots) none = none := by
  decide
theorem witness_ViewNodesReachTheirTrimmer : (bufAt [] 0 0).focus = .node (fir 0 0 [(0, some (tok 0 0 0)), (1, some (tok 1 0 0))]) ∧
    sbDead 0x40 = true ∧ sbDead 0 = false ∧ ¬ 65536 / 16384 < 4 ∧ 65535 / 16384 < 4 := by decide
/-- Region 5 of ASID 0 with 4 pages and two frames in the pool; a root view of half a page; a request of a Trimmer whose round is open. -/
def region1 : Region := { Region.reset with v := true, npage := 4, vbase := 0x10000 }
def viewed (k : AKind) (lo hi : Nat) : State :=
  let s := mems true false [{ acc1 k false with at_ := 128, idx := 5, dat := BitVec.ofNat 64 (hi * 2 ^ 32 + lo) }] [round1 .opened] [] []
  let s1 := s.setPart 0 { s.part 0 with frames := [0x100000, 0x110000] }
  let s2 := s1.setRegion 5 region1
  s2.setView 0 ⟨true, 0, 5, 0, 512⟩
theorem witness_TrimmersChangeViews :
    (lfind (fun a => a.at_ == 128 && decide (a.since ≤ 0) && (viewed .viewmk 0 1024).accessOpen a) (viewed .viewmk 0 1024).port.accesses).isSome = true ∧
    ((viewed .viewmk 0 1024).region 5 = region1 ∧ 4096 ≤ 1024 * region1.npage ∧ ¬ 4097 ≤ 1024 * region1.npage) ∧
    (((viewed .viewmk 0 1024).page 5 0).pend = false ∧ ((viewed .viewmk 0 1024).page 5 0).count ≠ 65535) ∧
    ((viewed .viewmk 0 1024).freeView 5).isSome = true ∧ ((viewed .viewmk 0 1024).part 0).frames.length = 2 ∧ pagesOf 0 1024 = [0] ∧ pagesOf 0 4096 = [0, 1, 2, 3] ∧
    ((viewed .viewq 0 0).view 0).hi = 512 ∧ AKind.viewq.view = true ∧
    (lfind (fun a : Access => a.at_ == 128 && a.held) [{ acc1 .viewq false with at_ := 128, held := true }]).isSome = true ∧
    (viewed .viewmk 0 1024).port.accesses.all (fun x => !x.held) = true := by decide
/-- A handle of a region that is not valid is not good; the handle that the Trimmer makes of view 0 of region 5 is. -/
theorem witness_BadHandle : (viewed .viewq 0 0).viewOf 0 0 0xFFFFFFFFFFFFFFFF = none := if_neg fun h => by
  have := h.2.1; revert this; decide
theorem witness_GoodHandle : (viewed .viewq 0 0).viewOf 0 0 ((viewed .viewq 0 0).handle 0 5 0 0) = some 0 := by
  have hr : hRegion ((viewed .viewq 0 0).handle 0 5 0 0) = 5 := (nfld_setFld_ne _ 0 16 _ 16 16 (by decide) (by decide)).trans (by decide)
  have hi : hIndex ((viewed .viewq 0 0).handle 0 5 0 0) = 0 := (nfld_setFld_ne _ 0 16 _ 44 20 (by decide) (by decide)).trans (by decide)
  have hg : hGen ((viewed .viewq 0 0).handle 0 5 0 0) = 0 := (nfld_setFld_ne _ 0 16 _ 32 12 (by decide) (by decide)).trans (by decide)
  have hb : fld ((viewed .viewq 0 0).handle 0 5 0 0) 16 48 = fld (pack 64 [(44, 20, 0), (32, 12, 0), (16, 16, 5)] : Word) 16 48 :=
    (fld_eq_of_nfld _ 16 48 _ ((nfld_setFld_ne _ 0 16 _ 16 48 (by decide) (by decide)).trans (Nat.mod_eq_of_lt (nfld_lt _ _ _)).symm)).trans
      (fld_eq_of_nfld _ 16 48 _ (Nat.mod_eq_of_lt (nfld_lt _ _ _)).symm).symm
  unfold State.viewOf
  rw [hr, hi, hg, hb]
  refine if_pos ⟨?_, by decide⟩
  exact ((fld_eq_of_nfld _ 0 16 _ (nfld_setFld _ 0 16 _ (by decide))).trans (BitVec.ofNat_toNat _ _ |>.trans (BitVec.setWidth_eq _))).symm
/-- A freed page whose epoch has drained, and a shoot-down. -/
def freeing1 : State :=
  let s := (viewed .viewq 0 0).setPage 5 0 { PageRec.reset with pend := true, alloc := true }
  { s with mem := covered, port := { s.port with shoots := [⟨some 0, 0, 0, 0, 0, [shootPort], [1]⟩] } }
theorem witness_PagesAreFreed :
    (freeing1.page 5 0).pend = true ∧ (freeing1.region 5).drained (freeing1.page 5 0).epoch = true ∧ freeing1.cov.freeing = [] ∧
    (leafAddr freeing1.mem (region1.vbase) 0 (nfld (tget 0 freeing1.mem.asids 0) 14 38 * 16384) 5).isSome = true ∧
    nth? freeing1.port.shoots 0 = some ⟨some 0, 0, 0, 0, 0, [shootPort], [1]⟩ ∧ freeing1.shootQuiet ⟨some 0, 0, 0, 0, 0, [], [1]⟩ 1 = true ∧
    freeing1.shootQuiet ⟨some 0, 0, 0, 0, 0, [], [0]⟩ 0 = false := by decide

/-! ### Witnesses: engines and links -/

/-- A copy or scan request of slot word 0 of element 0 at port 0: its direction, length, state and slot. -/
def eng (opc dir len : Nat) (st : EState) (slot : Option (Nat × Nat)) (data : List Byte) : Engine :=
  let pkt : BitVec 384 := if opc = 0xD0 then pack 384 [(192, 32, len), (224, 2, dir)] else pack 384 [(160, 32, len), (144, 16, 1), (132, 1, 0), (133, 7, dir)]
  ⟨0, 0, opc, .f32, 0, 0, pkt, 0xE00004, st, 0, slot, data, [], [], 0, none, none, false, some (0, 0x10000), 0, false, 0, false, 7, [], 1⟩
def copying (g : Engine) (bs : Tbl (Option Buf)) : State :=
  let s := mems true false [] [round1 .opened] [] []
  let s1 := s.setCtx 0 0 (padCtx bs)
  { s1 with port := { s1.port with engines := [g] } }
theorem witness_Request : nth? (copying (eng 0xD0 0 5000 .running none []) []).port.engines 0 = some (eng 0xD0 0 5000 .running none []) ∧
    (eng 0xD0 0 5000 .running none []).opc = 0xD0 ∧ (eng 0xD0 0 5000 .running none []).len = 5000 := by decide
/-- XFER: lengths of 0, of a slot and beyond it; a full slot and an empty one; a reference to a full slot. -/
theorem witness_XferRequests :
    sbPZ 0x20 = true ∧ sbNL 0x40 = true ∧ (bufAt [] 0 0).buf 0 0 0 = none ∧ (bufAt [(0, some (buf1 (full false) false))] 0 0).buf 0 0 0 = some (buf1 (full false) false) ∧
    1 * 64 < 65 ∧ 64 ≤ 1 * 64 ∧ ((buf1 (full false) false).slot 0).full = true ∧ ((buf1 Slot.empty false).slot 0).full = false ∧
    ((vec false 1 0).arg (vecFir 1 0) .x64 (.port 0) false).ref = some (0, 0) ∧ ((vec false 1 0).arg (vecFir 1 0) .x64 (.port 0) false).lines * 64 < 65 := by decide
theorem witness_CopiesMoveChunks :
    (copying (eng 0xD0 0 5000 .running none []) []).reqOpen (eng 0xD0 0 5000 .running none []) = true ∧
    ((copying (eng 0xD0 0 5000 .running none []) []).copyPieces (eng 0xD0 0 5000 .running none []) false false (pagePieces 0 64)).bad = none ∧
    ((copying (eng 0xD0 0 5000 .running none []) []).copyPieces (eng 0xD0 0 5000 .running none []) false true (pagePieces 0x10000 64)).places = [(0x10000, 0, 64)] ∧
    ((copying (eng 0xD0 0 5000 .running none []) []).copyPieces (eng 0xD0 0 5000 .running none []) true false (pagePieces 0 64)).bad = some (2, 0) ∧
    ((copying (eng 0xD0 2 64 .running (some (0, 0)) []) [(0, some (buf1 (full false) false))]).buf 0 0 0 = some (buf1 (full false) false)) ∧
    poolPoisoned ((copying (eng 0xD0 2 64 .running (some (0, 0)) []) [(0, some (buf1 (full false) false))]).elem 0) 0 64 = false := by decide
theorem witness_CopiesComplete :
    (eng 0xD0 1 64 .finished (some (0, 0)) (List.replicate 64 5)).data.length = (eng 0xD0 1 64 .finished (some (0, 0)) (List.replicate 64 5)).len ∧
    (eng 0xD0 1 64 .finished (some (0, 0)) []).dir = 1 ∧ (eng 0xD0 2 64 .finished (some (0, 0)) []).dir = 2 ∧
    (eng 0xD0 0 64 .finished none []).bslot = none ∧ ((buf1 (full false) false).slot 0).full = true := by decide
theorem witness_WeirRequests :
    (eng 0xD1 1 10 .sent none []).ctlOk = true ∧ (eng 0xD1 0 10 .sent none []).ctlOk = false ∧ (eng 0xD1 1 10 .sent none []).vw = false ∧
    nfld (eng 0xD1 1 10 .sent none []).pkt 64 64 % 4 = 0 ∧ (eng 0xD1 1 10 .sent none []).count = 10 ∧
    (copying (eng 0xD1 1 10 .waiting none []) []).mayTake (eng 0xD1 1 10 .waiting none []) = true ∧
    (copying (eng 0xD1 1 10 .running none []) []).mayTake (eng 0xD1 1 10 .running none []) = false := by decide
theorem witness_WeirScans :
    (eng 0xD1 1 10 .running none []).cursor < (eng 0xD1 1 10 .running none []).count ∧ (eng 0xD1 1 10 .running none []).keeps = 1 ∧
    (match (copying (eng 0xD1 1 10 .running none []) []).enginePhys (eng 0xD1 1 10 .running none []) false false 0 with | (_, .ok p) => p == (0, 0) | _ => false) = true ∧
    isFp .f32 = true ∧ ([1, 2] : List Nat).Nodup ∧ (eng 0xD1 1 10 .running none []).inContext = true ∧ 0 < (⟨5, 0⟩ : Credit).units ∧ mem16.bad 0 (48 + 8 * 1) = false ∧
    (tget (⟨0, 0⟩ : Credit) ((copying (eng 0xD1 1 10 .running none []) []).elem 2400).credits 0).units = 0 := by
  decide
/-- LSEND and LRECV: operands, a packet that is next, and a colour that is bound or not. -/
def recvW : SlotWord := (encode (.lrecv { ops0 with imm := 0x0100, t0 := 0xE00004 })).getD 0
def linkIn1 : LinkIn := ⟨80, 0x77, 0, 0, 0, 5, none⟩
def linked : State :=
  let s := (mems true false [] [round1 .opened] [] []).setPart 0 { part1.part 0 with topo := [(1, 0x77 * 2 ^ 32)], bind := [(0, 4096)] }
  let s1 := s.setLink 0 ⟨true, 3, 0x77, 0, 0, []⟩
  { s1 with port := { s1.port with linkIn := [linkIn1], linkOut := [⟨80, 0x77, 0, 0, 0, 5, none, 0, [], 0, 0, 7, false, [], [], 0⟩] } }
/-- An LRECV of channel 0 whose next packet is a scalar, or a tile that its buffer takes or not. -/
def receiving (ty : Ty) (kind : Nat) (pkt : Option TilePkt) (bind : Word) (bs : Tbl (Option Buf)) : State :=
  let w : SlotWord := (encode (.lrecv { ops0 with ty := ty, t0 := 0xE00004 })).getD 0
  let s := (linked.setPart 0 { linked.part 0 with bind := [(0, bind)] }).setCtx 0 0 (padCtx bs)
  { s with focus := .node (fir w 0 []), port := { s.port with linkIn := [{ linkIn1 with head := linkHead 0 0 kind 0 0, pkt := pkt }] } }
/-- A tile packet of one FP32 element for buffer 0, slot 0, and one that is malformed. -/
def tileIn : TilePkt := ⟨hdrAddr (mkHdr 0 0 1 0 0 0 0 0 0) 0 0 0 0, 0, List.replicate 64 0⟩
theorem witness_LrecvTakesTheNext :
    ((receiving .x64 0 none 4096 []).recvNext ((encode (.lrecv { ops0 with t0 := 0xE00004 })).getD 0)).map LinkIn.seq = some 0 ∧ 80 ≤ linkIn1.port ∧
    (receiving .x64 0 none 0 []).colBound 0 0 0 = false ∧ (receiving .x64 0 none 4096 []).colBound 0 0 0 = true ∧
    nfld (linkHead 0 0 0 0 0) 72 2 = 0 ∧ nfld (linkHead 0 0 2 0 0) 72 2 = 2 ∧ tileOk tileIn = true ∧ sbDead (hSb tileIn.hdr) = false ∧
    tileOk ⟨hdrAddr (mkHdr 0 0 2 0 0 0 0 0 0) 0 0 0 0, 0, []⟩ = false ∧ sbDead (hSb (hdrAddr (mkHdr 0 0 0 0 0 0 0 0 0) 0 0x40 0 0)) = true ∧
    (receiving .tile 2 (some tileIn) 4096 []).buf 0 0 0 = none ∧
    ((receiving .tile 2 (some tileIn) 4096 [(0, some (buf1 (full false) false))]).buf 0 0 0).map (fun b => (b.slot 0).full) = some true ∧
    ((receiving .tile 2 (some tileIn) 4096 [(0, some (buf1 Slot.empty false))]).buf 0 0 0).map (fun b => (b.slot 0).full) = some false ∧ hBeats tileIn.hdr ≤ 1 ∧
    (receiving .x64 0 none 4096 []).purgedAt 0 0 = false := by decide
theorem witness_LsendHandsOver :
    (nod 0 0 5 6).focus = .node (fir 0 0 [(0, some (tok 0 0 5)), (1, some (tok 1 0 6))]) ∧ Ty.x64 ≠ .tile ∧ sbPZ 0x20 = true ∧ sbNL 0x40 = true ∧
    (tileCtx 0 Acc.reset).argFault (vecFir 1 0) (tileArg (tileCtx 0 Acc.reset)) = none ∧ (tileArg (tileCtx 0 Acc.reset)).slot.hv = true ∧
    ((vec true 1 0).argFault (vecFir 1 0) (vecArg (vec true 1 0))).isSome = true := by decide
theorem witness_LinksCarryPackets :
    0 < 12 ∧ 3 ≠ 0 ∧ (linked.link 0).trained = true ∧ 2 ^ 31 ≤ (0 + 2 ^ 32 - 1) % 2 ^ 32 ∧ (5 + 2 ^ 32 - 5) % 2 ^ 32 < 2 ^ 31 ∧
    findIdx? (fun x : LinkPkt => !x.counted && x.peer == (linked.link 0).peer && x.chan == 0 / 2 ^ 32 && x.seq == 0 % 2 ^ 32) linked.port.linkOut 0 = some 0 ∧
    (∃ l ∈ linked.sprayed 0 0x77, 0 ∉ (linked.link l).stopped) ∧ 80 - 80 ∈ linked.sprayed 0 0x77 ∧ 81 - 80 ∉ linked.sprayed 0 0x77 ∧ 6 ≤ ({ linked.mgmt with boot := 6 } : Mgmt).boot ∧
    linked.sprayed 0 0x77 ≠ [] ∧ linked.iterOpen 0 7 0 = true ∧ (linked.heldRound 0 7 0).map Round.voided = some false ∧
    linked.sprayed 0 0x77 ≠ [] ∧ (linked.setLink 0 Link.reset).sprayed 0 0x77 = [] ∧
    130000 ≤ ({ linked.setLink 0 Link.reset with cycle := 130000 } : State).cycle - (linked.setLink 0 Link.reset).emptySince 0 0x77 := by decide
def coll1 : Coll := ⟨0, 0, 0, 0, 0, 80, 0, 0, 0, false, false, 0, 0, 0xE00004, 7, 0, pkt1, [], 3, 1, 0, [(1, 0x77 * 2 ^ 32)], false⟩
def colls (g : Coll) : State := { linked with port := { linked.port with colls := [g] } }
theorem witness_CollJoinsItsGroup :
    (tileCtx 0 Acc.reset).argFault (vecFir 1 0) (tileArg (tileCtx 0 Acc.reset)) = none ∧ (0x10003 : Word).getLsbD 16 = true ∧ (0x3 : Word).getLsbD 16 = false ∧
    (tileArg (tileCtx 0 Acc.reset)).slot.hv = true ∧ hFmt 0 < 3 ∧ (tileCtx 0 Acc.reset).buf 0 0 1 = some ⟨4, 2, 2, 0, false, 0, [Slot.empty, Slot.empty]⟩ ∧
    fmtBeats 0 0 0 ≤ 2 ∧ (Slot.empty).full = false ∧ (full false).full = true := by decide
theorem witness_CollectivesCombine :
    nth? (colls coll1).port.colls 0 = some coll1 ∧ coll1.awaited = [0, 1] ∧ tget none coll1.got 1 = none ∧
    coll1.fits pkt1.hdr pkt1.body = true ∧ (tget none ({ coll1 with got := [(0, some pkt1)] } : Coll).got 0).isSome = true ∧
    (colls coll1).iterOpen 0 7 0 = true ∧ 1300 * coll1.tmo ≤ 1300 - coll1.since ∧ 1299 - coll1.since < 1300 * coll1.tmo := by decide
/-- A chip whose own entry is 1 and no member, with a child at entry 2 that is one; a topology's word with an identity and a parent. -/
def topoWord (id : BitVec 32) (parent : Nat) : Word := (id.setWidth 64 <<< 32) ||| BitVec.ofNat 64 parent
def forwarding : State := linked.setPart 0 { linked.part 0 with topo := [(0, topoWord (Config.devId + 1) 0), (1, topoWord Config.devId 0), (2, topoWord 5 1)], groups := [(0, 0x10004)] }
theorem witness_CollectivesCombine_forward :
    forwarding.ownEntry 0 = 1 ∧ pV (forwarding.part 0).desc = true ∧ (tget 0 (forwarding.part 0).groups 0).getLsbD 16 = true ∧ bit (0x4 : BitVec 16) 1 = false ∧
    nth? forwarding.port.colls 0 = none ∧ peerIn (forwarding.part 0).topo 2 = 5 ∧ parentIn (forwarding.part 0).topo 2 = 1 ∧ forwarding.port.rxSeq = [] := by
  have hi : ∀ d : BitVec 32, fld (topoWord d 0) 32 32 = d := fun d => by
    apply BitVec.eq_of_getLsbD_eq; intro i hi
    have a : 32 + i < 64 := by omega
    simp [fld, topoWord, hi, a]
  refine ⟨?_, by decide, by decide, by decide, by decide, by decide, by decide, by decide⟩
  have h0 : (forwarding.peerOf 0 0 == Config.devId) = false := by
    show (fld (topoWord (Config.devId + 1) 0) 32 32 == Config.devId) = false
    rw [hi, beq_eq_false_iff_ne]
    intro h
    have e : Config.devId + 1 - Config.devId = Config.devId - Config.devId := congrArg (fun x => x - Config.devId) h
    rw [BitVec.add_comm, BitVec.add_sub_cancel, BitVec.sub_self] at e
    exact absurd e (by decide)
  have h1 : (forwarding.peerOf 0 1 == Config.devId) = true := by
    show (fld (topoWord Config.devId 0) 32 32 == Config.devId) = true
    rw [hi, beq_self_eq_true]
  simp [State.ownEntry, firstKey, h0, h1]

/-! ### Witnesses: windows, cuts and the host interface -/

theorem witness_BindingStores :
    5 < 1024 ∧ ((4097 : Word).toNat / 8192 = 0 ∧ colIn (part1.part (part1.partOfThread 0)).desc ((4097 : Word).toNat % 4096) = true) ∧
    colIn (part1.part (part1.partOfThread 0)).desc ((0x1FFF : Word).toNat % 4096) = false ∧ (0x1FFF : Word).getLsbD 12 = true ∧
    ((part1.setThread 0 { Thread.reset with started := true }).thread 0).started = true := by decide
/-- Element 0 is of partition 0 and 2,303 of none; register 0 exists, and 1,023 of a slot without registers does not. -/
theorem witness_ConfigurationSpace :
    inRect (part1.part 0).desc 0 = true ∧ inRect (State.reset.part 0).desc 0 = false ∧ (part1.part 0).desc.getLsbD 27 = true ∧
    regExists (part1.ctx 0 0).partwd 1023 = false ∧ regExists ((part1.setCtx 0 0 { Ctx.reset with partwd := 0x100 }).ctx 0 0).partwd 0 = true ∧
    2304 ≤ 2304 ∧ 2303 < 2304 ∧ ({ Elem.reset with shown := (1, [5]) } : Elem).shown = (0 + 1, [5]) ∧ Elem.reset.shown.1 ≠ 0 + 1 := by decide
/-- Queue slot 0 of queue 0 with one answer. -/
def queued : State := (State.reset.setQslot 0 { Qslot.reset with v := true, adone := 0, head := 1, answers := [(0, 5)] }).setVq 0 { Vq.reset with ctl := 0x80000004 }
theorem witness_LaunchWindowCounts :
    (0 : Word).setWidth 32 = (queued.qslot 0).copied ∧ (1 : Word).setWidth 32 = (queued.qslot 0).copied + 1 ∧ (queued.vq 0).closed = false ∧
    0 < nfld (queued.vq 0).ctl 0 16 ∧ 48 ≤ 48 ∧ 47 < 48 := by decide
/-- A cut of partition 0 under way, with an open round and a running copy. -/
def cutting (c : Cut) (rs : List Round) (n : Nat) : State :=
  let s := { copying (eng 0xD0 0 5000 .running none []) [] with cycle := n }
  let s1 := s.setPart 0 { part1.part 0 with cut := c }
  { s1 with fab := { s1.fab with rounds := rs, loads := [load1] } }
theorem witness_CutStopsRoundsAndEngines :
    nth? (cutting .draining [round1 .opened] 4096).fab.rounds 0 = some (round1 .opened) ∧ ((cutting .draining [round1 .opened] 4096).part 0).cut = .draining ∧
    colIn ((cutting .draining [round1 .opened] 4096).part 0).desc 0 = true ∧ (cutting .draining [] 4096).loadById 0 7 = some load1 ∧
    (cutting .draining [] 4096).window 0 (some load1) * dDepth load1.desc ≤ 4096 ∧
    nth? (cutting .draining [] 0).port.engines 0 = some (eng 0xD0 0 5000 .running none []) ∧ (cutting .draining [] 0).partOfElem 0 = some 0 := by decide
theorem witness_StateImageIsWritten :
    ((cutting .idle [] 0).part 0).cut = .idle ∧ (cutting .draining [round1 .opened] 0).cutDrained 0 = false ∧
    ({ cutting .draining [] 0 with port := State.reset.port } : State).cutDrained 0 = true ∧ ((cutting .parked [] 0).part 0).cut = .parked ∧
    (cutting .parked [] 0).cutWritten 0 = true ∧
    ({ cutting .parked [] 0 with fab := { (cutting .parked [] 0).fab with tokens := [tok 0 0 5] } } : State).cutWritten 0 = false := by decide
/-- The host interface is up. -/
def up (s : State) : State := { s with mgmt := { s.mgmt with boot := 7 } }
theorem witness_OnlyThePhysicalFunctionMay : 63 < 64 ∧ (up State.reset).mgmt.boot = 7 ∧ State.reset.mgmt.boot ≠ 7 := by decide
/-- Whether a key unwraps is the cryptography's (an opaque constant): the two values of `keyOk` are not exhibited here. -/
theorem witness_RootKeyAndGroupRequests :
    (65535 < 65536 ∧ nfld (0x4001 : Word) 1 13 = 0 ∧ nfld (0x4001 : Word) 52 12 = 0) ∧ nfld (2 : Word) 1 13 ≠ 0 ∧ nfld (0x10000000000000 : Word) 52 12 ≠ 0 ∧
    (up part1).keyNamed 5 = false ∧ (up (part1.setColour 0 { Colour.reset with keyslot := 5 })).keyNamed 5 = true ∧
    (pV ((up part1).part 0).desc = true ∧ (0x30001 : Word).toNat / 2 ^ 33 = 0 ∧ (0x30001 : Word).getLsbD 16 = true ∧ nfld (0x30001 : Word) 17 16 ≠ 0) ∧
    nfld (0x10000 : Word) 17 16 = 0 ∧ (∃ c ∈ (colls coll1).port.colls, c.part = 0 ∧ c.grp = 0) ∧ (up part1).port.colls = [] := by decide
/-- Partition 0 with region numbers 0 to 1, of which the first n are taken. -/
def regioned (n : Nat) (g : Region) : State :=
  let s := up (part1.setPart 0 { part1.part 0 with desc := setFld (setFld (part1.part 0).desc 172 0 0) 0 1 1 })
  { s with cov := { s.cov with regions := (rangeFrom 0 n).map fun i => (i, g) } }
theorem witness_RegionRequests :
    (regioned 0 region1).partOfAsid 3 = some 0 ∧ (regioned 0 region1).partOfAsid 4 = none ∧ (regioned 0 region1).regionsClash 0 0 1 = false ∧
    (regioned 1 region1).regionsClash 0 0x10000 1 = true ∧ (0x1FFFFFFFFFF0000 : Word).toNat + 65536 * 1 ≤ 2 ^ 57 ∧ 2 ^ 57 < (0x1FFFFFFFFFF0000 : Word).toNat + 65536 * 2 ∧
    (regioned 1 region1).trimmerHolds 0 = false ∧ (viewed .viewmk 0 1024).trimmerHolds 5 = true ∧ ({ region1 with dying := true } : Region).dying = true ∧
    ((regioned 1 region1).region 0).v = true ∧ ((regioned 1 region1).region 1).v = false ∧
    region1.dying = false ∧ (region1.ecur + 1) % 4 ≠ region1.eold ∧ ({ region1 with ecur := 3 }.ecur + 1) % 4 = region1.eold := by decide
/-- Partition 0's descriptor with shared key 9. -/
def desc1 : BitVec 512 := setFld (setFld (part1.part 0).desc 155 32 0) 287 8 9
/-- A descriptor that meets partition 0, one that does not, and one that a load of partition 0 keeps from changing. -/
theorem witness_PartitionsAreSet :
    partFieldsOk desc1 = true ∧ partFieldsOk (setFld desc1 300 1 1) = false ∧
    partsMeet (setFld (part1.part 0).desc 155 32 0) (part1.part 0).desc = true ∧ pV (part1.part 0).desc = true ∧ pV (part1.part 1).desc = false ∧
    (up part1).partBusy 0 (part1.part 0).desc (setFld (part1.part 0).desc 155 32 0) = false ∧
    (offered .idle [load1] 0 0 []).partBusy 0 (part1.part 0).desc 0 = true := by decide
/-- Whether a signature verifies is the cryptography's (an opaque constant); with an empty store none does. -/
theorem witness_KeyStoreRequests :
    ((1 <<< 64 : BitVec 1152).getLsbD 64 = true ∧ nfld (1 <<< 64 : BitVec 1152) 67 29 = 0 ∧ nfld (1 <<< 64 : BitVec 1152) 32 32 = 0) ∧
    State.reset.keySigned (1 <<< 64) 0 = false ∧ (tget (0 : BitVec 1152) [(0, 1 <<< 64)] 1).getLsbD 64 = false ∧
    lfind (fun k : Nat × BitVec 1152 => bit k.2 64 && fld k.2 0 32 == 0) [(0, 1 <<< 64)] = some (0, (1 <<< 64 : BitVec 1152)) ∧
    ((tget (0 : BitVec 1152) ((rangeFrom 1 63).map fun n => (n, (1 <<< 64 : BitVec 1152))) 63).getLsbD 64 = true) := by decide
theorem witness_ColoursAreSet :
    colIn ((up part1).part 0).desc 3 = true ∧ keyIn ((up part1).part 0).desc 1 = true ∧ asidIn ((up part1).part 0).desc 3 = true ∧
    colsetOk 0 0 = true ∧ colsetOk 1 16 = true ∧ (up part1).colLive 3 = false ∧ colIn ((up part1).part 0).desc 4 = false ∧
    ((up part1).setColour 3 { Colour.reset with inflt := 1 }).colLive 3 = true := by decide
theorem witness_QueuesAreWritten :
    1023 < 1024 ∧ ((up queued).vq 0).ctl.getLsbD 31 = true ∧ (((up queued).setVq 0 { Vq.reset with ctl := 0x80000004, tail := 1 }).vq 0).tail ≠ 0 ∧
    ((up State.reset).vq 0).ctl.getLsbD 31 = false ∧ ((up queued).vq 0).tail = ((up queued).vq 0).next ∧
    (0x80008000 : Word).getLsbD 31 = true ∧ (0x80008000 : Word).toNat % 65536 = 2 ^ 15 ∧ (∀ k, 6 ≤ k → k ≤ 15 → (0x80000020 : Word).toNat % 65536 ≠ 2 ^ k) := by
  refine ⟨by decide, by decide, by decide, by decide, by decide, by decide, by decide, fun k h _ => ?_⟩
  have : 2 ^ 6 ≤ 2 ^ k := Nat.pow_le_pow_right (by decide) h
  have e : (0x80000020 : Word).toNat % 65536 = 32 := by decide
  omega
/-- Function 1's mailbox holds SETCOLOUR's code, or one that is no request. -/
def mailed (c : Word) : State := (up State.reset).setVf 1 { Vf.reset with mailbox := [(0, c)] }
theorem witness_HostReadsAndStores :
    64 < 65 ∧ 4 % 8 ≠ 0 ∧ State.reset.mgmt.boot ≠ 7 ∧ (up State.reset).mgmt.boot = 7 ∧ 63 < 64 ∧
    nfld (tget 0 (((mailed 9).setVf 1 { (mailed 9).vf 1 with mailbox := tset 0 ((mailed 9).vf 1).mailbox 7 5 }).vf 1).mailbox 0) 0 8 = 9 ∧
    9 < nfld (tget 0 (((mailed 10).setVf 1 { (mailed 10).vf 1 with mailbox := tset 0 ((mailed 10).vf 1).mailbox 7 5 }).vf 1).mailbox 0) 0 8 ∧
    0x38 < 0x40 ∧ 0x80 ≤ 0xFF8 ∧ 0xFF8 < 0x1000 ∧ 0xB400 ≤ 0xB400 ∧ 11 < 12 ∧ 1 < 2 := by decide
/-- Function 1 with a page request in group slot 2, and queue 1,024 of it resident. -/
def paging : State := (up queued).setVf 1 { Vf.reset with groups := [(2, some ⟨1, 5⟩)] }
theorem witness_PageRequestGroups :
    (paging.vf 1).waiting = [] ∧ 34 / 32 % 16 ≠ (paging.vf 1).incarn.toNat ∧ 2 / 32 % 16 = (paging.vf 1).incarn.toNat ∧
    tget none (paging.vf 1).groups (2 % 32) = some ⟨1, 5⟩ ∧ 1048575 < 2 ^ 20 ∧
    queued.host.qslots.any (fun q => q.2.v && q.2.vq.toNat == 0) = true ∧ queued.vq 0 ≠ Vq.reset ∧
    (∃ p ∈ (up part1).parts, pV p.2.desc = true) ∧ colIn (part1.part 0).desc 3 = true := by decide
theorem witness_PartitionResetLeaves :
    pV (part1.part 0).desc = true ∧ colIn (part1.part 0).desc 3 = true ∧ desc1.getLsbD (106 + 3 / 4) = true ∧ (part1.part 0).desc.getLsbD (106 + 3 / 4) = true ∧ ((sup 0 0 0).thread 0).started = true ∧
    (part1.part 1).desc.getLsbD (106 + 3 / 4) = false := by decide
theorem witness_ErrorsAreContained :
    nth? (nod 0 0 5 6).fab.tokens 0 = none ∧ (nth? (tilesAt pkt1).fab.tokens 0).isSome = true ∧ 15 < 16 ∧ 16 ≤ 2319 ∧ 2319 < 2320 ∧ 8191 < 8192 ∧
    pV (part1.part 0).desc = true := by decide
def halted1 : State := { State.reset with cycle := 9 }.setElem 0 { Elem.reset with halted := true, haltedAt := 5, sentinels := [(1, ⟨2, false⟩)] }
theorem witness_DebugHaltAndRelease :
    (State.reset.elem 2303).halted = false ∧ (halted1.elem 0).halted = true ∧ tget (⟨0, false⟩ : Sentinel) (halted1.elem 0).sentinels 1 = ⟨2, false⟩ ∧
    (halted1.elem 0).sentinels.any (fun y => y.1 == 1) = true ∧ 2 ≤ (halted1.elem 0).haltedAt ∧ (halted1.elem 0).haltedAt ≤ halted1.cycle := by decide

/-! ### Witnesses: queues, launches and loading -/

/-- A launch record of colour 1 that passes the check, with a quota. -/
def rcd1 (quota : Nat) : BitVec 1024 :=
  pack 1024 [(736, 32, quota), (704, 32, 4096), (668, 12, 16), (656, 12, 1), (652, 4, 1), (632, 16, 0), (624, 8, 1), (600, 16, 1), (0, 3, 1), (832, 64, 0x1000)]
/-- Partition 0 with a supervisor thread, colour 1 of function 0, and queue slot 0 with one record. -/
def admitting (quota : Nat) : State :=
  let s := { (sup 0 0 0).setColour 1 { Colour.reset with owner := 0, basinlen := 8 } with mem := mem16 }
  let bs := bvBytes (rcd1 quota) 128
  s.setQslot 0 { Qslot.reset with v := true, head := 1, records := msetN [] 0 bs }
theorem witness_QueuesTakeTurns :
    State.reset.waitingVqs = [] ∧ ((State.reset.setVq 3 { Vq.reset with ctl := 0x80000004, tail := 1 }).waitingVqs).length = 1 ∧
    ((State.reset.setQslot 0 { Qslot.reset with v := true, head := 1 }).qslot 0).adone ≠ ((State.reset.setQslot 0 { Qslot.reset with v := true, head := 1 }).qslot 0).head ∧
    (((State.reset.setQslot 0 { Qslot.reset with v := true }).qslot 0).v = true ∧ (State.reset.vq 0).tail = (State.reset.vq 0).next) ∧
    (∃ y ∈ (State.reset.setVq 3 { Vq.reset with ctl := 0x80010004, tail := 1 }).waitingVqs, nfld (State.reset.vq 0).ctl 16 4 < nfld y.2.ctl 16 4) ∧
    0 + 1300 * State.reset.host.quantum ≤ ({ State.reset with cycle := 2600000 } : State).cycle := by decide
/-- Queue 0 of function 0 with a ring of four records in a host page that is present, or not. -/
def ringing (present : Bool) : State :=
  let s := (State.reset.setVq 0 { Vq.reset with ctl := 0x80000004, tail := 1 }).setQslot 0 { Qslot.reset with v := true }
  { s with mem := { s.mem with hostPages := if present then [(0, 2)] else [] } }
theorem witness_RecordsArePublished :
    64 ≤ (({ Qslot.reset with head := 64 } : Qslot).head - Qslot.reset.adone).toNat ∧ ((ringing true).qslot 0).v = true ∧ ((ringing true).vq 0).closed = false ∧
    ((ringing true).vq 0).ctl.getLsbD 31 = true ∧ ((ringing true).vq 0).tail ≠ ((ringing true).vq 0).next ∧
    (((ringing true).qslot 0).head - ((ringing true).qslot 0).adone).toNat < 64 ∧ ((ringing true).ringRecord 0 ((ringing true).vq 0)).isSome = true ∧
    (ringing false).ringRecord 0 ((ringing false).vq 0) = none ∧
    ((ringing true).qslot 0).adone = ((ringing true).qslot 0).head ∧ ((ringing true).qslot 0).copied = ((ringing true).qslot 0).adone ∧
    ({ Qslot.reset with head := 1 } : Qslot).adone ≠ ({ Qslot.reset with head := 1 } : Qslot).head ∧ 0 < nfld ((ringing false).vq 0).ctl 0 16 := by decide
theorem witness_LaunchesAreAdmitted :
    ((admitting 4).qslot 0).v = true ∧ ((admitting 4).qslot 0).take ≠ ((admitting 4).qslot 0).head ∧ (admitting 4).stewardOf 0 0 = true ∧
    (admitting 4).colBusy 0 1 = false ∧ (admitting 4).host.launches = [] ∧ (admitting 4).recordOf 0 0 = rcd1 4 ∧
    (admitting 4).recordFails 0 0 (rcd1 4) = none ∧ (admitting 4).recordFails 0 0 0 ≠ none ∧ lrQuota (rcd1 4) ≤ ((admitting 4).colour 1).basinlen ∧
    ((admitting 4).colour 1).inflt = 0 ∧ ((admitting 4).part 0).resident = [] ∧ ((admitting 4).part 0).claims = [] ∧
    ((admitting 4).colour 1).basinlen < lrQuota (rcd1 9) ∧ lrWindow (rcd1 4) ≤ 8388608 ∧ 1024 ≤ lrSentlim (rcd1 4) := by decide
/-- A launch in a stage, and a state that holds it, with a resident load whose identities are those of an image of zeros at address 0. -/
def launch1 (g : LStage) (i : Nat) : Launch := ⟨0, 0, 0, 0, rcd1 4, g, 0, 0, 0, i, 0, [], [], none, .idle, [], false⟩
def loadZ : Load := { load1 with desc := setFld load1.desc 448 64 0 }
def launching (l : Launch) (loads : List Load) : State :=
  let s := admitting 4
  { s with host := { s.host with launches := [l] }, fab := { s.fab with loads := loads } }
/-- A launch that waits behind another one, and what the image of a load that is not resident comes to. -/
theorem witness_LaunchesGoOn_place :
    let l := launch1 .place 0
    let m : Launch := { l with n := 1 }
    let two : State := { launching l [] with host := { (launching l []).host with launches := [l, m] } }
    (nth? (launching l []).host.launches 0 = some l ∧ (launching l []).launchPaused l = false ∧ (launching l []).queued l = false) ∧
    (nth? two.host.launches 1 = some m ∧ two.launchPaused m = false ∧ two.queued m = true) ∧
    (((launching l [loadZ]).readImage l l.j).toOption = some (0, []) ∧ fld (0 : BitVec 2048) 128 64 = lrGraphid l.rcd ∧ (launching l [loadZ]).residentLoad 0 0 = some loadZ) ∧
    (((launching l []).readImage l l.j).toOption = some (0, []) ∧ (launching l []).residentLoad 0 0 = none ∧ (launching l []).imageFails 0 [] 0 = some (cConfig, 1)) ∧
    (tget 0 ((launching l []).part 0).bind 112).getLsbD 12 = false := by decide
/-- A launch that writes a load into context slot 0 of element 0: one record to write, or none; the state's slot is touched, or active. -/
def writing (d : BitVec 512) (left : List (Nat × Ctx × List Byte)) : Launch := { launch1 .place 0 with writing := some ⟨d, 0, [0], left⟩ }
def writingIn (l : Launch) (active : Bool) (ops : List SysOp) : State :=
  { raising true active with host := { (raising true active).host with launches := [l] }, fab := { (raising true active).fab with sysops := ops } }
theorem witness_LaunchesGoOn_write :
    let l := writing load0.desc [(0, Ctx.reset, [])]
    let m := writing load0.desc []
    let out := writing (setFld load0.desc 240 8 47) []
    let far := writing (setFld (setFld load0.desc 240 8 47) 256 8 2) []
    let busy : List SysOp := [⟨0, 0, .prio 0 0, [], 0, [], none⟩]
    (nth? (writingIn l false []).host.launches 0 = some l ∧ (writingIn l false []).launchPaused l = false ∧ (writingIn l false []).ctxBusy 0 0 = false ∧
      (writingIn l false []).elemBusy 0 0 = false) ∧
    (writingIn l false busy).ctxBusy 0 0 = true ∧ out.writing.isSome = true ∧
    footIn ((writingIn far false []).part 0).desc (setFld (setFld load0.desc 240 8 47) 256 8 2) = false ∧
    ((writingIn m false []).footOf load0.desc = [0] ∧ footIn ((writingIn m false []).part 0).desc load0.desc = true ∧
      (writingIn m false []).footBarred ((writingIn m false []).part 0).desc load0.desc [0] = false ∧ (writingIn m false []).raiseFails load0.desc [0] = none) ∧
    ((writingIn m true []).raiseFails load0.desc [0]).isSome = true := by decide
/-- Views and parameters: a view request that is absent, a parameter to offer, its answers, and one of a committed iteration. -/
theorem witness_LaunchesGoOn_param :
    let l := launch1 .param 0
    let again : Launch := { l with redo := true }
    let past : State := (launching again []).setColLoad ⟨1, 0, 0, some 1, false, 0⟩
    (nth? (launching l []).host.launches 0 = some l ∧ (launching l []).launchPaused l = false ∧ l.i < lrNparam l.rcd ∧ lrNparam l.rcd ≤ (launch1 .param 1).i) ∧
    ((launch1 .view 4).i = 4 ∧ (lrView (launch1 .view 1).rcd 1).getLsbD 95 = false ∧ (launching (launch1 .view 1) []).launchPaused (launch1 .view 1) = false) ∧
    (l.redo = false ∧ l.asked = .idle) ∧ ({ l with asked := .out } : Launch).asked = .out ∧ ({ l with asked := .got 0 } : Launch).asked = .got 0 ∧
    ({ l with asked := .got 3 } : Launch).asked = .got 3 ∧ nth? past.host.launches 0 = some again ∧
    behind (past.oldest (lrCol again.rcd) (past.launchLoad again)) 0 = true := by decide
/-- A launch of one row whose adapter is none or 5, in a state with n residency slots of which the first is in a state. -/
def rowing (claims : List Nat) (asked : Asked) : Launch := { launch1 .rows 0 with rcd := setFld (rcd1 4) 632 16 1, claims := claims, asked := asked }
def rowsIn (l : Launch) (adapter : Bool) (n st : Nat) : State :=
  let s := launching l []
  let s1 := s.setPart 0 { s.part 0 with nres := n, resident := [(0, ⟨5, 0, 1, 0, st⟩)] }
  { s1 with mem := { s1.mem with mem := (if adapter then [(8, 6)] else []) ++ s1.mem.mem } }
theorem witness_LaunchesGoOn_rows :
    let l := rowing [] .idle
    let g := rowing [0] .idle
    let w : ClaimWait := ⟨6, 0, 0, some (0, 0), mkTag 1 0 0 0 0⟩
    (nth? (rowsIn l true 2 2).host.launches 0 = some l ∧ (rowsIn l true 2 2).launchPaused l = false ∧ l.i < lrNrows l.rcd ∧ lrNrows (launch1 .rows 0).rcd ≤ 0) ∧
    ((match (rowsIn l false 2 2).ldWords 0 (lrRowlist l.rcd) 4 with | .ok bs => bs == List.replicate 32 0 | .error _ => false) = true ∧ nth? l.claims l.i = none) ∧
    ((match (rowsIn l true 2 2).ldWords 0 (lrRowlist l.rcd) 4 with | .ok bs => fld (BitVec.ofNat 256 (ofBytes bs)) 64 64 == (6 : Word) | .error _ => false) = true ∧
      ((rowsIn l true 2 2).part 0).claims = [] ∧ (rowsIn l true 2 2).rowTag l = w.tag ∧ ((rowsIn l true 2 2).colour 1).asid = 0 ∧ l.redo = false) ∧
    (((rowsIn l true 1 2).makeClaim 0 w).isSome = false ∧ ((rowsIn l true 1 2).makeClaim 0 { w with pin := 65535 }).isSome = true) ∧
    nth? (rowing [65536] .idle).claims 0 = some 65536 ∧ (nth? g.claims 0 = some 0 ∧ (tget Resident.free ((rowsIn g true 1 2).part 0).resident 0).state = 2 ∧
      (tget Resident.free ((rowsIn g true 1 1).part 0).resident 0).state ≠ 2) := by decide
/-- A launch that waits for the token of its done port: none is there, or one, clean or poisoned; a launch of two loads; and the last. -/
def taking (l : Launch) (sb : BitVec 8) (there : Bool) : State :=
  let s := launching l [load1]
  { s with fab := { s.fab with tokens := if there then [{ exiting 0 with tag := mkTag 1 0 0 0 0, place := .exitq, sb := sb }] else [] } }
theorem witness_LaunchesGoOn_take :
    let l := launch1 .taking 0
    let done := { launch1 .taking 1 with sender := 112 }
    (nth? (taking l 0 true).host.launches 0 = some l ∧ (taking l 0 true).launchPaused l = false ∧ l.i < lrNdone l.rcd) ∧
    (taking l 0 false).exitToken ⟨0, false, 0, lrDonex l.rcd, some 1⟩ 1 = none ∧ (taking l 0 true).exitToken ⟨0, false, 0, lrDonex l.rcd, some 1⟩ 1 = some 0 ∧
    ((nth? (taking l 0 true).fab.tokens 0).map fun t => sbPZ t.sb) = some false ∧ ((nth? (taking l 32 true).fab.tokens 0).map fun t => sbPZ t.sb) = some true ∧
    lrNdone done.rcd ≤ done.i ∧ 0 + 1 < lrNload (setFld (rcd1 4) 624 8 2) ∧ (done.j + 1 = lrNload done.rcd ∧ done.sender ≠ 0) := by decide
/-- Partition 0 with n residency slots, the first of which holds adapter 5. -/
def resident (n users state : Nat) : Part := { Part.reset with nres := n, resident := [(0, ⟨5, 0, users, 0, state⟩)] }
/-- A row of tag 0 holds slot 0 of one residency slot, and nothing of its iteration is left. -/
def rowed : State := part1.setPart 0 { resident 1 1 2 with rows := [(0, 0)] }
theorem witness_AdapterClaims :
    ((rowed.part 0).rows.filter fun r => r.2 == 0 && rowed.rowOver 0 r.1) = [(0, 0)] ∧
    (resident 2 65535 2).holderOf 5 0 = some 0 ∧ 65535 ≤ (tget Resident.free (resident 2 65535 2).resident 0).users ∧ ((rowed.part 0).rows.filter fun r => r.2 == 1 && rowed.rowOver 0 r.1) = [] ∧
    (resident 2 1 2).holderOf 5 0 = some 0 ∧ (resident 2 1 2).holderOf 6 0 = none ∧ 1 < 65535 ∧ 65535 ≤ 65535 ∧ 65535 ≠ 1 ∧
    (tget Resident.free (resident 2 1 2).resident 1).state = 0 ∧ (tget Resident.free (resident 2 1 2).resident 1).users = 0 ∧
    (tget Resident.free (resident 2 1 2).resident 0).users ≠ 0 ∧ (∀ m, m < (resident 1 1 2).nres → (tget Resident.free (resident 1 1 2).resident m).state ≠ 0) ∧
    (∀ y ∈ (resident 1 1 2).resident, y.2.users ≠ 0) ∧ (tget Resident.free (resident 1 1 1).resident 0).state = 1 ∧ (resident 1 1 2).claims = [] := by decide
/-- An ORPHAN event of colour 1, whose launch says hand over or not. -/
def orphan (oh : Nat) : State :=
  let s := launching { launch1 .taking 0 with rcd := setFld (rcd1 4) 599 1 oh } [load1]
  s.setPart 0 { s.part 0 with events := [mkEvent 3 0 0 0 1 0 0 0 0 0] }
theorem witness_OrphansAndReplays_event :
    (match nth? ((orphan 1).part 0).events 0 with | some ev => (nfld ev 60 4, nfld ev 22 12) | none => (0, 0)) = (3, 1) := by decide
theorem witness_OrphansAndReplays_launch :
    (((orphan 1).launchOf 0 1).map fun l => lrOh l.rcd) = some true ∧ (((orphan 0).launchOf 0 1).map fun l => lrOh l.rcd) = some false := by decide
/-- A comparator's event of colour 1 for iteration 0 of a launch, of which one mismatch has been noted. -/
def mismatched : State :=
  let s := launching (launch1 .taking 0) [load1]
  s.setPart 0 { s.part 0 with events := [mkEvent 1 0xFFF0 0 0 1 0 0 0 0 0], mismatches := [(0, 0)] }
theorem witness_OrphansAndReplays_mismatch :
    (match nth? (mismatched.part 0).events 0 with | some ev => failEvent 1 0 ev && nfld ev 60 4 == 1 && nfld ev 44 16 == 0xFFF0 && tagIter (fld ev 64 64) == 0 | none => false) = true ∧
    mismatched.launchOf 0 1 = some (launch1 .taking 0) ∧ (2 ^ 32 * (launch1 .taking 0).qslot + (launch1 .taking 0).n, 0) ∈ (mismatched.part 0).mismatches := by decide
theorem witness_OrphansAndReplays_none :
    let s : State := { orphan 0 with host := { (orphan 0).host with launches := [] } }
    (match nth? (s.part 0).events 0 with | some ev => nfld ev 60 4 == 3 && s.launchOf 0 (nfld ev 22 12) == none | none => false) = true := by decide
theorem witness_OrphansAndReplays_load :
    (((orphan 0).part 0).events.any fun e => failEvent 1 0 e) = false ∧ (orphan 0).loadIn 0 0 (fun _ => true) = some load1 ∧ (orphan 0).carries 1 load1 1 = false := by decide
/-- An orphan of colour 1 is purged, and a replay of load1 in context slot 0 of a partition whose rectangle is empty begins with a purge: no launch
of the colour runs, or one that is bound there or that is not. -/
def replaying (ls : List Launch) : State := { State.reset with host := { State.reset.host with launches := ls }, fab := { State.reset.fab with loads := [load1] } }
def replayed (ls : List Launch) : Option (Option Launch) :=
  (((replaying ls).setColLoad { (replaying ls).colLoad 1 7 with egen := ((replaying ls).colLoad 1 7).egen + 1 }).purgeNow 0
    (.purge 1 1 ((replaying ls).colLoad 1 7).egen.toNat 0 0) 1).map fun s => s.launchOf 0 1
theorem witness_OrphansAndReplays_replay :
    ((replaying []).setPart 0 { (replaying []).part 0 with events := [mkEvent 3 0 0 0 1 0 0 0 0 0] }).launchOf 0 1 = none ∧
    (((replaying []).dropEvent 0 0).purgeNow 0 (.purge 0 1 0 0 0) 1).isSome = true ∧ (replaying []).loadIn 0 0 (fun _ => true) = some load1 ∧
    (replaying []).carries 1 load1 1 = false ∧ replayed [] = some none ∧ replayed [launch1 .param 0] = some (some (launch1 .param 0)) ∧
    (launch1 .param 0).sender = 0 ∧ replayed [{ launch1 .param 0 with sender := 112 }] = some (some { launch1 .param 0 with sender := 112 }) := by decide
theorem witness_ColoursDrain :
    (offered .idle [load1] 0 0 []).loadIn 0 0 (fun _ => true) = some load1 ∧ colIn ((offered .idle [load1] 0 0 []).part 0).desc 1 = true ∧
    (offered .idle [load1] 0 0 []).fab.tokens = [] ∧ (offered .idle [load1] 0 0 []).port.linkOut = [] ∧
    (offered .idle [load1] 0 0 []).colBusy 0 1 = false ∧ (offered .idle [load1] 0 0 []).drainOf 1 0 = none ∧
    ((offered .idle [load1] 0 0 []).colour 1).inflt = 0 ∧ 0 - 0 < (offered .idle [load1] 0 0 []).window 1 (some load1) * dDepth load1.desc ∧
    dDepth load1.desc = 16 ∧
    (let s : State := { offered .idle [load1] 0 0 [] with host := { (offered .idle [load1] 0 0 []).host with drains := [(1, 0, 1, 5)] }, cycle := 6 }
     s.drainOf 1 0 = some (1, 5) ∧ 5 ≤ s.cycle - 1 ∧ ((s.setColour 1 { Colour.reset with inflt := 1 }).colour 1).inflt ≠ 0 ∧ 4 - 1 < 5) := by decide
/-- An eviction of load1 that has begun, with its path and colours; its launch has a record with save and restore paths or without; a drain of the
colour has begun, or not. -/
def evicting (v : Evicted) (sv : Nat) (drains : List (Nat × Nat × Nat × Nat)) : State :=
  let s := offered .idle [load1] 0 0 []
  let l : Launch := { launch1 .taking 0 with rcd := setFld (rcd1 4) 30 1 sv, sender := 112 }
  { s with host := { s.host with evicted := [v], drains := drains, launches := [l] } }
def evict (g : EvStage) (path : List (Nat × Bool × Nat)) (cols : List (Nat × Nat × Nat × Nat × Nat)) : Evicted := ⟨0, load1.desc, [], cols, 0, g, path, .idle⟩
theorem witness_LoadsAreEvictedAndRestored_start :
    (offered .idle [load1] 0 0 []).loadIn 0 0 (fun x => dLoadid x.desc == 7) = some load1 ∧ (offered .idle [load1] 0 0 []).host.evicted = [] ∧
    ((offered .idle [load1] 0 0 []).part 0).cut = .idle := by decide
theorem witness_LoadsAreEvictedAndRestored_drain :
    let col := (1, 112, 16, 4, 0)
    let v := evict .draining [] [col]
    let s := evicting v 0 []
    let busy : State := { s with fab := { s.fab with sysops := [⟨0, 0, .prio 0 0, [], 0, [], none⟩] } }
    (s.loadIn 0 0 (fun x => dLoadid x.desc == 7) = some load1 ∧ s.host.evicted = [v] ∧ dCtx v.desc = 0 ∧ dLoadid v.desc = 7) ∧ busy.ctxBusy 0 0 = true ∧
    (s.ctxBusy 0 0 = false ∧ s.colBusy 0 1 = false ∧ s.fab.tokens = [] ∧ s.port.linkOut = [] ∧ (evict .draining [] []).cols = []) ∧
    (s.drainOf 1 0 = none ∧ (evict .draining [(1, false, 0)] [col]).path = [(1, false, 0)]) ∧
    ((evicting v 0 [(1, 0, 0, 0)]).drainOf 1 0 = some (0, 0) ∧ 0 ≤ (evicting v 0 [(1, 0, 0, 0)]).cycle - 0 ∧
      ((s.setColour 1 { Colour.reset with inflt := 1 }).colour 1).inflt ≠ 0 ∧ s.cycle - 0 < 2) ∧
    ((s.recordOfCol 0 1).map lrSv = some false ∧ ((evicting v 1 []).recordOfCol 0 1).map lrSv = some true ∧ s.recordOfCol 0 2 = none ∧ v.asked = .idle) ∧
    ((evict .draining [(1, true, 0)] [col]).path = [(1, true, 0)] ∧
      ({ s with fab := { s.fab with tokens := [{ exiting 0 with tag := mkTag 1 0 0 0 0, place := .exitq }] } } : State).exitToken ⟨0, false, 0, 0, some 1⟩ 1 = some 0) := by decide
theorem witness_LoadsAreEvictedAndRestored_drop :
    let v := evict .parked [] []
    let s := evicting v 0 []
    let held : State := { s with port := { s.port with colls := [{ coll1 with e := 0, ctx := 0 }] } }
    s.host.evicted = [v] ∧ s.dropWaits load1.foot 0 [7] = false ∧ s.dropRefused load1.foot 0 [7] = false ∧ held.dropWaits load1.foot 0 [7] = true := by decide
theorem witness_LoadsAreEvictedAndRestored_back :
    let col := (1, 112, 16, 4, 0)
    let out := evict .out [] []
    let back := evict (.back 0) [] [col]
    let s := evicting back 0 []
    (nth? (evicting out 0 []).host.evicted 0 = some out ∧ (evicting out 0 []).slotFor 0 (parseElems true out.desc 2304 0 (out.rcd.drop 64)).1 ≠ some 3) ∧
    (nth? s.host.evicted 0 = some back ∧ s.colBusy 0 1 = false) ∧
    ({ s with fab := { s.fab with sysops := [⟨0, 0, .park 1 0 0, [], 0, [], none⟩] } } : State).colBusy 0 1 = true := by decide

/-! A load image that passes every check of Table 3.15: its digest is the opaque one of its bytes, and that its signature verifies is the
cryptography's. -/

/-- One element record, of a word that is not written out, and a header without its digest. -/
def imgBody : List Byte :=
  let r : List Byte := [0, 0, 0, 1, 0, 0, 0, 0] ++ List.replicate 24 0
  r ++ bvBytes (crc32c r) 4 ++ [0, 0, 0, 0]
def imgZero : BitVec 2048 := pack 2048 [(384, 32, 4), (288, 32, 40), (256, 32, 16), (240, 16, 1), (224, 16, 1), (216, 8, 1), (208, 8, 1), (64, 64, 9), (48, 16, 256),
  (32, 16, 5), (0, 32, 0x444C5744)]
def imgHdr : BitVec 2048 := setFld imgZero 480 512 (Config.sha512 (bvBytes imgZero 256 ++ imgBody)).toNat
/-- Memory with an image list at 0x1000 that names the image at 0x2000, the page table of `mem16`, its zeros written out, and a key that is not revoked. -/
def imgTable : Memory := (rangeFrom 0x4000 8).zip [1, 0x80, 0, 0, 0, 0, 0, 0] ++ (rangeFrom 0x8000 8).zip [0xB, 0, 0, 0, 0, 0, 0, 0]
def imgLaunch : Launch := launch1 .place 0
/-- A load of another graph in every context slot of element 0, or none. -/
def loadV : Load := { load1 with desc := setFld load1.desc 384 64 5 }
def imaged (full : Bool) : State :=
  let s0 := launching imgLaunch (if full then [loadV] else [])
  let s := if full then s0.setElem 0 { s0.elem 0 with ctxs := (rangeFrom 0 4).map fun c => (c, { Ctx.reset with active := true }) } else s0
  { s with
    mem := { s.mem with mem := imgTable ++ [(0x1001, 0x20)] ++ ((rangeFrom 0x2000 256).zip (bvBytes imgHdr 256) ++ (rangeFrom 0x2100 40).zip imgBody) }
    mgmt := { s.mgmt with keystore := [(0, 1 <<< 64)] } }
theorem tget_skip {α : Type} (d : α) (m0 m : Tbl α) (i : Nat) (h : ∀ x ∈ m0, x.1 ≠ i) : tget d (m0 ++ m) i = tget d m i := by
  induction m0 with
  | nil => rfl
  | cons x xs ih =>
    have := h x (List.mem_cons_self ..)
    simp only [List.cons_append, tget, this, if_false]
    exact ih fun y hy => h y (List.mem_cons_of_mem _ hy)
theorem mgetN_skip (m0 m : Memory) (n : Nat) : ∀ a, (∀ x ∈ m0, x.1 < a ∨ a + n ≤ x.1) → mgetN (m0 ++ m) a n = mgetN m a n := by
  induction n with
  | zero => intros; rfl
  | succ n ih =>
    intro a h
    have h1 : ∀ x ∈ m0, x.1 ≠ a := fun x hx => by have := h x hx; omega
    simp only [mgetN, mget, tget_skip _ m0 m a h1, ih (a + 1) fun x hx => by have := h x hx; omega]
theorem mgetN_zip (m : Memory) (bs : List Byte) : ∀ a, mgetN ((rangeFrom a bs.length).zip bs ++ m) a bs.length = bs := by
  induction bs with
  | nil => intro; rfl
  | cons b bs ih =>
    intro a
    have e : (rangeFrom a (b :: bs).length).zip (b :: bs) ++ m = [(a, b)] ++ ((rangeFrom (a + 1) bs.length).zip bs ++ m) := rfl
    rw [e, List.length_cons, mgetN, mgetN_skip _ _ _ _ (by simp), ih]
    simp [mget, tget]
/-- Doublewords of a page that is mapped to itself, none of them poisoned, and under no other key. -/
theorem ldWords_flat (s : State) (t k : Nat) (hk : s.mem.keys = []) (n : Nat) : ∀ va,
    (∀ i, i < n → (va + 8 * i) % 8 = 0 ∧ s.sysRead t (va + 8 * i) 8 = .ok (s.mem.read k (va + 8 * i) 8)) → s.ldWords t va n = .ok (mgetN s.mem.mem va (8 * n)) := by
  have rd : ∀ m a, s.mem.read k a m = mgetN s.mem.mem a m := by
    intro m
    induction m with
    | zero => intro; rfl
    | succ m ih => intro a; simp [Mem.read, mgetN, Mem.read1, Mem.keyOf, hk, tget, ih]
  have app : ∀ m n a, mgetN s.mem.mem a (m + n) = mgetN s.mem.mem a m ++ mgetN s.mem.mem (a + m) n := by
    intro m
    induction m with
    | zero => intro n a; simp [mgetN]
    | succ m ih => intro n a; rw [show m + 1 + n = (m + n) + 1 by omega]; simp [mgetN, ih, Nat.add_assoc, Nat.add_comm 1 m]
  induction n with
  | zero => intros; rfl
  | succ n ih =>
    intro va h
    have h0 := h 0 (by omega)
    simp only [Nat.mul_zero, Nat.add_zero] at h0
    have h1 := ih (va + 8) fun i hi => by have := h (i + 1) (by omega); rwa [show va + 8 * (i + 1) = va + 8 + 8 * i by omega] at this
    simp only [State.ldWords, h0.1, h0.2, h1, rd, ne_eq, not_true_eq_false, if_false]
    rw [show 8 * (n + 1) = 8 + 8 * n by omega, app]
theorem sysRead_flat (s : State) (t k va : Nat) (h : va / 2 ^ 57 = 0 ∧ windowOf va = .none ∧ (s.stewPhys t va false).toOption = some (va, k) ∧ s.mem.bad va 8 = false) :
    s.sysRead t va 8 = .ok (s.mem.read k va 8) := by
  obtain ⟨h1, h2, h3, h4⟩ := h
  have h5 : s.stewPhys t va false = .ok (va, k) := by
    cases hs : s.stewPhys t va false with
    | error e => rw [hs] at h3; cases h3
    | ok x => rw [hs] at h3; cases h3; rfl
  simp only [State.sysRead, h1, h2, h5, h4, ne_eq, not_true_eq_false, if_false, Bool.false_eq_true]
theorem imaged_list : ∀ b, ((imaged b).ldWords 0 0x1000 1).toOption = some [0, 0x20, 0, 0, 0, 0, 0, 0] := by decide
theorem imaged_pages : ∀ b i, i < 37 → (0x2000 + 8 * i) % 8 = 0 ∧ (0x2000 + 8 * i) / 2 ^ 57 = 0 ∧ windowOf (0x2000 + 8 * i) = .none ∧
    ((imaged b).stewPhys 0 (0x2000 + 8 * i) false).toOption = some (0x2000 + 8 * i, 1) ∧ (imaged b).mem.bad (0x2000 + 8 * i) 8 = false := by decide +kernel
theorem ofBytes_toBytes (n : Nat) : ∀ v, ofBytes (toBytes v n) = v % 256 ^ n := by
  induction n with
  | zero => intro v; simp [toBytes, ofBytes, Nat.mod_one]
  | succ n ih =>
    intro v
    simp only [toBytes, ofBytes, ih, BitVec.toNat_ofNat]
    rw [show 256 ^ (n + 1) = 256 * 256 ^ n by rw [Nat.pow_succ, Nat.mul_comm], Nat.mod_mul]
/-- Every field below the digest is the header's before it was set. -/
theorem imgHdr_field (lo len : Nat) (h : lo + len ≤ 480) : nfld imgHdr lo len = nfld imgZero lo len := nfld_setFld_ne _ 480 512 _ lo len (by decide) (.inl h)
theorem imgHdr_fld (lo len : Nat) (h : lo + len ≤ 480) : fld imgHdr lo len = fld imgZero lo len := by
  apply BitVec.eq_of_toNat_eq
  rw [fld_toNat, fld_toNat, imgHdr_field lo len h]
theorem imgHdr_digest : fld imgHdr 480 512 = Config.sha512 (bvBytes imgZero 256 ++ imgBody) :=
  (fld_eq_of_nfld _ 480 512 _ (nfld_setFld _ 480 512 _ (by decide))).trans (BitVec.ofNat_toNat _ _ |>.trans (BitVec.setWidth_eq _))
theorem imgHdr_zeroed : setFld (setFld imgHdr 480 512 0) 992 1056 0 = imgZero := by
  apply BitVec.eq_of_getLsbD_eq
  intro i hi
  have low : ∀ j, 480 ≤ j → imgZero.getLsbD j = false := by
    intro j hj
    have : imgZero.toNat < 2 ^ 480 := by decide
    exact Nat.testBit_lt_two_pow (Nat.lt_of_lt_of_le this (Nat.pow_le_pow_right (by decide) hj))
  simp only [imgHdr, setFld_getLsbD _ _ _ _ _ (show 480 + 512 ≤ 2048 by decide), setFld_getLsbD _ _ _ _ _ (show 992 + 1056 ≤ 2048 by decide)]
  by_cases h1 : 992 ≤ i
  · simp only [h1, low i (by omega)]; simp; omega
  · by_cases h2 : 480 ≤ i
    · simp only [h1, h2, low i h2]; simp; omega
    · simp [h1, h2]
theorem imaged_mem (b : Bool) : (imaged b).mem.mem =
    imgTable ++ [(0x1001, 0x20)] ++ ((rangeFrom 0x2000 256).zip (bvBytes imgHdr 256) ++ (rangeFrom 0x2100 40).zip imgBody) := by cases b <;> rfl
theorem imaged_words (b : Bool) (n a : Nat) (h1 : 0x2000 ≤ a) (h2 : a + 8 * n ≤ 0x2128) (h3 : a % 8 = 0) :
    (imaged b).ldWords 0 a n = .ok (mgetN (imaged b).mem.mem a (8 * n)) := by
  refine ldWords_flat _ 0 1 (by cases b <;> rfl) n a fun i hi => ?_
  have := imaged_pages b ((a + 8 * i - 0x2000) / 8) (by omega)
  rw [show 0x2000 + 8 * ((a + 8 * i - 0x2000) / 8) = a + 8 * i by omega] at this
  exact ⟨this.1, sysRead_flat _ 0 1 _ this.2⟩
theorem rangeFrom_lt (n : Nat) : ∀ a, ∀ k ∈ rangeFrom a n, k < a + n := by
  induction n with
  | zero => intro a k hk; cases hk
  | succ n ih =>
    intro a k hk
    rcases List.mem_cons.mp hk with rfl | hk
    · omega
    · have := ih _ k hk; omega
theorem imgBody_length : imgBody.length = 40 := by decide
theorem toBytes_length (n : Nat) : ∀ v, (toBytes v n).length = n := by
  induction n with
  | zero => intro; rfl
  | succ n ih => intro v; simp [toBytes, ih]
theorem imaged_hdr (b : Bool) : mgetN (imaged b).mem.mem 0x2000 256 = bvBytes imgHdr 256 := by
  have h := mgetN_zip ((rangeFrom 0x2100 40).zip imgBody) (bvBytes imgHdr 256) 0x2000
  rw [show (bvBytes imgHdr 256).length = 256 from toBytes_length 256 _] at h
  rw [imaged_mem, mgetN_skip _ _ _ _ (by decide), h]
theorem imaged_body (b : Bool) : mgetN (imaged b).mem.mem 0x2100 40 = imgBody := by
  have h := mgetN_zip [] imgBody 0x2100
  rw [imgBody_length, List.append_nil] at h
  rw [imaged_mem, mgetN_skip _ _ _ _ (by decide), mgetN_skip _ _ _ _ (fun x hx => ?_), h]
  have := rangeFrom_lt 256 0x2000 _ (List.of_mem_zip hx).1
  omega
theorem imgHdr_bytes : BitVec.ofNat 2048 (ofBytes (bvBytes imgHdr 256)) = imgHdr := by
  have h : imgHdr.toNat < 256 ^ 256 := Nat.lt_of_lt_of_le imgHdr.isLt (by rw [show 256 = 2 ^ 8 from rfl, ← Nat.pow_mul]; exact Nat.le_refl _)
  rw [bvBytes, ofBytes_toBytes, Nat.mod_eq_of_lt h, BitVec.ofNat_toNat, BitVec.setWidth_eq]
theorem imaged_first (b : Bool) : (imaged b).ldWords 0 0x1000 1 = .ok [0, 0x20, 0, 0, 0, 0, 0, 0] := by
  have := imaged_list b
  cases hs : (imaged b).ldWords 0 0x1000 1 with
  | error e => rw [hs] at this; cases this
  | ok x => rw [hs] at this; exact congrArg Except.ok (Option.some.inj this)
theorem imgHdr_heads : (imgHead imgHdr).isSome = false ∧ nfld imgHdr 288 32 = 40 := by
  simp only [imgHead, imgHdr_field _ _ (show 0 + 32 ≤ 480 by decide), imgHdr_field _ _ (show 48 + 16 ≤ 480 by decide), imgHdr_field _ _ (show 32 + 16 ≤ 480 by decide),
    imgHdr_field _ _ (show 288 + 32 ≤ 480 by decide)]
  decide
theorem imaged_read (b : Bool) : (imaged b).readImage imgLaunch imgLaunch.j = .ok (imgHdr, imgBody) := by
  have at_ : lrImglist imgLaunch.rcd + 8 * imgLaunch.j = 0x1000 := by decide
  have a0 : ofBytes [0, 0x20, 0, 0, 0, 0, 0, 0] = 0x2000 := by decide
  have t0 : imgLaunch.thread = 0 := rfl
  have w1 := imaged_words b 32 0x2000 (by decide) (by decide) (by decide)
  have w2 := imaged_words b 5 0x2100 (by decide) (by decide) (by decide)
  rw [show 8 * 32 = 256 from rfl, imaged_hdr] at w1
  rw [show 8 * 5 = 40 from rfl, imaged_body] at w2
  unfold State.readImage
  rw [at_, t0, imaged_first]
  simp only [a0, w1, imgHdr_bytes, imgHdr_heads.1, imgHdr_heads.2, Bool.false_eq_true, if_false]
  rw [show 0x2000 + 256 = 0x2100 from rfl, show ceilDiv 40 8 = 5 from rfl, w2]
  simp only [List.take_of_length_le (Nat.le_of_eq imgBody_length)]
theorem imgHdr_desc : descOf imgHdr 0 0 = descOf imgZero 0 0 ∧ imgNrec imgHdr = 1 := by
  have e : ∀ lo len, lo + len ≤ 480 → nfld imgHdr lo len = nfld imgZero lo len := imgHdr_field
  refine ⟨?_, (e 224 16 (by decide)).trans (by decide)⟩
  simp only [descOf, e 64 64 (by decide), e 128 64 (by decide), e 256 32 (by decide), e 384 32 (by decide), e 336 16 (by decide), e 320 16 (by decide),
    e 240 16 (by decide), e 216 8 (by decide), e 208 8 (by decide), e 200 8 (by decide), e 192 8 (by decide), e 32 4 (by decide), e 352 32 (by decide)]
theorem imgBody_parts : (splitRecs 1 imgBody).foldl (fun n l => n + recLen l) 0 = 40 ∧ ((splitRecs 1 imgBody).any fun l => !recCrc l) = false ∧
    recsOk (descOf imgZero 0 0) 0 (splitRecs 1 imgBody) = true := by decide
theorem imgHdr_fields : imgFields imgHdr 0 = true := by
  have e : ∀ lo len, lo + len ≤ 480 → nfld imgHdr lo len = nfld imgZero lo len := imgHdr_field
  simp only [imgFields, imgHdr_desc.2, e 416 64 (by decide), e 208 8 (by decide), e 216 8 (by decide), e 192 8 (by decide), e 200 8 (by decide), e 240 16 (by decide),
    e 256 32 (by decide), e 384 32 (by decide), imgHdr_fld 128 64 (by decide)]
  decide
theorem imaged_key (b : Bool) : lfind (fun k => nfld k.2 0 32 == nfld imgHdr 352 32 && bit k.2 64 && !bit k.2 66) (imaged b).mgmt.keystore =
    some ((0, 1 <<< 64) : Nat × BitVec 1152) := by
  rw [imgHdr_field 352 32 (by decide)]
  cases b <;> decide
theorem imageFails_none (s : State) (h : BitVec 2048) (body : List Byte) (g : Word) (k : Nat × BitVec 1152) (h0 : imgHead h = none) (hf : imgFields h g = true)
    (hl : (splitRecs (imgNrec h) body).foldl (fun n l => n + recLen l) 0 = nfld h 288 32)
    (hd : Config.sha512 (bvBytes (setFld (setFld h 480 512 0) 992 1056 0) 256 ++ body) = fld h 480 512)
    (hk : lfind (fun k => nfld k.2 0 32 == nfld h 352 32 && bit k.2 64 && !bit k.2 66) s.mgmt.keystore = some k)
    (hv : ∀ k l g, Config.ecdsaVerify k l g = true) (hc : ((splitRecs (imgNrec h) body).any fun l => !recCrc l) = false)
    (hr : recsOk (descOf h 0 0) 0 (splitRecs (imgNrec h) body) = true) : s.imageFails h body g = none := by
  unfold State.imageFails
  simp only [h0, hf, hl, hd, hk, hv, hc, hr, Bool.not_true, Bool.false_or, bne_self_eq_false, ne_eq, not_true_eq_false, Bool.false_eq_true, if_false]
theorem imaged_passes (hv : ∀ k l g, Config.ecdsaVerify k l g = true) (b : Bool) : (imaged b).imageFails imgHdr imgBody 0 = none := by
  refine imageFails_none _ _ _ _ _ (by simpa using imgHdr_heads.1) imgHdr_fields ?_ ?_ (imaged_key b) hv ?_ ?_
  · rw [imgHdr_desc.2, imgHdr_heads.2, imgBody_parts.1]
  · rw [imgHdr_zeroed, imgHdr_digest]
  · rw [imgHdr_desc.2, imgBody_parts.2.1]
  · rw [imgHdr_desc.1, imgHdr_desc.2, imgBody_parts.2.2]
/-- That a signature verifies is the cryptography's (an opaque constant); with one that does, the image passes and the load finds context slot 0, or none. -/
theorem witness_LaunchesGoOn_image (hv : ∀ k l g, Config.ecdsaVerify k l g = true) (b : Bool) :
    nth? (imaged b).host.launches 0 = some imgLaunch ∧ (imaged b).launchPaused imgLaunch = false ∧ (imaged b).queued imgLaunch = false ∧
    (imaged b).readImage imgLaunch imgLaunch.j = .ok (imgHdr, imgBody) ∧ (imaged b).residentLoad 0 imgHdr = none ∧
    (imaged b).imageFails imgHdr imgBody (lrGraphid imgLaunch.rcd) = none ∧
    (imaged b).slotFor 0 (parseElems false (descOf imgHdr 0 0) (imgNrec imgHdr) 0 imgBody).1 = if b then none else some 0 := by
  have g : lrGraphid imgLaunch.rcd = 0 := by decide
  refine ⟨by cases b <;> rfl, by cases b <;> decide, by cases b <;> decide, imaged_read b, ?_, by rw [g]; exact imaged_passes hv b, ?_⟩
  · simp only [State.residentLoad, imgHdr_fld 64 64 (by decide), imgHdr_fld 128 64 (by decide)]
    cases b <;> decide
  · rw [imgHdr_desc.1, imgHdr_desc.2]
    cases b <;> decide
/-- The launch of that image calls for the eviction of the load that is in its place. -/
theorem imaged_victim : firstVictim (imaged true) ((imaged true).fab.loads.filter fun x => x.part == 0 && dGraphid x.desc != (0 : Word) && x.foot.any fun e =>
    (parseElems false (descOf imgZero 0 0) 1 0 imgBody).1.any fun r => r.1 == e) = some loadV := by decide
theorem victimOf_first (s : State) (l : Launch) (h : BitVec 2048) (body : List Byte) (x : Load) (st : l.stage = .place) (wr : l.writing = none)
    (r : s.readImage l l.j = .ok (h, body)) (q : s.queued l = false) (f : s.imageFails h body (lrGraphid l.rcd) = none) (n : s.residentLoad l.part h = none)
    (c : s.slotFor l.part (parseElems false (descOf h 0 0) (imgNrec h) 0 body).1 = none)
    (v : firstVictim s (s.fab.loads.filter fun x => x.part == l.part && dGraphid x.desc != fld h 128 64 && x.foot.any fun e =>
      (parseElems false (descOf h 0 0) (imgNrec h) 0 body).1.any fun r => r.1 == e) = some x) : s.victimOf l = some x := by
  unfold State.victimOf
  simp only [r, q, f, n, c, st, wr, Option.isSome_none, Bool.or_false, bne_self_eq_false, Bool.false_eq_true, if_false]
  exact v
theorem witness_LoadsAreEvictedAndRestored_victim (hv : ∀ k l g, Config.ecdsaVerify k l g = true) :
    (imaged true).loadIn 0 0 (fun x => dLoadid x.desc == 7) = some loadV ∧ (imaged true).host.evicted = [] ∧ imgLaunch ∈ (imaged true).host.launches ∧
    imgLaunch.part = 0 ∧ (imaged true).victimOf imgLaunch = some loadV ∧ ((imaged true).part 0).cut = .idle := by
  obtain ⟨-, -, q, r, n, f, c⟩ := witness_LaunchesGoOn_image hv true
  refine ⟨by decide, rfl, .head _, rfl, ?_, rfl⟩
  have g : fld imgHdr 128 64 = 0 := (imgHdr_fld 128 64 (by decide)).trans (by decide)
  refine victimOf_first _ _ _ _ _ rfl rfl r q f n c ?_
  rw [g, imgHdr_desc.1, imgHdr_desc.2]
  exact imaged_victim

/-! ### Witnesses: boot, telemetry, attestation and the step -/

/-- The management core at a number of stages done. -/
def booted (n : Nat) (failed : Bool) : State := { State.reset with mgmt := { State.reset.mgmt with boot := n, failed := failed } }
theorem witness_BootStagesRunInOrder :
    (booted 7 false).mgmt.boot = 7 ∧ (booted 6 false).mgmt.boot < 7 ∧ (booted 6 false).mgmt.failed = false ∧ stageOk (tget 0 (booted 6 false).mgmt.slots 1) 6 true [] 0 = true ∧
    stageOk (tget 0 (booted 5 false).mgmt.slots 1) 5 true [] 0 = true ∧ stageOk (tget 0 (booted 0 false).mgmt.slots 1) 0 false [] 0 = false ∧
    (booted 3 true).mgmt.boot < 7 ∧ (booted 3 true).mgmt.failed = true := by decide
theorem witness_SideBandCommands :
    State.reset.mgmt.keystore = [] ∧ ({ State.reset.mgmt with keystore := [(0, 1)] } : Mgmt).keystore ≠ [] ∧ (∀ p ∈ State.reset.parts, pV p.2.desc = false) ∧
    (∃ p ∈ part1.parts, pV p.2.desc = true) ∧ (600 ≤ (600 : Word).toNat ∧ (2600 : Word).toNat ≤ 2600 ∧ (599 : Word).toNat < 600 ∧ 2600 < (2601 : Word).toNat) ∧
    State.reset.mgmt.sideband = 0 ∧ ({ State.reset.mgmt with sideband := 1 } : Mgmt).sideband ≠ 0 ∧
    ((booted 7 false).mgmt.failed = false ∧ 0 < (booted 7 false).mgmt.boot ∧ (booted 7 false).mgmt.boot < 8) ∧ ((booted 0 true).mgmt.failed = true ∧ (booted 0 true).mgmt.boot < 8) ∧
    (0x1FFFF < 0x20000 ∧ 0x20038 ≤ 0x20038 ∧ 0x20001 % 8 ≠ 0 ∧ 0x20030 % 8 = 0 ∧ 0x20000 ≤ 0x20030) := by decide
theorem witness_SideBandCommands_host :
    (booted 7 false).mgmt.boot = 7 ∧ (booted 7 false).mgmt.failed = false ∧ nth? ({ Part.reset with kept := [5] } : Part).kept 0 = some 5 ∧
    nth? (State.reset.part 15).kept 15 = none ∧ (7 < 8 ∧ 15 < 16 ∧ 6 < 7) ∧ (0x3F < 0x40 ∧ 0x80 ≤ 0xFFF ∧ 0xFFF < 0x1000 ∧ 0x1400 ≤ 0x20018 ∧ 0x20018 ≠ 0x20010) := by decide
/-- A step of the clock, with the junction hot since cycle 0, in a cycle. -/
def heated (fclk cyc : Nat) (hot : Option Nat) : State := { part1 with cycle := cyc, mgmt := { part1.mgmt with fclk := fclk, hot := hot } }
theorem witness_ClockAndHeat :
    ((heated 2 0 none).mgmt.pcap < 2601 ∧ 800 ≤ 800 ∧ (heated 2 0 none).mgmt.fclk < 3 ∧ (heated 3 0 none).mgmt.fclk = 3) ∧
    ¬ ((heated 0 0 none).mgmt.pcap < 2600 ∨ 800 ≤ 799) ∧ (2599 < (heated 0 0 none).mgmt.pcap ∧ 799 < 800 ∧ (heated 0 13000000 none).mgmt.cool + 10000 * 1300 ≤ 13000000) ∧
    (¬ 2600 < (heated 0 0 none).mgmt.pcap ∧ (heated 0 12999999 none).cycle < (heated 0 12999999 none).mgmt.cool + 10000 * 1300) ∧
    (840 ≤ 840 ∧ 840 < 841 ∧ (heated 2 0 none).mgmt.fclk ≠ 3) ∧ ((heated 3 9 none).mgmt.hot = none ∧ (heated 3 9 (some 0)).mgmt.hot = some 0) ∧
    ((heated 3 649999 (some 0)).cycle < 0 + 650000 ∧ 0 + 650000 ≤ (heated 3 650000 (some 0)).cycle ∧ (heated 3 650000 (some 0)).fab.tokens = [] ∧
      pV ((heated 3 650000 (some 0)).part 0).desc = true) ∧
    State.reset.port.linkOut = [] ∧ State.reset.port.accesses = [] := by decide
/-- An SPDM transport with sessions 1 and 2, of which 2 is being opened. -/
def asking (st : Nat) (sess : List Nat) : State :=
  let s := booted 7 false
  { s with mgmt := { s.mgmt with spdm := [(0, { Spdm.reset with state := st, sessions := sess, opening := [2] }), (1, { Spdm.reset with resynch := true })] } }
theorem witness_SpdmAnswers :
    ((asking 3 [1, 2]).mgmt.boot = 7 ∧ (asking 3 [1, 2]).mgmt.failed = false ∧ ((asking 3 [1, 2]).spdm 0).resynch = false ∧ ((asking 3 [1, 2]).spdm 1).resynch = true) ∧
    (3 ≤ ((asking 3 [1, 2]).spdm 0).state ∧ ((asking 1 []).spdm 0).state = 1 ∧ ((asking 2 []).spdm 0).state = 2 ∧ ((asking 2 []).spdm 0).state < 3) ∧
    (1 ∈ ((asking 3 [1, 2]).spdm 0).sessions ∧ 1 ∉ ((asking 3 [1, 2]).spdm 0).opening ∧ 2 ∈ ((asking 3 [1, 2]).spdm 0).sessions ∧
      2 ∈ ((asking 3 [1, 2]).spdm 0).opening ∧ 5 ∉ ((asking 3 [1, 2]).spdm 0).sessions) ∧
    (4 ≤ ((asking 3 [1, 2, 3, 4]).spdm 0).sessions.length ∧ ((asking 3 [1, 2]).spdm 0).sessions.length < 4) ∧
    ((List.replicate 32 (0 : Byte)).length = 32 ∧ (List.replicate 33 (0 : Byte)).length = 33 ∧ (List.replicate 33 (0 : Byte)).head? = some 0 ∧
      (List.replicate 33 (1 : Byte)).head? ≠ some 0 ∧ (List.replicate 132 (0 : Byte)).length = 132 ∧ ([] : List Byte).length ≠ 132 ∧ ([] : List Byte).length ≠ 33) ∧
    (5 ≠ 0x12 ∧ 5 ≠ 0x13 ∧ 5 < 256 ∧ 5 ≠ 0 ∧ 24 ≤ 24 ∧ 24 < 25 ∧ 25 < 0xFF ∧ 512 ≤ 512) ∧
    ¬ (State.reset.mgmt.boot = 7 ∧ State.reset.mgmt.failed = false) ∧ State.reset.mgmt.failed = false := by decide
theorem witness_DecodeReadsWhatEncodeWrites : encodable (.copy copyOps) = true := by decide
theorem witness_DecodeDropsNoBit : (decode 0xEB00FFFFFFFFF0000000000000000005).toOption = some (.trap { ops0 with imm := 5 }) := by decide
/-- A thread that runs in an image of two words of which the second is illegal, and one that has been halted. -/
def running : State :=
  let s := State.reset.setThread 0 { Thread.reset with started := true }
  { s with agenda := [.run 0], stew := { s.stew with images := [(0, ⟨5, [(0, 0xEB00FFFFFFFFF0000000000000000005)], 2, 0, 0⟩)] } }
theorem witness_StepRunsTheDecodedInstruction :
    (nod copyWord 0 5 6).focus = .node (fir copyWord 0 [(0, some (tok 0 0 5)), (1, some (tok 1 0 6))]) ∧ (decode copyWord).toOption = some (.copy copyOps) ∧
    running.focus = .thread 0 ∧ running.agenda = .run 0 :: [] ∧ running.runnable 0 = true ∧ ({ running with agenda := [] } : State).nextThread = some 0 ∧
    (running.thread 0).pc.toNat < (running.image 0).size ∧ legal (running.image 0).version .steward (.trap { ops0 with imm := 5 }) = true ∧
    ((decode (tget 0 (running.image 0).words 1)).toOption.map fun i => legal 5 .steward i) = some false ∧
    State.reset.runnable 0 = false ∧ State.reset.nextThread = none ∧ State.reset.agenda = [] := by decide
theorem witness_StepRunsTheDecodedInstruction_events :
    encode (.debugHalt 3) = none ∧ (encode (.copy copyOps)).isSome = true ∧ ({ State.reset with agenda := [.happen (.debugHalt 3)] } : State).focus = .thread 0 ∧
    (∀ t, Move.setQuantum 5 ≠ .run t) ∧ (∀ i, Move.setQuantum 5 ≠ .happen i) ∧ Move.setQuantum 5 ≠ .tick := ⟨rfl, by decide, rfl, fun _ => nofun, fun _ => nofun, nofun⟩
/-- A cycle that brings a choice at an element, and one that brings nothing: every renewal is of a later cycle. -/
def choosing : State := elemWith copyWord [tokAt (.cand 0)]
theorem witness_StepRunsTheDecodedInstruction_due :
    State.reset.due = none ∧ choosing.due = some (.choice 0) := by decide
/-- From reset, where memory has its canonical form, a step answers a next state. -/
theorem witness_StepsKeepMemoryCanonical : Canonical State.reset ∧ (match step State.reset with | .next _ => true | _ => false) = true := by
  refine ⟨?_, by decide⟩
  unfold Canonical; decide

/-! ### Small steps, with results from the spec's worked values (02, 04, 01) -/

/-- What w4 and bits 4:0 of STATUS hold after a word with operands a, b and c in w1, w2 and w3. -/
def alu (i : Ops → Instr) (ty : Ty) (fl : BitVec 12) (imm : BitVec 16) (n : Nat) (a b c : Word) : Option (Word × Nat) :=
  let o : Ops := ⟨ty, .reg 1, if n < 2 then .none else .reg 2, if n < 3 then .none else .reg 3, 0x800004, 0, fl, imm⟩
  match exec (i o) (sup a b c) with | .next s => some ((s.thread 0).reg 4, nfld (s.thread 0).status 0 5) | _ => none
theorem test_add_wraps : alu .add .i8 0 0 2 100 100 0 = some (-56, 0) := by decide
theorem test_adds_clamps : alu .adds .i8 0 0 2 100 100 0 = some (127, 4) := by decide
theorem test_subs_clamps : alu .subs .u8 0 0 2 3 5 0 = some (0, 4) := by decide
theorem test_div_truncates : alu .div .i32 0 0 2 (-7) 2 0 = some (-3, 0) := by decide
theorem test_rem_sign : alu .rem .i32 0 0 2 (-7) 2 0 = some (-1, 0) := by decide
theorem test_divu_zero : alu .divu .u32 0 0 2 7 0 0 = some (0xFFFFFFFF, 8) := by decide
theorem test_div_overflow : alu .div .i8 0 0 2 (-128) (-1) 0 = some (-128, 4) := by decide
theorem test_mulh : alu .mulh .i32 0 0 2 0x40000000 4 0 = some (1, 0) ∧ alu .mulh .i32 0 0 2 0xFFFFFFFF 0xFFFFFFFF 0 = some (0, 0) := by decide
theorem test_mulhu : alu .mulhu .u32 0 0 2 0xFFFFFFFF 0xFFFFFFFF 0 = some (0xFFFFFFFE, 0) := by decide
theorem test_sar_modulo : alu .sar .i32 0 0 2 (-8) 33 0 = some (-4, 0) := by decide
theorem test_rol : alu .rol .u8 0 0 2 0x81 1 0 = some (3, 0) := by decide
theorem test_clz_ctz : alu .clz .u32 0 0 1 0 0 0 = some (32, 0) ∧ alu .ctz .u8 0 0 1 8 0 0 = some (3, 0) := by decide
theorem test_bswap : alu .bswap .u32 0 0 1 0x11223344 0 0 = some (0x44332211, 0) := by decide
theorem test_bfx : alu .bfx .i32 0 0 2 0xF00 0x408 0 = some (-1, 0) ∧ alu .bfx .u32 0 0 2 0xF00 0x408 0 = some (15, 0) := by decide
theorem test_bfi : alu .bfi .u32 0 0 3 0xFFFFFFFF 0 0x804 = some (0xFFFFF00F, 0) := by decide
theorem test_sext : alu .sext .x64 0 0 2 0x80 8 0 = some (0xFFFFFFFFFFFFFF80, 0) := by decide
theorem test_addx : alu .addx .x64 0 0 3 0x1000 3 3 = some (0x1018, 0) := by decide
/-- −2.75 in f16 and bf16. -/
theorem test_fcvt_narrows : alu .fcvt .f16 0 10 1 0xC0300000 0 0 = some (0xC180, 0) ∧ alu .fcvt .bf16 0 10 1 0xC0300000 0 0 = some (0xC030, 0) := by decide
/-- 70,000.0 to f16 without and with SAT, and under RTZ (RM 1). -/
theorem test_fcvt_overflow :
    alu .fcvt .f16 0 10 1 0x4788B800 0 0 = some (0x7C00, 5) ∧ alu .fcvt .f16 0x100 10 1 0x4788B800 0 0 = some (0x7BFF, 5) ∧
    alu .fcvt .f16 0x040 10 1 0x4788B800 0 0 = some (0x7BFF, 5) := by decide
/-- 1.0 + 2^-24 in f32 is a tie, which goes to the even 1.0 with IX; 1.0 + 1.0 is exact. -/
theorem test_fadd : alu .fadd .f32 0 0 2 0x3F800000 0x33800000 0 = some (0x3F800000, 1) ∧ alu .fadd .f32 0 0 2 0x3F800000 0x3F800000 0 = some (0x40000000, 0) := by decide
theorem test_fdiv_zero : alu .fdiv .f32 0 0 2 0x3F800000 0 0 = some (0x7F800000, 8) := by decide
/-- R112's fields: the tag of colour 0x034, slot 1, generation 2 and iteration 5 (01, "Worked tag"). -/
theorem test_worked_tag : mkTag 0x34 1 2 0 5 = 0x0344800000000140 := by decide
/-- The program counter after a word, a branch taken backwards from word 5, and a call with its link. -/
theorem test_branch_call :
    (match exec (.br { ops0 with imm := -3 }) ((sup 0 0 0).setThread 0 { Thread.reset with pc := 5 }) with | .next s => some (s.thread 0).pc | _ => none) = some 2 ∧
    (match exec (.call { ops0 with imm := 9, t0 := 0x800004 }) ((sup 0 0 0).setThread 0 { Thread.reset with pc := 5 }) with
      | .next s => some ((s.thread 0).pc, (s.thread 0).reg 4) | _ => none) = some (14, 6) := by decide
/-- ADD.i32 in the fabric: the firing leaves the result for the unit, and the step ends. -/
theorem test_fabric_add :
    (match step (nod addWord 0 5 6) with | .next s => s.fab.units.map fun u => u.outs.map fun x => (x.target, x.pay) | _ => []) = [[(0xE00004, 11)]] := by decide
/-- TRAP saves the address of the next word and goes to TVEC in supervisor mode (R259). -/
theorem test_trap :
    (match exec (.trap { ops0 with imm := 5 }) ((sup 0 0 0).setThread 0 { Thread.reset with pc := 7, tvec := 0x40, status := 0 }) with
      | .next s => some ((s.thread 0).pc, (s.thread 0).epc, (s.thread 0).super) | _ => none) = some (0x40, 8, true) := by decide
/-- A store of 0x1234 as i16 and the load of its upper byte as i8, in a page that is mapped to itself: byte order (R138). -/
theorem test_store_load :
    (match exec (.st { ops0 with ty := .i16, a := .reg 1, b := .reg 2 }) { sup 0x20000 0x1234 0 with mem := mem16 } with
      | .next s => (match exec (.ld { ops0 with ty := .i8, a := .reg 1, imm := 1, t0 := 0x800004 }) s with | .next u => some ((u.thread 0).reg 4) | _ => none)
      | _ => none) = some 0x12 := by decide
/-- SEL narrows to its type (R139, R24): the literal −1 and IMM 0x80 and 0x180. -/
theorem test_sel_narrows :
    (match exec (.sel { ops0 with ty := .u8, a := .reg 1, b := .lit 0x3FF, c := .reg 2, t0 := 0x800004 }) (sup 1 0 0) with
      | .next s => some ((s.thread 0).reg 4) | _ => none) = some 0xFF ∧ alu .sel .i8 0 0 3 0 0x80 0x180 = some (-128, 0) := by decide
/-- The S-box and one column mixed, as in the worked example of FIPS 197 (5.1.1 and appendix B), and word 8 of the key schedule of its appendix A.3. -/
theorem test_aes : sbox 0x53 = 0xED ∧ sbox 0 = 0x63 ∧ mixColumn [0xD4, 0xBF, 0x5D, 0x30] = [0x04, 0x66, 0x81, 0xE5] ∧
    ((keyWord (fours 8 [0x60, 0x3D, 0xEB, 0x10, 0x15, 0xCA, 0x71, 0xBE, 0x2B, 0x73, 0xAE, 0xF0, 0x85, 0x7D, 0x77, 0x81,
      0x1F, 0x35, 0x2C, 0x07, 0x3B, 0x61, 0x08, 0xD7, 0x2D, 0x98, 0x10, 0xA3, 0x09, 0x14, 0xDF, 0xF4]).reverse 8).headD []) = [0x9B, 0xA3, 0x54, 0x11] := by decide

end Sys2Proof.Tests
end

section
/-! SUPPORT. What a node that reads or writes buffer slots does (05 R160 to R164, R175), said once: how it is handed to its unit, and the
cases of `State.slotNode` and `State.scalarNode`. -/

namespace Sys2Proof.Machine

open Sys2Proof.Claims

/-! ### Books: what latching and counting leave unchanged -/

/-- The second state differs from the first at most in latches, credit and the counts of tokens in flight, and in what runs next. -/
structure BooksOnly (s s' : State) : Prop where
  units : s'.fab.units = s.fab.units
  tokens : s'.fab.tokens = s.fab.tokens
  mem : s'.mem = s.mem
  stew : s'.stew = s.stew
  parts : s'.parts = s.parts
  cycle : s'.cycle = s.cycle
  ctxs : ∀ e, (s'.elem e).ctxs = (s.elem e).ctxs
  pool : ∀ e, (s'.elem e).pool = (s.elem e).pool

theorem BooksOnly.refl (s : State) : BooksOnly s s := ⟨rfl, rfl, rfl, rfl, rfl, rfl, fun _ => rfl, fun _ => rfl⟩

theorem BooksOnly.trans {s t u : State} (h : BooksOnly s t) (k : BooksOnly t u) : BooksOnly s u :=
  ⟨k.units.trans h.units, k.tokens.trans h.tokens, k.mem.trans h.mem, k.stew.trans h.stew, k.parts.trans h.parts, k.cycle.trans h.cycle,
    fun e => (k.ctxs e).trans (h.ctxs e), fun e => (k.pool e).trans (h.pool e)⟩

/-- Neither buffers nor the time at which a unit is free depend on the books. -/
theorem BooksOnly.buf {s s' : State} (h : BooksOnly s s') (e c b : Nat) : s'.buf e c b = s.buf e c b := by
  simp only [State.buf, State.ctx, h.ctxs]

theorem BooksOnly.ctx {s s' : State} (h : BooksOnly s s') (e c : Nat) : s'.ctx e c = s.ctx e c := by
  simp only [State.ctx, h.ctxs]

theorem booksOnly_setElem (s : State) (e : Nat) (v : Elem) (hc : v.ctxs = (s.elem e).ctxs) (hp : v.pool = (s.elem e).pool) :
    BooksOnly s (s.setElem e v) := by
  refine ⟨rfl, rfl, rfl, rfl, rfl, rfl, fun e' => ?_, fun e' => ?_⟩ <;>
  · rw [State.elem_setElem]
    split
    · next h => subst h; assumption
    · rfl

theorem booksOnly_setColour (s : State) (c : Nat) (v : Colour) : BooksOnly s (s.setColour c v) :=
  ⟨rfl, rfl, rfl, rfl, rfl, rfl, fun _ => rfl, fun _ => rfl⟩

theorem State.latch_booksOnly (s : State) (f : Firing) (o : Ops) (bits : BitVec 8) : BooksOnly s (s.latch f o bits) := by
  unfold State.latch
  split
  · exact booksOnly_setElem _ _ _ rfl rfl
  · exact .refl s

theorem State.settle_booksOnly (s : State) (e c consumed sent : Nat) : BooksOnly s (s.settle e c consumed sent) := by
  unfold State.settle
  split
  · exact booksOnly_setElem _ _ _ rfl rfl
  · obtain h | ⟨v, h⟩ := s.inflDown_frame c (consumed - sent)
    · rw [h]; exact .refl s
    · rw [h]; exact booksOnly_setColour s c v

/-! ### Handing a firing to the vector or matrix unit -/

variable (s : State) (f : Firing) (o : Ops) (u : Nat) (acc : Option Nat) (lat : Nat) (outs : List Out) (w : Option SlotWrite) (args : List Arg)
  (bits : BitVec 8)

/-- The unit's list apart, a firing handed to a unit changes the books alone. -/
theorem State.toUnitOf_eq : ∃ t, BooksOnly s t ∧ s.toUnitOf f o u acc lat outs w args bits =
    { t with
      fab := { t.fab with units := s.fab.units ++ [⟨f.e, f.ctx, f.slot, f.tag, s.unitFree f.e u + lat, u, acc, outs, w, releases args, []⟩] }
      focus := .thread 0 } := by
  have h := (s.latch_booksOnly f o bits).trans (State.settle_booksOnly _ f.e (tagCol f.tag) f.count (outCount outs))
  exact ⟨_, h, by rw [← h.units]; rfl⟩

theorem State.toUnitOf_units : (s.toUnitOf f o u acc lat outs w args bits).fab.units =
    s.fab.units ++ [⟨f.e, f.ctx, f.slot, f.tag, s.unitFree f.e u + lat, u, acc, outs, w, releases args, []⟩] := by
  obtain ⟨t, -, h⟩ := s.toUnitOf_eq f o u acc lat outs w args bits
  rw [h]

/-- What the rest of the machine sees of a firing handed to a unit: nothing. -/
theorem State.toUnitOf_frame :
    let s' := s.toUnitOf f o u acc lat outs w args bits
    s'.mem = s.mem ∧ s'.stew = s.stew ∧ s'.parts = s.parts ∧ s'.fab.tokens = s.fab.tokens ∧ s'.focus = .thread 0 := by
  obtain ⟨t, k, h⟩ := s.toUnitOf_eq f o u acc lat outs w args bits
  rw [h]
  exact ⟨k.mem, k.stew, k.parts, k.tokens, rfl⟩

theorem State.toUnitOf_ctx (e c : Nat) : (s.toUnitOf f o u acc lat outs w args bits).ctx e c = s.ctx e c := by
  obtain ⟨t, k, h⟩ := s.toUnitOf_eq f o u acc lat outs w args bits
  rw [h]
  exact k.ctx e c

theorem State.toUnitOf_buf (e c b : Nat) : (s.toUnitOf f o u acc lat outs w args bits).buf e c b = s.buf e c b := by
  simp only [State.buf, State.toUnitOf_ctx]

/-! ### Side-bands and targets -/

/-- The copies that the statements write out are those that the model sends. -/
theorem outBoth_eq_both (x : Out) : outBoth o x = both o x := by
  unfold outBoth both
  by_cases h0 : o.t0 = 0 <;> by_cases h1 : o.t1 = 0 <;> simp_all

theorem sbOr_cons_zero (b : BitVec 8) : sbOr [b, 0] = b &&& 0x7F := by simp [sbOr]

/-- A node without another source of bits takes the side-band of its operands. -/
@[simp] theorem sbOr_argsSb_zero : sbOr [argsSb args, 0] = argsSb args := by
  rw [sbOr_cons_zero, argsSb, sbOr, BitVec.and_assoc, BitVec.and_self]

/-! ### The cases of a node that writes a slot -/

section SlotNode
variable (extra : BitVec 8) (width more : Nat) (body : Option SlotRes)

theorem State.slotNode_fault {i : FaultInfo} (h : s.argsFault f args = some i) :
    s.slotNode f o args extra width more body = s.faultFiring f i := by
  simp only [State.slotNode, h]

theorem State.slotNode_dead (h : s.argsFault f args = none) (d : sbDead (sbOr [argsSb args, extra]) = true) :
    s.slotNode f o args extra width more body = s.toUnitOf f o 1 none (vecCycles width (argLines args) + more)
      (outBoth o (refOut f (sbOr [argsSb args, extra]) 0)) none args (sbOr [argsSb args, extra]) := by
  simp only [State.slotNode, h, d, if_true]

theorem State.slotNode_noBuffer (h : s.argsFault f args = none) (d : sbDead (sbOr [argsSb args, extra]) = false)
    (n : s.buf f.e f.ctx (nfld o.imm 0 5) = none) :
    s.slotNode f o args extra width more body = s.faultFiring f (f.info cBuffer (sbOr [argsSb args, extra])) := by
  simp only [State.slotNode, h, d, n, Bool.false_eq_true, if_false]

theorem State.slotNode_writes {b : Buf} {r : SlotRes} (h : s.argsFault f args = none) (d : sbDead (sbOr [argsSb args, extra]) = false)
    (hb : s.buf f.e f.ctx (nfld o.imm 0 5) = some b) (he : (b.slot b.widx).full = false) (hr : r.lines ≤ b.size) :
    s.slotNode f o args extra width more (some r) =
      (s.reserveSlot f.e f.ctx (nfld o.imm 0 5) b).toUnitOf f o 1 none
        (vecCycles width (if argLines args < r.lines then r.lines else argLines args) + more)
        (outBoth o (refOut f (sbOr [argsSb args, extra] ||| (r.bits &&& 0x1F)) (mkRef (nfld o.imm 0 5) b.widx r.lines)))
        (some ⟨nfld o.imm 0 5, b.widx, r.data, r.lines, r.hv, r.hdr, r.scale, bit o.fl 5⟩) args
        (sbOr [argsSb args, extra] ||| (r.bits &&& 0x1F)) := by
  simp only [State.slotNode, h, d, hb, he, Nat.not_lt.mpr hr, Bool.false_eq_true, if_false]

end SlotNode

/-- A reservation changes the slots and the write index of its buffer; units, memory and tokens are as before. -/
theorem State.reserveSlot_unitFree (e c n e' u : Nat) (b : Buf) : (s.reserveSlot e c n b).unitFree e' u = s.unitFree e' u := rfl

theorem State.reserveSlot_buf (e c n : Nat) (b : Buf) : (s.reserveSlot e c n b).buf e c n =
    some { b with slots := setNth b.slots b.widx { b.slot b.widx with full := true }, widx := (b.widx + 1) % b.depth } :=
  State.buf_setBuf_same ..

/-- DBUF of a word, as the statements write it. -/
theorem nfld_zero_five (x : BitVec 16) : nfld x 0 5 = x.toNat % 32 := by simp [nfld]

/-- A node whose meaning is `State.slotNode` with a result writes that result. -/
theorem writes_of_exec {i : Instr} {width more : Nat} {r : SlotRes}
    (h : s.focus = .node f → exec i s = .next (s.slotNode f o args 0 width more (some r))) : Writes i o s f args width more r := by
  intro hf ⟨hargs, hlive⟩ b ⟨hb, he⟩ hr
  rw [← nfld_zero_five] at hb
  refine ⟨_, h hf, ?_⟩
  rw [s.slotNode_writes f o args 0 width more hargs (by rwa [sbOr_argsSb_zero]) hb he hr, sbOr_argsSb_zero, outBoth_eq_both]
  have hlines : (if argLines args < r.lines then r.lines else argLines args) = max (argLines args) r.lines := by
    split <;> omega
  rw [hlines]
  refine ⟨?_, ?_, State.toUnitOf_frame ..⟩
  · rw [State.toUnitOf_units, State.reserveSlot_unitFree, ← nfld_zero_five]; rfl
  · rw [State.toUnitOf_buf, ← nfld_zero_five, State.reserveSlot_buf]

/-! ### The cases of a node that sends a scalar -/

theorem State.scalarNode_answers {cycles : Nat → Nat} {r : Word × BitVec 8} (h : s.argsFault f args = none) (d : sbDead (argsSb args) = false) :
    s.scalarNode f o args cycles (some r) = s.toUnitOf f o 1 none (cycles (argLines args))
      (outBoth o (outOf 0 f.tag (r.1, argsSb args ||| (r.2 &&& 0x1F)))) none args (argsSb args ||| (r.2 &&& 0x1F)) := by
  simp only [State.scalarNode, h, d, Bool.false_eq_true, if_false]

/-- A node whose meaning is `State.scalarNode` with a result sends that result. -/
theorem answers_of_exec {i : Instr} {cycles : Nat → Nat} {r : Word × BitVec 8}
    (h : s.focus = .node f → exec i s = .next (s.scalarNode f o args cycles (some r))) :
    Answers i o s f args (cycles (argLines args)) r := by
  intro hf ⟨hargs, hlive⟩
  refine ⟨_, h hf, ?_⟩
  rw [s.scalarNode_answers f o args hargs hlive, outBoth_eq_both]
  exact ⟨State.toUnitOf_units .., State.toUnitOf_frame ..⟩

end Sys2Proof.Machine
end

section
/-! SUPPORT. Lanes (05 R167): how many an operand holds and how large they are, the lane-wise map, and integer lanes (R168). -/

namespace Sys2Proof.Machine

open Sys2Proof.Claims

/-! ### Lists -/

theorem nth_eq_getD {α : Type} (d : α) (l : List α) (i : Nat) : nth d l i = l.getD i d := by
  induction l generalizing i with
  | nil => rfl
  | cons x l ih => cases i with
    | zero => rfl
    | succ i => simpa [nth] using ih i

theorem nth_mem {α : Type} (d : α) {l : List α} {i : Nat} (h : i < l.length) : nth d l i ∈ l := by
  rw [nth_eq_getD, List.getD_eq_getElem _ _ h]
  exact List.getElem_mem h

theorem nth_of_length_le {α : Type} (d : α) {l : List α} {i : Nat} (h : l.length ≤ i) : nth d l i = d := by
  rw [nth_eq_getD, List.getD_eq_default _ _ h]

/-- A list is what its places hold. -/
theorem map_nth_range {α : Type} (d : α) (l : List α) : (List.range l.length).map (nth d l) = l := by
  apply List.ext_getElem
  · simp
  · intro i _ h
    simp [nth_eq_getD, h]

theorem nth_map_range {α : Type} (d : α) (g : Nat → α) {n i : Nat} (h : i < n) : nth d ((List.range n).map g) i = g i := by
  simp [nth_eq_getD, h]

theorem rangeFrom_eq_range' (n a : Nat) : rangeFrom a n = List.range' a n := by
  induction n generalizing a with
  | zero => rfl
  | succ n ih => simp [rangeFrom, ih, List.range'_succ]

theorem rangeFrom_zero (n : Nat) : rangeFrom 0 n = List.range n := by
  rw [rangeFrom_eq_range', List.range_eq_range']

/-! ### The bits that a list of results raises -/

@[simp] theorem orAll_nil : orAll [] = 0 := rfl
@[simp] theorem orAll_cons (b : BitVec 8) (l : List (BitVec 8)) : orAll (b :: l) = b ||| orAll l := rfl

theorem orAll_map_zero {α : Type} (l : List α) : orAll (l.map fun _ => 0) = 0 := by
  induction l with
  | nil => rfl
  | cons x l ih => rw [List.map_cons, orAll_cons, ih, BitVec.or_self]

theorem foldl_or_eq_orAll {α : Type} (g : α → BitVec 8) (l : List α) (b : BitVec 8) :
    l.foldl (fun b x => b ||| g x) b = b ||| orAll (l.map g) := by
  induction l generalizing b with
  | nil => simp
  | cons x l ih => rw [List.foldl_cons, ih, List.map_cons, orAll_cons, BitVec.or_assoc]

/-! ### Bytes and lanes -/

/-- Every scalar type has a width of 1 to 64 bits. -/
theorem tyBits_pos (ty : Ty) : 0 < tyBits ty := by cases ty <;> decide
theorem tyBits_le (ty : Ty) : tyBits ty ≤ 64 := by cases ty <;> decide

theorem ofBytes_lt (l : List Byte) : ofBytes l < 256 ^ l.length := by
  induction l with
  | nil => simp [ofBytes]
  | cons b l ih =>
    have hb := b.isLt
    simp only [ofBytes, List.length_cons, Nat.pow_succ]
    omega

@[simp] theorem byteLanes_length (k n : Nat) (l : List Byte) : (byteLanes k n l).length = n := by
  induction n generalizing l with
  | zero => rfl
  | succ n ih => simp [byteLanes, ih]

theorem byteLanes_lt (k n : Nat) (l : List Byte) : ∀ v ∈ byteLanes k n l, v < 2 ^ (8 * k) := by
  induction n generalizing l with
  | zero => simp [byteLanes]
  | succ n ih =>
    intro v hv
    rcases List.mem_cons.mp hv with rfl | hv
    · calc ofBytes (l.take k) < 256 ^ (l.take k).length := ofBytes_lt _
        _ ≤ 256 ^ k := Nat.pow_le_pow_right (by decide) (List.length_take_le ..)
        _ = 2 ^ (8 * k) := by rw [Nat.pow_mul]
    · exact ih _ v hv

theorem nibbles_lt (l : List Byte) : ∀ v ∈ nibbles l, v < 16 := by
  induction l with
  | nil => simp [nibbles]
  | cons b l ih =>
    have hb := b.isLt
    intro v hv
    simp only [nibbles, List.mem_cons] at hv
    obtain rfl | rfl | hv := hv
    · omega
    · omega
    · exact ih v hv

@[simp] theorem laneList_length (w n : Nat) (l : List Byte) : (laneList w n l).length = n := by
  unfold laneList
  split <;> simp

/-- A lane fits the width of its type. -/
theorem laneList_lt (w n : Nat) (l : List Byte) : ∀ v ∈ laneList w n l, v < 2 ^ w := by
  intro v hv
  unfold laneList at hv
  split at hv
  · next h =>
    subst h
    rcases List.mem_append.mp (List.mem_of_mem_take hv) with hv | hv
    · exact nibbles_lt l v hv
    · simp [List.eq_of_mem_replicate hv]
  · exact Nat.lt_of_lt_of_le (byteLanes_lt _ n l v hv) (Nat.pow_le_pow_right (by decide) (Nat.mul_div_le w 8))

theorem Arg.lanes_length {a : Arg} {ty : Ty} {n : Nat} {l : List Nat} (h : a.lanes ty n = some l) : l.length = n := by
  unfold Arg.lanes at h
  split at h
  · split at h
    · cases h; simp
    · cases h
  · cases h; simp

theorem Arg.lanes_lt {a : Arg} {ty : Ty} {n : Nat} {l : List Nat} (h : a.lanes ty n = some l) : ∀ v ∈ l, v < 2 ^ tyBits ty := by
  unfold Arg.lanes at h
  split at h
  · split at h
    · cases h; exact laneList_lt _ _ _
    · cases h
  · cases h
    intro v hv
    rw [List.eq_of_mem_replicate hv]
    exact Nat.mod_lt _ (Nat.two_pow_pos _)

theorem Arg.lanes_nth_lt {a : Arg} {ty : Ty} {n : Nat} {l : List Nat} (h : a.lanes ty n = some l) (i : Nat) : nth 0 l i < 2 ^ tyBits ty := by
  by_cases hi : i < l.length
  · exact a.lanes_lt h _ (nth_mem 0 hi)
  · rw [nth_of_length_le 0 (by omega)]; exact Nat.two_pow_pos _

/-! ### The lane-wise map -/

/-- A lane rule applied to every lane: its values in order, and the OR of the bits that it raises. -/
theorem mapLanes_eq (g : LaneFn) (as bs cs : List Nat) :
    mapLanes g as bs cs =
      let l := (List.range as.length).map fun i => g (nth 0 as i) (nth 0 bs i) (nth 0 cs i)
      (l.map fun x => x.1, orAll (l.map fun x => x.2)) := by
  induction as generalizing bs cs with
  | nil => rfl
  | cons a as ih =>
    have hd (l : List Nat) : l.headD 0 = nth 0 l 0 := by cases l <;> rfl
    have tl (l : List Nat) (i : Nat) : nth 0 l.tail i = nth 0 l (i + 1) := by cases l <;> rfl
    rw [mapLanes, hd, hd, ih]
    simp [tl, List.range_succ_eq_map, nth, Function.comp_def]

/-- Lanes without a header, of a list of lanes and the OR of what they raise. -/
theorem lanesRes_eq_lanesOf (ty : Ty) (l : List (Nat × BitVec 8)) :
    lanesRes ty (l.map fun x => x.1, orAll (l.map fun x => x.2)) = lanesOf ty l := rfl

/-- An instruction whose meaning is `State.laneNode` is lane-wise, with any rule that agrees with the model's on lanes of the operand types. -/
theorem laneWise_of_exec {c : Ops → Instr} {ta tb tc tr : Ops → Ty} {G : Ops → LaneFn} {g : Ops → Nat → Nat → Nat → Nat × BitVec 8}
    (h : ∀ o s, exec (c o) s = s.laneNode o (ta o) (tb o) (tc o) (tr o) (G o))
    (hg : ∀ o x y z, x < 2 ^ tyBits (ta o) → y < 2 ^ tyBits (tb o) → z < 2 ^ tyBits (tc o) → G o x y z = g o x y z) :
    LaneWise c ta tb tc tr g := by
  intro o s f la lb lc args n ha hb hc
  refine writes_of_exec s f o args fun hf => ?_
  have hrule : ∀ i, G o (nth 0 la i) (nth 0 lb i) (nth 0 lc i) = g o (nth 0 la i) (nth 0 lb i) (nth 0 lc i) := fun i =>
    hg o _ _ _ (Arg.lanes_nth_lt ha i) (Arg.lanes_nth_lt hb i) (Arg.lanes_nth_lt hc i)
  have hn : la.length = n := Arg.lanes_length ha
  rw [h, State.laneNode, State.flow_node hf]
  simp only [args, n] at ha hb hc hn ⊢
  simp only [ha, hb, hc, mapLanes_eq, hn, hrule, lanesRes_eq_lanesOf]

/-- An instruction with one lane operand and two scalars (`State.laneScalars`). -/
theorem laneScalars_of_exec {c : Ops → Instr} {ta : Ops → Ty} {G : Ops → State → Firing → Nat → Nat → List Nat → List Nat × BitVec 8}
    {g : Ops → State → Firing → Nat → Nat → Nat → Nat → Nat × BitVec 8}
    (h : ∀ o s, exec (c o) s = s.laneScalars o (ta o) (G o s))
    (hg : ∀ o s f b z la, G o s f b z la =
      let l := (List.range la.length).map fun i => g o s f b z i (nth 0 la i)
      (l.map fun x => x.1, orAll (l.map fun x => x.2))) :
    LaneScalars c ta g := by
  intro o s f la hf a b c' ha
  refine writes_of_exec s f o _ fun _ => ?_
  have hn : la.length = a.count (ta o) := Arg.lanes_length ha
  rw [h, State.laneScalars, State.flow_node hf]
  simp only [a] at ha hn
  simp only [bit, ha, Option.map_some, hg, hn, lanesRes_eq_lanesOf, a, b, c']

/-! ### Integer lanes (R168) -/

theorem rmOf'_eq (o : Ops) : rmOf' o = rmOf o := rfl
theorem satOf'_eq (o : Ops) : satOf' o = satOf o := rfl

/-- The value of an integer lane, as the statements write it. -/
theorem laneVal_eq_laneInt (ty : Ty) (a : Nat) : laneVal ty a = laneInt ty a := by
  have hm : a % 2 ^ 64 % 2 ^ tyBits ty = a % 2 ^ tyBits ty := Nat.mod_mod_of_dvd _ (Nat.pow_dvd_pow 2 (tyBits_le ty))
  unfold laneVal laneInt tv sv uv sval
  rw [BitVec.toNat_ofNat, hm]
  cases hs : tySigned ty with
  | false => simp
  | true => by_cases h : a % 2 ^ tyBits ty < 2 ^ (tyBits ty - 1) <;> simp [h]

/-- The low bits of a payload of a type are the number that it was made of (R24). -/
theorem placed_toNat_mod (ty : Ty) (n : Nat) : (placed ty n).toNat % 2 ^ tyBits ty = n % 2 ^ tyBits ty := by
  have hdvd : (2 : Nat) ^ tyBits ty ∣ 2 ^ 64 := Nat.pow_dvd_pow 2 (tyBits_le ty)
  unfold placed tyExtend
  split
  · have hval : sval (tyBits ty) n % (2 ^ tyBits ty : Nat) = n % (2 ^ tyBits ty : Nat) := by
      unfold sval
      split <;> simp
    have hcast : ((sextN (tyBits ty) n).toNat : Int) = sval (tyBits ty) n % (2 ^ 64 : Nat) := by
      rw [sextN, BitVec.toNat_ofInt]
      exact Int.toNat_of_nonneg (Int.emod_nonneg _ (by decide))
    apply Int.ofNat_inj.mp
    rw [Int.natCast_emod, hcast, Int.emod_emod_of_dvd _ (Int.natCast_dvd_natCast.mpr hdvd), hval, Int.natCast_emod]
  · rw [zextN, BitVec.toNat_ofNat, Nat.mod_mod_of_dvd _ hdvd, Nat.mod_mod]

/-- An exact integer as a lane: its low bits. -/
theorem wrapped_toNat_mod (ty : Ty) (x : Int) : (wrapped ty x).1.toNat % 2 ^ tyBits ty = (x % 2 ^ tyBits ty).toNat := by
  have hpos : (0 : Int) < (2 ^ tyBits ty : Nat) := Int.natCast_pos.mpr (Nat.two_pow_pos _)
  have hlt := Int.emod_lt_of_pos x hpos
  rw [wrapped, placed_toNat_mod, wrapInt, Nat.mod_eq_of_lt (by omega)]
  push_cast
  rfl

theorem tyLo_eq (ty : Ty) : tyLo ty = if tySigned ty then -2 ^ (tyBits ty - 1) else 0 := by
  unfold tyLo; push_cast; rfl
theorem tyHi_eq (ty : Ty) : tyHi ty = if tySigned ty then 2 ^ (tyBits ty - 1) - 1 else 2 ^ tyBits ty - 1 := by
  unfold tyHi; push_cast; rfl

/-- An exact integer as a lane, as the statements write it: wrapped, or clamped under SAT. -/
theorem intLane_eq_intLane' (ty : Ty) (sat : Bool) (x : Int) : intLane ty sat x = intLane' ty sat x := by
  simp only [intLane, intLane', ← tyLo_eq, ← tyHi_eq]
  cases sat with
  | false => simp only [Bool.false_eq_true, if_false, wrapped_toNat_mod]; rfl
  | true =>
    simp only [if_true, clamped]
    split
    · simp only [wrapped_toNat_mod]; rfl
    · split <;> (simp only [wrapped_toNat_mod]; rfl)

/-- Lanes that fit their type are equal when their values are. -/
theorem laneInt_inj {ty : Ty} {a b : Nat} (ha : a < 2 ^ tyBits ty) (hb : b < 2 ^ tyBits ty) : laneInt ty a = laneInt ty b ↔ a = b := by
  refine ⟨fun h => ?_, fun h => h ▸ rfl⟩
  have hpow : (2 : Int) ^ tyBits ty = (2 ^ tyBits ty : Nat) := by push_cast; rfl
  simp only [laneInt, Nat.mod_eq_of_lt ha, Nat.mod_eq_of_lt hb, hpow] at h
  split at h <;> split at h <;> omega

end Sys2Proof.Machine
end

section
/-! SUPPORT. The order of floating-point data (02 R50, R51): the exact comparison of two data is the comparison of their places, and the
ranking of pairs (05 R156) and of RACE (R189) follows it. -/

namespace Sys2Proof.Machine

open Sys2Proof.Claims

/-! ### Magnitudes -/

/-- The magnitude of a datum with exponent field `x` and fraction field `r`, in units of the least subnormal; `p` is 2 to the fraction bits. -/
def unitsOf (p x r : Nat) : Nat := if x = 0 then r else (p + r) * 2 ^ (x - 1)

/-- Magnitudes rise with the fields read as one number. -/
theorem unitsOf_lt {p x r y q : Nat} (hr : r < p) (hq : q < p) (h : x * p + r < y * p + q) : unitsOf p x r < unitsOf p y q := by
  rcases Nat.lt_trichotomy x y with hxy | rfl | hxy
  · obtain ⟨k, rfl⟩ : ∃ k, y = k + 1 := ⟨y - 1, by omega⟩
    have htop : p * 2 ^ k ≤ (p + q) * 2 ^ k := Nat.mul_le_mul_right _ (Nat.le_add_right p q)
    have hone : p * 1 ≤ p * 2 ^ k := Nat.mul_le_mul_left _ Nat.one_le_two_pow
    cases x with
    | zero => simp only [unitsOf, if_true, Nat.succ_ne_zero, if_false, Nat.add_sub_cancel]; omega
    | succ j =>
      simp only [unitsOf, Nat.succ_ne_zero, if_false, Nat.add_sub_cancel]
      calc (p + r) * 2 ^ j < (2 * p) * 2 ^ j := Nat.mul_lt_mul_of_pos_right (by omega) (Nat.two_pow_pos j)
        _ = p * 2 ^ (j + 1) := by rw [Nat.pow_succ]; ring
        _ ≤ p * 2 ^ k := Nat.mul_le_mul_left _ (Nat.pow_le_pow_right (by decide) (by omega))
        _ ≤ (p + q) * 2 ^ k := htop
  · have hrq : r < q := by omega
    unfold unitsOf
    split
    · exact hrq
    · exact Nat.mul_lt_mul_of_pos_right (by omega) (Nat.two_pow_pos _)
  · have hle : (y + 1) * p ≤ x * p := Nat.mul_le_mul_right p hxy
    rw [Nat.succ_mul] at hle
    omega

/-- The fields of a magnitude are those of its number. -/
theorem fields_eq {p x r y q : Nat} (hr : r < p) (hq : q < p) (h : x * p + r = y * p + q) : x = y ∧ r = q := by
  have hx : (x * p + r) / p = x := by rw [Nat.add_comm, Nat.add_mul_div_right _ _ (by omega), Nat.div_eq_of_lt hr, Nat.zero_add]
  have hy : (y * p + q) / p = y := by rw [Nat.add_comm, Nat.add_mul_div_right _ _ (by omega), Nat.div_eq_of_lt hq, Nat.zero_add]
  have hxy : x = y := by rw [← hx, ← hy, h]
  subst hxy
  exact ⟨rfl, by omega⟩

/-- Exponent and fraction of a datum as one number. -/
def fMag (f : Fmt) (n : Nat) : Nat := n % 2 ^ (f.eb + f.fb)
/-- The magnitude of a finite datum, in units of the least subnormal of its format. -/
def fUnits (f : Fmt) (n : Nat) : Nat := unitsOf (2 ^ f.fb) (fExpo f n) (fFrac f n)

theorem fFrac_lt (f : Fmt) (n : Nat) : fFrac f n < 2 ^ f.fb := Nat.mod_lt _ (Nat.two_pow_pos _)
theorem fExpo_lt (f : Fmt) (n : Nat) : fExpo f n < 2 ^ f.eb := Nat.mod_lt _ (Nat.two_pow_pos _)

theorem fMag_eq (f : Fmt) (n : Nat) : fMag f n = fExpo f n * 2 ^ f.fb + fFrac f n := by
  rw [fMag, fExpo, fFrac, Nat.add_comm f.eb, Nat.pow_add, Nat.mod_mul, Nat.mul_comm, Nat.add_comm]

theorem fUnits_lt {f : Fmt} {a b : Nat} (h : fMag f a < fMag f b) : fUnits f a < fUnits f b :=
  unitsOf_lt (fFrac_lt f a) (fFrac_lt f b) (by rwa [← fMag_eq, ← fMag_eq])

theorem fUnits_congr {f : Fmt} {a b : Nat} (h : fMag f a = fMag f b) : fUnits f a = fUnits f b := by
  obtain ⟨hx, hr⟩ := fields_eq (fFrac_lt f a) (fFrac_lt f b) (by rwa [← fMag_eq, ← fMag_eq])
  rw [fUnits, fUnits, hx, hr]

/-- A magnitude is zero for a zero alone. -/
theorem fUnits_eq_zero (f : Fmt) (n : Nat) : fUnits f n = 0 ↔ fMag f n = 0 := by
  have hp := Nat.two_pow_pos f.fb
  have hx := Nat.two_pow_pos (fExpo f n - 1)
  rw [fMag_eq, fUnits, unitsOf]
  split
  · next h => simp [h]
  · next h =>
    have hpos : 0 < (2 ^ f.fb + fFrac f n) * 2 ^ (fExpo f n - 1) := Nat.mul_pos (by omega) hx
    have hpos' : 0 < fExpo f n * 2 ^ f.fb := Nat.mul_pos (by omega) hp
    omega

/-! ### What a datum reads as (R39, R40) -/

theorem Fmt.read_nan {f : Fmt} {n : Nat} (h : fIsNan f n = true) : f.read n = .nan := by
  simp only [fIsNan, Bool.and_eq_true, beq_iff_eq, bne_iff_ne] at h
  obtain ⟨hx, hr⟩ := h
  rw [fExpo] at hx
  rw [fFrac] at hr
  simp only [Fmt.read, hx, hr, if_true, if_false]

theorem Fmt.read_inf {f : Fmt} {n : Nat} (h : fIsInf f n = true) : f.read n = .inf (fSign f n) := by
  simp only [fIsInf, Bool.and_eq_true, beq_iff_eq] at h
  obtain ⟨hx, hr⟩ := h
  rw [fExpo] at hx
  rw [fFrac] at hr
  simp only [Fmt.read, hx, hr, if_true]
  rfl

/-- A datum whose exponent is not the largest is a finite value; its significand in units of the least subnormal is its magnitude. -/
theorem Fmt.read_fin {f : Fmt} {n : Nat} (h : fExpo f n ≠ 2 ^ f.eb - 1) :
    ∃ m e, f.read n = .fin (fSign f n) m e ∧ 1 - (f.bias : Int) - f.fb ≤ e ∧ m * 2 ^ (e - (1 - (f.bias : Int) - f.fb)).toNat = fUnits f n := by
  unfold fExpo at h
  by_cases hz : n / 2 ^ f.fb % 2 ^ f.eb = 0
  · refine ⟨n % 2 ^ f.fb, 1 - (f.bias : Int) - f.fb, ?_, le_refl _, ?_⟩
    · simp only [Fmt.read, hz, if_true, if_neg (hz ▸ h)]; rfl
    · simp [fUnits, unitsOf, fExpo, hz, fFrac]
  · refine ⟨2 ^ f.fb + n % 2 ^ f.fb, (n / 2 ^ f.fb % 2 ^ f.eb : Nat) - (f.bias : Int) - f.fb, ?_, by omega, ?_⟩
    · simp only [Fmt.read, if_neg h, if_neg hz]; rfl
    · have he : ((n / 2 ^ f.fb % 2 ^ f.eb : Nat) - (f.bias : Int) - f.fb - (1 - (f.bias : Int) - f.fb)).toNat = n / 2 ^ f.fb % 2 ^ f.eb - 1 := by
        omega
      rw [he]
      simp only [fUnits, unitsOf, fExpo, hz, if_false, fFrac]

/-- A finite datum is a zero when its significand is. -/
theorem Fmt.read_fin_zero {f : Fmt} {n m : Nat} {s : Bool} {e : Int} (h : f.read n = .fin s m e) : m = 0 ↔ fMag f n = 0 := by
  have hx : fExpo f n ≠ 2 ^ f.eb - 1 := by
    intro hx
    by_cases hr : fFrac f n = 0
    · rw [Fmt.read_inf (by simp [fIsInf, hx, hr])] at h; cases h
    · rw [Fmt.read_nan (by simp [fIsNan, hx, hr])] at h; cases h
  obtain ⟨m', e', hread, -, hunits⟩ := Fmt.read_fin hx
  rw [hread] at h
  cases h
  rw [← fUnits_eq_zero, ← hunits, Nat.mul_eq_zero]
  have := Nat.two_pow_pos (e - (1 - (f.bias : Int) - f.fb)).toNat
  omega

theorem Fmt.read_eq_nan (f : Fmt) (n : Nat) : f.read n = .nan ↔ fIsNan f n = true := by
  refine ⟨fun h => ?_, Fmt.read_nan⟩
  by_cases hx : fExpo f n = 2 ^ f.eb - 1
  · by_cases hr : fFrac f n = 0
    · rw [Fmt.read_inf (by simp [fIsInf, hx, hr])] at h; cases h
    · simp [fIsNan, hx, hr]
  · obtain ⟨m, e, hread, -⟩ := Fmt.read_fin hx
    rw [hread] at h; cases h

theorem Fmt.read_ne_nan {f : Fmt} {n : Nat} (h : fIsNan f n = false) : f.read n ≠ .nan := by
  rw [Ne, Fmt.read_eq_nan, h]; exact Bool.false_ne_true

/-! ### Comparison by places (R50) -/

theorem compare_congr {a b c d : Int} (h : a < b ↔ c < d) (k : b < a ↔ d < c) : compare a b = compare c d := by
  rcases lt_trichotomy a b with hab | hab | hab
  · rw [compare_lt_iff_lt.mpr hab, compare_lt_iff_lt.mpr (h.mp hab)]
  · rw [compare_eq_iff_eq.mpr hab, compare_eq_iff_eq.mpr (by omega)]
  · rw [compare_gt_iff_gt.mpr hab, compare_gt_iff_gt.mpr (k.mp hab)]

theorem signed_mul (s : Bool) (m k : Nat) : signed s (m * k) = signed s m * k := by
  cases s <;> simp [signed]

/-- The exact comparison does not depend on the unit, so long as it divides both values. -/
theorem cmpFin_eq (s t : Bool) (m n : Nat) (e g u : Int) (he : u ≤ e) (hg : u ≤ g) :
    cmpFin s m e t n g = compare (signed s (m * 2 ^ (e - u).toNat)) (signed t (n * 2 ^ (g - u).toNat)) := by
  unfold cmpFin
  set d : Int := if e ≤ g then e else g with hd
  have hde : d ≤ e := by rw [hd]; split <;> omega
  have hdg : d ≤ g := by rw [hd]; split <;> omega
  have hud : u ≤ d := by rw [hd]; split <;> omega
  have hpos : (0 : Int) < (2 ^ (d - u).toNat : Nat) := Int.natCast_pos.mpr (Nat.two_pow_pos _)
  have hscale (s : Bool) (m : Nat) (e : Int) (hde : d ≤ e) :
      signed s (m * 2 ^ (e - u).toNat) = signed s m * 2 ^ (e - d).toNat * (2 ^ (d - u).toNat : Nat) := by
    rw [show (e - u).toNat = (e - d).toNat + (d - u).toNat by omega, Nat.pow_add, ← Nat.mul_assoc, signed_mul, signed_mul]
    push_cast
    rfl
  rw [hscale s m e hde, hscale t n g hdg]
  exact compare_congr (Int.mul_lt_mul_right hpos).symm (Int.mul_lt_mul_right hpos).symm

/-- Signed magnitudes other than two zeros lie as their places do. -/
theorem compare_signed {s t : Bool} {a b x y : Nat} (hlt : x < y ↔ a < b) (hgt : y < x ↔ b < a) (hz : (a = 0 ↔ x = 0) ∧ (b = 0 ↔ y = 0))
    (h : ¬ (a = 0 ∧ b = 0)) :
    compare (signed s a) (signed t b) = compare (if s then -(x : Int) - 1 else x) (if t then -(y : Int) - 1 else y) := by
  obtain ⟨hzx, hzy⟩ := hz
  apply compare_congr <;> cases s <;> cases t <;> simp [signed] <;> omega

theorem fPlace_eq (f : Fmt) (n : Nat) : fPlace f n = if fSign f n then -(fMag f n : Int) - 1 else fMag f n := rfl

theorem fUnits_lt_iff (f : Fmt) (a b : Nat) : fMag f a < fMag f b ↔ fUnits f a < fUnits f b := by
  refine ⟨fUnits_lt, fun h => ?_⟩
  rcases Nat.lt_trichotomy (fMag f a) (fMag f b) with hab | hab | hab
  · exact hab
  · have := fUnits_congr hab; omega
  · have := fUnits_lt hab; omega

/-- An infinity has the largest magnitude. -/
theorem fMag_inf {f : Fmt} {n : Nat} (h : fIsInf f n = true) : fMag f n = (2 ^ f.eb - 1) * 2 ^ f.fb := by
  simp only [fIsInf, Bool.and_eq_true, beq_iff_eq] at h
  rw [fMag_eq, h.1, h.2, Nat.add_zero]

theorem fMag_fin {f : Fmt} {n : Nat} (h : fExpo f n ≠ 2 ^ f.eb - 1) : fMag f n < (2 ^ f.eb - 1) * 2 ^ f.fb := by
  have hx := fExpo_lt f n
  have hr := fFrac_lt f n
  have hle : (fExpo f n + 1) * 2 ^ f.fb ≤ (2 ^ f.eb - 1) * 2 ^ f.fb := Nat.mul_le_mul_right _ (by omega)
  rw [Nat.succ_mul] at hle
  rw [fMag_eq]
  omega

/-- A datum other than a NaN is an infinity or finite. -/
theorem fIsInf_or_fin {f : Fmt} {n : Nat} (h : fIsNan f n = false) : fIsInf f n = true ∨ fExpo f n ≠ 2 ^ f.eb - 1 := by
  by_cases hx : fExpo f n = 2 ^ f.eb - 1
  · by_cases hr : fFrac f n = 0
    · exact .inl (by simp [fIsInf, hx, hr])
    · simp [fIsNan, hx, hr] at h
  · exact .inr hx

/-- R50: data other than NaNs, with −0 below +0, compare as their places. -/
theorem fpCompare_read {f : Fmt} {a b : Nat} (ha : fIsNan f a = false) (hb : fIsNan f b = false) :
    fpCompare true (f.read a) (f.read b) = some (compare (fPlace f a) (fPlace f b)) := by
  rw [fPlace_eq, fPlace_eq]
  rcases fIsInf_or_fin ha with ia | fa <;> rcases fIsInf_or_fin hb with ib | fb
  · rw [Fmt.read_inf ia, Fmt.read_inf ib, fMag_inf ia, fMag_inf ib]
    generalize (2 ^ f.eb - 1) * 2 ^ f.fb = m
    cases fSign f a <;> cases fSign f b <;> simp [fpCompare] <;> symm
    · exact compare_gt_iff_gt.mpr (by omega)
    · exact compare_lt_iff_lt.mpr (by omega)
  · obtain ⟨n, g, hread, -, -⟩ := Fmt.read_fin fb
    have hlt := fMag_fin fb
    rw [← fMag_inf ia] at hlt
    rw [Fmt.read_inf ia, hread]
    cases fSign f a <;> simp [fpCompare] <;> symm
    · exact compare_gt_iff_gt.mpr (by split <;> omega)
    · exact compare_lt_iff_lt.mpr (by split <;> omega)
  · obtain ⟨m, e, hread, -, -⟩ := Fmt.read_fin fa
    have hlt := fMag_fin fa
    rw [← fMag_inf ib] at hlt
    rw [Fmt.read_inf ib, hread]
    cases fSign f b <;> simp [fpCompare] <;> symm
    · exact compare_lt_iff_lt.mpr (by split <;> omega)
    · exact compare_gt_iff_gt.mpr (by split <;> omega)
  · obtain ⟨m, e, hread, he, hunits⟩ := Fmt.read_fin fa
    obtain ⟨n, g, hread', hg, hunits'⟩ := Fmt.read_fin fb
    have hm := Fmt.read_fin_zero hread
    have hn := Fmt.read_fin_zero hread'
    rw [hread, hread']
    by_cases hz : m = 0 ∧ n = 0
    · rw [hm.mp hz.1, hn.mp hz.2]
      cases fSign f a <;> cases fSign f b <;> simp [fpCompare, hz] <;> rfl
    · have hcmp := cmpFin_eq (fSign f a) (fSign f b) m n e g _ he hg
      rw [hunits, hunits'] at hcmp
      simp only [fpCompare, hz, if_false, hcmp]
      rw [compare_signed (fUnits_lt_iff f a b) (fUnits_lt_iff f b a) ⟨fUnits_eq_zero f a, fUnits_eq_zero f b⟩]
      rwa [fUnits_eq_zero, fUnits_eq_zero, ← hm, ← hn]

/-! ### Ranking (R51, R156) -/

/-- A NaN ranks below every datum in the order of R50. -/
theorem fPlace_bound (f : Fmt) (n : Nat) : -(2 ^ (f.eb + f.fb) : Nat) ≤ fPlace f n := by
  have h : fMag f n < 2 ^ (f.eb + f.fb) := Nat.mod_lt _ (Nat.two_pow_pos _)
  rw [fPlace_eq]
  split <;> omega

/-- The ranking key of a datum that is no NaN and no zero: its sign and magnitude as one rising number (R51). -/
theorem signedKey_eq (f : Fmt) (n : Nat) :
    ((if n / 2 ^ (f.bits - 1) % 2 = 0 then n % 2 ^ f.bits + 2 ^ (f.bits - 1) else 2 ^ f.bits - 1 - n % 2 ^ f.bits : Nat) : Int) =
      fPlace f n + (2 ^ (f.eb + f.fb) : Nat) := by
  have hlt : fMag f n < 2 ^ (f.eb + f.fb) := Nat.mod_lt _ (Nat.two_pow_pos _)
  have hsplit : n % 2 ^ f.bits = fMag f n + 2 ^ (f.eb + f.fb) * (n / 2 ^ (f.eb + f.fb) % 2) := by
    rw [Fmt.bits, Nat.pow_succ, Nat.mod_mul]; rfl
  have hpow : 2 ^ f.bits = 2 * 2 ^ (f.eb + f.fb) := by rw [Fmt.bits, Nat.pow_succ, Nat.mul_comm]
  rw [hsplit, hpow, show f.bits - 1 = f.eb + f.fb from rfl, fPlace_eq, fSign]
  generalize 2 ^ (f.eb + f.fb) = p at *
  rcases Nat.mod_two_eq_zero_or_one (n / p) with h | h
  · simp [h]
  · simp [h]; omega

theorem fIsZero_eq (f : Fmt) (n : Nat) : fIsZero f n = decide (fMag f n = 0) := by
  have hp := Nat.two_pow_pos f.fb
  have hx : fExpo f n * 2 ^ f.fb = 0 ↔ fExpo f n = 0 := by rw [Nat.mul_eq_zero]; omega
  rw [fMag_eq, fIsZero, Bool.eq_iff_iff]
  simp only [Bool.and_eq_true, beq_iff_eq, decide_eq_true_eq, Nat.add_eq_zero_iff, hx]

/-- The ranking key of R51 is the key of a pair under ORD. -/
theorem rankKey_eq_pairKey {f : Fmt} (hf : 0 < f.eb) (n : Nat) : (rankKey f n : Int) = pairKey f true n := by
  cases hnan : fIsNan f n with
  | true => simp [rankKey, Fmt.read_nan hnan, pairKey, hnan]
  | false =>
    have hkey : pairKey f true n = if fMag f n = 0 then ((2 ^ (f.eb + f.fb) : Nat) : Int) else fPlace f n + (2 ^ (f.eb + f.fb) : Nat) := by
      simp [pairKey, hnan, fIsZero_eq]
    rw [hkey, ← signedKey_eq]
    rcases fIsInf_or_fin hnan with hi | hx
    · have hmag : fMag f n ≠ 0 := by
        have h1 : 1 < 2 ^ f.eb := Nat.one_lt_two_pow (by omega)
        rw [fMag_inf hi]
        exact (Nat.mul_pos (by omega) (Nat.two_pow_pos _)).ne'
      simp only [rankKey, Fmt.read_inf hi, hmag, if_false]
    · obtain ⟨m, e, hread, -, -⟩ := Fmt.read_fin hx
      simp only [← Fmt.read_fin_zero hread, rankKey, hread]
      cases m with
      | zero => rfl
      | succ m => simp only [Nat.succ_ne_zero, if_false]

/-- Without ORD, data other than NaNs rank by their comparison, and a NaN ranks above nothing and below all else. -/
theorem outranks_false_nan_left {f : Fmt} {a b : Nat} (ha : fIsNan f a = true) : outranks f false a b = false := by
  simp [outranks, Fmt.read_nan ha]
theorem outranks_false_nan_right {f : Fmt} {a b : Nat} (ha : fIsNan f a = false) (hb : fIsNan f b = true) : outranks f false a b = true := by
  have hne := Fmt.read_ne_nan ha
  simp [outranks, Fmt.read_nan hb]
theorem outranks_false_data {f : Fmt} {a b : Nat} (ha : fIsNan f a = false) (hb : fIsNan f b = false) :
    outranks f false a b = (fpCompare true (f.read a) (f.read b) == some .gt) := by
  simp [outranks, Fmt.read_ne_nan ha, Fmt.read_ne_nan hb]

/-- MAXI and VMAXI rank by the key of a pair (R156). -/
theorem outranks_iff {f : Fmt} (hf : 0 < f.eb) (ord : Bool) (a b : Nat) : outranks f ord a b = true ↔ pairKey f ord b < pairKey f ord a := by
  cases ord with
  | true => rw [outranks, if_pos rfl, decide_eq_true_eq, ← rankKey_eq_pairKey hf, ← rankKey_eq_pairKey hf, Int.ofNat_lt]
  | false =>
    have hplace {n : Nat} (h : fIsNan f n = false) : pairKey f false n = fPlace f n := by simp [pairKey, h]
    have hnan {n : Nat} (h : fIsNan f n = true) : pairKey f false n = -(2 ^ (f.eb + f.fb) : Nat) - 1 := by simp [pairKey, h]
    have hboundA := fPlace_bound f a
    have hboundB := fPlace_bound f b
    generalize 2 ^ (f.eb + f.fb) = p at *
    cases ha : fIsNan f a with
    | true =>
      rw [outranks_false_nan_left ha, hnan ha]
      cases hb : fIsNan f b with
      | true => simp [hnan hb]
      | false => rw [hplace hb]; simp; omega
    | false =>
      cases hb : fIsNan f b with
      | true =>
        rw [outranks_false_nan_right ha hb, hplace ha, hnan hb]
        exact ⟨fun _ => by omega, fun _ => rfl⟩
      | false =>
        rw [outranks_false_data ha hb, hplace ha, hplace hb, fpCompare_read ha hb, beq_iff_eq, Option.some_inj, compare_gt_iff_gt]

end Sys2Proof.Machine
end

section
/-! SUPPORT. The vector rules beside the lane-wise ones: quantisation (02 R54 to R57), reductions and scans (05 R170, R171), and the ranks of
VMAXI (R172) and RACE (R189). -/

namespace Sys2Proof.Machine

open Sys2Proof.Claims

/-! ### Quantisation -/

/-- A quotient rounded to the nearest integer, ties to the even one. -/
def roundDiv (u d : Nat) : Nat := if d < 2 * (u % d) ∨ 2 * (u % d) = d ∧ u / d % 2 = 1 then u / d + 1 else u / d

/-- R55: the rounded quotient is nearest, and even when two are nearest. -/
theorem roundDiv_nearest {u d : Nat} (hd : 0 < d) :
    let q := roundDiv u d
    2 * ((u - q * d) + (q * d - u)) ≤ d ∧ (2 * ((u - q * d) + (q * d - u)) = d → q % 2 = 0) := by
  have hdiv := Nat.div_add_mod u d
  have hmod := Nat.mod_lt u hd
  rw [Nat.mul_comm] at hdiv
  simp only [roundDiv]
  split
  · next h => rw [Nat.succ_mul (u / d) d]; omega
  · next h => omega

/-- A quotient is exact when nothing remains. -/
theorem eq_roundDiv_mul_iff {u d : Nat} (hd : 0 < d) : u = roundDiv u d * d ↔ u % d = 0 := by
  have hdiv := Nat.div_add_mod u d
  have hmod := Nat.mod_lt u hd
  rw [Nat.mul_comm] at hdiv
  unfold roundDiv
  split
  · next h => rw [Nat.succ_mul]; omega
  · next h => omega

/-- The model's quotient of two dyadic numbers, over a common unit. -/
theorem quotient_eq (n g : Bool) (m k : Nat) (e h : Int) :
    quotient n m e g k h =
      (signed (n ^^ g) (roundDiv (m * 2 ^ (e - h).toNat) (k * 2 ^ (h - e).toNat)),
        m * 2 ^ (e - h).toNat % (k * 2 ^ (h - e).toNat) != 0) := by
  have hnum : (if 0 ≤ e - h then m * 2 ^ (e - h).toNat else m) = m * 2 ^ (e - h).toNat := by
    split
    · rfl
    · rw [show (e - h).toNat = 0 by omega, Nat.pow_zero, Nat.mul_one]
  have hden : (if 0 ≤ e - h then k else k * 2 ^ (-(e - h)).toNat) = k * 2 ^ (h - e).toNat := by
    split
    · rw [show (h - e).toNat = 0 by omega, Nat.pow_zero, Nat.mul_one]
    · rw [show -(e - h) = h - e by omega]
  simp only [quotient, hnum, hden, roundDiv, Bool.or_eq_true, Bool.and_eq_true, decide_eq_true_eq, beq_iff_eq]

/-! ### Reductions and scans -/

/-- Every running result of a scan, from a state on. -/
theorem scanFrom_eq (ty : Ty) (r : Red) (rm : Nat) (sat : Bool) (a : RedState) (l : List Nat) :
    scanFrom ty r rm sat a l =
      let p := (List.range l.length).map fun i => ((l.take (i + 1)).foldl (RedState.add ty r) a).val ty r rm sat
      (p.map fun x => x.1, orAll (p.map fun x => x.2)) := by
  induction l generalizing a with
  | nil => rfl
  | cons v l ih =>
    rw [scanFrom, ih]
    simp [List.range_succ_eq_map, Function.comp_def]

/-- The sum of integer lanes under way is exact (R170). -/
theorem foldl_add_sum (ty : Ty) (h : isFp ty = false) (l : List Nat) (a : RedState) :
    (l.foldl (RedState.add ty .sum) a).int = a.int + (l.map (laneInt ty)).sum := by
  induction l generalizing a with
  | nil => simp
  | cons v l ih =>
    rw [List.foldl_cons, ih]
    simp [RedState.add, h, laneVal_eq_laneInt, add_assoc]

/-- Integer lane a stands at least as well as b under a minimum, or a maximum. -/
def laneBest (ty : Ty) (wantMax : Bool) (a b : Nat) : Prop := if wantMax then laneInt ty b ≤ laneInt ty a else laneInt ty a ≤ laneInt ty b

theorem laneBest_refl (ty : Ty) (m : Bool) (a : Nat) : laneBest ty m a a := by cases m <;> simp [laneBest]
theorem laneBest_trans {ty : Ty} {m : Bool} {a b c : Nat} (h : laneBest ty m a b) (k : laneBest ty m b c) : laneBest ty m a c := by
  cases m <;> simp only [laneBest] at * <;> simp at * <;> omega

/-- VMIN and VMAX choose one of their two integer lanes, and no worse one (R168). -/
theorem laneMinMax_best (ty : Ty) (h : isFp ty = false) (m : Bool) (a b z : Nat) :
    let v := (laneMinMax ty m a b z).1
    (v = a ∨ v = b) ∧ laneBest ty m v a ∧ laneBest ty m v b := by
  simp only [laneMinMax, h, laneVal_eq_laneInt, laneBest, Bool.false_eq_true, if_false]
  cases m with
  | true =>
    by_cases hlt : laneInt ty a < laneInt ty b
    · simp [hlt, hlt.le]
    · simp [hlt, Int.not_lt.mp hlt]
  | false =>
    by_cases hlt : laneInt ty b < laneInt ty a
    · simp [hlt, hlt.le]
    · simp [hlt, Int.not_lt.mp hlt]

/-- Adding a lane to a minimum or maximum under way. -/
theorem RedState.add_best (ty : Ty) (r : Red) (hr : r ≠ .sum) (a : RedState) (v : Nat) :
    (a.add ty r v).best = some (a.best.elim v fun b => (laneMinMax ty (r == .max) b v 0).1) := by
  cases r with
  | sum => exact absurd rfl hr
  | min => cases h : a.best <;> simp [RedState.add, h]
  | max => cases h : a.best <;> simp [RedState.add, h]

/-- A minimum or maximum under way is one of the lanes so far, and none of them is better. -/
theorem foldl_add_best (ty : Ty) (h : isFp ty = false) (r : Red) (hr : r ≠ .sum) (l : List Nat) (a : RedState) (b : Nat) (hb : a.best = some b) :
    ∃ x, (l.foldl (RedState.add ty r) a).best = some x ∧ x ∈ b :: l ∧ ∀ v ∈ b :: l, laneBest ty (r == .max) x v := by
  induction l generalizing a b with
  | nil => exact ⟨b, hb, by simp, by simp [laneBest_refl]⟩
  | cons w l ih =>
    obtain ⟨hmem, hbb, hbw⟩ := laneMinMax_best ty h (r == .max) b w 0
    obtain ⟨x, hx, hxm, hall⟩ := ih (a.add ty r w) _ (by rw [RedState.add_best ty r hr, hb, Option.elim_some])
    have hx0 := hall _ (List.mem_cons_self ..)
    refine ⟨x, hx, ?_, ?_⟩
    · rcases List.mem_cons.mp hxm with rfl | hxl
      · rcases hmem with e | e <;> simp [e]
      · simp [hxl]
    · intro v hv
      simp only [List.mem_cons] at hv
      obtain rfl | rfl | hv := hv
      · exact laneBest_trans hx0 hbb
      · exact laneBest_trans hx0 hbw
      · exact hall v (List.mem_cons_of_mem _ hv)

/-- R170: the sum of integer lanes is exact before it is narrowed. -/
theorem reduce_sum (ty : Ty) (h : isFp ty = false) (rm : Nat) (sat : Bool) (l : List Nat) :
    reduce ty .sum rm sat l = intLane' ty sat (l.map (laneInt ty)).sum := by
  simp only [reduce, RedState.val, h, Bool.false_eq_true, if_false, foldl_add_sum ty h, intLane_eq_intLane']
  simp [RedState.none]

/-- R170: a minimum or maximum of integer lanes is a lane that none betters. -/
theorem reduce_best (ty : Ty) (h : isFp ty = false) (r : Red) (hr : r ≠ .sum) (rm : Nat) (sat : Bool) (l : List Nat) (hl : l ≠ []) :
    (reduce ty r rm sat l).1 ∈ l ∧ ∀ v ∈ l, laneBest ty (r == .max) (reduce ty r rm sat l).1 v := by
  cases l with
  | nil => exact absurd rfl hl
  | cons w l =>
    obtain ⟨x, hx, hmem, hall⟩ := foldl_add_best ty h r hr l (RedState.none.add ty r w) w (RedState.add_best ty r hr .none w)
    have hval : (reduce ty r rm sat (w :: l)).1 = x := by
      rw [reduce, List.foldl_cons]
      cases r with
      | sum => exact absurd rfl hr
      | min => simp [RedState.val, hx, h]
      | max => simp [RedState.val, hx, h]
    rw [hval]
    exact ⟨hmem, hall⟩

/-! ### The highest-ranking pair (R156, R172) -/

/-- Pair q of an index and a value ranks at least as high as p: by the key, ties to the lower index. -/
def PairLe (f : Fmt) (ord : Bool) (p q : Nat × Nat) : Prop := pairKey f ord p.2 < pairKey f ord q.2 ∨ pairKey f ord p.2 = pairKey f ord q.2 ∧ q.1 ≤ p.1

theorem PairLe.refl (f : Fmt) (ord : Bool) (p : Nat × Nat) : PairLe f ord p p := .inr ⟨rfl, le_refl _⟩
theorem PairLe.trans {f : Fmt} {ord : Bool} {p q r : Nat × Nat} (h : PairLe f ord p q) (k : PairLe f ord q r) : PairLe f ord p r := by
  unfold PairLe at *; omega

theorem fmtOf_eb_pos (ty : Ty) : 0 < (fmtOf ty).eb := by cases ty <;> decide

/-- MAXI answers one of its two pairs, and neither ranks higher. -/
theorem maxPair_le (ty : Ty) (ord : Bool) (p q : Nat × Nat) :
    let m := maxPair ty ord p q
    (m = p ∨ m = q) ∧ PairLe (fmtOf ty) ord p m ∧ PairLe (fmtOf ty) ord q m := by
  simp only [maxPair, outranks_iff (fmtOf_eb_pos ty), PairLe]
  split
  · exact ⟨.inl rfl, by omega, by omega⟩
  · split
    · exact ⟨.inr rfl, by omega, by omega⟩
    · split
      · exact ⟨.inl rfl, by omega, by omega⟩
      · exact ⟨.inr rfl, by omega, by omega⟩

/-- The pair that VMAXI holds of lane j of a list whose lanes start at index i. -/
def lanePair (base i : Nat) (l : List Nat) (j : Nat) : Nat × Nat := ((base + i + j) % 2 ^ 32, nth 0 l j)

theorem lanePair_succ (base i v : Nat) (l : List Nat) (j : Nat) : lanePair base i (v :: l) (j + 1) = lanePair base (i + 1) l j := by
  simp [lanePair, nth, Nat.add_assoc, Nat.add_comm 1 j]

/-- With a best pair so far, VMAXI ends with that pair or a lane's, and none of them ranks higher. -/
theorem maxLane_some (ty : Ty) (ord : Bool) (base i : Nat) (b : Nat × Nat) (l : List Nat) :
    ∃ p, maxLane ty ord base i (some b) l = some p ∧ (p = b ∨ ∃ j < l.length, p = lanePair base i l j) ∧ PairLe (fmtOf ty) ord b p ∧
      ∀ j < l.length, PairLe (fmtOf ty) ord (lanePair base i l j) p := by
  induction l generalizing i b with
  | nil => exact ⟨b, rfl, .inl rfl, .refl _ _ _, by simp⟩
  | cons v l ih =>
    obtain ⟨hm, hb, hv⟩ := maxPair_le ty ord b ((base + i) % 2 ^ 32, v)
    obtain ⟨p, hp, hmem, hle, hall⟩ := ih (i + 1) (maxPair ty ord b ((base + i) % 2 ^ 32, v))
    refine ⟨p, hp, ?_, hb.trans hle, ?_⟩
    · obtain hmem | ⟨j, hj, hmem⟩ := hmem
      · obtain hm | hm := hm
        · exact .inl (hmem.trans hm)
        · exact .inr ⟨0, by simp, hmem.trans hm⟩
      · exact .inr ⟨j + 1, by simpa using hj, by rw [lanePair_succ, hmem]⟩
    · intro j hj
      cases j with
      | zero => exact hv.trans hle
      | succ j => rw [lanePair_succ]; exact hall j (by simpa using hj)

/-- R172: VMAXI finds a lane whose pair ranks highest. -/
theorem maxLane_none (ty : Ty) (ord : Bool) (base : Nat) (l : List Nat) (hl : l ≠ []) :
    ∃ i < l.length, maxLane ty ord base 0 none l = some (lanePair base 0 l i) ∧
      ∀ j < l.length, PairLe (fmtOf ty) ord (lanePair base 0 l j) (lanePair base 0 l i) := by
  cases l with
  | nil => exact absurd rfl hl
  | cons v l =>
    obtain ⟨p, hp, hmem, hle, hall⟩ := maxLane_some ty ord base 1 ((base + 0) % 2 ^ 32, v) l
    have hlanes : ∀ j < (v :: l).length, PairLe (fmtOf ty) ord (lanePair base 0 (v :: l) j) p := by
      intro j hj
      cases j with
      | zero => exact hle
      | succ j => rw [lanePair_succ]; exact hall j (by simpa using hj)
    obtain rfl | ⟨j, hj, rfl⟩ := hmem
    · exact ⟨0, by simp, hp, hlanes⟩
    · refine ⟨j + 1, by simpa using hj, ?_, ?_⟩ <;> rw [lanePair_succ]
      · exact hp
      · exact hlanes

/-! ### The ranks of RACE (R189) -/

/-- A lane of a key and an index stands before another: by descending key, ties to the lower index. -/
def RaceBefore (p q : Nat × Nat) : Prop := q.1 < p.1 ∨ q.1 = p.1 ∧ p.2 < q.2

theorem raceInsert_perm (k i : Nat) (l : List (Nat × Nat)) : (raceInsert k i l).Perm ((k, i) :: l) := by
  induction l with
  | nil => exact .refl _
  | cons x l ih =>
    unfold raceInsert
    split
    · exact .refl _
    · exact (ih.cons _).trans (.swap ..)

/-- An index above all others goes into its place. -/
theorem raceInsert_pairwise (k i : Nat) (l : List (Nat × Nat)) (h : l.Pairwise RaceBefore) (hi : ∀ x ∈ l, x.2 < i) :
    (raceInsert k i l).Pairwise RaceBefore := by
  induction l with
  | nil => simp [raceInsert]
  | cons x l ih =>
    obtain ⟨hx, hl⟩ := List.pairwise_cons.mp h
    unfold raceInsert
    split
    · next hk =>
      refine List.pairwise_cons.mpr ⟨fun y hy => ?_, h⟩
      rcases List.mem_cons.mp hy with rfl | hy
      · exact .inl hk
      · have := hx y hy
        unfold RaceBefore at *
        omega
    · next hk =>
      refine List.pairwise_cons.mpr ⟨fun y hy => ?_, ih hl fun y hy => hi y (List.mem_cons_of_mem _ hy)⟩
      rcases List.mem_cons.mp ((raceInsert_perm k i l).mem_iff.mp hy) with rfl | hy
      · have := hi x (List.mem_cons_self ..)
        unfold RaceBefore
        omega
      · exact hx y hy

/-- The keys and indices of the lanes of a list whose lanes start at index i. -/
def raceKeys (i : Nat) (l : List Nat) : List (Nat × Nat) := (List.range l.length).map fun j => (rankKey fmtBf16 (nth 0 l j), i + j)

theorem raceKeys_cons (i v : Nat) (l : List Nat) : raceKeys i (v :: l) = (rankKey fmtBf16 v, i) :: raceKeys (i + 1) l := by
  simp [raceKeys, List.range_succ_eq_map, nth, Function.comp_def, Nat.add_assoc, Nat.add_comm 1]

/-- Ranking orders all lanes, best first. -/
theorem raceRank_sorted (i : Nat) (l : List Nat) (b : List (Nat × Nat)) (hb : b.Pairwise RaceBefore) (hi : ∀ x ∈ b, x.2 < i) :
    (raceRank i l b).Pairwise RaceBefore ∧ (raceRank i l b).Perm (raceKeys i l ++ b) := by
  induction l generalizing i b with
  | nil => exact ⟨hb, .refl _⟩
  | cons v l ih =>
    have hperm := raceInsert_perm (rankKey fmtBf16 v) i b
    obtain ⟨hs, hp⟩ := ih (i + 1) (raceInsert (rankKey fmtBf16 v) i b) (raceInsert_pairwise _ i b hb hi) fun x hx => by
      rcases List.mem_cons.mp (hperm.mem_iff.mp hx) with rfl | hx
      · exact Nat.lt_succ_self i
      · exact Nat.lt_succ_of_lt (hi x hx)
    refine ⟨hs, hp.trans ?_⟩
    rw [raceKeys_cons, List.cons_append]
    exact (hperm.append_left _).trans List.perm_middle

end Sys2Proof.Machine
end

section
/-! SUPPORT. O30: operand slots are checked, and every vector instruction writes or sends what its rule says. -/

namespace Sys2Proof.Machine

open Sys2Proof.Claims

/-! ### Operand checks (R26, R160, R161, R164, R317) -/

/-- What a reference to a slot lacks, case by case. -/
theorem State.argFault_cases (s : State) (f : Firing) (a : Arg) : (a.ref = none → s.argFault f a = none) ∧ ∀ b n, a.ref = some (b, n) →
    (s.buf f.e f.ctx b = none → ∃ i, s.argFault f a = some i ∧ i.code = 12) ∧
    ∀ x, s.buf f.e f.ctx b = some x →
      (x.depth ≤ n ∨ (x.slot n).full = false → ∃ i, s.argFault f a = some i ∧ i.code = 12) ∧
      (n < x.depth → (x.slot n).full = true → (x.slot n).exp = true → ∃ i, s.argFault f a = some i ∧ i.code = 4 ∧ i.acc = 0) ∧
      (n < x.depth → (x.slot n).full = true → (x.slot n).exp = false → x.size < a.lines → ∃ i, s.argFault f a = some i ∧ i.code = 12) ∧
      (n < x.depth → (x.slot n).full = true → (x.slot n).exp = false → a.lines ≤ x.size → s.argFault f a = none) := by
  refine ⟨fun h => by simp only [State.argFault, h], fun b n h => ⟨fun hb => ?_, fun x hx => ⟨fun hn => ?_, fun hn hf he => ?_, fun hn hf he hl => ?_,
    fun hn hf he hl => ?_⟩⟩⟩ <;> simp only [State.argFault, h]
  · simp only [hb]; exact ⟨_, rfl, rfl⟩
  · have hc : (decide (x.depth ≤ n) || !(x.slot n).full) = true := by simpa using hn
    simp only [hx, hc, if_true]; exact ⟨_, rfl, rfl⟩
  · simp only [hx, hf, he, Nat.not_le.mpr hn, decide_false, Bool.not_true, Bool.or_false, Bool.false_eq_true, if_false, if_true]
    exact ⟨_, rfl, rfl, rfl⟩
  · simp only [hx, hf, he, Nat.not_le.mpr hn, hl, decide_false, Bool.not_true, Bool.or_false, Bool.false_eq_true, if_false, if_true]
    exact ⟨_, rfl, rfl⟩
  · simp only [hx, hf, he, Nat.not_le.mpr hn, Nat.not_lt.mpr hl, decide_false, Bool.not_true, Bool.or_false, Bool.false_eq_true, if_false]

/-- A lane-wise node is a slot node of its operands. -/
theorem State.laneNode_eq {s : State} {f : Firing} (h : s.focus = .node f) (o : Ops) (ta tb tc tr : Ty) (g : LaneFn) :
    ∃ body, s.laneNode o ta tb tc tr g = .next (s.slotNode f o (s.vargs f o ta tb tc) 0 (tyBits o.ty) 0 body) :=
  ⟨_, State.flow_node h _⟩

/-- The lane-wise instructions whose operands have lanes of TY. -/
def sameLaneInstrs : List (Ops → Instr) :=
  [.vadd, .vsub, .vmul, .vfma, .vmin, .vmax, .vabs, .vexp2, .vlog2, .vrcp, .vrsq, .vcmpEq, .vcmpNe, .vcmpLt, .vcmpLe, .vcmpGt, .vcmpGe, .vcmpUn]

theorem exec_sameLane {c : Ops → Instr} (hc : c ∈ sameLaneInstrs) (o : Ops) (s : State) :
    ∃ tr g, exec (c o) s = s.laneNode o o.ty o.ty o.ty tr g := by
  unfold sameLaneInstrs at hc
  fin_cases hc <;> exact ⟨_, _, rfl⟩

/-- The vector instructions that write a slot. -/
def slotInstrs : List (Ops → Instr) :=
  [.vadd, .vsub, .vmul, .vfma, .vmin, .vmax, .vabs, .vexp2, .vlog2, .vrcp, .vrsq, .vcvt, .vqnt, .vdqnt, .vcmpEq, .vcmpNe, .vcmpLt, .vcmpLe, .vcmpGt,
    .vcmpGe, .vcmpUn, .vsel, .vscanSum, .vscanMin, .vscanMax, .vnoise, .vbcast, .vperm]

/-- Table 5.6: the vector instructions that write a slot name their buffer in bits 4:0 of IMM. -/
theorem nodeDest_slotInstr {c : Ops → Instr} (hc : c ∈ slotInstrs) (o : Ops) : (sig (c o)).bind nodeDest = some (nfld o.imm 0 5) := by
  unfold slotInstrs at hc
  fin_cases hc <;> rfl

/-- R161: a live firing whose destination slot is full is not ready. -/
theorem State.not_ready_of_full {s : State} {e : Nat} {x : Cand} {f : Firing} {toks : List Token} {b : Buf} {g : Sig} {i : Instr} {n : Nat}
    (hx : x.pick = .fire f toks) (hd : decode f.word = .ok i) (hs : sig i = some g) (hn : nodeDest g = some n)
    (hl : ({ s with focus := .node f } : State).deadOperand f g = false) (hb : s.buf f.e f.ctx n = some b) (hf : (b.slot b.widx).full = true) :
    s.ready e x = false := by
  have hdest : ({ s with focus := .node f } : State).destReady f.e f.ctx n = false := by
    have hb' : ({ s with focus := .node f } : State).buf f.e f.ctx n = some b := hb
    simp only [State.destReady, hb', hf, Bool.not_true]
  have hfit : s.fit x.pick = false := by
    simp only [State.fit, hx, hd, hs, State.readyFor, hn, hl, hdest, Bool.or_false, Bool.false_and]
  simp only [State.ready, hfit, Bool.and_false, Bool.false_and]

theorem operandSlotsAreChecked : OperandSlotsAreChecked := by
  refine ⟨State.argFault_cases, ?_, ?_⟩
  · intro c hc o s f hf args
    obtain ⟨tr, G, hexec⟩ := exec_sameLane hc o s
    obtain ⟨body, hbody⟩ := State.laneNode_eq hf o o.ty o.ty o.ty tr G
    rw [hexec, hbody]
    refine ⟨fun i hi => by rw [State.slotNode_fault _ _ _ _ _ _ _ _ hi], fun ha hdead => ⟨_, by rw [hexec, hbody], ?_⟩, fun ⟨ha, hlive⟩ hb => ?_⟩
    · rw [State.slotNode_dead _ _ _ _ _ _ _ _ ha (by rwa [sbOr_argsSb_zero]), sbOr_argsSb_zero, outBoth_eq_both]
      obtain ⟨hmem, hstew, -, htok, -⟩ := s.toUnitOf_frame f o 1 none (vecCycles (tyBits o.ty) (argLines args) + 0)
        (both o (refOut f (argsSb args) 0)) none args (argsSb args)
      exact ⟨State.toUnitOf_units .., hmem, hstew, htok, fun b => State.toUnitOf_buf ..⟩
    · rw [← nfld_zero_five] at hb
      exact ⟨_, rfl, rfl, by rw [State.slotNode_noBuffer _ _ _ _ _ _ _ _ ha (by rwa [sbOr_argsSb_zero]) hb]⟩
  · intro c hc o s e x f toks b g hx hd hs hl hb hfull
    have hn : nodeDest g = some (nfld o.imm 0 5) := by simpa [hs] using nodeDest_slotInstr hc o
    exact State.not_ready_of_full hx hd hs hn hl (by rwa [nfld_zero_five]) hfull

/-! ### Lane-wise instructions (R166 to R169) -/

theorem laneArith_eq (o : Ops) (fp : Fmt → Nat → Bool → Nat → Nat → Nat × BitVec 8) (int : Int → Int → Int) (a b z : Nat) :
    laneArith o (fun f => fp f (rmOf o) (satOf o)) int a b z =
      if isFp o.ty then fp (fmtOf o.ty) (rmOf' o) (satOf' o) a b else intLane' o.ty (satOf' o) (int (laneInt o.ty a) (laneInt o.ty b)) := by
  rw [laneArith, intLane_eq_intLane', laneVal_eq_laneInt, laneVal_eq_laneInt, rmOf'_eq, satOf'_eq]

theorem laneMin_eq (ty : Ty) (a b z : Nat) : laneMinMax ty false a b z =
    (if isFp ty then fMinMax (fmtOf ty) false a b else if laneInt ty b < laneInt ty a then b else a, 0) := by
  rw [laneMinMax, laneVal_eq_laneInt, laneVal_eq_laneInt]
  split <;> rfl
theorem laneMax_eq (ty : Ty) (a b z : Nat) : laneMinMax ty true a b z =
    (if isFp ty then fMinMax (fmtOf ty) true a b else if laneInt ty a < laneInt ty b then b else a, 0) := by
  rw [laneMinMax, laneVal_eq_laneInt, laneVal_eq_laneInt]
  split <;> rfl

theorem laneAbs_eq (ty : Ty) (a y z : Nat) :
    laneAbs ty a y z = if isFp ty then (fAbs (fmtOf ty) a, 0) else intLane' ty false (laneInt ty a).natAbs := by
  rw [laneAbs, intLane_eq_intLane', laneVal_eq_laneInt]

/-- A relation of the exact values of two integer lanes (R169). -/
def FRel.holds (r : FRel) (x y : Int) : Bool :=
  match r with
  | .eq => x == y | .ne => x != y | .lt => decide (x < y) | .le => decide (x ≤ y) | .gt => decide (y < x) | .ge => decide (y ≤ x) | .un => false

theorem laneCmp_eq (ty : Ty) (r : FRel) {a b : Nat} (z : Nat) (ha : a < 2 ^ tyBits ty) (hb : b < 2 ^ tyBits ty) :
    laneCmp ty r a b z = ((if (if isFp ty then fCmp (fmtOf ty) r a b else r.holds (laneInt ty a) (laneInt ty b)) then 1 else 0), 0) := by
  have heq : (a == b) = (laneInt ty a == laneInt ty b) := by rw [Bool.eq_iff_iff, beq_iff_eq, beq_iff_eq, laneInt_inj ha hb]
  have hne : (a != b) = (laneInt ty a != laneInt ty b) := by rw [bne, bne, heq]
  simp only [laneCmp, laneVal_eq_laneInt]
  cases r <;> simp only [b2n, FRel.holds, heq, hne] <;> rfl

theorem vectorLanes : VectorLanes := by
  unfold VectorLanes
  intro arith un cmp
  refine ⟨?_, ?_, ?_, ?_, ?_, ?_, ?_, ?_, ?_, ?_, ?_, ?_, ?_, ?_, ?_, ?_, ?_, ?_, ?_, ?_⟩
  · exact laneWise_of_exec (fun _ _ => rfl) fun o a b z _ _ _ => laneArith_eq o fAdd _ a b z
  · exact laneWise_of_exec (fun _ _ => rfl) fun o a b z _ _ _ => laneArith_eq o fSub _ a b z
  · exact laneWise_of_exec (fun _ _ => rfl) fun o a b z _ _ _ => laneArith_eq o fMul _ a b z
  · exact laneWise_of_exec (fun _ _ => rfl) fun _ _ _ _ _ _ _ => rfl
  · exact laneWise_of_exec (fun _ _ => rfl) fun o a b z _ _ _ => laneMin_eq o.ty a b z
  · exact laneWise_of_exec (fun _ _ => rfl) fun o a b z _ _ _ => laneMax_eq o.ty a b z
  · exact laneWise_of_exec (fun _ _ => rfl) fun o a b z _ _ _ => laneAbs_eq o.ty a b z
  · exact laneWise_of_exec (fun _ _ => rfl) fun _ _ _ _ _ _ _ => rfl
  · exact laneWise_of_exec (fun _ _ => rfl) fun _ _ _ _ _ _ _ => rfl
  · exact laneWise_of_exec (fun _ _ => rfl) fun _ _ _ _ _ _ _ => rfl
  · exact laneWise_of_exec (fun _ _ => rfl) fun _ _ _ _ _ _ _ => rfl
  · exact laneWise_of_exec (fun _ _ => rfl) fun _ _ _ _ _ _ _ => rfl
  · exact laneWise_of_exec (fun _ _ => rfl) fun o _ _ z ha hb _ => laneCmp_eq o.ty .eq z ha hb
  · exact laneWise_of_exec (fun _ _ => rfl) fun o _ _ z ha hb _ => laneCmp_eq o.ty .ne z ha hb
  · exact laneWise_of_exec (fun _ _ => rfl) fun o _ _ z ha hb _ => laneCmp_eq o.ty .lt z ha hb
  · exact laneWise_of_exec (fun _ _ => rfl) fun o _ _ z ha hb _ => laneCmp_eq o.ty .le z ha hb
  · exact laneWise_of_exec (fun _ _ => rfl) fun o _ _ z ha hb _ => laneCmp_eq o.ty .gt z ha hb
  · exact laneWise_of_exec (fun _ _ => rfl) fun o _ _ z ha hb _ => laneCmp_eq o.ty .ge z ha hb
  · exact laneWise_of_exec (fun _ _ => rfl) fun o _ _ z ha hb _ => laneCmp_eq o.ty .un z ha hb
  · exact laneWise_of_exec (fun _ _ => rfl) fun _ _ _ _ _ _ _ => rfl

/-! ### Quantisation, noise, scans, broadcast and permutation (R168, R171, R173, R174) -/

/-- A lane rule of one lane, with the lane's number, as a scalar node's rule. -/
theorem mapLanes_one (g : Nat → Nat × BitVec 8) (la : List Nat) :
    mapLanes (fun x _ _ => g x) la [] [] =
      let l := (List.range la.length).map fun i => g (nth 0 la i)
      (l.map fun x => x.1, orAll (l.map fun x => x.2)) := mapLanes_eq _ la [] []

theorem noiseLanes_eq (o : Ops) (seed : Word) (p vb i : Nat) (la : List Nat) :
    noiseLanes o seed p vb i la =
      let l := (List.range la.length).map fun j => laneNoise o (nth 0 la j) (gumbel seed p ((vb + i + j) % 2 ^ 32))
      (l.map fun x => x.1, orAll (l.map fun x => x.2)) := by
  induction la generalizing i with
  | nil => rfl
  | cons v la ih =>
    rw [noiseLanes, ih]
    simp [List.range_succ_eq_map, nth, Function.comp_def, Nat.add_assoc, Nat.add_comm 1]

/-- R55 to R57: what VQNT gives of two finite values. -/
theorem quantise_fin (n g : Bool) (m : Nat) (e : Int) (k : Nat) (h : Int) (z top : Nat) (hk : k ≠ 0) :
    quantise (.fin n m e) (.fin g k h) z top =
      let u := m * 2 ^ (e - h).toNat
      let d := k * 2 ^ (h - e).toNat
      let t : Int := (if n ^^ g then -(roundDiv u d : Int) else roundDiv u d) + z
      let ix : BitVec 8 := if u = roundDiv u d * d then 0 else 0x01
      if t < 0 then (0, 0x04 ||| ix) else if (top : Int) < t then (top, 0x04 ||| ix) else (t.toNat, ix) := by
  have hd : 0 < k * 2 ^ (h - e).toNat := Nat.mul_pos (Nat.pos_of_ne_zero hk) (Nat.two_pow_pos _)
  simp only [quantise, hk, if_false, quotient_eq, signed, bOF, bIX, eq_roundDiv_mul_iff hd, bne_iff_ne, ne_eq, ite_not]

/-- R56, R57: what VQNT gives where the value or the scale is no finite number, or the scale is zero. -/
theorem quantise_special (x y : Fp) (n g : Bool) (m : Nat) (h : Int) (z top : Nat) :
    quantise .nan y z top = (z, 0x10) ∧ quantise x .nan z top = (z, 0x10) ∧ quantise x (.inf g) z top = (z, 0x10) ∧
    quantise x (.fin g 0 h) z top = (z, 0x10) ∧ (m ≠ 0 → quantise (.inf n) (.fin g m h) z top = (if n ^^ g then 0 else top, 0x04)) := by
  refine ⟨?_, ?_, ?_, ?_, fun hm => ?_⟩
  · cases y <;> rfl
  · cases x <;> rfl
  · cases x <;> rfl
  · cases x <;> rfl
  · simp only [quantise, hm, if_false, bOF]

/-- The scans, each with its reduction. -/
theorem exec_scan {r : Red} {c : Ops → Instr} (hc : (c, r) ∈ ([(.vscanSum, .sum), (.vscanMin, .min), (.vscanMax, .max)] : List ((Ops → Instr) × Red)))
    (o : Ops) (s : State) : exec (c o) s = s.scanNode o r := by
  fin_cases hc <;> rfl

/-- An operand that every lane of a list holds without raising anything. -/
theorem lanesRes_quiet (ty : Ty) (l : List Nat) : lanesRes ty (l, 0) = lanesOf ty (l.map fun v => (v, 0)) := by
  simp only [lanesRes, lanesOf, List.map_map, Function.comp_def, List.map_id', orAll_map_zero]

/-- The lanes of an index operand of VPERM, in a reference or broadcast. -/
theorem lanes_index {x : Arg} {n : Nat} {idx : List Nat} (hx : x.ref.isSome = true → x.lanes .u32 n = some idx)
    (hx' : x.ref = none → idx = List.replicate n (x.val.toNat % 2 ^ 32)) : x.lanes .u32 n = some idx := by
  by_cases hr : x.ref.isSome = true
  · exact hx hr
  · rw [hx' (by simpa using hr), Arg.lanes, if_neg hr]; rfl

theorem exec_vqnt (o : Ops) (s : State) : exec (.vqnt o) s = execVqnt o s := rfl
theorem exec_vdqnt (o : Ops) (s : State) : exec (.vdqnt o) s = execVdqnt o s := rfl
theorem exec_vnoise (o : Ops) (s : State) : exec (.vnoise o) s = execVnoise o s := rfl
theorem exec_vbcast (o : Ops) (s : State) : exec (.vbcast o) s = execVbcast o s := rfl
theorem exec_vperm (o : Ops) (s : State) : exec (.vperm o) s = execVperm o s := rfl

theorem vectorQuantScanPermute : VectorQuantScanPermute := by
  unfold VectorQuantScanPermute
  intro src
  refine ⟨?_, ?_, ?_, ?_, quantise_special, ?_, ?_, ?_⟩
  · refine laneScalars_of_exec (fun o s => (exec_vqnt o s).trans rfl) ?_
    exact fun _ _ _ _ _ la => mapLanes_one _ la
  · refine laneScalars_of_exec (fun o s => (exec_vdqnt o s).trans rfl) ?_
    exact fun _ _ _ _ _ la => mapLanes_one _ la
  · refine laneScalars_of_exec (fun o s => (exec_vnoise o s).trans rfl) ?_
    exact fun o s f b z la => noiseLanes_eq o _ _ _ 0 la
  · intro n g m e k h z top hk u d
    obtain ⟨hnear, heven⟩ := roundDiv_nearest (u := u) (d := d) (Nat.mul_pos (Nat.pos_of_ne_zero hk) (Nat.two_pow_pos _))
    exact ⟨roundDiv u d, hnear, heven, quantise_fin n g m e k h z top hk⟩
  · intro r c hc o s f la hf a ha
    refine writes_of_exec s f o _ fun _ => ?_
    rw [exec_scan hc, State.scanNode, State.flow_node hf]
    simp only [a] at ha
    simp only [bit, ha, Option.map_some, scanFrom_eq, lanesRes_eq_lanesOf, a]
    rfl
  · intro o s f b hf hb x l n hn hsize
    refine writes_of_exec s f o _ fun _ => ?_
    have hlines : ¬ (n = 0 ∨ b.size < n) := by omega
    rw [exec_vbcast, execVbcast, State.flow_node hf]
    have hn' : nfld (s.opVal .u32 o.imm o.b).v 0 32 = n := by simp [nfld, n, l]
    simp only [nfld_zero_five, hb, hn', if_neg hlines, lanesRes_quiet, List.map_replicate, x, l]
  · intro o s f idx src hf a x n hra ha hx hx'
    refine writes_of_exec s f o _ fun _ => ?_
    have hidx : x.lanes .u32 n = some idx := lanes_index hx hx'
    have hsrc : laneList (tyBits o.ty) (a.count o.ty) a.bytes = src := by
      rw [Arg.lanes, if_pos hra, Arg.count, if_pos rfl] at ha
      exact Option.some_inj.mp ha
    have hget (i : Nat) : (if i < src.length then nth 0 src i else 0) = nth 0 src i := by
      split
      · rfl
      · next h => exact (nth_of_length_le 0 (Nat.not_lt.mp h)).symm
    rw [exec_vperm, execVperm, State.flow_node hf]
    show Host.Outcome.next (s.slotNode f o [a, x] 0 (tyBits o.ty) 0 ((x.lanes .u32 n).map fun l => lanesRes o.ty
      (l.map fun i => nth 0 (laneList (tyBits o.ty) (a.count o.ty) a.bytes) i, 0))) = _
    simp only [hidx, hsrc, Option.map_some, hget, lanesRes_quiet, List.map_map, Function.comp_def]

end Sys2Proof.Machine
end

section
/-! SUPPORT. O30, concluded: the vector instructions that send a scalar (05 R170, R172, R189). -/

namespace Sys2Proof.Machine

open Sys2Proof.Claims

/-- The reductions to a scalar, each with its rule. -/
theorem exec_red {r : Red} {c : Ops → Instr} (hc : (c, r) ∈ ([(.vredSum, .sum), (.vredMin, .min), (.vredMax, .max)] : List ((Ops → Instr) × Red)))
    (o : Ops) (s : State) : exec (c o) s = s.redNode o r := by
  fin_cases hc <;> rfl

theorem exec_vmaxi (o : Ops) (s : State) : exec (.vmaxi o) s = execVmaxi o s := rfl
theorem exec_race (o : Ops) (s : State) : exec (.race o) s = execRace o s := rfl

/-- A format has no more bits than its type. -/
theorem fmtOf_nan_lt (ty : Ty) : (fmtOf ty).nan < 2 ^ 32 := by cases ty <;> decide
theorem tyBits_le_of_isFp {ty : Ty} (h : isFp ty = true) : tyBits ty ≤ 32 := by
  revert h
  cases ty <;> decide

/-- The pair of an index and a datum, as a payload (R155, R156). -/
theorem pairOut_eq (ty : Ty) {i v : Nat} (hi : i < 2 ^ 32) (hv : v < 2 ^ 32) :
    pairOut ty (i, v) = BitVec.ofNat 64 (i * 2 ^ 32 + if fIsNan (fmtOf ty) v then (fmtOf ty).nan else v) := by
  have hval : (if (fmtOf ty).read v = .nan then (fmtOf ty).nan else v) = if fIsNan (fmtOf ty) v then (fmtOf ty).nan else v := by
    simp only [Fmt.read_eq_nan]
  have hlt : (if fIsNan (fmtOf ty) v then (fmtOf ty).nan else v) < 2 ^ 32 := by
    split
    · exact fmtOf_nan_lt ty
    · exact hv
  rw [pairOut, hval, mkPair, pack]
  simp only [packNat, Nat.mod_eq_of_lt hi, Nat.mod_eq_of_lt hlt, Nat.pow_zero, Nat.mul_one, Nat.add_zero]

/-- The key of a lane of RACE, and which of two lanes it sends first (R189). -/
def raceKey (l : List Nat) (i : Nat) : Nat := rankKey fmtBf16 (nth 0 l i)
def RaceBetter (l : List Nat) (i j : Nat) : Prop := raceKey l j < raceKey l i ∨ raceKey l j = raceKey l i ∧ i < j

/-- All lanes, best first. -/
def raceOrder (l : List Nat) : List Nat := (raceRank 0 l []).map fun x => x.2

theorem raceKeys_indices (l : List Nat) : (raceKeys 0 l).map (fun x => x.2) = List.range l.length := by
  simp [raceKeys, Function.comp_def]

theorem mem_raceKeys {l : List Nat} {x : Nat × Nat} (h : x ∈ raceKeys 0 l) : x.1 = raceKey l x.2 := by
  simp only [raceKeys, List.mem_map, List.mem_range] at h
  obtain ⟨j, -, rfl⟩ := h
  simp [raceKey]

theorem raceOrder_perm (l : List Nat) : (raceOrder l).Perm (List.range l.length) := by
  obtain ⟨-, hp⟩ := raceRank_sorted 0 l [] .nil (by simp)
  rw [List.append_nil] at hp
  exact raceKeys_indices l ▸ hp.map _

theorem raceOrder_pairwise (l : List Nat) : (raceOrder l).Pairwise (RaceBetter l) := by
  obtain ⟨hs, hp⟩ := raceRank_sorted 0 l [] .nil (by simp)
  rw [List.append_nil] at hp
  refine List.pairwise_map.mpr (hs.imp_of_mem fun {x y} hx hy h => ?_)
  rw [RaceBetter, ← mem_raceKeys (hp.mem_iff.mp hx), ← mem_raceKeys (hp.mem_iff.mp hy)]
  exact h

/-- R189: the first indices of the order are the lanes that rank best, best first and ties to the lower index. -/
theorem take_raceOrder (k : Nat) (l : List Nat) :
    let t := (raceOrder l).take k
    t.length = min k l.length ∧ t.Nodup ∧ (∀ i ∈ t, i < l.length) ∧ t.Pairwise (RaceBetter l) ∧
      ∀ j < l.length, j ∉ t → ∀ i ∈ t, RaceBetter l i j := by
  have hp := raceOrder_perm l
  have hmem {i : Nat} : i ∈ raceOrder l ↔ i < l.length := by rw [hp.mem_iff, List.mem_range]
  have hs := raceOrder_pairwise l
  refine ⟨by rw [List.length_take, hp.length_eq, List.length_range], (hp.nodup_iff.mpr List.nodup_range).take, fun i hi => hmem.mp (List.mem_of_mem_take hi),
    hs.take, fun j hj hjt i hi => ?_⟩
  rw [← List.take_append_drop k (raceOrder l)] at hs
  refine (List.pairwise_append.mp hs).2.2 i hi j ?_
  have hj' := hmem.mpr hj
  rw [← List.take_append_drop k (raceOrder l)] at hj'
  exact (List.mem_append.mp hj').resolve_left hjt

/-- The payload of indices of six bits is what the statement packs. -/
theorem racePay_eq {l : List Nat} (h : ∀ i ∈ l, i < 64) : racePay l = BitVec.ofNat 64 (l.foldr (fun i n => i + 64 * n) 0 + l.length * 2 ^ 48) := by
  have hfold : l.foldr (fun i n => i % 64 + 64 * n) 0 = l.foldr (fun i n => i + 64 * n) 0 := by
    induction l with
    | nil => rfl
    | cons x l ih =>
      rw [List.foldr_cons, List.foldr_cons, ih fun i hi => h i (List.mem_cons_of_mem _ hi), Nat.mod_eq_of_lt (h x (List.mem_cons_self ..))]
  rw [racePay, hfold]

/-- R172: the lane whose pair ranks highest, and the payload that VMAXI sends of it. -/
theorem maxLane_payload (ty : Ty) (h : isFp ty = true) (ord : Bool) (base : Nat) {l : List Nat} (hl : l ≠ []) (hlt : ∀ i, nth 0 l i < 2 ^ tyBits ty) :
    ∃ i < l.length,
      (∀ j < l.length, PairLe (fmtOf ty) ord ((base + j) % 2 ^ 32, nth 0 l j) ((base + i) % 2 ^ 32, nth 0 l i)) ∧
      (maxLane ty ord (base % 2 ^ 32) 0 none l).map (pairOut ty) = some (BitVec.ofNat 64 ((base + i) % 2 ^ 32 * 2 ^ 32 +
        if fIsNan (fmtOf ty) (nth 0 l i) then (fmtOf ty).nan else nth 0 l i)) := by
  obtain ⟨i, hi, hmax, hall⟩ := maxLane_none ty ord (base % 2 ^ 32) l hl
  have hpair (j : Nat) : lanePair (base % 2 ^ 32) 0 l j = ((base + j) % 2 ^ 32, nth 0 l j) := by simp [lanePair]
  refine ⟨i, hi, fun j hj => by simpa only [hpair] using hall j hj, ?_⟩
  have hv : nth 0 l i < 2 ^ 32 := Nat.lt_of_lt_of_le (hlt i) (Nat.pow_le_pow_right (by decide) (tyBits_le_of_isFp h))
  rw [hmax, hpair, Option.map_some, pairOut_eq ty (Nat.mod_lt _ (by decide)) hv]

theorem vectorReductions : VectorReductions := by
  refine ⟨?_, fun ty rm sat la h => ⟨reduce_sum ty h rm sat la, fun v hv => ?_⟩, ?_, ?_⟩
  · intro r c hc o s f la hf a ha x
    refine answers_of_exec s f o [a] (cycles := fun n => vecCycles (tyBits o.ty) n + 8) fun _ => ?_
    simp only [a] at ha
    rw [exec_red hc, State.redNode, State.flow_node hf]
    simp only [bit, ha, Option.map_some, a, x, rmOf'_eq, satOf'_eq]
  · obtain ⟨hmin, hminle⟩ := reduce_best ty h .min (by decide) rm sat la (List.ne_nil_of_mem hv)
    obtain ⟨hmax, hmaxle⟩ := reduce_best ty h .max (by decide) rm sat la (List.ne_nil_of_mem hv)
    exact ⟨hminle v hv, hmaxle v hv, hmin, hmax⟩
  · intro o s f la hf hfp a b fm idx key ha hne
    obtain ⟨i, hi, hall, hpay⟩ := maxLane_payload o.ty hfp (o.imm.getLsbD 12) b.v.toNat hne (Arg.lanes_nth_lt ha)
    refine ⟨i, hi, hall, answers_of_exec s f o [a, scalarArg b] (cycles := fun n => vecCycles (tyBits o.ty) n + 8) fun _ => ?_⟩
    obtain ⟨p, hp, hpout⟩ := Option.map_eq_some_iff.mp hpay
    have hbase : nfld b.v 0 32 = b.v.toNat % 2 ^ 32 := by simp [nfld]
    simp only [a, b] at ha hp hpout hbase
    rw [exec_vmaxi, execVmaxi, State.flow_node hf]
    simp only [bit, ha, hbase, hp, hpout, Option.map_some, a, b, idx, fm]
  · intro o s f hf a b m k lane better hm1 hm64 hmlines href hk
    obtain ⟨hlen, hnodup, hlt, hpair, hrest⟩ := take_raceOrder k (laneList 16 m a.bytes)
    rw [laneList_length] at hlen hlt hrest
    refine ⟨_, hlen, hnodup, hlt, hpair, hrest, answers_of_exec s f o [a, scalarArg b] (cycles := fun _ => 17) fun _ => ?_⟩
    have hguard : ¬ (m < 1 ∨ 64 < m ∨ a.lines * 32 < m) := by omega
    have hm : nfld (s.opVal .u32 o.imm o.b).v 0 32 = m := by simp [nfld, m, b]
    have hk' : nfld o.imm 8 4 = k := rfl
    rw [← racePay_eq fun i hi => Nat.lt_of_lt_of_le (hlt i hi) hm64, exec_race, execRace, State.flow_node hf]
    simp only [bit, hm, hk', if_neg hguard, raceOrder, List.map_take, a, b]

end Sys2Proof.Machine

namespace Sys2Proof

/-- Settles O30: each instruction's meaning is the slot node or scalar node of its operands (`writes_of_exec`, `answers_of_exec`), and its rule is
the model's, lane by lane. -/
theorem vectorInstructions : Obligations.VectorInstructions :=
  ⟨Machine.operandSlotsAreChecked, Machine.vectorLanes, Machine.vectorQuantScanPermute, Machine.vectorReductions⟩

end Sys2Proof
end

section
/-! SUPPORT. Tile headers, grids and tile elements (01 R31 to R34, 05 R185 to R190). -/

namespace Sys2Proof.Machine

open Sys2Proof.Claims

/-! ### The fields of a header -/

section Header
variable (tcol trow beats ncol nrow rax scl grp fmt : Nat)

@[simp] theorem hTcol_mkHdr : hTcol (mkHdr tcol trow beats ncol nrow rax scl grp fmt) = tcol % 2 ^ 16 := nfld_pack _ _ _ _ _ rfl (by simp)
@[simp] theorem hTrow_mkHdr : hTrow (mkHdr tcol trow beats ncol nrow rax scl grp fmt) = trow % 2 ^ 16 := nfld_pack _ _ _ _ _ rfl (by simp)
@[simp] theorem hBeats_mkHdr : hBeats (mkHdr tcol trow beats ncol nrow rax scl grp fmt) = beats % 2 ^ 7 := nfld_pack _ _ _ _ _ rfl (by simp)
@[simp] theorem hNcol_mkHdr : hNcol (mkHdr tcol trow beats ncol nrow rax scl grp fmt) = ncol % 2 ^ 5 := nfld_pack _ _ _ _ _ rfl (by simp)
@[simp] theorem hNrow_mkHdr : hNrow (mkHdr tcol trow beats ncol nrow rax scl grp fmt) = nrow % 2 ^ 5 := nfld_pack _ _ _ _ _ rfl (by simp)
@[simp] theorem hRax_mkHdr : hRax (mkHdr tcol trow beats ncol nrow rax scl grp fmt) = rax % 2 ^ 1 := nfld_pack _ _ _ _ _ rfl (by simp)
@[simp] theorem hScl_mkHdr : hScl (mkHdr tcol trow beats ncol nrow rax scl grp fmt) = scl % 2 ^ 1 := nfld_pack _ _ _ _ _ rfl (by simp)
@[simp] theorem hGrp_mkHdr : hGrp (mkHdr tcol trow beats ncol nrow rax scl grp fmt) = grp % 2 ^ 2 := nfld_pack _ _ _ _ _ rfl (by simp)
@[simp] theorem hFmt_mkHdr : hFmt (mkHdr tcol trow beats ncol nrow rax scl grp fmt) = fmt % 2 ^ 4 := nfld_pack _ _ _ _ _ rfl (by simp)

end Header

/-- A field fits its width. -/
theorem nfld_mod {n : Nat} (w : BitVec n) (lo len : Nat) : nfld w lo len % 2 ^ len = nfld w lo len := Nat.mod_eq_of_lt (nfld_lt w lo len)

/-! ### The header of a packet (R190) -/

/-- Setting TAG, SB, DBUF and DSLOT leaves every field beside them. -/
theorem nfld_hdrAddr (h : BitVec 256) (tag : Word) (sb : BitVec 8) (dbuf dslot lo len : Nat) (hlo : 72 ≤ lo) (hd : lo + len ≤ 112 ∨ 121 ≤ lo) :
    nfld (hdrAddr h tag sb dbuf dslot) lo len = nfld h lo len := by
  rw [hdrAddr, nfld_setFld_ne _ 117 4 _ _ _ (by decide) (by omega), nfld_setFld_ne _ 112 5 _ _ _ (by decide) (by omega),
    nfld_setFld_ne _ 64 8 _ _ _ (by decide) (by omega), nfld_setFld_ne _ 0 64 _ _ _ (by decide) (by omega)]

theorem hTag_hdrAddr (h : BitVec 256) (tag : Word) (sb : BitVec 8) (dbuf dslot : Nat) : hTag (hdrAddr h tag sb dbuf dslot) = tag := by
  refine fld_of_nfld _ _ _ ?_
  rw [hdrAddr, nfld_setFld_ne _ 117 4 _ _ _ (by decide) (by omega), nfld_setFld_ne _ 112 5 _ _ _ (by decide) (by omega),
    nfld_setFld_ne _ 64 8 _ _ _ (by decide) (by omega), nfld_setFld _ 0 64 _ (by decide), Nat.mod_eq_of_lt tag.isLt]

theorem hSb_hdrAddr (h : BitVec 256) (tag : Word) (sb : BitVec 8) (dbuf dslot : Nat) : hSb (hdrAddr h tag sb dbuf dslot) = sb := by
  refine fld_of_nfld _ _ _ ?_
  rw [hdrAddr, nfld_setFld_ne _ 117 4 _ _ _ (by decide) (by omega), nfld_setFld_ne _ 112 5 _ _ _ (by decide) (by omega),
    nfld_setFld _ 64 8 _ (by decide), Nat.mod_eq_of_lt sb.isLt]

theorem hDbuf_hdrAddr (h : BitVec 256) (tag : Word) (sb : BitVec 8) (dbuf dslot : Nat) : hDbuf (hdrAddr h tag sb dbuf dslot) = dbuf % 2 ^ 5 := by
  rw [hDbuf, hdrAddr, nfld_setFld_ne _ 117 4 _ _ _ (by decide) (by omega), nfld_setFld _ 112 5 _ (by decide)]

theorem hDslot_hdrAddr (h : BitVec 256) (tag : Word) (sb : BitVec 8) (dbuf dslot : Nat) : hDslot (hdrAddr h tag sb dbuf dslot) = dslot % 2 ^ 4 := by
  rw [hDslot, hdrAddr, nfld_setFld _ 117 4 _ (by decide)]

/-! ### Bytes -/

theorem toBytes_len (v n : Nat) : (toBytes v n).length = n := by
  induction n generalizing v with
  | zero => rfl
  | succ n ih => rw [toBytes, List.length_cons, ih]

theorem ofBytes_toBytes_mod (v n : Nat) : ofBytes (toBytes v n) = v % 256 ^ n := by
  induction n generalizing v with
  | zero => rw [toBytes, ofBytes, Nat.pow_zero, Nat.mod_one]
  | succ n ih =>
    have hstep : v % 256 ^ (n + 1) = v % 256 + 256 * (v / 256 % 256 ^ n) := by rw [Nat.pow_succ', Nat.mod_mul (a := 256)]
    rw [toBytes, ofBytes, ih, BitVec.toNat_ofNat, hstep]

/-- A number of whole units that holds n things of size one, d to a unit. -/
theorem le_mul_ceilDiv (n : Nat) {d : Nat} (h : 0 < d) : n ≤ d * ceilDiv n d := by
  have hdiv := Nat.div_add_mod (n + d - 1) d
  have hmod := Nat.mod_lt (n + d - 1) h
  rw [ceilDiv]
  omega

/-- The body of a packet: the elements of the shape, and zero bits to a whole beat (R32). -/
theorem tileBody_spec (h : BitVec 256) (l : List Byte) :
    (tileBody h l).length = 64 * fmtBeats (hFmt h) (hNrow h) (hNcol h) ∧
    ofBytes (tileBody h l) = ofBytes l % 2 ^ ((hNrow h + 1) * (hNcol h + 1) * fmtBits (hFmt h)) := by
  refine ⟨toBytes_len _ _, ?_⟩
  have hbeats := le_mul_ceilDiv ((hNrow h + 1) * (hNcol h + 1) * fmtBits (hFmt h)) (d := 512) (by decide)
  have hpow : 256 ^ (64 * fmtBeats (hFmt h) (hNrow h) (hNcol h)) = 2 ^ (512 * fmtBeats (hFmt h) (hNrow h) (hNcol h)) := by
    rw [show 256 = 2 ^ 8 from rfl, ← Nat.pow_mul]
    congr 1
    omega
  rw [tileBody, ofBytes_toBytes_mod, hpow]
  exact Nat.mod_eq_of_lt (Nat.lt_of_lt_of_le (Nat.mod_lt _ (Nat.two_pow_pos _)) (Nat.pow_le_pow_right (by decide) hbeats))

/-! ### Grids -/

/-- A list of n rows of k, row by row. -/
theorem gridRows_eq (k n : Nat) (l : List Nat) (h : l.length = n * k) :
    gridRows k n l = (List.range n).map fun i => (List.range k).map fun j => nth 0 l (i * k + j) := by
  induction n generalizing l with
  | zero => rfl
  | succ n ih =>
    have hlen : l.length = n * k + k := by rw [h, Nat.succ_mul]
    have hfirst : l.take k = (List.range k).map fun j => nth 0 l (0 * k + j) := by
      apply List.ext_getElem
      · simp [hlen]
      · intro j hj hj'
        have : j < l.length := by simp at hj; omega
        simp [nth_eq_getD, this]
    have hrest (i j : Nat) : nth 0 (l.drop k) (i * k + j) = nth 0 l ((i + 1) * k + j) := by
      rw [nth_eq_getD, nth_eq_getD, Nat.succ_mul]
      simp [List.getD_eq_getElem?_getD, Nat.add_comm, Nat.add_left_comm]
    rw [gridRows, hfirst, ih (l.drop k) (by rw [List.length_drop, hlen]; omega)]
    simp only [hrest, List.range_succ_eq_map, List.map_cons, List.map_map]
    rfl

/-- The values of all places of a shape, row by row. -/
theorem map_places {α : Type} (rows cols : Nat) (g : Nat × Nat → α) :
    (places rows cols).map g = ((List.range rows).map fun i => (List.range cols).map fun j => g (i, j)).flatten := by
  simp [places, List.flatMap, Function.comp_def]

theorem length_places (rows cols : Nat) : (places rows cols).length = rows * cols := by
  simp [places, List.length_flatMap]

/-- Rows joined again are the list that they were cut from. -/
theorem flatten_gridRows (k n : Nat) (l : List Nat) (h : l.length = n * k) : (gridRows k n l).flatten = l := by
  induction n generalizing l with
  | zero => rw [Nat.zero_mul] at h; rw [List.length_eq_zero_iff.mp h]; rfl
  | succ n ih =>
    rw [Nat.succ_mul] at h
    rw [gridRows, List.flatten_cons, ih _ (by rw [List.length_drop, h]; omega), List.take_append_drop]

theorem gridCols_map (k rows : Nat) (g : Nat → Nat → Nat) :
    gridCols k ((List.range rows).map fun i => (List.range k).map (g i)) = (List.range k).map fun j => (List.range rows).map fun i => g i j := by
  rw [gridCols, rangeFrom_zero]
  refine List.map_congr_left fun j hj => ?_
  rw [List.map_map]
  exact List.map_congr_left fun i _ => nth_map_range 0 (g i) (List.mem_range.mp hj)

/-! ### Tile operands (R32) -/

section TileOperand
variable {a : Arg} {rows cols fmt : Nat} (h : TileIn a rows cols fmt)
include h

theorem tileIn_elems_length : (tileElems a.slot.hdr a.bytes).length = rows * cols := by
  obtain ⟨-, rfl, rfl, -⟩ := h
  exact laneList_length ..

/-- The rows of a tile operand. -/
theorem tileIn_gridRows : gridRows (hNcol a.slot.hdr + 1) (hNrow a.slot.hdr + 1) (tileElems a.slot.hdr a.bytes) =
    (List.range rows).map fun i => (List.range cols).map fun j => elemAt a i j := by
  have hlen := tileIn_elems_length h
  obtain ⟨-, rfl, rfl, -⟩ := h
  exact gridRows_eq _ _ _ hlen

/-- The elements of a tile operand, row by row. -/
theorem tileIn_elems : tileElems a.slot.hdr a.bytes = (places rows cols).map fun p => elemAt a p.1 p.2 := by
  have hlen := tileIn_elems_length h
  have hrows := tileIn_gridRows h
  obtain ⟨-, rfl, rfl, -⟩ := h
  rw [map_places, ← hrows, flatten_gridRows _ _ _ hlen]

end TileOperand

/-- A tile as a result: elements with the OR of what each raised, under a header's own fields. -/
theorem tileRes_eq_tileOf (h : BitVec 256) (fmt nrow ncol : Nat) (scale : BitVec 1024) (l : List (Nat × BitVec 8)) :
    tileRes h fmt nrow ncol (l.map fun x => x.1) scale (orAll (l.map fun x => x.2)) =
      tileOf (hTcol h) (hTrow h) (hRax h) (hScl h) (hGrp h) fmt (nrow + 1) (ncol + 1) scale l := rfl

theorem tileRes_foldl (h : BitVec 256) (fmt nrow ncol : Nat) (scale : BitVec 1024) (l : List (Nat × BitVec 8)) :
    tileRes h fmt nrow ncol (l.map fun x => x.1) scale (l.foldl (fun b x => b ||| x.2) 0) =
      tileOf (hTcol h) (hTrow h) (hRax h) (hScl h) (hGrp h) fmt (nrow + 1) (ncol + 1) scale l := by
  have hbits : l.foldl (fun b x => b ||| x.2) 0 = orAll (l.map fun x => x.2) := (foldl_or_eq_orAll _ l 0).trans BitVec.zero_or
  rw [hbits, tileRes_eq_tileOf]

/-- Elements that raise nothing, as a result. -/
theorem tileRes_quiet (h : BitVec 256) (fmt nrow ncol : Nat) (scale : BitVec 1024) (l : List Nat) :
    tileRes h fmt nrow ncol l scale 0 =
      tileOf (hTcol h) (hTrow h) (hRax h) (hScl h) (hGrp h) fmt (nrow + 1) (ncol + 1) scale (l.map fun v => (v, 0)) := by
  rw [← tileRes_eq_tileOf]
  simp only [List.map_map, Function.comp_def, List.map_id', orAll_map_zero]

/-- TREC's elements, place by place. -/
theorem recElems_map {α : Type} (g : Nat → Nat → Nat → Nat × BitVec 8) (u v w : α → Nat) (l : List α) :
    recElems g (l.map u) (l.map v) (l.map w) =
      let r := l.map fun p => g (u p) (v p) (w p)
      (r.map fun x => x.1, orAll (r.map fun x => x.2)) := by
  induction l with
  | nil => rfl
  | cons p l ih => simp [recElems, ih]

end Sys2Proof.Machine
end

section
/-! SUPPORT. O31: the tile instructions that write a slot or send a tile (05 R185 to R188, R190). -/

namespace Sys2Proof.Machine

open Sys2Proof.Claims

/-! ### Tile results (R185, R187, R188) -/

/-- A node that reads one tile writes what its body makes of any tile of that shape and format. -/
theorem writes_of_tileNode {i : Instr} {o : Ops} {s : State} {f : Firing} {body : Firing → Arg → Option SlotRes} {rows cols fmt : Nat} {r : Arg → SlotRes}
    (h : exec i s = s.tileNode o body) (hb : ∀ a, TileIn a rows cols fmt → body f a = some (r a)) {a : Arg}
    (ha : a = s.arg f .tile o.a (o.imm.getLsbD 5)) (ht : TileIn a rows cols fmt) : Writes i o s f [a] (fmtBits fmt) 0 (r a) := by
  subst ha
  refine writes_of_exec s f o _ fun hf => ?_
  obtain ⟨hv, -, -, hfmt⟩ := id ht
  rw [h, State.tileNode, State.flow_node hf]
  simp only [bit, hv, if_true, hb _ ht, hfmt]

theorem exec_ttrn (o : Ops) (s : State) : exec (.ttrn o) s = execTtrn o s := rfl
theorem exec_tcvt (o : Ops) (s : State) : exec (.tcvt o) s = execTcvt o s := rfl
theorem exec_tred (o : Ops) (s : State) : exec (.tred o) s = execTred o s := rfl
theorem exec_trec (o : Ops) (s : State) : exec (.trec o) s = execTrec o s := rfl

/-- The transposed tile's elements, row by row. -/
theorem gridCols_elems {a : Arg} {rows cols fmt : Nat} (ht : TileIn a rows cols fmt) :
    (gridCols cols (gridRows cols rows (tileElems a.slot.hdr a.bytes))).flatten = (places cols rows).map fun p => elemAt a p.2 p.1 := by
  have hgrid := tileIn_gridRows ht
  obtain ⟨-, rfl, rfl, -⟩ := ht
  rw [hgrid, gridCols_map, map_places]

/-- What TTRN makes of a tile (R185). -/
def ttrnTile (rows cols fmt : Nat) (a : Arg) : SlotRes :=
  tileOf (hTrow a.slot.hdr) (hTcol a.slot.hdr) (1 - hRax a.slot.hdr) (hScl a.slot.hdr) (hGrp a.slot.hdr) fmt cols rows a.slot.scale
    ((places cols rows).map fun p => (elemAt a p.2 p.1, 0))

theorem ttrn_writes (o : Ops) (s : State) (f : Firing) {rows cols fmt : Nat} {a : Arg} (ha : a = s.arg f .tile o.a (o.imm.getLsbD 5))
    (ht : TileIn a rows cols fmt) : Writes (.ttrn o) o s f [a] (fmtBits fmt) 0 (ttrnTile rows cols fmt a) := by
  refine writes_of_tileNode (exec_ttrn o s) (fun a ht => ?_) ha ht
  have helems := gridCols_elems ht
  have hrax : (1 - hRax a.slot.hdr) % 2 ^ 1 = 1 - hRax a.slot.hdr := Nat.mod_eq_of_lt (by omega)
  obtain ⟨-, rfl, rfl, rfl⟩ := ht
  refine (congrArg some (tileRes_quiet ..)).trans ?_
  rw [hTcol_mkHdr, hTrow_mkHdr, hRax_mkHdr, hScl_mkHdr, hGrp_mkHdr, hrax, helems, List.map_map]
  simp only [ttrnTile, hTrow, hTcol, hScl, hGrp, nfld_mod, Function.comp_def]

theorem fmtPlain_iff (f : Nat) : fmtPlain f = true ↔ f < 3 ∨ f = 5 := by simp [fmtPlain, fmtFp]
theorem fmtFp_iff (f : Nat) : fmtFp f = true ↔ f < 3 := by simp [fmtFp]

/-- What TCVT makes of a tile: every element converted (R185). -/
def tcvtTile (o : Ops) (rows cols fmt dst : Nat) (a : Arg) : SlotRes :=
  tileOf (hTcol a.slot.hdr) (hTrow a.slot.hdr) (hRax a.slot.hdr) (hScl a.slot.hdr) (hGrp a.slot.hdr) dst rows cols a.slot.scale
    ((places rows cols).map fun p => fmtConv fmt dst o (elemAt a p.1 p.2))

theorem tcvt_writes (o : Ops) (s : State) (f : Firing) {rows cols fmt : Nat} {a : Arg} (ha : a = s.arg f .tile o.a (o.imm.getLsbD 5))
    (ht : TileIn a rows cols fmt) (hsrc : fmt < 3 ∨ fmt = 5) (hdst : nfld o.imm 8 4 < 3 ∨ nfld o.imm 8 4 = 5) :
    Writes (.tcvt o) o s f [a] (fmtBits fmt) 0 (tcvtTile o rows cols fmt (nfld o.imm 8 4) a) := by
  refine writes_of_tileNode (exec_tcvt o s) (fun a ht => ?_) ha ht
  have helems := tileIn_elems ht
  obtain ⟨-, rfl, rfl, rfl⟩ := ht
  simp only [(fmtPlain_iff _).mpr hsrc, (fmtPlain_iff _).mpr hdst, Bool.and_true, Bool.not_true, Bool.false_eq_true, if_false, tileRes_foldl]
  rw [helems, List.map_map]
  rfl

/-- The reduction that IMM names (R188). -/
def tredRule (n : Nat) : Red := match n with | 0 => .sum | 1 => .max | _ => .min

/-- What TRED makes of a tile: each row, or each column, reduced (R188). -/
def tredTile (rows cols dst : Nat) (red : List Nat → Nat × BitVec 8) (byCol : Bool) (a : Arg) : SlotRes :=
  tileOf (hTcol a.slot.hdr) (hTrow a.slot.hdr) (hRax a.slot.hdr) (hScl a.slot.hdr) (hGrp a.slot.hdr) dst (if byCol then 1 else rows)
    (if byCol then cols else 1) 0
    (if byCol then (List.range cols).map fun j => red ((List.range rows).map fun i => elemAt a i j)
      else (List.range rows).map fun i => red ((List.range cols).map fun j => elemAt a i j))

theorem tred_writes (o : Ops) (s : State) (f : Firing) {rows cols fmt : Nat} {a : Arg} (ha : a = s.arg f .tile o.a (o.imm.getLsbD 5))
    (ht : TileIn a rows cols fmt) (hfmt : (fmt < 3 ∧ nfld o.imm 8 4 < 3) ∨ (fmt = 5 ∧ nfld o.imm 8 4 = 5)) :
    Writes (.tred o) o s f [a] (fmtBits fmt) 0
      (tredTile rows cols (nfld o.imm 8 4) (tredOne fmt (nfld o.imm 8 4) (tredRule (nfld o.imm 12 2)) o) (bit o.imm 14) a) := by
  refine writes_of_tileNode (exec_tred o s) (fun a ht => ?_) ha ht
  have hgrid := tileIn_gridRows ht
  have hguard : ((fmtFp fmt && fmtFp (nfld o.imm 8 4)) || (fmt == 5 && nfld o.imm 8 4 == 5)) = true := by
    simp only [Bool.or_eq_true, Bool.and_eq_true, fmtFp_iff, beq_iff_eq]
    exact hfmt
  obtain ⟨-, rfl, rfl, rfl⟩ := ht
  simp only [hguard, Bool.not_true, Bool.false_eq_true, if_false, tileRes_foldl, hgrid, gridCols_map, tredTile]
  generalize nfld o.imm 12 2 = n
  cases bit o.imm 14 with
  | false => simp only [Bool.false_eq_true, if_false, List.map_map]; rfl
  | true => simp only [if_true, List.map_map]; rfl

/-- What TREC makes of three tiles: a × h + x, element by element (R187). -/
def trecTile (o : Ops) (rows cols fa fh fx dst : Nat) (a h x : Arg) : SlotRes :=
  tileOf (hTcol x.slot.hdr) (hTrow x.slot.hdr) (hRax x.slot.hdr) (hScl x.slot.hdr) (hGrp x.slot.hdr) dst rows cols 0
    ((places rows cols).map fun p => recStep (fmtOf (fmtTy dst)) (rmOf o) (satOf o) ((fmtOf (fmtTy fa)).read (elemAt a p.1 p.2))
      ((fmtOf (fmtTy fh)).read (elemAt h p.1 p.2)) ((fmtOf (fmtTy fx)).read (elemAt x p.1 p.2)))

theorem trec_writes (o : Ops) (s : State) (f : Firing) {rows cols fa fh fx : Nat} {a h x : Arg} (ha : a = s.arg f .tile o.a (o.imm.getLsbD 5))
    (hh : h = s.arg f .tile o.b (o.imm.getLsbD 6)) (hx : x = s.arg f .tile o.c (o.imm.getLsbD 7))
    (ta : TileIn a rows cols fa) (th : TileIn h rows cols fh) (tx : TileIn x rows cols fx) (pa : fa < 3) (ph : fh < 3) (px : fx < 3)
    (pd : nfld o.imm 8 4 < 3) :
    Writes (.trec o) o s f [a, h, x] (fmtBits (nfld o.imm 8 4)) 0 (trecTile o rows cols fa fh fx (nfld o.imm 8 4) a h x) := by
  refine writes_of_exec s f o _ fun hf => ?_
  rw [exec_trec, execTrec, State.flow_node hf]
  simp only [bit, ← ha, ← hh, ← hx, tileIn_elems ta, tileIn_elems th, tileIn_elems tx, recElems_map]
  obtain ⟨va, ra, ca, ea⟩ := ta
  obtain ⟨vh, rh, ch, eh⟩ := th
  obtain ⟨vx, rfl, rfl, ex⟩ := tx
  have ra' : hNrow a.slot.hdr = hNrow x.slot.hdr := Nat.succ_injective ra
  have ca' : hNcol a.slot.hdr = hNcol x.slot.hdr := Nat.succ_injective ca
  have rh' : hNrow h.slot.hdr = hNrow x.slot.hdr := Nat.succ_injective rh
  have ch' : hNcol h.slot.hdr = hNcol x.slot.hdr := Nat.succ_injective ch
  simp only [va, vh, vx, ea, eh, ex, ra', ca', rh', ch', (fmtFp_iff _).mpr pa, (fmtFp_iff _).mpr ph, (fmtFp_iff _).mpr px, (fmtFp_iff _).mpr pd,
    beq_self_eq_true, Bool.and_true, Bool.not_true, Bool.false_eq_true, if_false, tileRes_eq_tileOf]
  rfl

theorem tileResults : TileResults := by
  intro o s f rows cols fmt hf a ha dst ht
  refine ⟨ttrn_writes o s f rfl ht, fun hs hd => tcvt_writes o s f rfl ht hs hd, ?_, ?_⟩
  · intro r red hfmt
    have hr : tredRule (nfld o.imm 12 2) = r := by
      have hn : nfld o.imm 12 2 = o.imm.toNat / 4096 % 4 := rfl
      simp only [hn, r]
      generalize o.imm.toNat / 4096 % 4 = n
      rfl
    have hw := tred_writes o s f rfl ht hfmt
    rw [hr] at hw
    refine ⟨fun hb : bit o.imm 14 = false => ?_, fun hb : bit o.imm 14 = true => ?_⟩
    · rw [hb] at hw; exact hw
    · rw [hb] at hw; exact hw
  · intro h x fh fx th tx pa ph px pd
    exact trec_writes o s f rfl rfl rfl ht th tx pa ph px pd

end Sys2Proof.Machine
end

section
/-! SUPPORT. O31, concluded: THDR (05 R186) and TSEND (R190). -/

namespace Sys2Proof.Machine

open Sys2Proof.Claims

/-! ### THDR (R186) -/

theorem exec_thdr (o : Ops) (s : State) : exec (.thdr o) s = execThdr o s := rfl
theorem exec_tsend (o : Ops) (s : State) : exec (.tsend o) s = execTsend o s := rfl

/-- An operand that names no slot counts no lines. -/
theorem State.arg_lines_of_ref_none {s : State} {f : Firing} {ty : Ty} {x : Opnd} {hold : Bool} (h : (s.arg f ty x hold).ref = none) :
    (s.arg f ty x hold).lines = 0 := by
  cases x with
  | port n =>
    revert h
    simp only [State.arg]
    split
    · exact fun _ => rfl
    · split
      · exact fun _ => rfl
      · split <;> exact fun h => absurd h (Option.some_ne_none _)
  | _ => rfl

/-- A format of Table 1.5 has elements of some width. -/
theorem fmtBits_eq_zero_iff (n : Nat) : fmtBits n = 0 ↔ 6 < n := by
  by_cases h : n ≤ 6
  · interval_cases n <;> decide
  · obtain ⟨k, rfl⟩ : ∃ k, n = k + 7 := ⟨n - 7, by omega⟩
    exact ⟨fun _ => by omega, fun _ => rfl⟩

/-- A header word that describes a tile the slot can hold (R31, R34, R186). -/
def GoodHeader (w : Word) (scl : Bool) (lines : Nat) : Prop :=
  let fmt := w.toNat / 2 ^ 42 % 16
  let grp := w.toNat / 2 ^ 46 % 4
  let quantised : Prop := fmt = 3 ∨ fmt = 4
  w.toNat / 2 ^ 49 = 0 ∧ fmt ≤ 6 ∧ (quantised → scl = true ∧ grp ≠ 0) ∧ (¬ quantised → scl = false ∧ grp = 0) ∧
    fmtBeats fmt (w.toNat / 2 ^ 32 % 32) (w.toNat / 2 ^ 37 % 32) ≤ lines

/-- The header that THDR writes, field by field (Table 5.9). -/
def headerOf (w : Word) (scl : Bool) : BitVec 256 :=
  mkHdr (nfld w 16 16) (nfld w 0 16) (fmtBeats (nfld w 42 4) (nfld w 32 5) (nfld w 37 5)) (nfld w 37 5) (nfld w 32 5) (nfld w 48 1) (b2n scl) (nfld w 46 2)
    (nfld w 42 4)

/-- THDR writes a header exactly when the word describes one. -/
theorem thdrHeader_eq (w : Word) (scl : Bool) (lines : Nat) :
    (GoodHeader w scl lines → thdrHeader w scl lines = some (headerOf w scl)) ∧ (¬ GoodHeader w scl lines → thdrHeader w scl lines = none) := by
  have htop : nfld w 49 15 = w.toNat / 2 ^ 49 := nfld_top w 49 15 rfl
  have hfmt : nfld w 42 4 = w.toNat / 2 ^ 42 % 16 := rfl
  have hgrp : nfld w 46 2 = w.toNat / 2 ^ 46 % 4 := rfl
  have hrow : nfld w 32 5 = w.toNat / 2 ^ 32 % 32 := rfl
  have hcol : nfld w 37 5 = w.toNat / 2 ^ 37 % 32 := rfl
  have hbad : (nfld w 49 15 != 0 || fmtBits (nfld w 42 4) == 0 || ((nfld w 42 4 == 3 || nfld w 42 4 == 4) && !(scl && nfld w 46 2 != 0)) ||
      (!(nfld w 42 4 == 3 || nfld w 42 4 == 4) && (scl || nfld w 46 2 != 0)) ||
      decide (lines < fmtBeats (nfld w 42 4) (nfld w 32 5) (nfld w 37 5))) = true ↔ ¬ GoodHeader w scl lines := by
    simp only [GoodHeader, ← htop, ← hfmt, ← hgrp, ← hrow, ← hcol, Bool.or_eq_true, Bool.and_eq_true, Bool.not_eq_true', Bool.or_eq_false_iff,
      Bool.and_eq_false_iff, bne_iff_ne, beq_iff_eq, beq_eq_false_iff_ne, bne_eq_false_iff_eq, decide_eq_true_eq, fmtBits_eq_zero_iff]
    cases scl <;> simp <;> omega
  exact ⟨fun h => if_neg fun hb => hbad.mp hb h, fun h => if_pos (hbad.mpr h)⟩

/-- A header that THDR writes holds what the word says of it (R186). -/
theorem headerOf_fields (w : Word) (scl : Bool) :
    hTrow (headerOf w scl) = w.toNat % 65536 ∧ hTcol (headerOf w scl) = w.toNat / 65536 % 65536 ∧ hNrow (headerOf w scl) = w.toNat / 2 ^ 32 % 32 ∧
    hNcol (headerOf w scl) = w.toNat / 2 ^ 37 % 32 ∧ hFmt (headerOf w scl) = w.toNat / 2 ^ 42 % 16 ∧ hGrp (headerOf w scl) = w.toNat / 2 ^ 46 % 4 ∧
    hRax (headerOf w scl) = w.toNat / 2 ^ 48 % 2 ∧ hScl (headerOf w scl) = (if scl then 1 else 0) ∧
    hBeats (headerOf w scl) = fmtBeats (w.toNat / 2 ^ 42 % 16) (w.toNat / 2 ^ 32 % 32) (w.toNat / 2 ^ 37 % 32) % 128 := by
  have hlow : nfld w 0 16 = w.toNat % 65536 := by simp [nfld]
  refine ⟨?_, ?_, ?_, ?_, ?_, ?_, ?_, ?_, ?_⟩
  · rw [headerOf, hTrow_mkHdr, nfld_mod, hlow]
  · rw [headerOf, hTcol_mkHdr, nfld_mod]; rfl
  · rw [headerOf, hNrow_mkHdr, nfld_mod]; rfl
  · rw [headerOf, hNcol_mkHdr, nfld_mod]; rfl
  · rw [headerOf, hFmt_mkHdr, nfld_mod]; rfl
  · rw [headerOf, hGrp_mkHdr, nfld_mod]; rfl
  · rw [headerOf, hRax_mkHdr, nfld_mod]; rfl
  · rw [headerOf, hScl_mkHdr]; cases scl <;> rfl
  · rw [headerOf, hBeats_mkHdr]; rfl

/-! ### What THDR does, case by case -/

section Thdr
variable (s : State) (f : Firing) (o : Ops)

/-- THDR's operands: the slot of a with the side-band of its token, the header word, and the scale block where the word names one. -/
def thdrSlot : Arg := { s.arg f .tile o.a true with sb := (s.opVal .x64 o.imm o.a).sb }
def thdrWord : Val := s.opVal .x64 o.imm o.b
def thdrScale : List Arg := if o.c = .none then [] else [s.arg f .tile o.c (bit o.imm 7)]
def thdrArgs : List Arg := [thdrSlot s f o, scalarArg (thdrWord s o)] ++ thdrScale s f o
theorem thdrArgs_def : [thdrSlot s f o, scalarArg (thdrWord s o)] ++ thdrScale s f o = thdrArgs s f o := rfl
/-- Its cycles (R175), with a lane width from FMT of the header word. -/
def thdrCycles : Nat := vecCycles (fmtBits (nfld (thdrWord s o).v 42 4)) (if (argAt (thdrScale s f o) 0).ref.isSome then 2 else 0)
/-- The slot state that THDR writes. -/
def thdrUpdate (h : BitVec 256) (q : Slot) : Slot :=
  { q with hv := true, hdr := h,
           scale := if (thdrScale s f o).isEmpty then q.scale else BitVec.ofNat 1024 (ofBytes ((argAt (thdrScale s f o) 0).bytes.take 128)) }

variable {s f o} (hf : s.focus = .node f) (ha : s.argsFault f (thdrArgs s f o) = none)
include hf ha

theorem thdr_dead (hd : sbDead (argsSb (thdrArgs s f o)) = true) :
    exec (.thdr o) s = .next (s.toUnitOf f o 1 none (thdrCycles s f o) (outBoth o (refOut f (argsSb (thdrArgs s f o)) 0)) none
      ({ thdrSlot s f o with hold := false } :: thdrScale s f o) (argsSb (thdrArgs s f o))) := by
  rw [exec_thdr, execThdr, State.flow_node hf, ← thdrSlot, ← thdrWord, ← thdrScale]
  simp only [thdrArgs_def, ha, hd, if_true]
  rfl

theorem thdr_bad (hl : sbDead (argsSb (thdrArgs s f o)) = false)
    (hb : thdrHeader (thdrWord s o).v (!(thdrScale s f o).isEmpty) (thdrSlot s f o).lines = none) :
    exec (.thdr o) s = .next (s.faultFiring f (f.info cBuffer (argsSb (thdrArgs s f o)))) := by
  rw [exec_thdr, execThdr, State.flow_node hf, ← thdrSlot, ← thdrWord, ← thdrScale]
  simp only [thdrArgs_def, ha, hl, hb, Bool.false_eq_true, if_false]

theorem thdr_good (hl : sbDead (argsSb (thdrArgs s f o)) = false) {h : BitVec 256} {bn n : Nat}
    (hh : thdrHeader (thdrWord s o).v (!(thdrScale s f o).isEmpty) (thdrSlot s f o).lines = some h) (hr : (thdrSlot s f o).ref = some (bn, n))
    (hc : (thdrScale s f o).isEmpty = true ∨ 2 ≤ (argAt (thdrScale s f o) 0).lines) :
    exec (.thdr o) s = .next ((s.modSlot f.e f.ctx bn n (thdrUpdate s f o h)).toUnitOf f o 1 none (thdrCycles s f o)
      (outBoth o (refOut f (argsSb (thdrArgs s f o)) (mkRef bn n (thdrSlot s f o).lines))) none (thdrArgs s f o) (argsSb (thdrArgs s f o))) := by
  have hguard : (!(thdrScale s f o).isEmpty && decide ((argAt (thdrScale s f o) 0).lines < 2)) = false := by
    rcases hc with hc | hc
    · rw [hc]; rfl
    · rw [decide_eq_false (Nat.not_lt.mpr hc), Bool.and_false]
  rw [exec_thdr, execThdr, State.flow_node hf, ← thdrSlot, ← thdrWord, ← thdrScale]
  simp only [thdrArgs_def, ha, hl, hh, hr, hguard, Bool.false_eq_true, if_false]
  rfl

end Thdr

/-! ### THDR, in the words of the statement -/

section ThdrStatement
variable (s : State) (f : Firing) (o : Ops)

theorem thdrScale_eq : thdrScale s f o = if o.c != .none then [s.arg f .tile o.c (bit o.imm 7)] else [] := by
  by_cases h : o.c = .none <;> simp [thdrScale, h]

/-- The word's SCL is that c is named. -/
theorem thdrScale_isEmpty : (!(thdrScale s f o).isEmpty) = (o.c != .none) := by
  by_cases h : o.c = .none <;> simp [thdrScale, h]

theorem thdrArgs_eq : (if o.c != .none then [thdrSlot s f o, scalarArg (thdrWord s o), s.arg f .tile o.c (bit o.imm 7)]
    else [thdrSlot s f o, scalarArg (thdrWord s o)]) = thdrArgs s f o := by
  rw [← thdrArgs_def, thdrScale_eq]
  cases o.c != .none <;> rfl

theorem thdrCycles_eq : thdrCycles s f o = vecCycles (fmtBits ((thdrWord s o).v.toNat / 2 ^ 42 % 16))
    (if (o.c != .none) && (s.arg f .tile o.c (bit o.imm 7)).ref.isSome then 2 else 0) := by
  rw [thdrCycles, thdrScale_eq]
  cases o.c != .none <;> rfl

/-- A scale block fills two lines, so it lies in a slot. -/
theorem thdrCycles_of_block (h : (o.c != .none) = true → 2 ≤ (s.arg f .tile o.c (bit o.imm 7)).lines) :
    thdrCycles s f o = vecCycles (fmtBits ((thdrWord s o).v.toNat / 2 ^ 42 % 16)) (if o.c != .none then 2 else 0) := by
  have hblock : ((o.c != .none) && (s.arg f .tile o.c (bit o.imm 7)).ref.isSome) = (o.c != .none) := by
    cases hscl : o.c != .none with
    | false => rfl
    | true =>
      cases href : (s.arg f .tile o.c (bit o.imm 7)).ref with
      | some r => rfl
      | none => exact absurd (State.arg_lines_of_ref_none href) (by have := h hscl; omega)
  rw [thdrCycles_eq, hblock]

/-- The scale block that THDR leaves in the slot. -/
theorem thdrUpdate_scale (h : BitVec 256) (q : Slot) :
    (thdrUpdate s f o h q).scale =
      if o.c != .none then BitVec.ofNat 1024 (ofBytes ((s.arg f .tile o.c (bit o.imm 7)).bytes.take 128)) else q.scale := by
  rw [thdrUpdate, thdrScale_eq]
  cases o.c != .none <;> rfl

end ThdrStatement

theorem State.modSlot_of_buf {s : State} {e c bn : Nat} {b : Buf} (h : s.buf e c bn = some b) (n : Nat) (g : Slot → Slot) :
    s.modSlot e c bn n g = s.setBuf e c bn (some (b.setSlot n (g (b.slot n)))) := by
  simp only [State.modSlot, h]

theorem thdrWritesAHeader : ThdrWritesAHeader := by
  unfold ThdrWritesAHeader
  intro o s f b hf a w c scl args fmt grp nrow ncol quantised good
  have hargs : args = thdrArgs s f o := thdrArgs_eq s f o
  have hheader : (good → thdrHeader w.v (!(thdrScale s f o).isEmpty) a.lines = some (headerOf w.v scl)) ∧
      (¬ good → thdrHeader w.v (!(thdrScale s f o).isEmpty) a.lines = none) := by
    rw [thdrScale_isEmpty]
    exact thdrHeader_eq w.v scl a.lines
  rw [hargs]
  refine ⟨fun ⟨hfault, hlive⟩ => ⟨fun bn n href hb _ hgood hlines => ?_, fun hbad => ?_⟩, fun hfault hdead => ?_⟩
  · have hblock : (thdrScale s f o).isEmpty = true ∨ 2 ≤ (argAt (thdrScale s f o) 0).lines := by
      have hscale : thdrScale s f o = if scl then [c] else [] := thdrScale_eq s f o
      rw [hscale]
      by_cases hscl : scl = true
      · exact .inr (by rw [if_pos hscl]; exact hlines hscl)
      · exact .inl (by rw [if_neg hscl]; rfl)
    refine ⟨_, thdr_good hf hfault hlive (hheader.1 hgood) href hblock, ?_, ?_⟩
    · rw [State.modSlot_of_buf hb, outBoth_eq_both, thdrCycles_of_block s f o hlines]
      exact ⟨State.toUnitOf_units .., State.toUnitOf_frame ..⟩
    · refine ⟨thdrUpdate s f o (headerOf w.v scl) (b.slot n), ?_, rfl, rfl, rfl, ?_⟩
      · rw [State.toUnitOf_buf, State.modSlot_of_buf hb, State.buf_setBuf_same]
        rfl
      · obtain ⟨htrow, htcol, hnrow, hncol, hfmt, hgrp, hrax, hscl, hbeats⟩ := headerOf_fields w.v scl
        exact ⟨htrow, htcol, hnrow, hncol, hfmt, hgrp, hrax, hscl, hbeats, thdrUpdate_scale s f o _ _⟩
  · exact ⟨_, rfl, thdr_bad hf hfault hlive (hheader.2 hbad)⟩
  · refine ⟨_, thdr_dead hf hfault hdead, ?_, fun m => State.toUnitOf_buf ..⟩
    have hreleased : thdrScale s f o = if scl then [c] else [] := thdrScale_eq s f o
    rw [hreleased, outBoth_eq_both, thdrCycles_eq]
    exact ⟨State.toUnitOf_units .., State.toUnitOf_frame ..⟩

/-! ### TSEND (R190) -/

/-- The slot that DSLOT names fits its field. -/
theorem mod_succ_nfld_four {n : Nat} (w : BitVec n) (lo m : Nat) : m % (nfld w lo 4 + 1) % 2 ^ 4 = m % (nfld w lo 4 + 1) := by
  have hk : nfld w lo 4 < 16 := nfld_lt w lo 4
  have hm := Nat.mod_lt m (Nat.add_one_pos (nfld w lo 4))
  exact Nat.mod_eq_of_lt (by omega)

/-- The header of the packet that TSEND sends for a header of its slot. -/
def sentHeader (o : Ops) (f : Firing) (sb : BitVec 8) (h : BitVec 256) : BitVec 256 :=
  hdrAddr h (tagClean f.tag) sb (nfld o.imm 0 5) (tagIter f.tag % (nfld o.imm 6 4 + 1))

/-- The packet is addressed by the firing and IMM. -/
theorem sentHeader_addressed (o : Ops) (f : Firing) (sb : BitVec 8) (h : BitVec 256) :
    hTag (sentHeader o f sb h) = tagClean f.tag ∧ hSb (sentHeader o f sb h) = sb ∧ hDbuf (sentHeader o f sb h) = o.imm.toNat % 32 ∧
      hDslot (sentHeader o f sb h) = tagIter f.tag % (o.imm.toNat / 64 % 16 + 1) := by
  refine ⟨hTag_hdrAddr .., hSb_hdrAddr .., ?_, ?_⟩
  · rw [sentHeader, hDbuf_hdrAddr, nfld_mod, nfld_zero_five]
  · rw [sentHeader, hDslot_hdrAddr, mod_succ_nfld_four]; rfl

/-- Addressing a packet and setting its BEATS leaves every field of the slot's header beside them. -/
theorem nfld_sentHeader (o : Ops) (f : Firing) (sb : BitVec 8) (h : BitVec 256) (beats : Nat) {lo len : Nat}
    (hlo : 72 ≤ lo) (hd : lo + len ≤ 112 ∨ 121 ≤ lo) (hne : lo + len ≤ 90 ∨ 97 ≤ lo) :
    nfld (sentHeader o f sb (setFld h 90 7 beats)) lo len = nfld h lo len := by
  rw [sentHeader, nfld_hdrAddr _ _ _ _ _ _ _ hlo hd, nfld_setFld_ne _ _ _ _ _ _ (by decide) hne]

theorem hBeats_sentHeader (o : Ops) (f : Firing) (sb : BitVec 8) (h : BitVec 256) (beats : Nat) :
    hBeats (sentHeader o f sb (setFld h 90 7 beats)) = beats % 128 := by
  rw [hBeats, sentHeader, nfld_hdrAddr _ _ _ _ _ _ _ (by decide) (by decide)]
  exact nfld_setFld _ _ _ _ (by decide)

/-- The packet of a live tile. -/
def sentTile (o : Ops) (f : Firing) (a : Arg) : TilePkt :=
  ⟨sentHeader o f a.sb (setFld a.slot.hdr 90 7 (fmtBeats (hFmt a.slot.hdr) (hNrow a.slot.hdr) (hNcol a.slot.hdr))),
    if hScl a.slot.hdr = 1 then a.slot.scale else 0, tileBody a.slot.hdr a.bytes⟩

theorem tsendSendsTiles : TsendSendsTiles := by
  unfold TsendSendsTiles
  intro o s f hf a ha beats out addressed hfault
  have hexec : exec (.tsend o) s = .next (if sbDead a.sb then
      s.toUnitOf f o 1 none (vecCycles 32 (argLines [a])) (outBoth o (out ⟨sentHeader o f a.sb 0, 0, []⟩)) none [a] a.sb
    else if !a.slot.hv then s.faultFiring f (f.info cBuffer a.sb)
    else s.toUnitOf f o 1 none (vecCycles (fmtBits (hFmt ha)) a.lines) (outBoth o (out (sentTile o f a))) none [a] a.sb) := by
    have hflow : s.argsFault f [s.arg f .tile o.a (bit o.imm 5)] = none := hfault
    rw [exec_tsend, execTsend, State.flow_node hf]
    simp only [hflow]
    rfl
  refine ⟨fun hlive hhv _ => ?_, fun hlive hhv => ?_, fun hdead => ?_⟩
  · rw [hlive, hhv] at hexec
    obtain ⟨hlen, hbody⟩ := tileBody_spec ha a.bytes
    refine ⟨_, hexec, sentTile o f a, ?_, sentHeader_addressed .., ?_, ?_, ?_, ?_, ?_, ?_, ?_, ?_, hBeats_sentHeader .., rfl, hlen, hbody⟩
    · rw [← outBoth_eq_both]
      exact ⟨State.toUnitOf_units .., State.toUnitOf_frame ..⟩
    all_goals exact nfld_sentHeader _ _ _ _ _ (by decide) (by decide) (by decide)
  · rw [hlive, hhv] at hexec
    exact ⟨_, rfl, hexec⟩
  · rw [hdead] at hexec
    refine ⟨_, hexec, ⟨sentHeader o f a.sb 0, 0, []⟩, ?_, sentHeader_addressed .., rfl⟩
    rw [← outBoth_eq_both]
    exact ⟨State.toUnitOf_units .., State.toUnitOf_frame ..⟩

end Sys2Proof.Machine

namespace Sys2Proof

/-- Settles O31: each instruction's rule, from the equation of what it executes and the fields of the headers that it writes. -/
theorem tileResultsAndHeaders : Obligations.TileResultsAndHeaders :=
  ⟨Machine.tileResults, Machine.thdrWritesAHeader, Machine.tsendSendsTiles⟩

end Sys2Proof
end

section
/-! SUPPORT. One rounding of an exact value (02 R40, R42, R46): the integer rounding as a choice between two neighbours, the magnitudes that a
format holds, and what `Fmt.round` delivers in terms of them. Magnitudes are counted in units of 2^u for a u below every exponent in play. -/

namespace Sys2Proof.Machine

open Sys2Proof.Claims

/-! ### Bit lengths -/

theorem bitLen_le {m k : Nat} : bitLen m ≤ k ↔ m < 2 ^ k := by
  unfold bitLen
  split
  · next h => simp [h]
  · next h => exact Nat.succ_le_iff.trans (Nat.log2_lt h)

theorem bitLen_eq_size (m : Nat) : bitLen m = m.size := eq_of_forall_ge_iff fun _ => bitLen_le.trans Nat.size_le.symm

theorem bitLen_pos {m : Nat} (h : m ≠ 0) : 0 < bitLen m := by rw [bitLen_eq_size]; exact Nat.size_pos.mpr (Nat.pos_of_ne_zero h)

theorem lt_two_pow_bitLen (m : Nat) : m < 2 ^ bitLen m := bitLen_le.mp le_rfl

theorem two_pow_bitLen_le {m : Nat} (h : m ≠ 0) : 2 ^ (bitLen m - 1) ≤ m :=
  Nat.le_of_not_lt fun hlt => by
    have := bitLen_le.mpr hlt
    have := bitLen_pos h
    omega

theorem size_mul_two_pow {m : Nat} (h : m ≠ 0) (k : Nat) : (m * 2 ^ k).size = m.size + k := by
  rw [← Nat.shiftLeft_eq, Nat.size_shiftLeft h]

/-! ### Rounding to an integer (R42) -/

/-- The mode rounds a value of this sign towards zero (Table 2.5). -/
def RoundsDown (rm : Nat) (neg : Bool) : Prop := rm = 1 ∨ (rm = 2 ∧ neg = false) ∨ (rm = 3 ∧ neg = true)
/-- The mode rounds a value of this sign away from zero (Table 2.5). -/
def RoundsUp (rm : Nat) (neg : Bool) : Prop := (rm = 2 ∧ neg = true) ∨ (rm = 3 ∧ neg = false)

theorem rm_cases {rm : Nat} (neg : Bool) (h : rm < 4) : rm = 0 ∨ RoundsDown rm neg ∨ RoundsUp rm neg := by
  unfold RoundsDown RoundsUp
  cases neg <;> simp <;> omega

theorem RoundsDown.not_up {rm : Nat} {neg : Bool} (h : RoundsDown rm neg) : rm ≠ 0 ∧ ¬ RoundsUp rm neg := by
  unfold RoundsDown at h
  unfold RoundsUp
  cases neg <;> simp at h ⊢ <;> omega

theorem RoundsUp.ne_zero {rm : Nat} {neg : Bool} (h : RoundsUp rm neg) : rm ≠ 0 := by
  unfold RoundsUp at h
  omega

/-- `k * 2 ^ d` is the multiple of `2 ^ d` that the mode names for the magnitude `x`. -/
structure RoundsTo (rm : Nat) (neg : Bool) (x d k : Nat) : Prop where
  neighbour : k * 2 ^ d = x / 2 ^ d * 2 ^ d ∨ (k * 2 ^ d = x / 2 ^ d * 2 ^ d + 2 ^ d ∧ x / 2 ^ d * 2 ^ d < x)
  down : RoundsDown rm neg → k * 2 ^ d ≤ x
  up : RoundsUp rm neg → x ≤ k * 2 ^ d
  near : rm = 0 → 2 * x ≤ 2 * (k * 2 ^ d) + 2 ^ d ∧ 2 * (k * 2 ^ d) ≤ 2 * x + 2 ^ d
  tie : rm = 0 → 2 * x = 2 * (k * 2 ^ d) + 2 ^ d ∨ 2 * (k * 2 ^ d) = 2 * x + 2 ^ d → k % 2 = 0

/-- An exact value stays. -/
theorem roundInt_zero (rm : Nat) (neg : Bool) (m : Nat) : roundInt rm neg m 0 false = (m, false) := by
  unfold roundInt
  split <;> simp [Nat.mod_one]

/-- Rounding does not depend on the unit. -/
theorem roundInt_scale (rm : Nat) (neg : Bool) (m d c : Nat) : roundInt rm neg (m * 2 ^ c) (d + c) false = roundInt rm neg m d false := by
  have hc : 0 < 2 ^ c := Nat.two_pow_pos c
  have hk : m * 2 ^ c / 2 ^ (d + c) = m / 2 ^ d := by rw [Nat.pow_add, Nat.mul_div_mul_right _ _ hc]
  have hr : m * 2 ^ c % 2 ^ (d + c) = m % 2 ^ d * 2 ^ c := by rw [Nat.pow_add, Nat.mul_mod_mul_right]
  have hzero : (m % 2 ^ d * 2 ^ c == 0) = (m % 2 ^ d == 0) := by rw [Bool.eq_iff_iff]; simp
  have hgt : (2 * (m % 2 ^ d * 2 ^ c) > 2 ^ (d + c)) = (2 * (m % 2 ^ d) > 2 ^ d) := by
    rw [gt_iff_lt, ← Nat.mul_assoc, Nat.pow_add, Nat.mul_lt_mul_right hc]
  have htie : (decide (2 * (m % 2 ^ d * 2 ^ c) = 2 ^ (d + c)) && decide (0 < d + c)) = (decide (2 * (m % 2 ^ d) = 2 ^ d) && decide (0 < d)) := by
    have heq : 2 * (m % 2 ^ d * 2 ^ c) = 2 ^ (d + c) ↔ 2 * (m % 2 ^ d) = 2 ^ d := by
      rw [← Nat.mul_assoc, Nat.pow_add, Nat.mul_right_cancel_iff hc]
    cases d with
    | zero => simp [Nat.mod_one, hc.ne]
    | succ d => simp [heq]
  simp only [roundInt, hk, hr, hzero, hgt, htie]

/-- The rounding goes to the neighbour above. -/
def StepsUp (rm : Nat) (neg : Bool) (x d : Nat) : Prop :=
  (rm = 0 ∧ (2 ^ d < 2 * (x % 2 ^ d) ∨ (2 * (x % 2 ^ d) = 2 ^ d ∧ x / 2 ^ d % 2 = 1))) ∨ (RoundsUp rm neg ∧ x % 2 ^ d ≠ 0)

theorem roundInt_snd (rm : Nat) (neg : Bool) (x d : Nat) : (roundInt rm neg x d false).2 = true ↔ x % 2 ^ d ≠ 0 := by
  simp [roundInt]

theorem roundInt_fst {rm : Nat} (neg : Bool) (x d : Nat) (hrm : rm < 4) :
    (StepsUp rm neg x d ∧ (roundInt rm neg x d false).1 = x / 2 ^ d + 1) ∨ (¬ StepsUp rm neg x d ∧ (roundInt rm neg x d false).1 = x / 2 ^ d) := by
  have hd : 2 * (x % 2 ^ d) = 2 ^ d → 0 < d := by
    cases d with
    | zero => omega
    | succ d => exact fun _ => Nat.succ_pos d
  obtain rfl | rfl | rfl | rfl : rm = 0 ∨ rm = 1 ∨ rm = 2 ∨ rm = 3 := by omega
  · simp only [StepsUp, RoundsUp, roundInt]
    split
    · next h => simp only [Bool.or_eq_true, Bool.and_eq_true, decide_eq_true_eq, Bool.false_or, beq_iff_eq] at h; simp; omega
    · next h => simp only [Bool.or_eq_true, Bool.and_eq_true, decide_eq_true_eq, Bool.false_or, beq_iff_eq] at h; simp; omega
  · simp [StepsUp, RoundsUp, roundInt]
  · cases neg <;> simp [StepsUp, RoundsUp, roundInt]; omega
  · cases neg <;> simp [StepsUp, RoundsUp, roundInt]; omega

/-- R42: what the integer rounding names, and that it says whether the value changed. -/
theorem roundInt_spec {rm : Nat} (neg : Bool) (x d : Nat) (hrm : rm < 4) :
    RoundsTo rm neg x d (roundInt rm neg x d false).1 ∧ ((roundInt rm neg x d false).2 = true ↔ (roundInt rm neg x d false).1 * 2 ^ d ≠ x) := by
  have hx := Nat.div_add_mod' x (2 ^ d)
  have hr : x % 2 ^ d < 2 ^ d := Nat.mod_lt _ (Nat.two_pow_pos d)
  rw [roundInt_snd]
  rcases roundInt_fst neg x d hrm with ⟨hstep, hk⟩ | ⟨hstep, hk⟩ <;> rw [hk]
  · have hnext : (x / 2 ^ d + 1) * 2 ^ d = x / 2 ^ d * 2 ^ d + 2 ^ d := Nat.succ_mul ..
    have hpos : 0 < x % 2 ^ d := by unfold StepsUp at hstep; omega
    refine ⟨⟨.inr ⟨hnext, by omega⟩, fun h => ?_, fun _ => by omega, fun h => ?_, fun h => ?_⟩, by omega⟩
    · obtain ⟨hne, hup⟩ := h.not_up
      exact absurd hstep (by simp [StepsUp, hne, hup])
    all_goals
      simp [StepsUp, h, RoundsUp] at hstep
      omega
  · refine ⟨⟨.inl rfl, fun _ => by omega, fun h => ?_, fun h => ?_, fun h => ?_⟩, by omega⟩
    · simp [StepsUp, h, h.ne_zero] at hstep
      omega
    all_goals
      simp [StepsUp, h, RoundsUp] at hstep
      omega

/-! ### Magnitudes of a precision -/

/-- A magnitude with `p + 1` significant bits, and a multiple of the least subnormal `2 ^ n`; its exponent has no upper bound. -/
def Fits (p n v : Nat) : Prop := ∃ k g, v = k * 2 ^ g ∧ k < 2 ^ (p + 1) ∧ n ≤ g

/-- The exponent of the last place of a magnitude (R40): `p` bits below the leading one, but not below the least subnormal. -/
def lastPlace (p n x : Nat) : Nat := max (x.size - 1 - p) n

theorem le_lastPlace (p n x : Nat) : n ≤ lastPlace p n x := Nat.le_max_right ..

theorem lt_lastPlace (p n x : Nat) : x < 2 ^ (p + 1 + lastPlace p n x) :=
  Nat.size_le.mp (by unfold lastPlace; omega)

/-- A last place above the least subnormal is that of a magnitude with all its significant bits. -/
theorem lastPlace_normal (p n x : Nat) : lastPlace p n x = n ∨ 2 ^ (p + lastPlace p n x) ≤ x := by
  rw [← Nat.lt_size]
  unfold lastPlace
  omega

theorem lastPlace_eq {p n u x : Nat} (hnu : n ≤ u) (hle : 2 ^ (p + u) ≤ x) (hlt : x < 2 ^ (p + 1 + u)) : lastPlace p n x = u := by
  have := Nat.size_le.mpr hlt
  have := Nat.lt_size.mpr hle
  unfold lastPlace
  omega

/-- No magnitude of the precision lies between the neighbours of `x`. -/
theorem Fits.le_or_ge {p n v : Nat} (h : Fits p n v) (x : Nat) :
    v ≤ x / 2 ^ lastPlace p n x * 2 ^ lastPlace p n x ∨ x / 2 ^ lastPlace p n x * 2 ^ lastPlace p n x + 2 ^ lastPlace p n x ≤ v := by
  obtain ⟨k, g, rfl, hk, hg⟩ := h
  generalize hd : lastPlace p n x = d
  by_cases hgd : d ≤ g
  · obtain ⟨c, rfl⟩ := Nat.exists_eq_add_of_le hgd
    have hv : k * 2 ^ (d + c) = k * 2 ^ c * 2 ^ d := by ring
    rw [hv, ← Nat.succ_mul]
    rcases Nat.lt_or_ge (x / 2 ^ d) (k * 2 ^ c) with hlt | hle
    · exact .inr (Nat.mul_le_mul_right _ hlt)
    · exact .inl (Nat.mul_le_mul_right _ hle)
  · have hx : 2 ^ p * 2 ^ d ≤ x := by
      rw [← Nat.pow_add]
      have := lastPlace_normal p n x
      rw [hd] at this
      omega
    refine .inl ?_
    calc k * 2 ^ g ≤ 2 ^ (p + 1) * 2 ^ g := Nat.mul_le_mul_right _ hk.le
      _ = 2 ^ (p + (g + 1)) := by ring
      _ ≤ 2 ^ (p + d) := Nat.pow_le_pow_right (by decide) (by omega)
      _ = 2 ^ p * 2 ^ d := Nat.pow_add ..
      _ ≤ x / 2 ^ d * 2 ^ d := Nat.mul_le_mul_right _ ((Nat.le_div_iff_mul_le (Nat.two_pow_pos d)).mpr hx)

/-- The neighbours of a magnitude have at most `p + 1` significant bits, or are the power of two after them, and at least `p` unless the last
place is the least subnormal's. -/
structure Significand (p n d k : Nat) : Prop where
  le : k ≤ 2 ^ (p + 1)
  ge : d = n ∨ 2 ^ p ≤ k
  place : n ≤ d

section
variable {rm p n x k : Nat} {neg : Bool} (h : RoundsTo rm neg x (lastPlace p n x) k)
include h

theorem RoundsTo.significand : Significand p n (lastPlace p n x) k := by
  have hlt := lt_lastPlace p n x
  have hge := lastPlace_normal p n x
  have hplace := le_lastPlace p n x
  generalize lastPlace p n x = d at *
  have hpos := Nat.two_pow_pos d
  have hk : k = x / 2 ^ d ∨ k = x / 2 ^ d + 1 := by
    rcases h.neighbour with heq | ⟨heq, -⟩
    · exact .inl (Nat.eq_of_mul_eq_mul_right hpos heq)
    · exact .inr (Nat.eq_of_mul_eq_mul_right hpos (by rw [heq, Nat.succ_mul]))
  have htop : x / 2 ^ d < 2 ^ (p + 1) := (Nat.div_lt_iff_lt_mul hpos).mpr (by rwa [← Nat.pow_add])
  refine ⟨by omega, hge.imp_right fun hx => ?_, hplace⟩
  have : 2 ^ p ≤ x / 2 ^ d := (Nat.le_div_iff_mul_le hpos).mpr (by rwa [← Nat.pow_add])
  omega

/-- What the rounding names is of the precision itself. -/
theorem RoundsTo.fits : Fits p n (k * 2 ^ lastPlace p n x) := by
  obtain ⟨hle, -, hplace⟩ := h.significand
  rcases Nat.lt_or_eq_of_le hle with hlt | rfl
  · exact ⟨k, _, rfl, hlt, hplace⟩
  · exact ⟨1, p + 1 + lastPlace p n x, by ring, Nat.one_lt_two_pow (by omega), by omega⟩

/-- Every magnitude of the precision up to `x` is at most what the rounding names; rounding towards zero names the greatest of them. -/
theorem RoundsTo.ge_of_fits {v : Nat} (hv : Fits p n v) (hx : v ≤ x) : v ≤ k * 2 ^ lastPlace p n x := by
  have := h.neighbour
  have := Nat.lt_div_mul_add (a := x) (Nat.two_pow_pos (lastPlace p n x))
  rcases hv.le_or_ge x with _ | _ <;> omega

/-- Every magnitude of the precision from `x` on is at least what the rounding names; rounding away from zero names the least of them. -/
theorem RoundsTo.le_of_fits {v : Nat} (hv : Fits p n v) (hx : x ≤ v) : k * 2 ^ lastPlace p n x ≤ v := by
  have := Nat.div_mul_le_self x (2 ^ lastPlace p n x)
  rcases h.neighbour with _ | _ <;> rcases hv.le_or_ge x with _ | _ <;> omega

/-- To nearest: no magnitude is closer, and the significand is even when another is as close. -/
theorem RoundsTo.nearest {v : Nat} (hrm : rm = 0) (hv : Fits p n v) :
    (x - k * 2 ^ lastPlace p n x) + (k * 2 ^ lastPlace p n x - x) ≤ (x - v) + (v - x) ∧
    ((x - k * 2 ^ lastPlace p n x) + (k * 2 ^ lastPlace p n x - x) = (x - v) + (v - x) → v ≠ k * 2 ^ lastPlace p n x → k % 2 = 0) := by
  have hnear := h.near hrm
  have htie := h.tie hrm
  have := Nat.div_mul_le_self x (2 ^ lastPlace p n x)
  have := Nat.lt_div_mul_add (a := x) (Nat.two_pow_pos (lastPlace p n x))
  rcases h.neighbour with _ | _ <;> rcases hv.le_or_ge x with _ | _ <;> omega

end

/-! ### Data of a format -/

/-- Sign, exponent and fraction together: a datum whose magnitude has the number `w`. -/
theorem fMag_signed {f : Fmt} {w : Nat} (neg : Bool) (h : w < 2 ^ (f.eb + f.fb)) : fMag f (b2n neg * 2 ^ (f.eb + f.fb) + w) = w := by
  rw [fMag, Nat.add_comm, Nat.add_mul_mod_self_right, Nat.mod_eq_of_lt h]

theorem fSign_signed {f : Fmt} {w : Nat} (neg : Bool) (h : w < 2 ^ (f.eb + f.fb)) : fSign f (b2n neg * 2 ^ (f.eb + f.fb) + w) = neg := by
  rw [fSign, Nat.add_comm, Nat.add_mul_div_right _ _ (Nat.two_pow_pos _), Nat.div_eq_of_lt h]
  cases neg <;> rfl

/-- The fields of a datum from the number of its magnitude. -/
theorem fields_of_fMag {f : Fmt} {n x r : Nat} (hr : r < 2 ^ f.fb) (h : fMag f n = x * 2 ^ f.fb + r) : fExpo f n = x ∧ fFrac f n = r :=
  fields_eq (fFrac_lt f n) hr ((fMag_eq f n).symm.trans h)

/-- Exponent and fraction of a rounded significand: the leading one is the exponent's, and a significand rounded up to the next power of two
counts it up. -/
theorem unitsOf_significand {p n d k : Nat} (h : Significand p n d k) :
    ∃ x r, r < 2 ^ p ∧ (d - n) * 2 ^ p + k = x * 2 ^ p + r ∧ unitsOf (2 ^ p) x r = k * 2 ^ (d - n) := by
  obtain ⟨hle, hge, hplace⟩ := h
  obtain ⟨q, rfl⟩ := Nat.exists_eq_add_of_le hplace
  rw [Nat.add_sub_cancel_left]
  rw [Nat.pow_succ] at hle
  rcases Nat.lt_or_ge k (2 ^ p) with hlt | hp
  · obtain rfl : q = 0 := by omega
    exact ⟨0, k, hlt, by omega, by simp [unitsOf]⟩
  rcases Nat.lt_or_eq_of_le hle with hlt | rfl
  · refine ⟨q + 1, k - 2 ^ p, by omega, ?_, ?_⟩
    · rw [Nat.succ_mul]; omega
    · simp [unitsOf, Nat.add_sub_cancel' hp]
  · refine ⟨q + 2, 0, Nat.two_pow_pos p, by ring, ?_⟩
    rw [unitsOf, if_neg (by omega), Nat.add_zero, show q + 2 - 1 = q + 1 from rfl]
    ring

section
variable {f : Fmt} (heb : 2 ≤ f.eb)
include heb

theorem two_bias : 2 * f.bias = 2 ^ f.eb - 2 ∧ 1 ≤ f.bias := by
  obtain ⟨c, hc⟩ := Nat.exists_eq_add_of_le' heb
  have := Nat.two_pow_pos c
  rw [Fmt.bias, hc, show c + 2 - 1 = c + 1 from rfl, Nat.pow_succ 2 (c + 1), Nat.pow_succ]
  omega

/-- A magnitude below 2 ^ (bias + 1) has an exponent below the largest. -/
theorem expo_lt_of_unitsOf_lt {x r : Nat} (h : unitsOf (2 ^ f.fb) x r < 2 ^ (2 * f.bias + f.fb)) : x < 2 ^ f.eb - 1 := by
  obtain ⟨hb, hb1⟩ := two_bias heb
  by_contra hx
  have hx' : 2 * f.bias ≤ x - 1 := by omega
  rw [unitsOf, if_neg (by omega), Nat.add_comm (2 * f.bias), Nat.pow_add] at h
  exact absurd h (Nat.not_lt.mpr (Nat.mul_le_mul (Nat.le_add_right ..) (Nat.pow_le_pow_right (by decide) hx')))

/-- The datum of a rounded significand below 2 ^ (bias + 1) is finite, of the given sign, and of that magnitude. -/
theorem datum_of_significand {n d k : Nat} (neg : Bool) (h : Significand f.fb n d k) (hk : k * 2 ^ (d - n) < 2 ^ (2 * f.bias + f.fb)) :
    let y := b2n neg * 2 ^ (f.eb + f.fb) + ((d - n) * 2 ^ f.fb + k)
    fExpo f y ≠ 2 ^ f.eb - 1 ∧ fSign f y = neg ∧ fUnits f y = k * 2 ^ (d - n) := by
  obtain ⟨x, r, hr, hw, hunits⟩ := unitsOf_significand h
  have hx := expo_lt_of_unitsOf_lt heb (hunits.trans_lt hk)
  have hlt : x * 2 ^ f.fb + r < 2 ^ (f.eb + f.fb) := by
    calc x * 2 ^ f.fb + r < (x + 1) * 2 ^ f.fb := by rw [Nat.succ_mul]; omega
      _ ≤ 2 ^ f.eb * 2 ^ f.fb := Nat.mul_le_mul_right _ (by omega)
      _ = 2 ^ (f.eb + f.fb) := (Nat.pow_add ..).symm
  rw [hw]
  obtain ⟨hex, hfr⟩ := fields_of_fMag hr (fMag_signed neg hlt)
  exact ⟨by omega, fSign_signed neg hlt, by rw [fUnits, hex, hfr, hunits]⟩

omit heb in
/-- The last bit of a datum is that of its significand. -/
theorem datum_parity (hfb : 1 ≤ f.fb) (neg : Bool) (q k : Nat) : (b2n neg * 2 ^ (f.eb + f.fb) + (q * 2 ^ f.fb + k)) % 2 = k % 2 := by
  obtain ⟨c, hc⟩ := Nat.exists_eq_add_of_le' hfb
  rw [hc, show b2n neg * 2 ^ (f.eb + (c + 1)) + (q * 2 ^ (c + 1) + k) = k + (b2n neg * 2 ^ (f.eb + c) + q * 2 ^ c) * 2 by ring,
    Nat.add_mul_mod_self_right]

/-- MAX of Table 2.4: all ones below the largest exponent. -/
theorem fUnits_max : fExpo f (f.max false) ≠ 2 ^ f.eb - 1 ∧ fUnits f (f.max false) = (2 ^ (f.fb + 1) - 1) * 2 ^ (2 * f.bias - 1) := by
  obtain ⟨hb, hb1⟩ := two_bias heb
  have hp := Nat.two_pow_pos f.fb
  have hw : f.max false = 2 * f.bias * 2 ^ f.fb + (2 ^ f.fb - 1) := by
    have : (2 ^ f.eb - 1) * 2 ^ f.fb = 2 * f.bias * 2 ^ f.fb + 2 ^ f.fb := by rw [← Nat.succ_mul]; congr 1; omega
    rw [Fmt.max, Fmt.inf, this, b2n]
    simp only [Bool.false_eq_true, if_false]
    omega
  have hlt : f.max false < 2 ^ (f.eb + f.fb) := by
    have : 2 ^ (f.eb + f.fb) = 2 * f.bias * 2 ^ f.fb + 2 * 2 ^ f.fb := by rw [Nat.pow_add, ← Nat.add_mul]; congr 1; omega
    omega
  obtain ⟨hex, hfr⟩ := fields_of_fMag (f := f) (n := f.max false) (by omega) ((Nat.mod_eq_of_lt hlt).trans hw)
  refine ⟨by omega, ?_⟩
  rw [fUnits, hex, hfr, unitsOf, if_neg (by omega), Nat.pow_succ]
  congr 1
  omega

end

/-- Magnitudes of data are magnitudes of the precision. -/
theorem fits_fUnits (f : Fmt) (y n : Nat) : Fits f.fb n (fUnits f y * 2 ^ n) := by
  have hr := fFrac_lt f y
  rw [fUnits, unitsOf]
  split
  · exact ⟨fFrac f y, n, rfl, by rw [Nat.pow_succ]; omega, le_refl n⟩
  · exact ⟨2 ^ f.fb + fFrac f y, fExpo f y - 1 + n, by rw [Nat.pow_add, Nat.mul_assoc], by rw [Nat.pow_succ]; omega, by omega⟩

/-! ### Overflow (R46) -/

/-- The largest magnitude whose last place is `2 ^ u`. -/
def maxUnits (p u : Nat) : Nat := (2 ^ (p + 1) - 1) * 2 ^ u

theorem maxUnits_add (p u : Nat) : maxUnits p u + 2 ^ u = 2 ^ (p + 1 + u) := by
  rw [maxUnits, ← Nat.succ_mul, Nat.succ_eq_add_one, Nat.sub_add_cancel Nat.one_le_two_pow, ← Nat.pow_add]

theorem maxUnits_ge (p u : Nat) : 2 ^ (p + u) ≤ maxUnits p u := by
  rw [maxUnits, Nat.pow_add]
  exact Nat.mul_le_mul_right _ (by have := Nat.two_pow_pos p; rw [Nat.pow_succ]; omega)

theorem fits_maxUnits {p n u : Nat} (h : n ≤ u) : Fits p n (maxUnits p u) :=
  ⟨_, u, rfl, Nat.sub_one_lt_of_lt (Nat.two_pow_pos _), h⟩

theorem fits_two_pow {p n t : Nat} (h : n ≤ t) : Fits p n (2 ^ t) := ⟨1, t, (Nat.one_mul _).symm, Nat.one_lt_two_pow (by omega), h⟩

/-- Nothing of the precision lies between the largest magnitude and the power of two after it. -/
theorem Fits.le_max_or_ge {p n u v : Nat} (hnu : n ≤ u) (hv : Fits p n v) : v ≤ maxUnits p u ∨ 2 ^ (p + 1 + u) ≤ v := by
  have hadd := maxUnits_add p u
  have hcell := hv.le_or_ge (maxUnits p u)
  rw [lastPlace_eq hnu (maxUnits_ge p u) (by have := Nat.two_pow_pos u; omega)] at hcell
  rwa [show maxUnits p u / 2 ^ u * 2 ^ u = maxUnits p u by rw [maxUnits, Nat.mul_div_cancel _ (Nat.two_pow_pos u)], hadd] at hcell

section
variable {rm p n u x k : Nat} {neg : Bool} (h : RoundsTo rm neg x (lastPlace p n x) k) (hnu : n ≤ u)
include h hnu

theorem RoundsTo.overflows_down (hd : RoundsDown rm neg) : 2 ^ (p + 1 + u) ≤ k * 2 ^ lastPlace p n x ↔ 2 ^ (p + 1 + u) ≤ x :=
  ⟨fun hle => hle.trans (h.down hd), fun hle => h.ge_of_fits (fits_two_pow (by omega)) hle⟩

theorem RoundsTo.overflows_up (hup : RoundsUp rm neg) : 2 ^ (p + 1 + u) ≤ k * 2 ^ lastPlace p n x ↔ maxUnits p u < x := by
  have hadd := maxUnits_add p u
  have hpos := Nat.two_pow_pos u
  constructor
  · intro hle
    by_contra hx
    have := h.le_of_fits (fits_maxUnits hnu) (Nat.not_lt.mp hx)
    omega
  · intro hx
    have := h.up hup
    rcases h.fits.le_max_or_ge hnu with hle | hge <;> omega

/-- Half a unit beyond the largest magnitude ties between it, which is odd, and the power of two after it. -/
theorem RoundsTo.overflows_nearest (hrm : rm = 0) :
    2 ^ (p + 1 + u) ≤ k * 2 ^ lastPlace p n x ↔ maxUnits p u + 2 ^ (p + 1 + u) ≤ 2 * x := by
  have hadd := maxUnits_add p u
  have hpos := Nat.two_pow_pos u
  constructor
  · intro hle
    obtain ⟨hnear, -⟩ := h.nearest hrm (fits_maxUnits hnu)
    omega
  · intro hx
    by_contra hlt
    obtain ⟨hnear, htie⟩ := h.nearest hrm (fits_two_pow (t := p + 1 + u) (by omega))
    have hmax : k * 2 ^ lastPlace p n x = maxUnits p u := by rcases h.fits.le_max_or_ge hnu with hle | hge <;> omega
    have heven := htie (by omega) (by omega)
    have hxm := maxUnits_ge p u
    rw [lastPlace_eq hnu (by omega) (by omega), maxUnits] at hmax
    have hk := Nat.eq_of_mul_eq_mul_right hpos hmax
    have := Nat.two_pow_pos p
    rw [Nat.pow_succ] at hk
    omega

/-- R46: a result overflows when the value rounded with unbounded exponent exceeds the largest magnitude. -/
theorem RoundsTo.overflows (hrm : rm < 4) : 2 ^ (p + 1 + u) ≤ k * 2 ^ lastPlace p n x ↔
    (rm = 0 ∧ maxUnits p u + 2 ^ (p + 1 + u) ≤ 2 * x) ∨ (RoundsDown rm neg ∧ 2 ^ (p + 1 + u) ≤ x) ∨ (RoundsUp rm neg ∧ maxUnits p u < x) := by
  rcases rm_cases neg hrm with hz | hd | hup
  · have hdown : ¬ RoundsDown rm neg := fun hd => hd.not_up.1 hz
    have hup : ¬ RoundsUp rm neg := fun hup => hup.ne_zero hz
    simp only [h.overflows_nearest hnu hz, hdown, hup, false_and, or_false]
    exact (and_iff_right hz).symm
  · simp [h.overflows_down hnu hd, hd, hd.not_up]
  · have hdown : ¬ RoundsDown rm neg := fun hd => hd.not_up.2 hup
    simp [h.overflows_up hnu hup, hup, hup.ne_zero, hdown]

end

/-! ### What `Fmt.round` delivers -/

theorem inexact_bits (tiny : Prop) [Decidable tiny] :
    (if tiny then bUF ||| bIX else bIX).getLsbD 2 = false ∧ (if tiny then bUF ||| bIX else bIX).getLsbD 0 = true := by
  by_cases h : tiny
  · rw [if_pos h]; decide
  · rw [if_neg h]; decide

section
variable (f : Fmt) {rm : Nat} (sat neg : Bool) {m : Nat} {e u : Int}

/-- The rounding of ±m × 2^e, with magnitudes in units of 2^u and the least subnormal at 2^n of them: the rounded significand with its
exponent, or the overflow from 2 ^ (bias + 1) on. -/
theorem round_eq {n x : Nat} (hm : m ≠ 0) (hue : u ≤ e) (hn : 1 - (f.bias : Int) - f.fb = u + n) (hx : x = m * 2 ^ (e - u).toNat) :
    let d := lastPlace f.fb n x
    let r := roundInt rm neg x d false
    ∃ under : BitVec 8, under.getLsbD 2 = false ∧ under.getLsbD 0 = true ∧ f.round rm sat neg m e false =
      if 2 ^ (2 * f.bias + f.fb + n) ≤ r.1 * 2 ^ d then (f.overflow rm sat neg, bOF ||| bIX)
      else (b2n neg * 2 ^ (f.eb + f.fb) + ((d - n) * 2 ^ f.fb + r.1), if r.2 then under else 0) := by
  intro d r
  have hsize : x.size = m.size + (e - u).toNat := by rw [hx, size_mul_two_pow hm]
  have hpos : 0 < m.size := bitLen_eq_size m ▸ bitLen_pos hm
  have hq : (if e + bitLen m - 1 < 1 - (f.bias : Int) then 1 - (f.bias : Int) else e + bitLen m - 1) - f.fb = u + d := by
    rw [bitLen_eq_size]
    show _ = u + ((max (x.size - 1 - f.fb) n : Nat) : Int)
    split <;> omega
  have hr : (if u + (d : Int) ≤ e then (m * 2 ^ (e - (u + d)).toNat, false) else roundInt rm neg m (u + d - e).toNat false) = r := by
    show _ = roundInt rm neg x d false
    split
    · next hle =>
      have hx' : x = m * 2 ^ (e - (u + d)).toNat * 2 ^ d := by
        rw [hx, show (e - u).toNat = (e - (u + d)).toNat + d by omega, Nat.pow_add, Nat.mul_assoc]
      have hscale := roundInt_scale rm neg (m * 2 ^ (e - (u + d)).toNat) 0 d
      rw [← hx', Nat.zero_add, roundInt_zero] at hscale
      exact hscale.symm
    · next hgt =>
      have hscale := roundInt_scale rm neg m (u + d - e).toNat (e - u).toNat
      rw [← hx, show (u + d - e).toNat + (e - u).toNat = d by omega] at hscale
      exact hscale.symm
  have hbig : (r.1 ≠ 0 ∧ u + d + bitLen r.1 - 1 > f.bias) ↔ 2 ^ (2 * f.bias + f.fb + n) ≤ r.1 * 2 ^ d := by
    by_cases hz : r.1 = 0
    · simp [hz]
    · rw [← Nat.lt_size, size_mul_two_pow hz, bitLen_eq_size]
      omega
  have hbits : (u + d - (1 - f.bias - f.fb)).toNat = d - n := by omega
  unfold Fmt.round
  simp only [hm, false_and, if_false, hq, hr, hbig, hbits]
  split
  · exact ⟨bIX, by decide, by decide, rfl⟩
  · exact ⟨_, (inexact_bits _).1, (inexact_bits _).2, rfl⟩

/-- What the rounding delivers: the datum of the value that the mode names, with IX when it differs, or the overflow when that value reaches
2 ^ (bias + 1). -/
theorem round_spec {n x : Nat} (heb : 2 ≤ f.eb) (hfb : 1 ≤ f.fb) (hrm : rm < 4) (hm : m ≠ 0) (hue : u ≤ e)
    (hn : 1 - (f.bias : Int) - f.fb = u + n) (hx : x = m * 2 ^ (e - u).toNat) :
    ∃ k, RoundsTo rm neg x (lastPlace f.fb n x) k ∧
      let v := k * 2 ^ lastPlace f.fb n x
      let r := f.round rm sat neg m e false
      (2 ^ (2 * f.bias + f.fb + n) ≤ v ∧ r = (f.overflow rm sat neg, bOF ||| bIX)) ∨
      (v < 2 ^ (2 * f.bias + f.fb + n) ∧ fExpo f r.1 ≠ 2 ^ f.eb - 1 ∧ fSign f r.1 = neg ∧ fUnits f r.1 * 2 ^ n = v ∧ r.1 % 2 = k % 2 ∧
        r.2.getLsbD 2 = false ∧ (r.2.getLsbD 0 = true ↔ v ≠ x)) := by
  obtain ⟨under, hOF, hIX, hround⟩ := round_eq f (rm := rm) sat neg hm hue hn hx
  obtain ⟨hto, hinexact⟩ := roundInt_spec neg x (lastPlace f.fb n x) hrm
  have hsig := hto.significand
  generalize lastPlace f.fb n x = d at *
  generalize roundInt rm neg x d false = k at *
  refine ⟨k.1, hto, ?_⟩
  rw [hround]
  rcases Nat.lt_or_ge (k.1 * 2 ^ d) (2 ^ (2 * f.bias + f.fb + n)) with hlt | hbig
  · have hunits : k.1 * 2 ^ (d - n) * 2 ^ n = k.1 * 2 ^ d := by rw [Nat.mul_assoc, ← Nat.pow_add, Nat.sub_add_cancel hsig.place]
    have hsmall : k.1 * 2 ^ (d - n) < 2 ^ (2 * f.bias + f.fb) := by
      rwa [← Nat.mul_lt_mul_right (Nat.two_pow_pos n), hunits, ← Nat.pow_add]
    obtain ⟨hfin, hsign, hread⟩ := datum_of_significand heb neg hsig hsmall
    rw [if_neg (Nat.not_le.mpr hlt)]
    refine .inr ⟨hlt, hfin, hsign, by rw [hread, hunits], datum_parity hfb .., ?_, ?_⟩
    · cases k.2
      · exact BitVec.getLsbD_zero
      · exact hOF
    · rw [← hinexact]
      cases k.2
      · simp
      · exact iff_of_true hIX rfl
  · exact .inl ⟨hbig, if_pos hbig⟩

end

/-- Table 2.7, with SAT 0. -/
theorem overflow_eq (f : Fmt) {rm : Nat} (neg : Bool) (hrm : rm < 4) :
    (RoundsUp rm neg ∨ rm = 0 → f.overflow rm false neg = f.inf neg) ∧ (¬ (RoundsUp rm neg ∨ rm = 0) → f.overflow rm false neg = f.max neg) := by
  obtain rfl | rfl | rfl | rfl : rm = 0 ∨ rm = 1 ∨ rm = 2 ∨ rm = 3 := by omega
  all_goals cases neg <;> simp [Fmt.overflow, RoundsUp]

/-- The three formats (Tables 2.3 and 2.4). -/
theorem format_bounds {f : Fmt} (hf : f = fmtF32 ∨ f = fmtF16 ∨ f = fmtBf16) : 2 ≤ f.eb ∧ 1 ≤ f.fb ∧ f.fb ≤ 23 ∧ f.bias ≤ 127 := by
  rcases hf with rfl | rfl | rfl <;> decide

end Sys2Proof.Machine

namespace Sys2Proof

open Machine Claims

/-- Settles O6: the rounded significand is what the mode names among the magnitudes of the precision, and the datum built of it has that magnitude. -/
theorem roundingIsCorrect : Obligations.RoundingIsCorrect := by
  intro f hf rm neg m e hrm hm r emin unit x mag finite top down up off
  obtain ⟨heb, hfb, -, -⟩ := format_bounds hf
  obtain ⟨hbias, hbias1⟩ := two_bias heb
  have hue : unit ≤ e := by simp only [unit]; split <;> omega
  have hun : unit ≤ emin := by simp only [unit]; split <;> omega
  obtain ⟨n, hn⟩ : ∃ n : Nat, emin = unit + n := ⟨(emin - unit).toNat, by omega⟩
  clear_value unit
  have htop : top = 2 ^ (f.fb + 1 + (2 * f.bias - 1 + n)) := by
    simp only [top]
    congr 1
    omega
  have hmag (y : Nat) (hy : finite y) : mag y = fUnits f y * 2 ^ n := by
    obtain ⟨k, g, hread, hg, hunits⟩ := Fmt.read_fin hy
    simp only [mag, hread]
    rw [← hunits, Nat.mul_assoc, ← Nat.pow_add]
    congr 2
    omega
  have hfits (y : Nat) (hy : finite y) : Fits f.fb n (mag y) := hmag y hy ▸ fits_fUnits f y n
  have hmax : mag (f.max false) = maxUnits f.fb (2 * f.bias - 1 + n) := by
    obtain ⟨hfin, hunits⟩ := fUnits_max heb
    rw [hmag _ hfin, hunits, maxUnits, Nat.pow_add 2 (_ - 1), Nat.mul_assoc]
  obtain ⟨k, hto, hresult⟩ := round_spec f false neg heb hfb hrm hm hue hn rfl
  have hover := hto.overflows (u := 2 * f.bias - 1 + n) (by omega) hrm
  have hpow : 2 ^ (2 * f.bias + f.fb + n) = top := by rw [htop]; congr 1; omega
  rw [← hmax, ← htop] at hover
  rw [hpow] at hresult
  rcases hresult with ⟨hbig, hr⟩ | ⟨hlt, hfin, hsign, hunits, hparity, hquiet, hinexact⟩
  · obtain ⟨hval, hof⟩ : r.1 = _ ∧ r.2 = _ := Prod.ext_iff.mp hr
    have hraised : r.2.getLsbD 2 = true := hof ▸ (by decide : (bOF ||| bIX).getLsbD 2 = true)
    refine ⟨fun h => absurd (h.symm.trans hraised) Bool.false_ne_true, fun _ => ⟨hof, ?_⟩, iff_of_true hraised (hover.mp hbig)⟩
    obtain ⟨hinf, hmax⟩ := overflow_eq f neg hrm
    rw [hval]
    split
    · next h => exact hinf h
    · next h => exact hmax h
  · have hmr : mag r.1 = k * 2 ^ lastPlace f.fb n x := (hmag _ hfin).trans hunits
    have hnot : ¬ r.2.getLsbD 2 = true := by rw [hquiet]; exact Bool.false_ne_true
    refine ⟨fun _ => ⟨hfin, hsign, hmr ▸ hinexact, ?_, ?_, fun hz y hy => ?_⟩, fun h => absurd h hnot, iff_of_false hnot (mt hover.mpr (by omega))⟩
    · exact fun hdown => ⟨hmr ▸ hto.down hdown, fun y hy hle => hmr ▸ hto.ge_of_fits (hfits y hy) hle⟩
    · exact fun hup => ⟨hmr ▸ hto.up hup, fun y hy hle => hmr ▸ hto.le_of_fits (hfits y hy) hle⟩
    · obtain ⟨hnear, htie⟩ := hto.nearest hz (hfits y hy)
      rw [← hmr] at hnear htie
      exact ⟨hnear, fun heq hne => hparity.trans (htie heq hne)⟩

end Sys2Proof
end

section
/-! SUPPORT. The series of FEXP2 and FLOG2 (02 R49, log entry 15): each loop of truncated fixed-point terms stays below the series it sums, by at
most a few units of the last place for each term, and the series is within one unit of the function after the terms that the loop takes. -/

namespace Sys2Proof.Machine

/-! ### Fixed point of 320 bits -/

/-- One, in fixed point. -/
@[irreducible] noncomputable def serOne : ℝ := 2 ^ serBits

theorem serOne_pos : 0 < serOne := by unfold serOne; positivity

theorem cast_serOne : ((2 ^ serBits : Nat) : ℝ) = serOne := by simp [serOne]

theorem serOne_def : serOne = 2 ^ 320 := by rw [serOne, serBits]

/-- The value in two factors, each small enough to be evaluated. -/
theorem serOne_eq : serOne = 2 ^ 160 * 2 ^ 160 := by rw [serOne, serBits, ← pow_add]

/-- A whole quotient is at most the quotient, and less than one below it. -/
theorem cast_div_bounds (a b : Nat) : (a : ℝ) / b - 1 ≤ (a / b : Nat) ∧ ((a / b : Nat) : ℝ) ≤ (a : ℝ) / b := by
  refine ⟨?_, Nat.cast_div_le⟩
  rw [← Nat.floor_div_eq_div (K := ℝ)]
  exact (Nat.sub_one_lt_floor _).le

/-- A fixed-point product. -/
theorem fix_mul_bounds (a b : Nat) :
    (a : ℝ) * b / serOne - 1 ≤ (a * b / 2 ^ serBits : Nat) ∧ ((a * b / 2 ^ serBits : Nat) : ℝ) ≤ (a : ℝ) * b / serOne := by
  have h := cast_div_bounds (a * b) (2 ^ serBits)
  rwa [cast_serOne, Nat.cast_mul] at h

/-! ### The inverse hyperbolic tangent -/

section
variable {ζ : ℝ} {z2 : Nat} (h3 : ζ ^ 2 ≤ 1 / 9) (hle : (z2 : ℝ) ≤ ζ ^ 2 * serOne) (hge : ζ ^ 2 * serOne ≤ z2 + 2)
include h3 hle hge

/-- The next term stays within two units below its value when the term and the square do. -/
theorem atanhTerm_next {t : Nat} {T : ℝ} (htT : (t : ℝ) ≤ T) (hTt : T ≤ t + 2) (hT : T ≤ serOne / 3) :
    ((t * z2 / 2 ^ serBits : Nat) : ℝ) ≤ T * ζ ^ 2 ∧ T * ζ ^ 2 ≤ (t * z2 / 2 ^ serBits : Nat) + 2 := by
  have hS := serOne_pos
  have ht0 : (0 : ℝ) ≤ t := Nat.cast_nonneg t
  have hz : (z2 : ℝ) / serOne ≤ ζ ^ 2 := (div_le_iff₀ hS).mpr hle
  obtain ⟨hnext_ge, hnext_le⟩ := fix_mul_bounds t z2
  constructor
  · calc ((t * z2 / 2 ^ serBits : Nat) : ℝ) ≤ t * (z2 / serOne) := by rw [← mul_div_assoc]; exact hnext_le
      _ ≤ T * ζ ^ 2 := mul_le_mul htT hz (div_nonneg z2.cast_nonneg hS.le) (ht0.trans htT)
  · have hterm : (T - t) * ζ ^ 2 ≤ 2 * (1 / 9) := mul_le_mul (by linarith) h3 (sq_nonneg ζ) zero_le_two
    have hsquare : t * (ζ ^ 2 * serOne - z2) / serOne ≤ 2 / 3 := by
      rw [div_le_iff₀ hS]
      calc t * (ζ ^ 2 * serOne - z2) ≤ serOne / 3 * 2 := mul_le_mul (by linarith) (by linarith) (by linarith) (by linarith)
        _ = 2 / 3 * serOne := by ring
    have hsplit : T * ζ ^ 2 = (T - t) * ζ ^ 2 + t * (ζ ^ 2 * serOne - z2) / serOne + t * z2 / serOne := by field_simp; ring
    linarith

/-- The loop from a term `t` within two units below `T`, for a square `z2` within two units below ζ². -/
theorem atanhLoop_bounds (n : Nat) : ∀ (k t acc : Nat) (T : ℝ), 0 < k → (t : ℝ) ≤ T → T ≤ t + 2 → T ≤ serOne / 3 →
    acc + ∑ i ∈ Finset.range n, T * ζ ^ (2 * i) / (k + 2 * i) - 3 * n ≤ atanhLoop z2 n k t acc ∧
    (atanhLoop z2 n k t acc : ℝ) ≤ acc + ∑ i ∈ Finset.range n, T * ζ ^ (2 * i) / (k + 2 * i) := by
  induction n with
  | zero => intro k t acc T _ _ _ _; simp [atanhLoop]
  | succ n ih =>
    intro k t acc T hk htT hTt hT
    have hT0 : 0 ≤ T := t.cast_nonneg.trans htT
    have hk1 : (1 : ℝ) ≤ k := Nat.one_le_cast.mpr hk
    obtain ⟨hup, hlow⟩ := atanhTerm_next h3 hle hge htT hTt hT
    obtain ⟨hterm_ge, hterm_le⟩ := cast_div_bounds t k
    have hterm : T / k ≤ t / k + 2 := by
      rw [← sub_le_iff_le_add', ← sub_div]
      exact (div_le_self (by linarith) hk1).trans (by linarith)
    have htermT : (t : ℝ) / k ≤ T / k := by gcongr
    have hih := ih (k + 2) (t * z2 / 2 ^ serBits) (acc + t / k) (T * ζ ^ 2) (by omega) hup hlow (by nlinarith)
    have hsum : ∑ i ∈ Finset.range (n + 1), T * ζ ^ (2 * i) / (k + 2 * i) =
        ∑ i ∈ Finset.range n, T * ζ ^ 2 * ζ ^ (2 * i) / ((k + 2 : Nat) + 2 * i) + T / k := by
      rw [Finset.sum_range_succ']
      congr 1
      · refine Finset.sum_congr rfl fun i _ => ?_
        push_cast
        congr 1 <;> ring
      · simp
    rw [atanhLoop, hsum]
    push_cast at hih ⊢
    constructor <;> linarith [hih.1, hih.2]

end

/-- The loop's 110 terms for a ζ up to 1/3 that `z` is within one unit below. -/
theorem atanhFix_bounds {ζ : ℝ} {z : Nat} (h0 : 0 ≤ ζ) (h3 : ζ ≤ 1 / 3) (hle : (z : ℝ) ≤ ζ * serOne) (hge : ζ * serOne ≤ z + 1) :
    serOne * Real.log ((1 + ζ) / (1 - ζ)) - 662 ≤ 2 * atanhFix z ∧ 2 * (atanhFix z : ℝ) ≤ serOne * Real.log ((1 + ζ) / (1 - ζ)) := by
  have hS := serOne_pos
  have hz0 : (0 : ℝ) ≤ z := Nat.cast_nonneg z
  obtain ⟨hsq_ge, hsq_le⟩ := fix_mul_bounds z z
  have hζ : (z : ℝ) / serOne ≤ ζ := (div_le_iff₀ hS).mpr hle
  have hup : ((z * z / 2 ^ serBits : Nat) : ℝ) ≤ ζ ^ 2 * serOne := by
    refine hsq_le.trans ?_
    rw [div_le_iff₀ hS]; nlinarith
  have hlow : ζ ^ 2 * serOne ≤ (z * z / 2 ^ serBits : Nat) + 2 := by
    have h1 : ζ ^ 2 * serOne = (ζ * serOne - z) * (ζ + z / serOne) + z * z / serOne := by field_simp; ring
    have h2 : (ζ * serOne - z) * (ζ + z / serOne) ≤ 1 * (1 / 3 + 1 / 3) := by
      have hsum : 0 ≤ ζ + z / serOne := by positivity
      exact mul_le_mul (by linarith) (by linarith) hsum zero_le_one
    linarith
  obtain ⟨hloop_ge, hloop_le⟩ := atanhLoop_bounds (by nlinarith) hup hlow 110 1 z 0 (ζ * serOne) Nat.one_pos hle (by linarith) (by nlinarith)
  have hsum : ∑ i ∈ Finset.range 110, ζ * serOne * ζ ^ (2 * i) / ((1 : Nat) + 2 * i) =
      serOne * ∑ i ∈ Finset.range 110, ζ ^ (2 * i + 1) / (2 * i + 1) := by
    rw [Finset.mul_sum]
    refine Finset.sum_congr rfl fun i _ => ?_
    push_cast
    rw [add_comm (1 : ℝ)]
    ring
  have hseries_le := Real.sum_range_le_log_div h0 (by linarith) 110
  have hseries_ge := Real.log_div_le_sum_range_add h0 (by linarith) 110
  have htail : serOne * (ζ ^ (2 * 110 + 1) / (1 - ζ ^ 2)) ≤ 1 := by
    have hnum : ζ ^ (2 * 110 + 1) ≤ (1 / 3) ^ (2 * 110 + 1) := pow_le_pow_left₀ h0 h3 _
    have hden : 8 / 9 ≤ 1 - ζ ^ 2 := by nlinarith
    calc serOne * (ζ ^ (2 * 110 + 1) / (1 - ζ ^ 2)) ≤ serOne * ((1 / 3) ^ (2 * 110 + 1) / (8 / 9)) := by gcongr
      _ ≤ 1 := by rw [serOne_eq]; norm_num
  rw [hsum] at hloop_ge hloop_le
  rw [atanhFix]
  push_cast at hloop_ge hloop_le
  constructor <;> nlinarith

/-- The natural logarithm of 2, from the inverse hyperbolic tangent of 1/3. -/
theorem ln2Fix_bounds : serOne * Real.log 2 - 662 ≤ ln2Fix ∧ (ln2Fix : ℝ) ≤ serOne * Real.log 2 := by
  obtain ⟨hge, hle⟩ := cast_div_bounds (2 ^ serBits) 3
  rw [cast_serOne] at hge hle
  push_cast at hge hle
  have h := atanhFix_bounds (ζ := 1 / 3) (z := 2 ^ serBits / 3) (by norm_num) le_rfl (by linarith) (by linarith)
  rw [show (1 + 1 / 3 : ℝ) / (1 - 1 / 3) = 2 by norm_num] at h
  rwa [ln2Fix, Nat.cast_mul, Nat.cast_two]

/-! ### The exponential -/

section
variable {η : ℝ} {y : Nat} (h0 : 0 ≤ η) (h1 : η ≤ 3 / 4) (hy : (y : ℝ) = η * serOne)
include h0 h1 hy

/-- The next term stays within four units below its value when the term does. -/
theorem expTerm_next {j t : Nat} (hle : (t : ℝ) ≤ serOne * (η ^ j / j.factorial)) (hge : serOne * (η ^ j / j.factorial) ≤ t + 4) :
    ((t * y / 2 ^ serBits / (j + 1) : Nat) : ℝ) ≤ serOne * (η ^ (j + 1) / (j + 1).factorial) ∧
    serOne * (η ^ (j + 1) / (j + 1).factorial) ≤ (t * y / 2 ^ serBits / (j + 1) : Nat) + 4 := by
  have hS := serOne_pos
  have hj : (1 : ℝ) ≤ (j + 1 : Nat) := Nat.one_le_cast.mpr (Nat.succ_pos j)
  have hnext : serOne * (η ^ (j + 1) / (j + 1).factorial) = serOne * (η ^ j / j.factorial) * η / (j + 1 : Nat) := by
    rw [Nat.factorial_succ, Nat.cast_mul, pow_succ]
    field_simp
  have hquot : ((t * y : Nat) : ℝ) / (2 ^ serBits * (j + 1) : Nat) = t * η / (j + 1 : Nat) := by
    rw [Nat.cast_mul, hy, Nat.cast_mul, cast_serOne]
    field_simp
  obtain ⟨hq_ge, hq_le⟩ := cast_div_bounds (t * y) (2 ^ serBits * (j + 1))
  rw [hquot, ← Nat.div_div_eq_div_mul] at hq_ge hq_le
  rw [hnext]
  generalize serOne * (η ^ j / j.factorial) = T at *
  have hup : t * η / (j + 1 : Nat) ≤ T * η / (j + 1 : Nat) := by gcongr
  have hdrift : (T - t) * η / (j + 1 : Nat) ≤ 3 := (div_le_self (mul_nonneg (by linarith) h0) hj).trans (by nlinarith)
  have hsplit : T * η / (j + 1 : Nat) = (T - t) * η / (j + 1 : Nat) + t * η / (j + 1 : Nat) := by ring
  constructor <;> linarith

/-- The loop from a term `t` within four units below that of η, of index `j`. -/
theorem expLoop_bounds (n : Nat) : ∀ j t acc : Nat, (t : ℝ) ≤ serOne * (η ^ j / j.factorial) → serOne * (η ^ j / j.factorial) ≤ t + 4 →
    acc + ∑ i ∈ Finset.range n, serOne * (η ^ (j + i) / (j + i).factorial) - 4 * n ≤ expLoop y n (j + 1) t acc ∧
    (expLoop y n (j + 1) t acc : ℝ) ≤ acc + ∑ i ∈ Finset.range n, serOne * (η ^ (j + i) / (j + i).factorial) := by
  induction n with
  | zero => intro j t acc _ _; simp [expLoop]
  | succ n ih =>
    intro j t acc hle hge
    obtain ⟨hup, hlow⟩ := expTerm_next h0 h1 hy hle hge
    obtain ⟨hih_ge, hih_le⟩ := ih (j + 1) (t * y / 2 ^ serBits / (j + 1)) (acc + t) hup hlow
    have hsum : ∑ i ∈ Finset.range (n + 1), serOne * (η ^ (j + i) / (j + i).factorial) =
        ∑ i ∈ Finset.range n, serOne * (η ^ (j + 1 + i) / (j + 1 + i).factorial) + serOne * (η ^ j / j.factorial) := by
      simp only [Finset.sum_range_succ', Nat.add_zero, Nat.add_assoc, Nat.add_comm 1]
    rw [expLoop, hsum]
    push_cast at hih_ge hih_le ⊢
    constructor <;> linarith

end

/-- The loop's 90 terms for an exponent up to 3/4. -/
theorem expLoop_exp {η : ℝ} {y : Nat} (h0 : 0 ≤ η) (h1 : η ≤ 3 / 4) (hy : (y : ℝ) = η * serOne) :
    serOne * Real.exp η - 361 ≤ expLoop y 90 1 (2 ^ serBits) 0 ∧ (expLoop y 90 1 (2 ^ serBits) 0 : ℝ) ≤ serOne * Real.exp η := by
  have hS := serOne_pos
  obtain ⟨hge, hle⟩ := expLoop_bounds h0 h1 hy 90 0 (2 ^ serBits) 0 (by rw [cast_serOne]; simp) (by rw [cast_serOne]; simp)
  simp only [← Finset.mul_sum, Nat.cast_zero, zero_add] at hge hle
  have hseries_le := mul_le_mul_of_nonneg_left (Real.sum_le_exp_of_nonneg h0 90) hS.le
  have hseries_ge := mul_le_mul_of_nonneg_left (Real.exp_bound' h0 (by linarith) (n := 90) (by decide)) hS.le
  have htail : serOne * (η ^ 90 * (90 + 1) / (Nat.factorial 90 * 90)) ≤ 1 := by
    have hpow : η ^ 90 ≤ 1 := pow_le_one₀ h0 (by linarith)
    calc serOne * (η ^ 90 * (90 + 1) / (Nat.factorial 90 * 90)) ≤ serOne * (1 * (90 + 1) / (Nat.factorial 90 * 90)) := by gcongr
      _ ≤ 1 := by rw [serOne_eq]; norm_num [Nat.factorial]
  rw [mul_add] at hseries_ge
  push_cast at hge hseries_ge
  constructor <;> linarith

theorem log_two_mem : Real.log 2 ∈ Set.Icc (2 / 3 : ℝ) (3 / 4) :=
  ⟨by linarith [Real.log_two_gt_d9], by linarith [Real.log_two_lt_d9]⟩

/-- A convex bound: the exponential of a number just below another. -/
theorem exp_sub_exp_le (a b : ℝ) : Real.exp b - Real.exp a ≤ Real.exp b * (b - a) := by
  have h := Real.add_one_le_exp (a - b)
  have hb := Real.exp_pos b
  have hab : Real.exp a = Real.exp b * Real.exp (a - b) := by rw [← Real.exp_add]; congr 1; ring
  rw [hab]
  nlinarith

/-- 2 to a fixed-point fraction, less than 2 ^ 11 units below. -/
theorem exp2Fix_bounds {fr : Nat} (h : fr < 2 ^ serBits) :
    serOne * (2 : ℝ) ^ (fr / serOne : ℝ) - 2 ^ 11 ≤ exp2Fix fr ∧ (exp2Fix fr : ℝ) ≤ serOne * (2 : ℝ) ^ (fr / serOne : ℝ) := by
  have hS := serOne_pos
  obtain ⟨hlog_ge, hlog_le⟩ := log_two_mem
  obtain ⟨hln_ge, hln_le⟩ := ln2Fix_bounds
  have hfr : (fr : ℝ) / serOne ≤ 1 := by
    rw [div_le_one hS, ← cast_serOne]
    exact_mod_cast h.le
  have hfr0 : 0 ≤ (fr : ℝ) / serOne := by positivity
  obtain ⟨hy_ge, hy_le⟩ := fix_mul_bounds fr ln2Fix
  have hy0 : (0 : ℝ) ≤ (fr * ln2Fix / 2 ^ serBits : Nat) := Nat.cast_nonneg _
  generalize hφ : (fr : ℝ) / serOne = φ at *
  rw [mul_div_right_comm, hφ] at hy_ge hy_le
  rw [exp2Fix, Real.rpow_def_of_pos two_pos]
  generalize hη : ((fr * ln2Fix / 2 ^ serBits : Nat) : ℝ) / serOne = η
  have hyη : ((fr * ln2Fix / 2 ^ serBits : Nat) : ℝ) = η * serOne := by rw [← hη, div_mul_cancel₀ _ hS.ne']
  rw [hyη] at hy_ge hy_le hy0
  have hη0 : 0 ≤ η := by nlinarith
  have hηφ : η ≤ Real.log 2 * φ := by
    refine le_of_mul_le_mul_right (hy_le.trans ?_) hS
    nlinarith
  have hgap : (Real.log 2 * φ - η) * serOne ≤ 663 := by nlinarith
  have hφlog : Real.log 2 * φ ≤ 3 / 4 := by nlinarith
  obtain ⟨hexp_ge, hexp_le⟩ := expLoop_exp hη0 (hηφ.trans hφlog) hyη
  have hmono := Real.exp_le_exp.mpr hηφ
  have hconv := exp_sub_exp_le η (Real.log 2 * φ)
  have htwo : Real.exp (Real.log 2 * φ) ≤ 2 := by
    calc Real.exp (Real.log 2 * φ) ≤ Real.exp (Real.log 2) := Real.exp_le_exp.mpr (by nlinarith)
      _ = 2 := Real.exp_log two_pos
  have hloss : serOne * (Real.exp (Real.log 2 * φ) - Real.exp η) ≤ 2 * 663 := by
    calc serOne * (Real.exp (Real.log 2 * φ) - Real.exp η) ≤ serOne * (Real.exp (Real.log 2 * φ) * (Real.log 2 * φ - η)) := by gcongr
      _ = Real.exp (Real.log 2 * φ) * ((Real.log 2 * φ - η) * serOne) := by ring
      _ ≤ 2 * 663 := mul_le_mul htwo hgap (mul_nonneg (by linarith) hS.le) zero_le_two
  constructor <;> nlinarith

/-! ### The logarithm -/

/-- A quotient of two fixed-point numbers, of which each is less than 662 units below its value. -/
theorem quotient_bounds {S A L β lam : ℝ} (hS : 2 ^ 20 ≤ S) (hlam : lam ∈ Set.Icc (2 / 3 : ℝ) (3 / 4)) (hβ0 : 0 ≤ β) (hβ : β ≤ lam) (hA0 : 0 ≤ A)
    (hA : S * β - 662 ≤ A ∧ A ≤ S * β) (hL : S * lam - 662 ≤ L ∧ L ≤ S * lam) : |A * S / L - S * (β / lam)| ≤ 1324 := by
  obtain ⟨hlam_ge, hlam_le⟩ := hlam
  have hlam0 : 0 < lam := by linarith
  have hLS : S / 2 ≤ L := by nlinarith
  have hL0 : 0 < L := by linarith
  have hfrac0 : 0 ≤ β / lam := div_nonneg hβ0 hlam0.le
  have hfrac1 : β / lam ≤ 1 := (div_le_one hlam0).mpr hβ
  have hlow : S * (β / lam) - 1324 ≤ A * S / L := by
    calc S * (β / lam) - 1324 ≤ (S * β - 662) / lam := by
          rw [le_div_iff₀ hlam0, sub_mul, mul_assoc, div_mul_cancel₀ _ hlam0.ne']
          linarith
      _ ≤ A / lam := by gcongr; exact hA.1
      _ = A * S / (S * lam) := by field_simp
      _ ≤ A * S / L := by gcongr; exact hL.2
  have hup : A * S / L ≤ S * (β / lam) + 1324 := by
    calc A * S / L ≤ S * β * S / L := by gcongr; exact hA.2
      _ = S * (β / lam) + β / lam * (S * lam - L) * (S / L) := by field_simp; ring
      _ ≤ S * (β / lam) + 1 * 662 * 2 := by
        gcongr
        · linarith
        · linarith
        · rw [div_le_iff₀ hL0]; linarith
      _ = S * (β / lam) + 1324 := by ring
  rw [abs_le]
  constructor <;> linarith

/-- The logarithm of a fraction from 1 to 2, in fixed point, from the inverse hyperbolic tangent and the logarithm of 2. -/
theorem log2_fraction_bounds {m one : Nat} (hone : 0 < one) (hle : one ≤ m) (hge : m ≤ 2 * one) :
    |((2 * atanhFix ((m - one) * 2 ^ serBits / (m + one)) * 2 ^ serBits / ln2Fix : Nat) : ℝ) - serOne * Real.logb 2 (m / one)| ≤ 1325 := by
  have hS := serOne_pos
  have hS' : 2 ^ 20 ≤ serOne := by rw [serOne_eq]; norm_num
  have hone' : (0 : ℝ) < one := Nat.cast_pos.mpr hone
  have hle' : (one : ℝ) ≤ m := Nat.cast_le.mpr hle
  have hge' : (m : ℝ) ≤ 2 * one := by exact_mod_cast hge
  have hz := cast_div_bounds ((m - one) * 2 ^ serBits) (m + one)
  rw [Nat.cast_mul, Nat.cast_sub hle, cast_serOne, Nat.cast_add, mul_div_right_comm] at hz
  have hζ0 : 0 ≤ ((m : ℝ) - one) / (m + one) := div_nonneg (by linarith) (by linarith)
  have hζ3 : ((m : ℝ) - one) / (m + one) ≤ 1 / 3 := by rw [div_le_div_iff₀ (by linarith) (by norm_num)]; linarith
  obtain ⟨hat_ge, hat_le⟩ := atanhFix_bounds hζ0 hζ3 hz.2 (by linarith [hz.1])
  have hratio : (1 + ((m : ℝ) - one) / (m + one)) / (1 - (m - one) / (m + one)) = m / one := by
    have hsum : (m : ℝ) + one ≠ 0 := by linarith
    rw [one_add_div hsum, one_sub_div hsum, div_div_div_cancel_right₀ hsum, div_eq_div_iff (by linarith) hone'.ne']
    ring
  rw [hratio] at hat_ge hat_le
  generalize (m - one) * 2 ^ serBits / (m + one) = z at *
  have hβ0 : 0 ≤ Real.log (m / one) := Real.log_nonneg ((one_le_div hone').mpr hle')
  have hβ : Real.log (m / one) ≤ Real.log 2 := Real.log_le_log (div_pos (by linarith) hone') ((div_le_iff₀ hone').mpr hge')
  obtain ⟨hq_ge, hq_le⟩ := cast_div_bounds (2 * atanhFix z * 2 ^ serBits) ln2Fix
  rw [Nat.cast_mul, cast_serOne, Nat.cast_mul, Nat.cast_two] at hq_ge hq_le
  have hA0 : (0 : ℝ) ≤ 2 * atanhFix z := mul_nonneg zero_le_two (Nat.cast_nonneg _)
  have hquot := quotient_bounds hS' log_two_mem hβ0 hβ hA0 ⟨hat_ge, hat_le⟩ ln2Fix_bounds
  rw [Real.logb]
  rw [abs_le] at hquot ⊢
  constructor <;> linarith

/-! ### Operands -/

/-- A finite datum's significand and exponent. -/
theorem Fmt.read_fin_bounds {f : Fmt} {a m : Nat} {s : Bool} {e : Int} (h : f.read a = .fin s m e) :
    m < 2 ^ (f.fb + 1) ∧ 1 - (f.bias : Int) - f.fb ≤ e := by
  have hfr : a % 2 ^ f.fb < 2 ^ f.fb := Nat.mod_lt _ (Nat.two_pow_pos _)
  unfold Fmt.read at h
  rw [Nat.pow_succ]
  simp only at h
  split at h
  · split at h <;> cases h
  · split at h
    · cases h; omega
    · cases h; omega

/-- The binade of a value (bitLen counts its significant bits). -/
theorem value_binade {m : Nat} (hm : m ≠ 0) (e : Int) :
    (2 : ℝ) ^ (e + bitLen m - 1) ≤ m * (2 : ℝ) ^ e ∧ (m : ℝ) * (2 : ℝ) ^ e < (2 : ℝ) ^ (e + bitLen m) := by
  have hpos := bitLen_pos hm
  have hlt := lt_two_pow_bitLen m
  have hge := two_pow_bitLen_le hm
  generalize bitLen m = l at *
  have h2 : (0 : ℝ) < 2 ^ e := by positivity
  constructor
  · rw [show e + (l : Int) - 1 = ((l - 1 : Nat) : Int) + e by omega, zpow_add₀ two_ne_zero, zpow_natCast]
    gcongr
    exact_mod_cast hge
  · rw [show e + (l : Int) = (l : Int) + e by omega, zpow_add₀ two_ne_zero, zpow_natCast]
    gcongr
    exact_mod_cast hlt

/-- The number that a finite datum reads as. -/
noncomputable def finValue (n : Bool) (m : Nat) (e : Int) : ℝ := (if n then -1 else 1) * (m : ℝ) * (2 : ℝ) ^ e

theorem abs_finValue (n : Bool) (m : Nat) (e : Int) : |finValue n m e| = m * (2 : ℝ) ^ e := by
  have h : 0 ≤ (m : ℝ) * (2 : ℝ) ^ e := by positivity
  cases n <;> simp [finValue, abs_of_nonneg h]

/-- A value as a whole number of fixed-point units. -/
theorem finValue_fixed (n : Bool) (m : Nat) {e : Int} (he : -(serBits : Int) ≤ e) :
    ((signed n m * 2 ^ (e + serBits).toNat : Int) : ℝ) = finValue n m e * serOne := by
  have hscale : (2 : ℝ) ^ (e + serBits).toNat = (2 : ℝ) ^ e * serOne := by
    rw [serOne, ← zpow_natCast, ← zpow_natCast, ← zpow_add₀ two_ne_zero, Int.toNat_of_nonneg (by omega)]
  rw [Int.cast_mul, Int.cast_pow, Int.cast_ofNat, hscale, finValue]
  cases n <;> simp [signed, mul_assoc]

/-- Whole part and fraction of a fixed-point number. -/
theorem fixed_floor {x : ℝ} {v : Int} (h : (v : ℝ) = x * serOne) :
    v / 2 ^ serBits = ⌊x⌋ ∧ ((v % 2 ^ serBits).toNat : ℝ) = (x - ⌊x⌋) * serOne ∧ (v % 2 ^ serBits).toNat < 2 ^ serBits := by
  have hS := serOne_pos
  have hpos : (0 : Int) < 2 ^ serBits := by positivity
  have hmod := Int.emod_nonneg v hpos.ne'
  have hlt := Int.emod_lt_of_pos v hpos
  have hfr : (v % 2 ^ serBits).toNat < 2 ^ serBits := by zify; rwa [Int.toNat_of_nonneg hmod]
  have hfr' : ((v % 2 ^ serBits).toNat : ℝ) < serOne := by rw [← cast_serOne]; exact_mod_cast hfr
  have hsplit : x * serOne = (v / 2 ^ serBits : Int) * serOne + (v % 2 ^ serBits).toNat := by
    have hnat : (((v % 2 ^ serBits).toNat : Int) : ℝ) = ((v % 2 ^ serBits : Int) : ℝ) := by rw [Int.toNat_of_nonneg hmod]
    rw [← h, ← Int.cast_natCast (v % 2 ^ serBits).toNat, hnat, ← cast_serOne]
    exact_mod_cast (Int.ediv_mul_add_emod v (2 ^ serBits)).symm
  have hfloor : ⌊x⌋ = v / 2 ^ serBits := by
    have hnn : (0 : ℝ) ≤ (v % 2 ^ serBits).toNat := Nat.cast_nonneg _
    rw [Int.floor_eq_iff]
    constructor <;> nlinarith
  rw [hfloor]
  exact ⟨rfl, by linarith, hfr⟩

/-! ### FEXP2 -/

/-- The test for values of 2 ^ 12 and more. -/
theorem beyond_iff {m : Nat} (n : Bool) (e : Int) (hm : m ≠ 0) : e + bitLen m > 12 ↔ 4096 ≤ |finValue n m e| := by
  obtain ⟨hge, hlt⟩ := value_binade hm e
  rw [abs_finValue, show (4096 : ℝ) = (2 : ℝ) ^ (12 : Int) by norm_num]
  constructor
  · intro hbig
    exact (zpow_le_zpow_right₀ one_le_two (by omega)).trans hge
  · intro hbig
    exact (zpow_lt_zpow_iff_right₀ one_lt_two).mp (hbig.trans_lt hlt)

section
variable {f : Fmt} {rm : Nat} {sat : Bool} {a m : Nat} {n : Bool} {e : Int} (h : f.read a = .fin n m e)
include h

theorem fExp2_beyond (hx : 4096 ≤ |finValue n m e|) : fExp2 f rm sat a = f.round rm sat false 1 (if n then -4000 else 4000) true := by
  have hm : m ≠ 0 := by
    rintro rfl
    rw [abs_finValue, Nat.cast_zero, zero_mul] at hx
    norm_num at hx
  have hbig := (beyond_iff n e hm).mpr hx
  unfold fExp2
  rw [h]
  simp only [hm, hbig, if_true, if_false]
  cases n <;> rfl

theorem fExp2_within (he : -(serBits : Int) ≤ e) (hx : |finValue n m e| < 4096) :
    ∃ fr : Nat, (fr : ℝ) = (finValue n m e - ⌊finValue n m e⌋) * serOne ∧ fr < 2 ^ serBits ∧
      fExp2 f rm sat a = if fr = 0 then f.round rm sat false 1 ⌊finValue n m e⌋ false
        else f.round rm sat false (exp2Fix fr) (⌊finValue n m e⌋ - serBits) true := by
  obtain ⟨hi, hfr, hlt⟩ := fixed_floor (finValue_fixed n m he)
  refine ⟨_, hfr, hlt, ?_⟩
  unfold fExp2
  rw [h]
  by_cases hm : m = 0
  · subst hm
    simp [signed, finValue]
  · have hsmall := mt (beyond_iff n e hm).mp (not_le.mpr hx)
    simp only [hm, hsmall, if_false, hi]

end

/-! ### FLOG2 -/

/-- A significand that is a power of two. -/
theorem finValue_two_pow {l m : Nat} {e : Int} (h : m = 2 ^ l) : finValue false m e = (2 : ℝ) ^ (e + l) := by
  rw [finValue, h, add_comm, zpow_add₀ two_ne_zero]
  simp

/-- A value that is a power of two has such a significand. -/
theorem two_pow_of_finValue {m : Nat} {e i : Int} (hm : m ≠ 0) (h : finValue false m e = (2 : ℝ) ^ i) :
    e + bitLen m - 1 = i ∧ m = 2 ^ (bitLen m - 1) := by
  obtain ⟨hge, hlt⟩ := value_binade hm e
  have hval : (m : ℝ) * (2 : ℝ) ^ e = (2 : ℝ) ^ i := by rw [← h]; simp [finValue]
  rw [hval] at hge hlt
  have hi : e + bitLen m - 1 = i := by
    have := (zpow_le_zpow_iff_right₀ one_lt_two).mp hge
    have := (zpow_lt_zpow_iff_right₀ one_lt_two).mp hlt
    omega
  have hpos := bitLen_pos hm
  refine ⟨hi, ?_⟩
  rw [← hi, show e + (bitLen m : Int) - 1 = (bitLen m - 1 : Nat) + e by omega, zpow_add₀ two_ne_zero, zpow_natCast] at hval
  exact_mod_cast mul_right_cancel₀ (by positivity) hval

section
variable {f : Fmt} {rm : Nat} {sat : Bool} {a m : Nat} {e : Int} (h : f.read a = .fin false m e) (hm : m ≠ 0)
include h hm

/-- A power of two has a whole logarithm. -/
theorem fLog2_two_pow (hpow : m = 2 ^ (bitLen m - 1)) : fLog2 f rm sat a =
    if e + bitLen m - 1 = 0 then (f.zero false, 0) else f.round rm sat (decide (e + bitLen m - 1 < 0)) (e + bitLen m - 1).natAbs 0 false := by
  have hlog : fLog2 f rm sat a = f.fin rm sat (fpOfInt false (e + bitLen m - 1) 0, 0) := by
    unfold fLog2
    rw [h]
    simp only [hm, if_false, Bool.false_eq_true]
    exact if_pos hpow
  rw [hlog, Fmt.fin, fpOfInt]
  split
  · next hz => simp [Fmt.put, Fmt.round]
  · next hz => simp [Fmt.put]

omit h in
/-- A value is its fraction times the power of two of its binade. -/
theorem logb_finValue :
    Real.logb 2 (finValue false m e) = (e + bitLen m - 1 : Int) + Real.logb 2 (m / 2 ^ (bitLen m - 1)) := by
  have hpos := bitLen_pos hm
  have hfrac : (m : ℝ) / 2 ^ (bitLen m - 1) ≠ 0 := div_ne_zero (Nat.cast_ne_zero.mpr hm) (by positivity)
  have hsplit : finValue false m e = (2 : ℝ) ^ (e + bitLen m - 1 : Int) * (m / 2 ^ (bitLen m - 1)) := by
    rw [show e + (bitLen m : Int) - 1 = e + (bitLen m - 1 : Nat) by omega, zpow_add₀ two_ne_zero, zpow_natCast, finValue]
    field_simp
    simp
  rw [hsplit, Real.logb_mul (by positivity) hfrac, ← Real.rpow_intCast, Real.logb_rpow two_pos (by norm_num)]

/-- Any other value has its binade and the logarithm of its fraction from the series. -/
theorem fLog2_series (hpow : m ≠ 2 ^ (bitLen m - 1)) : ∃ t : Int, |(t : ℝ) - Real.logb 2 (finValue false m e) * serOne| ≤ 1325 ∧
    (0 ≤ e + bitLen m - 1 → 0 ≤ t) ∧
    fLog2 f rm sat a = if t < 0 then f.round rm sat true (t.natAbs - 1) (-320) true else f.round rm sat false t.toNat (-320) true := by
  have hle := two_pow_bitLen_le hm
  have htwice : m ≤ 2 * 2 ^ (bitLen m - 1) := by
    rw [← Nat.pow_succ']
    exact (lt_two_pow_bitLen m).le.trans (Nat.pow_le_pow_right two_pos (by omega))
  have herr := log2_fraction_bounds (Nat.two_pow_pos _) hle htwice
  generalize hlg : 2 * atanhFix ((m - 2 ^ (bitLen m - 1)) * 2 ^ serBits / (m + 2 ^ (bitLen m - 1))) * 2 ^ serBits / ln2Fix = lg at herr
  rw [Nat.cast_pow, Nat.cast_ofNat] at herr
  refine ⟨(e + bitLen m - 1) * 2 ^ serBits + lg, ?_, fun htop => by positivity, ?_⟩
  · have hcast : (((e + bitLen m - 1) * 2 ^ serBits + lg : Int) : ℝ) = (e + bitLen m - 1 : Int) * serOne + lg := by
      rw [← cast_serOne]
      push_cast
      rfl
    rw [hcast, logb_finValue hm]
    convert herr using 2
    ring
  · rw [← hlg]
    unfold fLog2
    rw [h]
    simp only [hm, if_false, Bool.false_eq_true]
    exact if_neg hpow

omit h in
/-- A value below 1 is below it by at least one unit of its significand. -/
theorem logb_finValue_neg (hm24 : m < 2 ^ 24) (htop : e + bitLen m - 1 < 0) :
    finValue false m e < 1 ∧ Real.logb 2 (finValue false m e) ≤ -(1 / 2 ^ 24) := by
  have hl : bitLen m ≤ 24 := bitLen_le.mpr hm24
  have hlt : (m : ℝ) + 1 ≤ 2 ^ bitLen m := by exact_mod_cast lt_two_pow_bitLen m
  have hpow : (0 : ℝ) < 2 ^ bitLen m := by positivity
  have hm0 : (0 : ℝ) < m := Nat.cast_pos.mpr (Nat.pos_of_ne_zero hm)
  have hx : finValue false m e ≤ 1 - 1 / 2 ^ 24 := by
    calc finValue false m e = m * (2 : ℝ) ^ e := by simp [finValue]
      _ ≤ m * (2 : ℝ) ^ (-(bitLen m : Int)) := by gcongr <;> norm_num; omega
      _ = m / 2 ^ bitLen m := by rw [zpow_neg, zpow_natCast, div_eq_mul_inv]
      _ ≤ 1 - 1 / 2 ^ bitLen m := by rw [div_le_iff₀ hpow, sub_mul, div_mul_cancel₀ _ hpow.ne']; linarith
      _ ≤ 1 - 1 / 2 ^ 24 := by gcongr; norm_num
  have hx0 : 0 < finValue false m e := by
    simp only [finValue, Bool.false_eq_true, if_false, one_mul]
    positivity
  obtain ⟨hlog_ge, hlog_le⟩ := log_two_mem
  have hlog := Real.log_le_sub_one_of_pos hx0
  refine ⟨by linarith [show (0 : ℝ) < 1 / 2 ^ 24 by norm_num], ?_⟩
  rw [Real.logb, div_le_iff₀ (by linarith)]
  linarith

/-- R49: the logarithm of a value that is no power of two. -/
theorem fLog2_fraction (hm24 : m < 2 ^ 24) (hpow : m ≠ 2 ^ (bitLen m - 1)) :
    ∃ y : Nat, fLog2 f rm sat a = f.round rm sat (decide (finValue false m e < 1)) y (-320) true ∧
      |(y : ℝ) - |Real.logb 2 (finValue false m e)| * serOne| ≤ 2 ^ 16 := by
  obtain ⟨t, herr, hsign, hlog⟩ := fLog2_series (rm := rm) (sat := sat) h hm hpow
  rw [hlog]
  rcases lt_or_ge (e + bitLen m - 1 : Int) 0 with htop | htop
  · have hS : 2 ^ 160 ≤ serOne := by rw [serOne_eq]; norm_num
    obtain ⟨hlt, hneg⟩ := logb_finValue_neg hm hm24 htop
    generalize Real.logb 2 (finValue false m e) = lb at *
    have hsmall : lb * serOne ≤ -(2 ^ 136) := by
      calc lb * serOne ≤ -(1 / 2 ^ 24) * serOne := by gcongr
        _ ≤ -(2 ^ 136) := by linarith
    obtain ⟨hge, hle⟩ := abs_le.mp herr
    have ht : t ≤ -1 := by
      have : (t : ℝ) ≤ (-1 : Int) := by push_cast; linarith
      exact Int.cast_le.mp this
    have hy : ((t.natAbs - 1 : Nat) : ℝ) = -t - 1 := by
      rw [Nat.cast_sub (by omega), Nat.cast_natAbs, abs_of_nonpos (by omega)]
      push_cast
      rfl
    refine ⟨t.natAbs - 1, by rw [decide_eq_true hlt]; exact if_pos (by omega), ?_⟩
    rw [hy, abs_of_neg (hneg.trans_lt (by norm_num)), abs_le]
    constructor <;> linarith
  · have hone : 1 ≤ finValue false m e := by
      calc (1 : ℝ) ≤ (2 : ℝ) ^ (e + bitLen m - 1 : Int) := one_le_zpow₀ one_le_two htop
        _ ≤ m * (2 : ℝ) ^ e := (value_binade hm e).1
        _ = finValue false m e := by simp [finValue]
    have ht := hsign htop
    have hy : ((t.toNat : Nat) : ℝ) = t := by exact_mod_cast Int.toNat_of_nonneg ht
    refine ⟨t.toNat, by rw [decide_eq_false (not_lt.mpr hone)]; exact if_neg (by omega), ?_⟩
    rw [hy, abs_of_nonneg (Real.logb_nonneg one_lt_two hone)]
    exact herr.trans (by norm_num)

end

end Sys2Proof.Machine

namespace Sys2Proof

open Machine

/-- Settles O7: FEXP2 and FLOG2 case by case, with the bounds of their series. -/
theorem exponentialsAndLogarithms : Obligations.ExponentialsAndLogarithms := by
  intro f hf rm sat a n m e hread x
  obtain ⟨hm24, he⟩ : m < 2 ^ 24 ∧ -(serBits : Int) ≤ e := by
    obtain ⟨hm, he⟩ := Fmt.read_fin_bounds hread
    obtain ⟨-, -, hfb, hbias⟩ := format_bounds hf
    exact ⟨hm.trans_le (Nat.pow_le_pow_right two_pos (by omega)), by rw [serBits]; omega⟩
  have hx : x = finValue n m e := rfl
  rw [hx]
  clear_value x
  refine ⟨fun i hi hsmall => ?_, fun hfrac hsmall => ?_, fExp2_beyond hread, fun hm hn => ?_⟩
  · have habs : |finValue n m e| < 4096 := by
      rw [hi, ← Int.cast_abs, Int.abs_eq_natAbs]
      exact_mod_cast hsmall
    obtain ⟨fr, hfr, -, hexp⟩ := fExp2_within hread he habs
    rw [hi, Int.floor_intCast, sub_self, zero_mul] at hfr
    rw [hexp, if_pos (Nat.cast_eq_zero.mp hfr), hi, Int.floor_intCast]
  · obtain ⟨fr, hfr, hlt, hexp⟩ := fExp2_within hread he hsmall
    have hne : fr ≠ 0 := by
      rintro rfl
      have := mul_eq_zero.mp ((hfr.symm.trans Nat.cast_zero))
      exact hfrac _ (sub_eq_zero.mp (this.resolve_right serOne_pos.ne'))
    refine ⟨exp2Fix fr, by rw [hexp, if_neg hne]; rfl, ?_⟩
    obtain ⟨hge, hle⟩ := exp2Fix_bounds hlt
    rw [hfr, mul_div_assoc, div_self serOne_pos.ne', mul_one] at hge hle
    rw [Real.rpow_add two_pos, Real.rpow_ofNat, ← serOne_def, abs_le]
    constructor <;> linarith
  · subst hn
    rw [← serOne_def]
    refine ⟨fun i hi => ?_, fun hi => ?_⟩
    · obtain ⟨hexp, hpow⟩ := two_pow_of_finValue hm hi
      rw [fLog2_two_pow hread hm hpow, hexp]
    · refine fLog2_fraction hread hm hm24 fun hpow => hi (e + (bitLen m - 1 : Nat)) ?_
      rw [finValue_two_pow hpow]

end Sys2Proof
end

section
/-! SUPPORT. The encoding (03 R67, R68, R103). The decoder's table of OPC and FN and the rows of the instruction tables agree, read either
way; a specifier, a type and a whole word are the fields that the decoder reads of them. -/

namespace Sys2Proof

open Sys2Proof.Machine

/-! ### From a row to the decoder's table -/

/-- The decoder's table names the instruction of a row under the row's OPC and FN; XFER needs its DIR as well (R228). -/
theorem instrOf_row {i : Instr} {g : Sig} (hs : sig i = some g) (hd : ∀ d, g.imm = .xfer d → nfld g.o.imm 0 2 = d) :
    ∃ f, instrOf (BitVec.ofNat 8 g.opc).toNat (BitVec.ofNat 4 g.fn).toNat (nfld g.o.imm 0 2) = some f ∧ f g.o = i := by
  cases i
  case xferM2m o => cases hs; rw [hd 0 rfl]; exact ⟨_, rfl, rfl⟩
  case xferM2b o => cases hs; rw [hd 1 rfl]; exact ⟨_, rfl, rfl⟩
  case xferB2m o => cases hs; rw [hd 2 rfl]; exact ⟨_, rfl, rfl⟩
  all_goals cases hs
  all_goals exact ⟨_, rfl, rfl⟩

/-- The IMM of an encodable XFER has its DIR. -/
theorem dir_of_encodable {i : Instr} {g : Sig} (hs : sig i = some g) (h : encodable i = true) (d : Nat) (hd : g.imm = .xfer d) :
    nfld g.o.imm 0 2 = d := by
  simp only [encodable, hs, hd, Bool.and_eq_true, beq_iff_eq] at h
  exact h.2

/-! ### From the decoder's table to a row -/

theorem of_ite_eq_some {c q : Prop} {_ : Decidable c} {α : Type} {t e : Option α} {x : α} (ht : c → t = some x → q) (he : e = some x → q) :
    (if c then t else e) = some x → q := by
  split
  · next h => exact ht h
  · exact he

set_option linter.auxLemma false in
/-- What the decoder's table names under an OPC and an FN has a row with that OPC and that FN. The table is a chain of tests on OPC and FN,
taken one after another: the cases of so long a match are more than `split` can make at once. -/
theorem sig_codeOf {opc fn : Nat} {f : Ops → Instr} (o : Ops) :
    codeOf opc fn = some f → ∃ g, sig (f o) = some g ∧ g.o = o ∧ g.opc = opc ∧ g.fn = fn := by
  delta codeOf codeOf.match_1
  simp only [eq_rec_constant, dite_eq_ite]
  repeat' first | refine of_ite_eq_some ?_ ?_ | rintro ⟨⟩
  all_goals exact ⟨_, rfl, rfl, rfl, rfl⟩

theorem sig_instrOf {opc fn dir : Nat} {f : Ops → Instr} (h : instrOf opc fn dir = some f) (o : Ops) :
    ∃ g, sig (f o) = some g ∧ g.o = o ∧ g.opc = opc ∧ g.fn = fn := by
  unfold instrOf at h
  split at h
  · next hx =>
    obtain ⟨rfl, rfl⟩ := hx
    split_ifs at h <;> cases h <;> exact ⟨_, rfl, rfl, rfl, rfl⟩
  · exact sig_codeOf o h

/-! ### From the fields back to the word -/

@[simp] theorem tyCode_tyOf (c : BitVec 4) : tyCode (tyOf c) = c := by revert c; decide

/-- Two fields that stand side by side are one field. -/
theorem fld_append_fld {n : Nat} (w : BitVec n) {lo hi : Nat} (m k : Nat) (h : hi = lo + k) : fld w hi m ++ fld w lo k = fld w lo (m + k) :=
  BitVec.extractLsb'_append_extractLsb'_eq_extractLsb' h

/-- A vector is its upper bits followed by its lower bits. -/
theorem append_fld_zero {hi lo : Nat} (w : BitVec (hi + lo)) (t : BitVec hi) (h : nfld w lo hi = t.toNat) : t ++ fld w 0 lo = w := by
  rw [← fld_of_nfld w lo t h]
  exact BitVec.extractLsb'_append_extractLsb'

/-- A specifier that names an operand is that operand's specifier (Table 3.2). -/
theorem opndBits_of_opndOf {s : BitVec 12} {x : Opnd} (h : opndOf s = some x) : opndBits x = s := by
  have hs := s.isLt
  have hv : (fld s 0 10).toNat = s.toNat % 1024 := by rw [fld_toNat]; simp [nfld]
  have hk : nfld s 10 2 = s.toNat / 1024 := nfld_top s 10 2 rfl
  unfold opndOf at h
  dsimp only at h
  split_ifs at h with hport hlow hreg hlit hacc hbuf himm hnone <;> cases h
  · refine BitVec.eq_of_toNat_eq ?_
    simp only [nfld] at hlow
    simp only [opndBits, BitVec.truncate_eq_setWidth, BitVec.toNat_setWidth, fld_toNat, nfld]
    omega
  · exact append_fld_zero (hi := 2) (lo := 10) s 1 hreg
  · exact append_fld_zero (hi := 2) (lo := 10) s 2 hlit
  · exact append_fld_zero (hi := 8) (lo := 4) s 0xC0 (by rw [nfld_top s 4 8 rfl]; simp only [BitVec.reduceToNat]; omega)
  · exact append_fld_zero (hi := 7) (lo := 5) s 0x61 (by rw [nfld_top s 5 7 rfl]; simp only [BitVec.reduceToNat]; omega)
  · have := congrArg BitVec.toNat himm
    refine BitVec.eq_of_toNat_eq ?_
    simp only [opndBits, BitVec.reduceToNat] at *
    omega
  · have := congrArg BitVec.toNat hnone
    refine BitVec.eq_of_toNat_eq ?_
    simp only [opndBits, BitVec.reduceToNat] at *
    omega

/-- The fields of a word, put together again, are the word: they leave out no bit of it (Table 3.1). -/
theorem wordOf_fld (w : SlotWord) {o : Ops} (hty : o.ty = tyOf (fld w 112 4)) (ha : opndBits o.a = fld w 100 12)
    (hb : opndBits o.b = fld w 88 12) (hc : opndBits o.c = fld w 76 12) (ht0 : o.t0 = fld w 52 24) (ht1 : o.t1 = fld w 28 24)
    (hfl : o.fl = fld w 16 12) (himm : o.imm = fld w 0 16) :
    wordOf (BitVec.ofNat 8 (nfld w 120 8)) (BitVec.ofNat 4 (nfld w 116 4)) o = w := by
  unfold wordOf
  rw [hty, tyCode_tyOf, ha, hb, hc, ht0, ht1, hfl, himm, ← fld_eq_ofNat, ← fld_eq_ofNat]
  simp only [fld_append_fld]
  exact BitVec.extractLsb'_eq_self

/-! ### The words of decoded instructions -/

theorem encode_of_sig {i : Instr} {g : Sig} (hs : sig i = some g) : encode i = some (wordOf (BitVec.ofNat 8 g.opc) (BitVec.ofNat 4 g.fn) g.o) := by
  simp only [encode, hs]

/-- A word that decodes has an instruction under its OPC and FN and a listed code in each operand place. -/
theorem decode_ok {w : SlotWord} {i : Instr} (h : decode w = .ok i) :
    ∃ f a b c, instrOf (nfld w 120 8) (nfld w 116 4) (nfld w 0 2) = some f ∧ opndOf (fld w 100 12) = some a ∧ opndOf (fld w 88 12) = some b ∧
      opndOf (fld w 76 12) = some c ∧ i = f ⟨tyOf (fld w 112 4), a, b, c, fld w 52 24, fld w 28 24, fld w 16 12, fld w 0 16⟩ := by
  unfold decode at h
  split at h
  · cases h
  split at h
  · cases h
  split at h
  · cases h
  split at h
  · cases h
  next hf _ _ ha _ _ hb _ _ hc =>
  cases h
  exact ⟨_, _, _, _, hf, ha, hb, hc, rfl⟩

theorem encode_of_decode {w : SlotWord} {i : Instr} (h : decode w = .ok i) : encode i = some w := by
  obtain ⟨f, a, b, c, hf, ha, hb, hc, rfl⟩ := decode_ok h
  obtain ⟨g, hs, ho, hopc, hfn⟩ := sig_instrOf hf ⟨tyOf (fld w 112 4), a, b, c, fld w 52 24, fld w 28 24, fld w 16 12, fld w 0 16⟩
  rw [encode_of_sig hs, ho, hopc, hfn,
    wordOf_fld w rfl (opndBits_of_opndOf ha) (opndBits_of_opndOf hb) (opndBits_of_opndOf hc) rfl rfl rfl rfl]

/-- Settles O55: the decoder's table gives back the instruction of every row, and the word's fields are read as they were written. -/
theorem decodeReadsWhatEncodeWrites : Obligations.DecodeReadsWhatEncodeWrites := by
  intro i h
  cases hs : sig i with
  | none => simp [encodable, hs] at h
  | some g =>
    obtain ⟨f, hf, hi⟩ := instrOf_row hs (dir_of_encodable hs h)
    exact (Laws.Enc.word i g f hs (fun _ => hf) hi).2 h

/-- Settles O56: every word that decodes is put together again from the fields that the decoder read of it. -/
theorem decodeDropsNoBit : Obligations.DecodeDropsNoBit :=
  ⟨fun _ _ h => encode_of_decode h, fun _ _ _ hv hw => Option.some.inj ((encode_of_decode hv).symm.trans (encode_of_decode hw))⟩

end Sys2Proof
end

section
/-! SUPPORT. A place of a list replaced, and bytes: those of a vector, and those of a memory after several have been written. -/

namespace Sys2Proof.Machine

/-! ### A place of a list replaced -/

theorem length_setNth {α : Type} (l : List α) (i : Nat) (y : α) : (setNth l i y).length = l.length := by
  induction l generalizing i with
  | nil => rfl
  | cons x l ih => cases i <;> simp [setNth, ih]

theorem nth_setNth {α : Type} (d : α) (l : List α) (i j : Nat) (y : α) :
    nth d (setNth l i y) j = if i = j ∧ i < l.length then y else nth d l j := by
  induction l generalizing i j with
  | nil => simp [setNth]
  | cons x l ih => cases i <;> cases j <;> simp [setNth, nth, ih]

/-! ### Bytes of vectors and of memory -/

theorem nth_toBytes (v k : Nat) {i : Nat} (h : i < k) : nth 0 (toBytes v k) i = BitVec.ofNat 8 (v / 256 ^ i) := by
  induction k generalizing v i with
  | zero => omega
  | succ k ih => cases i with
    | zero => simp [toBytes, nth]
    | succ i => rw [toBytes, nth, ih _ (by omega), Nat.div_div_eq_div_mul, pow_succ']

theorem length_bvBytes {n : Nat} (x : BitVec n) (k : Nat) : (bvBytes x k).length = k := toBytes_len ..

/-- A byte of a vector as a field of it (R4). -/
theorem nth_bvBytes {n : Nat} (x : BitVec n) {i k : Nat} (h : i < k) : nth 0 (bvBytes x k) i = x.extractLsb' (8 * i) 8 := by
  rw [bvBytes, nth_toBytes _ _ h]
  apply BitVec.eq_of_toNat_eq
  rw [BitVec.extractLsb'_toNat, BitVec.toNat_ofNat, Nat.shiftRight_eq_div_pow, pow_mul, show (2 ^ 8 : Nat) = 256 from rfl]

/-- A byte after several bytes have been written. -/
theorem mget_msetN (m : Memory) (a b : Nat) (l : List Byte) :
    mget (msetN m a l) b = if a ≤ b ∧ b < a + l.length then nth 0 l (b - a) else mget m b := by
  induction l generalizing m a with
  | nil => simp [msetN]
  | cons v l ih =>
    rw [msetN, ih, mget_mset, List.length_cons]
    obtain h | h | h : b < a ∨ b = a ∨ a < b := by omega
    · rw [if_neg (by omega), if_neg (by omega), if_neg (by omega)]
    · subst h
      rw [if_neg (by omega), if_pos rfl, if_pos (by omega), Nat.sub_self, nth]
    · obtain ⟨k, rfl⟩ : ∃ k, b = a + k + 1 := ⟨b - a - 1, by omega⟩
      rw [if_neg (by omega : ¬ a = a + k + 1), show a + k + 1 - (a + 1) = k by omega, show a + k + 1 - a = k + 1 by omega, nth]
      exact if_congr (by omega) rfl rfl

theorem length_mgetN (m : Memory) (a n : Nat) : (mgetN m a n).length = n := by
  induction n generalizing a with
  | zero => rfl
  | succ n ih => simp [mgetN, ih]

theorem nth_mgetN (m : Memory) (a n : Nat) {i : Nat} (h : i < n) : nth 0 (mgetN m a n) i = mget m (a + i) := by
  induction n generalizing a i with
  | zero => omega
  | succ n ih => cases i with
    | zero => rfl
    | succ i => rw [mgetN, nth, ih _ (by omega), Nat.add_right_comm, Nat.add_assoc]

/-- Bytes that are written back as they were read change nothing. -/
theorem mget_msetN_mgetN (m : Memory) (a n b : Nat) : mget (msetN m a (mgetN m a n)) b = mget m b := by
  rw [mget_msetN, length_mgetN]
  split
  · next h => rw [nth_mgetN _ _ _ (by omega), show a + (b - a) = b by omega]
  · rfl

end Sys2Proof.Machine
end

section
/-! SUPPORT. BFAL, BFFR and BFLIFE (06 R213 to R216): what a firing of scalar results leaves as it was, the checks of a descriptor and of a
LIFE word as the rules say them, and each node case by case. -/

namespace Sys2Proof.Machine

open Sys2Proof.Claims

/-! ### A firing of scalar results -/

section Fire
variable (s : State) (f : Firing) (o : Ops) (lat : Nat) (outs : List Out) (bits : BitVec 8)

/-- The unit's list apart, a firing changes the books alone. -/
theorem State.fire_eq : ∃ t, BooksOnly s t ∧ s.fire f o lat outs bits = t.toUnit f lat outs :=
  ⟨_, (s.latch_booksOnly f o bits).trans (State.settle_booksOnly _ f.e (tagCol f.tag) f.count (outCount outs)), rfl⟩

theorem State.fire_pool (e : Nat) : ((s.fire f o lat outs bits).elem e).pool = (s.elem e).pool := by
  obtain ⟨t, k, h⟩ := s.fire_eq f o lat outs bits
  rw [h]
  exact k.pool e

theorem State.fire_buf (e c b : Nat) : (s.fire f o lat outs bits).buf e c b = s.buf e c b := by
  obtain ⟨t, k, h⟩ := s.fire_eq f o lat outs bits
  rw [h]
  exact k.buf e c b

/-- What the rest of the machine sees of a firing: nothing. -/
theorem State.fire_rest :
    let s' := s.fire f o lat outs bits
    s'.mem = s.mem ∧ s'.stew = s.stew ∧ s'.fab.tokens = s.fab.tokens := by
  obtain ⟨es, cs, us, h⟩ := s.fire_frame f o lat outs bits
  rw [h]
  exact ⟨rfl, rfl, rfl⟩

end Fire

theorem State.bufDone_eq_gives (s : State) (f : Firing) (o : Ops) (v : Word) (sb : BitVec 8) : s.bufDone f o v sb = gives s f o 1 v sb := by
  unfold State.bufDone
  rw [outBoth_eq_both]
  rfl

/-! ### BFAL (R213) -/

/-- The checks of a buffer descriptor in a context slot (R97, R213), but for the keep budget. -/
def AllocGood (x : Ctx) (d : Word) : Prop :=
  nfld d 48 16 = 0 ∧ nfld d 5 3 = 0 ∧ 1 ≤ nfld d 21 13 ∧ 1 ≤ nfld d 38 9 ∧ nfld d 38 9 ≤ 400 ∧ tget none x.bufs (nfld d 0 5) = none ∧
    padFrom x.partwd ≤ nfld d 8 13 ∧ nfld d 8 13 + nfld d 21 13 * (nfld d 34 4 + 1) ≤ padTo x.partwd ∧
    ∀ q ∈ x.bufs, ∀ v, q.2 = some v → nfld d 8 13 + nfld d 21 13 * (nfld d 34 4 + 1) ≤ v.base ∨ v.base + v.size * v.depth ≤ nfld d 8 13

/-- The keep budget of the context slot and of the element has the lines of the descriptor (R279). -/
def AllocRoom (el : Elem) (x : Ctx) (d : Word) : Prop :=
  ctxKept x + nfld d 21 13 * (nfld d 34 4 + 1) ≤ nfld x.partwd 32 13 ∧ elemKept el + nfld d 21 13 * (nfld d 34 4 + 1) ≤ 4096

/-- Some buffer of a table meets the lines, as the model looks for one and as R213 says it. -/
theorem any_meetsLines_iff {p : Nat × Option Buf → Bool} (lo n : Nat) (hn : ∀ k, p (k, none) = false)
    (hs : ∀ k v, p (k, some v) = v.meetsLines lo n) (bs : Tbl (Option Buf)) :
    bs.any p = true ↔ ¬ ∀ q ∈ bs, ∀ v, q.2 = some v → lo + n ≤ v.base ∨ v.base + v.size * v.depth ≤ lo := by
  rw [iff_not_comm, Bool.not_eq_true, List.any_eq_false]
  refine forall₂_congr fun q _ => ?_
  obtain ⟨k, _ | v⟩ := q
  · simp [hn]
  · simp only [hs, Buf.meetsLines, Option.some.injEq, forall_eq', Bool.and_eq_true, decide_eq_true_eq]
    omega

theorem scratch_eq (w : Word) : scratch w = (padFrom w, padTo w) := by
  simp only [scratch, padFrom, padTo, wFirst, wRbk, wAbk, wSbk, Nat.mul_add]

/-- What a request for a buffer is answered. -/
theorem allocDesc_cases (el : Elem) (x : Ctx) (d : Word) :
    ¬ AllocGood x d ∧ allocDesc el x d = .bad ∨
    AllocGood x d ∧ d.getLsbD 47 = true ∧ ¬ AllocRoom el x d ∧ allocDesc el x d = .refused ∨
    AllocGood x d ∧ (d.getLsbD 47 = true → AllocRoom el x d) ∧ allocDesc el x d = .ok (nfld d 0 5)
      ⟨nfld d 8 13, nfld d 21 13, nfld d 34 4 + 1, nfld d 38 9, d.getLsbD 47, 0, List.replicate (nfld d 34 4 + 1) .empty⟩ := by
  unfold allocDesc
  rw [scratch_eq]
  dsimp only
  split
  · next h =>
    rw [any_meetsLines_iff (nfld d 8 13) (nfld d 21 13 * (nfld d 34 4 + 1)) (fun _ => rfl) (fun _ _ => rfl)] at h
    refine .inl ⟨fun ⟨h48, h5, hsize, hlife, hmax, hfree, hlo, hhi, hmeet⟩ => ?_, rfl⟩
    rcases h with h | h | h | h | h | h | h | h | h
    exacts [h h48, h h5, by omega, by omega, by omega, by simp [hfree] at h, by omega, by omega, h hmeet]
  · next h =>
    rw [any_meetsLines_iff (nfld d 8 13) (nfld d 21 13 * (nfld d 34 4 + 1)) (fun _ => rfl) (fun _ _ => rfl)] at h
    simp only [not_or, not_not, Bool.not_eq_true, Option.isSome_eq_false_iff, Option.isNone_iff_eq_none] at h
    obtain ⟨h48, h5, hsize, hlife, hmax, hfree, hlo, hhi, hmeet⟩ := h
    have hgood : AllocGood x d := ⟨h48, h5, by omega, by omega, by omega, hfree, by omega, by omega, hmeet⟩
    right
    split
    · next hk =>
      simp only [Bool.and_eq_true, Bool.not_eq_true', Bool.and_eq_false_iff, decide_eq_false_iff_not] at hk
      exact .inl ⟨hgood, hk.1, not_and_or.mpr hk.2, rfl⟩
    · next hk =>
      simp only [Bool.and_eq_true, Bool.not_eq_true', Bool.and_eq_false_iff, decide_eq_false_iff_not, ← not_and_or, not_and_not_right] at hk
      exact .inr ⟨hgood, hk, rfl⟩

theorem sbDead_sbOr_singleton (b : BitVec 8) : sbDead (sbOr [b]) = sbDead b := by
  simp [sbDead, sbNL, sbPZ, bit, sbOr]

theorem exec_bfal (o : Ops) (s : State) : exec (.bfal o) s = execBfal o s := rfl
theorem exec_bffr (o : Ops) (s : State) : exec (.bffr o) s = execBffr o s := rfl
theorem exec_bflife (o : Ops) (s : State) : exec (.bflife o) s = execBflife o s := rfl

section Nodes
variable {o : Ops} {s : State} {f : Firing}

/-- The joined side-band of the operands a and b of a word whose operands are doublewords. -/
abbrev State.sbAB (s : State) (o : Ops) : BitVec 8 := sbOr [(s.opVal .x64 o.imm o.a).sb, (s.opVal .x64 o.imm o.b).sb]

/-! ### BFAL, case by case -/

theorem bfal_dead (hf : s.focus = .node f) (hd : sbDead (s.sbAB o) = true) : exec (.bfal o) s = .next (gives s f o 1 0 (s.sbAB o)) := by
  rw [exec_bfal, execBfal, State.flow_node hf, ← State.bufDone_eq_gives]
  simp only [hd, if_true]

theorem bfal_bad (hf : s.focus = .node f) (hd : sbDead (s.sbAB o) = false)
    (h : allocDesc (s.elem f.e) (s.ctx f.e f.ctx) (s.opVal .x64 o.imm o.a).v = .bad) :
    exec (.bfal o) s = .next (s.faultFiring f (f.info cBuffer (s.sbAB o))) := by
  rw [exec_bfal, execBfal, State.flow_node hf]
  simp only [hd, h, Bool.false_eq_true, if_false]

theorem bfal_refused (hf : s.focus = .node f) (hd : sbDead (s.sbAB o) = false)
    (h : allocDesc (s.elem f.e) (s.ctx f.e f.ctx) (s.opVal .x64 o.imm o.a).v = .refused) :
    exec (.bfal o) s = .next (gives s f o 1 1 (s.sbAB o)) := by
  rw [exec_bfal, execBfal, State.flow_node hf, ← State.bufDone_eq_gives]
  simp only [hd, h, Bool.false_eq_true, if_false]

theorem bfal_ok {n : Nat} {b : Buf} (hf : s.focus = .node f) (hd : sbDead (s.sbAB o) = false)
    (h : allocDesc (s.elem f.e) (s.ctx f.e f.ctx) (s.opVal .x64 o.imm o.a).v = .ok n b) :
    exec (.bfal o) s = .next (gives (s.setBuf f.e f.ctx n (some b)) f o 1 0 (s.sbAB o)) := by
  rw [exec_bfal, execBfal, State.flow_node hf, ← State.bufDone_eq_gives]
  simp only [hd, h, Bool.false_eq_true, if_false]

/-! ### BFFR, case by case -/

theorem bffr_dead (hf : s.focus = .node f) (hd : sbDead (s.opVal .x64 o.imm o.a).sb = true) :
    exec (.bffr o) s = .next (gives s f o 1 0 (s.opVal .x64 o.imm o.a).sb) := by
  rw [exec_bffr, execBffr, State.flow_node hf, ← State.bufDone_eq_gives]
  simp only [hd, if_true]

theorem bffr_none (hf : s.focus = .node f) (hd : sbDead (s.opVal .x64 o.imm o.a).sb = false) (h : s.buf f.e f.ctx (bufOf o) = none) :
    exec (.bffr o) s = .next (s.faultFiring f (f.info cBuffer (s.opVal .x64 o.imm o.a).sb)) := by
  rw [exec_bffr, execBffr, State.flow_node hf]
  simp only [hd, h, Bool.false_eq_true, if_false]

theorem bffr_frees {v : Buf} (hf : s.focus = .node f) (hd : sbDead (s.opVal .x64 o.imm o.a).sb = false)
    (h : s.buf f.e f.ctx (bufOf o) = some v) :
    exec (.bffr o) s = .next (gives (s.setBuf f.e f.ctx (bufOf o) none) f o 1 0 (s.opVal .x64 o.imm o.a).sb) := by
  rw [exec_bffr, execBffr, State.flow_node hf, ← State.bufDone_eq_gives]
  simp only [hd, h, Bool.false_eq_true, if_false]

/-! ### BFLIFE, case by case -/

/-- The word of a BFLIFE has no bit beyond LIFE and KEEP, and its LIFE is one that R312 allows. -/
def LifeGood (w : Word) : Prop := w.toNat / 2 ^ 10 = 0 ∧ 1 ≤ nfld w 0 9 ∧ nfld w 0 9 ≤ 400

theorem lifeGood_iff (w : Word) : LifeGood w ↔ ¬ (nfld w 10 54 ≠ 0 ∨ nfld w 0 9 = 0 ∨ 400 < nfld w 0 9) := by
  rw [LifeGood, nfld_top w 10 54 rfl]
  omega

theorem bflife_dead (hf : s.focus = .node f) (hd : sbDead (s.sbAB o) = true) :
    exec (.bflife o) s = .next (gives s f o 1 0 (s.sbAB o)) := by
  rw [exec_bflife, execBflife, State.flow_node hf, ← State.bufDone_eq_gives]
  simp only [hd, if_true]

theorem bflife_faults (hf : s.focus = .node f) (hd : sbDead (s.sbAB o) = false)
    (h : s.buf f.e f.ctx (bufOf o) = none ∨ ¬ LifeGood (s.opVal .x64 o.imm o.a).v) :
    exec (.bflife o) s = .next (s.faultFiring f (f.info cBuffer (s.sbAB o))) := by
  rw [exec_bflife, execBflife, State.flow_node hf]
  simp only [hd, Bool.false_eq_true, if_false]
  rw [lifeGood_iff, not_not] at h
  split
  · rfl
  · next v hv => rw [if_pos (h.resolve_left (by simp [hv]))]

/-- The state with LIFE and KEEP of a buffer changed and the slots looked at that their stamp may have reached (R215, R216). -/
def State.relived (s : State) (e c n : Nat) (v : Buf) (w : Word) : State :=
  (List.range v.depth).foldl (fun (s : State) i => s.ageSlot e c n i) (s.setBuf e c n (some (v.relife (nfld w 0 9) (w.getLsbD 9))))

theorem bflife_good {v : Buf} (hf : s.focus = .node f) (hd : sbDead (s.sbAB o) = false) (hv : s.buf f.e f.ctx (bufOf o) = some v)
    (h : LifeGood (s.opVal .x64 o.imm o.a).v) :
    let w := (s.opVal .x64 o.imm o.a).v
    let s1 := s.relived f.e f.ctx (bufOf o) v w
    let lacks : Prop := w.getLsbD 9 = true ∧ v.keep = false ∧ s1.keepFits f.e f.ctx 0 = false
    (lacks → exec (.bflife o) s = .next (gives s f o 1 1 (s.sbAB o))) ∧ (¬ lacks → exec (.bflife o) s = .next (gives s1 f o 1 0 (s.sbAB o))) := by
  intro w s1 lacks
  have hl : lacks ↔ (bit w 9 && !v.keep && !(s1.keepFits f.e f.ctx 0)) = true := by
    simp [lacks, bit, and_assoc]
  rw [hl, exec_bflife, execBflife, State.flow_node hf, ← State.bufDone_eq_gives, ← State.bufDone_eq_gives]
  simp only [hd, hv, if_neg ((lifeGood_iff _).mp h), rangeFrom_zero, Bool.false_eq_true, if_false]
  exact ⟨fun h => congrArg Host.Outcome.next (if_pos h), fun h => congrArg Host.Outcome.next (if_neg h)⟩

end Nodes

/-- BFAL, BFFR and BFLIFE: each clause is a case above. -/
theorem buffersAllocateAndFree : BuffersAllocateAndFree := by
  intro o s f a b n x
  have hn : bufOf o = n := nfld_zero_five o.imm
  refine ⟨?_, ?_, ?_, ?_, ?_⟩
  · rintro ⟨hf, hd⟩ d sb m base size depth life keep good room
    obtain ⟨hbad, h⟩ | ⟨hgood, hk, hr, h⟩ | ⟨hgood, hr, h⟩ := allocDesc_cases (s.elem f.e) x d
    · exact ⟨fun _ => ⟨_, rfl, bfal_bad hf hd h⟩, fun hg => absurd hg hbad, fun hg => absurd hg hbad⟩
    · exact ⟨fun hg => absurd hgood hg, fun _ _ _ => bfal_refused hf hd h, fun _ hroom => absurd (hroom hk) hr⟩
    · exact ⟨fun hg => absurd hgood hg, fun _ hk hroom => absurd (hr hk) hroom, fun _ _ => bfal_ok hf hd h⟩
  · rintro ⟨hf, hd⟩
    rw [sbDead_sbOr_singleton] at hd
    rw [← hn]
    exact ⟨fun h => ⟨_, rfl, bffr_none hf hd h⟩, fun v h => bffr_frees hf hd h⟩
  · rintro ⟨hf, hd⟩ life keep good
    rw [← hn]
    exact ⟨fun h => ⟨_, rfl, bflife_faults hf hd h⟩, fun v hv h => bflife_good hf hd hv h⟩
  · exact bffr_dead
  · exact fun hf hd => ⟨bfal_dead hf hd, bflife_dead hf hd⟩

end Sys2Proof.Machine
end

section
/-! SUPPORT. BFWR (06 R217): the pool bytes and the slot that it writes, and the node case by case. -/

namespace Sys2Proof.Machine

open Sys2Proof.Claims

/-! ### Slots of a buffer -/

theorem Buf.slot_setSlot (b : Buf) (i j : Nat) (q : Slot) : (b.setSlot i q).slot j = if i = j ∧ i < b.slots.length then q else b.slot j :=
  nth_setNth ..

theorem Buf.length_setSlot (b : Buf) (i : Nat) (q : Slot) : (b.setSlot i q).slots.length = b.slots.length := length_setNth ..

/-- A BFWR changes the bytes of its datum alone: the other lines of its slot are rewritten with what they held (R217, R281). -/
theorem Elem.bfwr_pool (el : Elem) (b : Buf) (i at_ a : Nat) (d : List Byte) :
    mget (el.bfwr b i at_ d).pool a =
      if b.slotByte i + at_ ≤ a ∧ a < b.slotByte i + at_ + d.length then nth 0 d (a - (b.slotByte i + at_)) else mget el.pool a := by
  show mget (msetN (msetN _ _ _) _ _) a = _
  rw [mget_msetN, mget_msetN_mgetN]

theorem State.setBuf_pool (s : State) (e c n : Nat) (v : Option Buf) (e' : Nat) : ((s.setBuf e c n v).elem e').pool = (s.elem e').pool := by
  rw [State.setBuf, State.setCtx, State.elem_setElem]
  split
  · next h => rw [h]
  · rfl

theorem State.buf_setElem {s : State} {e : Nat} {v : Elem} (h : v.ctxs = (s.elem e).ctxs) (c n : Nat) : (s.setElem e v).buf e c n = s.buf e c n := by
  simp only [State.buf, State.ctx, State.elem_setElem_same, h]

/-- A write of a slot changes the slot of its buffer alone (R216, R315, R319); whether KP has its lines granted is the keep budget's to say. -/
theorem State.slotWritten_eq {s : State} {e c n : Nat} {b : Buf} (h : s.buf e c n = some b) (i : Nat) (kp : Bool) (g : Slot → Slot) :
    ∃ v grant, s.slotWritten e c n i kp g = (s.setBuf e c n (some v)).setBuf e c n (some (b.setSlot i (g { b.slot i with
      stamp := (s.elem e).stampAt b.life, data := true, exp := false, kept := b.keep || grant, warned := false, granted := grant, renew := none }))) := by
  unfold State.slotWritten
  simp only [h]
  exact ⟨_, _, rfl⟩

/-! ### BFWR, case by case -/

section Bfwr
variable {o : Ops} {s : State} {f : Firing}

/-- The joined side-band of the datum and the position of a BFWR. -/
abbrev State.sbWr (s : State) (o : Ops) : BitVec 8 := sbOr [(s.opVal o.ty o.imm o.a).sb, (s.opVal .x64 o.imm o.b).sb]

/-- The result of a BFWR with a payload: a reference with SETF, else a scalar (R217). -/
def bfwrOut (f : Firing) (setf : Bool) (sb : BitVec 8) (pay : Word) : Out :=
  if setf then ⟨0, sb, .ref, pay, none, f.tag, []⟩ else ⟨0, sb, .scalar, 0, none, f.tag, []⟩

/-- Operands that are neither null nor poisoned. -/
theorem sbPZ_sbNL_of_live {b : BitVec 8} (h : sbDead b = false) : sbPZ b = false ∧ sbNL b = false := by
  rw [sbDead, Bool.or_eq_false_iff] at h
  exact h.symm

theorem exec_bfwr (o : Ops) (s : State) : exec (.bfwr o) s = execBfwr o s := rfl

theorem bfwr_poisoned (hf : s.focus = .node f) (hp : sbPZ (s.sbWr o) = true) :
    ∃ m : FaultInfo, m.code = 6 ∧ exec (.bfwr o) s = .next (s.faultFiring f m) := by
  rw [exec_bfwr, execBfwr, State.flow_node hf]
  simp only [hp, if_true]
  exact ⟨_, rfl, rfl⟩

theorem bfwr_null (hf : s.focus = .node f) (hp : sbPZ (s.sbWr o) = false) (hn : sbNL (s.sbWr o) = true) :
    exec (.bfwr o) s = .next (s.fire f o 1 (outBoth o (bfwrOut f (bit o.imm 5) (s.sbWr o) 0)) (s.sbWr o)) := by
  rw [exec_bfwr, execBfwr, State.flow_node hf]
  simp only [hp, hn, Bool.false_eq_true, if_false, if_true]
  rfl

theorem bfwr_noBuffer (hf : s.focus = .node f) (hd : sbDead (s.sbWr o) = false) (hb : s.buf f.e f.ctx (bufOf o) = none) :
    exec (.bfwr o) s = .next (s.faultFiring f (f.info cBuffer (s.sbWr o))) := by
  obtain ⟨hp, hn⟩ := sbPZ_sbNL_of_live hd
  rw [exec_bfwr, execBfwr, State.flow_node hf]
  simp only [hp, hn, hb, Bool.false_eq_true, if_false]

variable {b : Buf}

theorem bfwr_outside (hf : s.focus = .node f) (hd : sbDead (s.sbWr o) = false) (hb : s.buf f.e f.ctx (bufOf o) = some b)
    (ho : posOk b (tyBits o.ty) (s.opVal .x64 o.imm o.b).v = false) :
    exec (.bfwr o) s = .next (s.faultFiring f (f.info cBuffer (s.sbWr o))) := by
  obtain ⟨hp, hn⟩ := sbPZ_sbNL_of_live hd
  rw [exec_bfwr, execBfwr, State.flow_node hf]
  simp only [hp, hn, hb, ho, Bool.false_eq_true, Bool.not_false, if_false, if_true]

theorem bfwr_full (hf : s.focus = .node f) (hd : sbDead (s.sbWr o) = false) (hb : s.buf f.e f.ctx (bufOf o) = some b)
    (ho : posOk b (tyBits o.ty) (s.opVal .x64 o.imm o.b).v = true) (hq : (b.slot (posSlot (s.opVal .x64 o.imm o.b).v)).full = true) :
    exec (.bfwr o) s = .next (s.unfire f) := by
  obtain ⟨hp, hn⟩ := sbPZ_sbNL_of_live hd
  rw [exec_bfwr, execBfwr, State.flow_node hf]
  simp only [hp, hn, hb, ho, hq, Bool.false_eq_true, Bool.not_true, if_false, if_true]

theorem bfwr_expired (hf : s.focus = .node f) (hd : sbDead (s.sbWr o) = false) (hb : s.buf f.e f.ctx (bufOf o) = some b)
    (ho : posOk b (tyBits o.ty) (s.opVal .x64 o.imm o.b).v = true) (hq : (b.slot (posSlot (s.opVal .x64 o.imm o.b).v)).full = false)
    (hx : (b.slot (posSlot (s.opVal .x64 o.imm o.b).v)).exp = true) :
    ∃ m : FaultInfo, m.code = 4 ∧ m.acc = 1 ∧ exec (.bfwr o) s = .next (s.faultFiring f m) := by
  obtain ⟨hp, hn⟩ := sbPZ_sbNL_of_live hd
  rw [exec_bfwr, execBfwr, State.flow_node hf]
  simp only [hp, hn, hb, ho, hq, hx, Bool.false_eq_true, Bool.not_true, if_false, if_true]
  exact ⟨_, rfl, rfl, rfl⟩

/-- The buffer after a BFWR in slot `i` at a time: the slot stamped, its header cleared, and with SETF full and the write index moved (R217). -/
def Buf.written (b : Buf) (i : Nat) (now : BitVec 32) (grant setf : Bool) : Buf :=
  { b.setSlot i { b.slot i with stamp := now + BitVec.ofNat 32 b.life, data := true, exp := false, kept := b.keep || grant, warned := false,
                                granted := grant, renew := none, full := setf, hv := false, lines := b.size } with
    widx := if setf then (i + 1) % b.depth else b.widx }

/-- The element of a BFWR with the bytes of the datum written at its place (R217). -/
def State.bfwrElem (s : State) (f : Firing) (o : Ops) (b : Buf) : Elem :=
  (s.elem f.e).bfwr b (posSlot (s.opVal .x64 o.imm o.b).v) (posElem (s.opVal .x64 o.imm o.b).v * tyBits o.ty / 8)
    (bvBytes (s.opVal o.ty o.imm o.a).v (tyBits o.ty / 8))

/-- A BFWR into a slot that is neither full nor expired writes its datum and its slot and sends its result; nothing but elements changes. -/
theorem bfwr_writes (hf : s.focus = .node f) (hd : sbDead (s.sbWr o) = false) (hb : s.buf f.e f.ctx (bufOf o) = some b)
    (ho : posOk b (tyBits o.ty) (s.opVal .x64 o.imm o.b).v = true) (hq : (b.slot (posSlot (s.opVal .x64 o.imm o.b).v)).full = false)
    (hx : (b.slot (posSlot (s.opVal .x64 o.imm o.b).v)).exp = false) :
    let i := posSlot (s.opVal .x64 o.imm o.b).v
    ∃ (t : State) (grant : Bool),
      exec (.bfwr o) s = .next (t.fire f o 1 (outBoth o (bfwrOut f (bit o.imm 5) (s.sbWr o) (mkRef (bufOf o) i b.size))) (s.sbWr o)) ∧
      (t.elem f.e).pool = (s.bfwrElem f o b).pool ∧
      t.buf f.e f.ctx (bufOf o) = some (b.written i (s.elem f.e).retcnt grant (bit o.imm 5)) ∧
      ∃ es, t = { s with fab := { s.fab with elems := es } } := by
  intro i
  obtain ⟨hp, hn⟩ := sbPZ_sbNL_of_live hd
  rw [exec_bfwr, execBfwr, State.flow_node hf]
  simp only [hp, hn, hb, ho, hq, hx, Bool.false_eq_true, Bool.not_true, if_false]
  have hb1 : (s.setElem f.e (s.bfwrElem f o b)).buf f.e f.ctx (bufOf o) = some b := by rw [State.buf_setElem (by rfl), hb]
  obtain ⟨v, grant, hw⟩ := State.slotWritten_eq hb1 i (bit o.fl 5) fun q => { q with full := bit o.imm 5, hv := false, lines := b.size }
  rw [State.bfwrElem] at hw
  rw [hw]
  cases hsetf : bit o.imm 5 <;> simp only [Bool.false_eq_true, if_false, if_true, State.buf_setBuf_same]
  all_goals
    refine ⟨_, grant, rfl, ?_, ?_, _, rfl⟩
    · simp only [State.setBuf_pool, State.elem_setElem_same, State.bfwrElem]
    · rw [State.buf_setBuf_same, State.elem_setElem_same]
      rfl

end Bfwr

/-! ### The places of a BFWR -/

theorem tyBits_eq_bytes {ty : Ty} (h : ty ≠ .pred ∧ ty ≠ .q4) : tyBits ty = 8 * (tyBits ty / 8) := by
  obtain ⟨hpred, hq4⟩ := h
  cases ty
  case pred => exact absurd rfl hpred
  case q4 => exact absurd rfl hq4
  all_goals rfl

/-- Of a type of whole bytes, elements lie at whole bytes. -/
theorem posByte_eq {ty : Ty} (h : ty ≠ .pred ∧ ty ≠ .q4) (n : Nat) : n * tyBits ty / 8 = n * (tyBits ty / 8) := by
  rw [tyBits_eq_bytes h, Nat.mul_left_comm, Nat.mul_div_cancel_left _ (by decide), Nat.mul_div_cancel_left _ (by decide)]

theorem posOk_iff (b : Buf) {ty : Ty} (h : ty ≠ .pred ∧ ty ≠ .q4) (v : Word) : posOk b (tyBits ty) v = true ↔
    nfld v 20 44 = 0 ∧ nfld v 0 16 * (tyBits ty / 8) < b.size * 64 ∧ nfld v 16 4 < b.depth := by
  rw [posOk, posElem, posByte_eq h, Bool.and_eq_true, Bool.and_eq_true, beq_iff_eq, decide_eq_true_eq, decide_eq_true_eq, and_assoc]
  rfl

/-! ### The slots of a buffer that a BFWR has written -/

theorem Buf.written_slot_ne (b : Buf) {i j : Nat} (now : BitVec 32) (grant setf : Bool) (h : j ≠ i) :
    (b.written i now grant setf).slot j = b.slot j :=
  (b.slot_setSlot i j _).trans (if_neg fun k => h k.1.symm)

theorem Buf.written_slot_same (b : Buf) {i : Nat} (now : BitVec 32) (grant setf : Bool) (h : i < b.slots.length) :
    (b.written i now grant setf).slot i = { b.slot i with
      stamp := now + BitVec.ofNat 32 b.life, data := true, exp := false, kept := b.keep || grant, warned := false, granted := grant,
      renew := none, full := setf, hv := false, lines := b.size } :=
  (b.slot_setSlot i i _).trans (if_pos ⟨rfl, h⟩)

/-- BFWR: each clause is a case above; the bytes, the slot and the result are those of `bfwr_writes`. -/
theorem bfwrWritesItsPlace : BfwrWritesItsPlace := by
  intro o s f hf x p sb n setf w i at_
  have hn : bufOf o = n := nfld_zero_five o.imm
  rw [← hn]
  refine ⟨bfwr_poisoned hf, fun hp hl => ⟨_, bfwr_null hf hp hl, fun e => State.fire_pool .., State.fire_buf .., (State.fire_rest ..).1⟩,
    fun hd hb => ⟨_, rfl, bfwr_noBuffer hf hd hb⟩, ?_⟩
  intro b hd hb hlen hty inside
  have hin : posOk b (tyBits o.ty) p.v = true ↔ inside := posOk_iff b hty p.v
  refine ⟨fun h => ⟨_, rfl, bfwr_outside hf hd hb (Bool.eq_false_iff.mpr (mt hin.mp h))⟩, fun h hq => bfwr_full hf hd hb (hin.mpr h) hq,
    fun h hq hx => bfwr_expired hf hd hb (hin.mpr h) hq hx, fun h hq hx => ?_⟩
  obtain ⟨_, grant, hexec, hpool, hbuf, es, rfl⟩ := bfwr_writes hf hd hb (hin.mpr h) hq hx
  have hi : i < b.slots.length := hlen ▸ h.2.2
  have hslot := b.written_slot_same (s.elem f.e).retcnt grant setf hi
  refine ⟨_, hexec, fun a => ?_, ⟨_, (State.fire_buf ..).trans hbuf, rfl, b.length_setSlot _ _, fun j hj => b.written_slot_ne _ _ _ hj, ?_⟩, ?_,
    State.fire_rest ..⟩
  · rw [State.fire_pool, hpool, State.bfwrElem, Elem.bfwr_pool, posByte_eq hty, length_bvBytes]
    exact ite_congr rfl (fun ha => nth_bvBytes _ (Nat.sub_lt_left_of_lt_add ha.1 ha.2)) fun _ => rfl
  · refine hslot ▸ ⟨rfl, rfl, rfl, rfl, rfl, fun hk => ?_⟩
    simp [hk]
  · rw [State.fire_units, outBoth_eq_both]
    rfl

end Sys2Proof.Machine

namespace Sys2Proof

/-- Settles O38: the buffer nodes case by case, with the bytes and the slot that a BFWR writes. -/
theorem buffersAllocateFreeAndFill : Obligations.BuffersAllocateFreeAndFill :=
  ⟨Machine.buffersAllocateAndFree, Machine.bfwrWritesItsPlace⟩

end Sys2Proof
end

section
/-! SUPPORT. Integer words (04 R139 to R144): how a value instruction ends in either form, and the model's arithmetic on numbers as the
arithmetic of bit vectors that the statements use. -/

namespace Sys2Proof.Machine

open Sys2Proof.Claims

/-! ### How a value instruction ends -/

theorem sbOr_eq_sbAll (vs : List Val) : sbOr (vs.map fun v => v.sb) = sbAll vs := by
  unfold sbOr sbAll
  rw [List.foldl_eq_foldr]

/-- Null and poisoned operands leave a result as the statements say (R20 to R22). -/
theorem sbResult_eq_fabResult (vs : List Val) (r : Word × BitVec 8) : sbResult (sbOr (vs.map fun v => v.sb)) r = fabResult vs r := by
  rw [sbOr_eq_sbAll]
  rfl

theorem outBoth_eq_fabOuts (o : Ops) (tag : Word) (r : Word × BitVec 8) :
    outBoth o ⟨0, r.2, .scalar, r.1, none, tag, []⟩ = fabOuts o tag r := outBoth_eq_both o _

/-- An instruction whose meaning is `State.compute` yields its result, in either form. -/
theorem yields_of_compute {i : Instr} {o : Ops} {s : State} {lat : Nat} {vs : List Val} {r : Word × BitVec 8}
    (h : exec i s = .next (s.compute o lat vs r)) : Yields i o s lat vs r := by
  refine ⟨fun t ht => ?_, fun f hf => ?_⟩
  · rw [h, State.compute_thread ht]
    unfold stewDone
    cases stewDest o.t0 <;> rfl
  · rw [h, State.compute_node hf, sbResult_eq_fabResult, outBoth_eq_fabOuts]

theorem unary_of_exec {c : Ops → Instr} {lat : Nat} {G g : Ops → Word → Word × BitVec 8}
    (h : ∀ o s, exec (c o) s = .next (s.compute1 o lat (G o))) (hg : ∀ o a, G o a = g o a) : Unary c lat g :=
  fun o s => yields_of_compute (by rw [h, State.compute1, hg])
theorem binary_of_exec {c : Ops → Instr} {lat : Nat} {G g : Ops → Word → Word → Word × BitVec 8}
    (h : ∀ o s, exec (c o) s = .next (s.compute2 o lat (G o))) (hg : ∀ o a b, G o a b = g o a b) : Binary c lat g :=
  fun o s => yields_of_compute (by rw [h, State.compute2, hg])
theorem ternary_of_exec {c : Ops → Instr} {lat : Nat} {G g : Ops → Word → Word → Word → Word × BitVec 8}
    (h : ∀ o s, exec (c o) s = .next (s.compute3 o lat (G o))) (hg : ∀ o a b c, G o a b c = g o a b c) : Ternary c lat g :=
  fun o s => yields_of_compute (by rw [h, State.compute3, hg])

/-! ### Operands and payloads as bit vectors -/

section
variable (ty : Ty)

@[simp] theorem low_toNat (x : Word) : (low ty x).toNat = uv ty x := BitVec.toNat_setWidth ..

/-- The signed number of the low bits is the signed value of the bit vector that they form. -/
theorem sval_toNat {w : Nat} (x : BitVec w) : sval w x.toNat = x.toInt := by
  unfold sval
  rw [Nat.mod_eq_of_lt x.isLt, BitVec.toInt_eq_msb_cond]
  cases w with
  | zero => simp [BitVec.eq_nil x]
  | succ w =>
    rw [BitVec.msb_eq_decide]
    by_cases h : x.toNat < 2 ^ w
    · simp [h]
    · simp [h, Nat.not_lt.mp h]

theorem sval_mod (w n : Nat) : sval w (n % 2 ^ w) = sval w n := by unfold sval; rw [Nat.mod_mod]

@[simp] theorem low_toInt (x : Word) : (low ty x).toInt = sv ty x := by
  rw [← sval_toNat, low_toNat, uv, sval_mod, sv]

/-- A number that is placed is a payload of the bit vector of its low bits (R24). -/
theorem placed_eq_put (n : Nat) : placed ty n = put ty (BitVec.ofNat (tyBits ty) n) := by
  unfold placed tyExtend put
  split
  · rw [sextN, ← sval_mod, ← BitVec.toNat_ofNat, sval_toNat, BitVec.signExtend]
  · rw [zextN, ← BitVec.toNat_ofNat, BitVec.ofNat_toNat]

theorem wrapInt_eq (w : Nat) (i : Int) : BitVec.ofNat w (wrapInt w i) = BitVec.ofInt w i := by
  apply BitVec.eq_of_toNat_eq
  rw [BitVec.toNat_ofNat, BitVec.toNat_ofInt, wrapInt]
  apply Nat.mod_eq_of_lt
  have := Int.emod_lt_of_pos i (Int.natCast_pos.mpr (Nat.two_pow_pos w))
  omega

/-- An integer that wraps is the payload of its low bits. -/
theorem wrapped_eq_quiet (i : Int) : wrapped ty i = quiet ty (BitVec.ofInt (tyBits ty) i) := by
  rw [wrapped, placed_eq_put, wrapInt_eq]
  rfl

theorem wrapped_eq_quiet_ofNat (n : Nat) : wrapped ty n = quiet ty (BitVec.ofNat (tyBits ty) n) := by
  rw [wrapped_eq_quiet, BitVec.ofInt_natCast]

theorem placed_toNat (x : Word) : placed ty x.toNat = put ty (low ty x) := by
  rw [placed_eq_put, BitVec.ofNat_toNat, low]

@[simp] theorem ofNat_uv (x : Word) : BitVec.ofNat (tyBits ty) (uv ty x) = low ty x := by
  rw [← low_toNat, BitVec.ofNat_toNat, BitVec.setWidth_eq]
@[simp] theorem ofInt_sv (x : Word) : BitVec.ofInt (tyBits ty) (sv ty x) = low ty x := by
  rw [← low_toInt, BitVec.ofInt_toInt]

/-- An operand that is placed again is the payload of its low bits. -/
theorem placed_uv (x : Word) : placed ty (uv ty x) = put ty (low ty x) := by
  rw [placed_eq_put, ofNat_uv]

end

/-- Dividing the rest of a division by a multiple is taking the rest of the division. -/
theorem emod_mul_ediv (p : Int) {d : Int} (hd : 0 < d) (e : Int) : p % (d * e) / d = p / d % e := by
  have h : p % (d * e) = p + -(e * (p / d / e)) * d := by
    rw [Int.emod_def, Int.ediv_ediv_of_nonneg hd.le]; ring
  rw [h, Int.add_mul_ediv_right _ _ hd.ne', Int.emod_def]
  ring

/-- A field of an integer's bits is its quotient's bits. -/
theorem extractLsb'_ofInt {n lo len : Nat} (h : lo + len ≤ n) (p : Int) :
    (BitVec.ofInt n p).extractLsb' lo len = BitVec.ofInt len (p / (2 ^ lo : Nat)) := by
  apply BitVec.eq_of_toNat_eq
  obtain ⟨k, rfl⟩ := Nat.exists_eq_add_of_le h
  have hd : (0 : Int) < (2 ^ lo : Nat) := Int.natCast_pos.mpr (Nat.two_pow_pos lo)
  have hpow : ((2 ^ (lo + len + k) : Nat) : Int) = (2 ^ lo : Nat) * ((2 ^ len : Nat) * (2 ^ k : Nat)) := by push_cast; ring
  have hpos : (0 : Int) ≤ p % (2 ^ (lo + len + k) : Nat) := Int.emod_nonneg _ (Int.natCast_pos.mpr (Nat.two_pow_pos _)).ne'
  have hlen : (0 : Int) ≤ p / (2 ^ lo : Nat) % (2 ^ len : Nat) := Int.emod_nonneg _ (Int.natCast_pos.mpr (Nat.two_pow_pos _)).ne'
  apply Int.ofNat_inj.mp
  rw [BitVec.extractLsb'_toNat, BitVec.toNat_ofInt, BitVec.toNat_ofInt, Nat.shiftRight_eq_div_pow, Int.natCast_emod, Int.natCast_ediv,
    Int.toNat_of_nonneg hpos, Int.toNat_of_nonneg hlen, hpow, emod_mul_ediv _ hd, Int.emod_emod_of_dvd _ (Int.dvd_mul_right ..)]

/-! ### Sums and products -/

section
variable (ty : Ty) (a b c : Word)

theorem fnAdd_eq : fnAdd ty a b = quiet ty (low ty a + low ty b) := by
  rw [fnAdd, wrapped_eq_quiet, BitVec.ofInt_add, BitVec.ofInt_natCast, BitVec.ofInt_natCast, ofNat_uv, ofNat_uv]

theorem fnSub_eq : fnSub ty a b = quiet ty (low ty a - low ty b) := by
  rw [fnSub, wrapped_eq_quiet, Int.sub_eq_add_neg, BitVec.ofInt_add, BitVec.ofInt_neg, BitVec.ofInt_natCast, BitVec.ofInt_natCast,
    ofNat_uv, ofNat_uv, BitVec.sub_eq_add_neg]

theorem fnNeg_eq : fnNeg ty a = quiet ty (-(low ty a)) := by
  rw [fnNeg, wrapped_eq_quiet, BitVec.ofInt_neg, BitVec.ofInt_natCast, ofNat_uv]

theorem sv_neg_iff : sv ty a < 0 ↔ (low ty a).msb = true := by
  rw [← low_toInt, BitVec.msb_eq_toInt, decide_eq_true_iff]

theorem fnAbs_eq : fnAbs ty a = quiet ty (if (low ty a).msb then -(low ty a) else low ty a) := by
  rw [fnAbs, wrapped_eq_quiet]
  by_cases h : (low ty a).msb = true
  · have hn := (sv_neg_iff ty a).mpr h
    rw [if_pos h, show ((sv ty a).natAbs : Int) = -(sv ty a) by omega, BitVec.ofInt_neg, ofInt_sv]
  · have hn := mt (sv_neg_iff ty a).mp h
    rw [if_neg h, show ((sv ty a).natAbs : Int) = sv ty a by omega, ofInt_sv]

theorem fnMul_eq : fnMul ty a b = quiet ty (low ty a * low ty b) := by
  rw [fnMul, wrapped_eq_quiet_ofNat, BitVec.ofNat_mul, ofNat_uv, ofNat_uv]

theorem fnMad_eq : fnMad ty a b c = quiet ty (low ty a * low ty b + low ty c) := by
  rw [fnMad, wrapped_eq_quiet_ofNat, BitVec.ofNat_add, BitVec.ofNat_mul, ofNat_uv, ofNat_uv, ofNat_uv]

theorem ofNat_two_pow (w i : Nat) : BitVec.ofNat w (2 ^ i) = BitVec.twoPow w i :=
  BitVec.eq_of_toNat_eq (by rw [BitVec.toNat_ofNat, BitVec.toNat_twoPow])

theorem fnAddx_eq : fnAddx ty a b c = quiet ty (low ty a + low ty b <<< (c.toNat % 64)) := by
  have hs : nfld c 0 6 = c.toNat % 64 := by simp [nfld]
  rw [fnAddx, wrapped_eq_quiet_ofNat, BitVec.ofNat_add, BitVec.ofNat_mul, ofNat_uv, ofNat_uv, ofNat_two_pow, hs,
    BitVec.shiftLeft_eq_mul_twoPow]

/-- The high half of a product whose factors fit half the width. -/
theorem fnMulhu_eq : fnMulhu ty a b = quiet ty
    (((low ty a).setWidth (2 * tyBits ty) * (low ty b).setWidth (2 * tyBits ty)).extractLsb' (tyBits ty) (tyBits ty)) := by
  rw [fnMulhu, wrapped_eq_quiet_ofNat]
  congr 1
  apply BitVec.eq_of_toNat_eq
  have hw : tyBits ty ≤ 2 * tyBits ty := by omega
  have hlt : uv ty a * uv ty b < 2 ^ (2 * tyBits ty) := by
    rw [Nat.two_mul, Nat.pow_add]
    exact Nat.mul_lt_mul'' (Nat.mod_lt _ (Nat.two_pow_pos _)) (Nat.mod_lt _ (Nat.two_pow_pos _))
  rw [BitVec.extractLsb'_toNat, BitVec.toNat_ofNat, BitVec.toNat_mul, BitVec.toNat_setWidth_of_le hw, BitVec.toNat_setWidth_of_le hw,
    low_toNat, low_toNat, Nat.mod_eq_of_lt hlt, Nat.shiftRight_eq_div_pow]

theorem fnMulh_eq : fnMulh ty a b = quiet ty
    (((low ty a).signExtend (2 * tyBits ty) * (low ty b).signExtend (2 * tyBits ty)).extractLsb' (tyBits ty) (tyBits ty)) := by
  rw [fnMulh, wrapped_eq_quiet, BitVec.signExtend, BitVec.signExtend, ← BitVec.ofInt_mul, extractLsb'_ofInt (by omega), low_toInt, low_toInt]

/-! ### Saturating sums (R37) -/

/-- An integer in the range of a type is its own payload. -/
theorem put_ofInt_of_range {i : Int} (hlo : tyLo ty ≤ i) (hhi : i ≤ tyHi ty) : put ty (BitVec.ofInt (tyBits ty) i) = BitVec.ofInt 64 i := by
  have hw := tyBits_pos ty
  unfold tyLo tyHi at *
  unfold put
  cases h : tySigned ty with
  | true =>
    simp only [h, if_true] at *
    have hp : (2 : Nat) ^ tyBits ty = 2 ^ (tyBits ty - 1) + 2 ^ (tyBits ty - 1) := by
      rw [← Nat.two_mul, ← Nat.pow_succ']; congr 1; omega
    rw [BitVec.signExtend, BitVec.toInt_ofInt, Int.bmod_eq_of_le (by omega) (by omega)]
  | false =>
    simp only [h, Bool.false_eq_true, if_false] at *
    obtain ⟨n, rfl⟩ := Int.eq_ofNat_of_zero_le hlo
    have hn : n < 2 ^ tyBits ty := by omega
    rw [BitVec.ofInt_natCast, BitVec.ofInt_natCast, ← BitVec.ofNat_toNat, BitVec.toNat_ofNat, Nat.mod_eq_of_lt hn]

theorem tyLo_le_tyHi : tyLo ty ≤ tyHi ty := by
  have := Nat.two_pow_pos (tyBits ty - 1)
  have := Nat.two_pow_pos (tyBits ty)
  unfold tyLo tyHi
  split <;> omega

/-- An exact result is clamped to the range of its type. -/
theorem clamped_eq (i : Int) : clamped ty i =
    if i < tyLo ty then (BitVec.ofInt 64 (tyLo ty), 0x04) else if tyHi ty < i then (BitVec.ofInt 64 (tyHi ty), 0x04) else (BitVec.ofInt 64 i, 0) := by
  have hr := tyLo_le_tyHi ty
  unfold clamped
  simp only [wrapped_eq_quiet, quiet]
  rw [put_ofInt_of_range ty le_rfl hr, put_ofInt_of_range ty hr le_rfl]
  split
  · rfl
  split
  · rfl
  · rw [put_ofInt_of_range ty (by omega) (by omega)]

theorem tv_eq (x : Word) : tv ty x = if tySigned ty then (low ty x).toInt else ((low ty x).toNat : Int) := by
  rw [tv, low_toInt, low_toNat]

/-! ### Division (R37, Table 2.2) -/

theorem placed_ones : placed ty (2 ^ tyBits ty - 1) = put ty (BitVec.allOnes (tyBits ty)) := by
  have h : BitVec.ofNat (tyBits ty) (2 ^ tyBits ty - 1) = BitVec.allOnes (tyBits ty) := BitVec.eq_of_toNat_eq (by
    rw [BitVec.toNat_ofNat, BitVec.toNat_allOnes, Nat.mod_eq_of_lt (Nat.sub_lt (Nat.two_pow_pos _) Nat.one_pos)])
  rw [placed_eq_put, h]

theorem sv_eq_zero_iff (x : Word) : sv ty x = 0 ↔ low ty x = 0 := by
  rw [← low_toInt, ← BitVec.toInt_zero (w := tyBits ty), BitVec.toInt_inj]
  rfl

theorem uv_eq_zero_iff (x : Word) : uv ty x = 0 ↔ low ty x = 0 := by
  rw [← low_toNat]
  exact (BitVec.toNat_inj (y := 0#(tyBits ty)))

theorem sv_eq_neg_one_iff (x : Word) : sv ty x = -1 ↔ low ty x = BitVec.allOnes (tyBits ty) := by
  have h : (BitVec.allOnes (tyBits ty)).toInt = -1 := by rw [BitVec.toInt_allOnes, if_pos (tyBits_pos ty)]
  rw [← low_toInt, ← h, BitVec.toInt_inj]

theorem sv_eq_least_iff (x : Word) : sv ty x = -(2 ^ (tyBits ty - 1) : Nat) ↔ low ty x = BitVec.intMin (tyBits ty) := by
  have h : (BitVec.intMin (tyBits ty)).toInt = -(2 ^ (tyBits ty - 1) : Nat) := by
    rw [BitVec.toInt_intMin, Nat.mod_eq_of_lt (Nat.pow_lt_pow_right (by decide) (Nat.sub_one_lt (tyBits_pos ty).ne'))]
  rw [← low_toInt, ← h, BitVec.toInt_inj]

theorem ofInt_tdiv : BitVec.ofInt (tyBits ty) (Int.tdiv (sv ty a) (sv ty b)) = (low ty a).sdiv (low ty b) := by
  apply BitVec.eq_of_toInt_eq
  rw [BitVec.toInt_ofInt, BitVec.toInt_sdiv, low_toInt, low_toInt]

theorem ofInt_tmod : BitVec.ofInt (tyBits ty) (Int.tmod (sv ty a) (sv ty b)) = (low ty a).srem (low ty b) := by
  rw [← low_toInt, ← low_toInt, ← BitVec.toInt_srem, BitVec.ofInt_toInt]

theorem fnDiv_eq : fnDiv ty a b =
    if low ty b = 0 then (put ty (BitVec.allOnes (tyBits ty)), 0x08)
    else if low ty a = BitVec.intMin (tyBits ty) ∧ low ty b = BitVec.allOnes (tyBits ty) then (put ty (low ty a), 0x04)
    else quiet ty ((low ty a).sdiv (low ty b)) := by
  simp only [fnDiv, sv_eq_zero_iff, sv_eq_neg_one_iff, sv_eq_least_iff, placed_ones, wrapped_eq_quiet, ofInt_tdiv]
  refine if_congr Iff.rfl rfl ?_
  split
  · next h => rw [placed_eq_put, ofNat_two_pow, h.1]; rfl
  · rfl

theorem fnDivu_eq : fnDivu ty a b =
    if low ty b = 0 then (put ty (BitVec.allOnes (tyBits ty)), 0x08) else quiet ty (low ty a / low ty b) := by
  have h : BitVec.ofNat (tyBits ty) (uv ty a / uv ty b) = low ty a / low ty b := by
    rw [← low_toNat, ← low_toNat, ← BitVec.toNat_udiv, BitVec.ofNat_toNat, BitVec.setWidth_eq]
  simp only [fnDivu, uv_eq_zero_iff, placed_ones, wrapped_eq_quiet_ofNat, h]
  rfl

theorem fnRem_eq : fnRem ty a b =
    if low ty b = 0 then (put ty (low ty a), 0x08)
    else if low ty a = BitVec.intMin (tyBits ty) ∧ low ty b = BitVec.allOnes (tyBits ty) then (0, 0x04)
    else quiet ty ((low ty a).srem (low ty b)) := by
  simp only [fnRem, sv_eq_zero_iff, sv_eq_neg_one_iff, sv_eq_least_iff, placed_uv, wrapped_eq_quiet, ofInt_tmod]
  rfl

theorem fnRemu_eq : fnRemu ty a b = if low ty b = 0 then (put ty (low ty a), 0x08) else quiet ty (low ty a % low ty b) := by
  have h : BitVec.ofNat (tyBits ty) (uv ty a % uv ty b) = low ty a % low ty b := by
    rw [← low_toNat, ← low_toNat, ← BitVec.toNat_umod, BitVec.ofNat_toNat, BitVec.setWidth_eq]
  simp only [fnRemu, uv_eq_zero_iff, placed_uv, wrapped_eq_quiet_ofNat, h]
  rfl

/-! ### Minima, maxima and comparisons -/

theorem fnMin_eq : fnMin ty a b = quiet ty (if (low ty b).slt (low ty a) then low ty b else low ty a) := by
  rw [fnMin, placed_uv, ← apply_ite (low ty)]
  simp only [BitVec.slt_iff_toInt_lt, low_toInt]
  rfl

theorem fnMax_eq : fnMax ty a b = quiet ty (if (low ty a).slt (low ty b) then low ty b else low ty a) := by
  rw [fnMax, placed_uv, ← apply_ite (low ty)]
  simp only [BitVec.slt_iff_toInt_lt, low_toInt]
  rfl

theorem fnMinu_eq : fnMinu ty a b = quiet ty (if (low ty b).ult (low ty a) then low ty b else low ty a) := by
  rw [fnMinu, placed_uv, ← apply_ite (low ty)]
  simp only [BitVec.ult_iff_lt, BitVec.lt_def, low_toNat]
  rfl

theorem fnMaxu_eq : fnMaxu ty a b = quiet ty (if (low ty a).ult (low ty b) then low ty b else low ty a) := by
  rw [fnMaxu, placed_uv, ← apply_ite (low ty)]
  simp only [BitVec.ult_iff_lt, BitVec.lt_def, low_toNat]
  rfl

theorem predOf_eq_truth (p : Bool) : predOf p = truth p := by cases p <;> rfl

theorem uv_beq : (uv ty a == uv ty b) = (low ty a == low ty b) := by
  rw [Bool.eq_iff_iff, beq_iff_eq, beq_iff_eq, ← low_toNat, ← low_toNat, BitVec.toNat_inj]

end

end Sys2Proof.Machine

namespace Sys2Proof

open Machine Claims

/-! ### The obligation -/

theorem integerArithmeticWraps : IntegerArithmeticWraps :=
  ⟨binary_of_exec (fun _ _ => rfl) fun o => fnAdd_eq o.ty,
   binary_of_exec (fun _ _ => rfl) fun o => fnSub_eq o.ty,
   unary_of_exec (fun _ _ => rfl) fun o => fnNeg_eq o.ty,
   unary_of_exec (fun _ _ => rfl) fun o => fnAbs_eq o.ty,
   binary_of_exec (fun _ _ => rfl) fun o => fnMul_eq o.ty,
   binary_of_exec (fun _ _ => rfl) fun o => fnMulh_eq o.ty,
   binary_of_exec (fun _ _ => rfl) fun o => fnMulhu_eq o.ty,
   ternary_of_exec (fun _ _ => rfl) fun o => fnMad_eq o.ty,
   ternary_of_exec (fun _ _ => rfl) fun o => fnAddx_eq o.ty⟩

theorem saturatingSumsClamp : SaturatingSumsClamp := by
  refine ⟨binary_of_exec (fun _ _ => rfl) fun o a b => ?_, binary_of_exec (fun _ _ => rfl) fun o a b => ?_⟩
  · rw [fnAdds, clamped_eq, tv_eq, tv_eq, tyLo_eq, tyHi_eq]
  · rw [fnSubs, clamped_eq, tv_eq, tv_eq, tyLo_eq, tyHi_eq]

theorem divisionResults : DivisionResults :=
  ⟨binary_of_exec (fun _ _ => rfl) fun o => fnDiv_eq o.ty,
   binary_of_exec (fun _ _ => rfl) fun o => fnDivu_eq o.ty,
   binary_of_exec (fun _ _ => rfl) fun o => fnRem_eq o.ty,
   binary_of_exec (fun _ _ => rfl) fun o => fnRemu_eq o.ty⟩

theorem minMaxAndCompare : MinMaxAndCompare := by
  refine ⟨binary_of_exec (fun _ _ => rfl) fun o => fnMin_eq o.ty, binary_of_exec (fun _ _ => rfl) fun o => fnMax_eq o.ty,
    binary_of_exec (fun _ _ => rfl) fun o => fnMinu_eq o.ty, binary_of_exec (fun _ _ => rfl) fun o => fnMaxu_eq o.ty,
    binary_of_exec (fun _ _ => rfl) ?_, binary_of_exec (fun _ _ => rfl) ?_, binary_of_exec (fun _ _ => rfl) ?_,
    binary_of_exec (fun _ _ => rfl) ?_, binary_of_exec (fun _ _ => rfl) ?_, binary_of_exec (fun _ _ => rfl) ?_,
    binary_of_exec (fun _ _ => rfl) ?_, binary_of_exec (fun _ _ => rfl) ?_, binary_of_exec (fun _ _ => rfl) ?_,
    binary_of_exec (fun _ _ => rfl) ?_⟩ <;> intro o a b <;> rw [predOf_eq_truth]
  case refine_1 => rw [uv_beq]
  case refine_2 => rw [bne, bne, uv_beq]
  case refine_3 | refine_5 => rw [BitVec.slt_eq_decide, low_toInt, low_toInt]
  case refine_4 | refine_6 => rw [BitVec.sle_eq_decide, low_toInt, low_toInt]
  case refine_7 | refine_9 => rw [BitVec.ult_eq_decide, low_toNat, low_toNat]
  case refine_8 | refine_10 => rw [BitVec.ule_eq_decide, low_toNat, low_toNat]

/-- Settles O1: each operation on numbers is the bit-vector operation on the low bits. -/
theorem integerArithmetic : Obligations.IntegerArithmetic :=
  ⟨integerArithmeticWraps, saturatingSumsClamp, divisionResults, minMaxAndCompare⟩

end Sys2Proof
end

section
/-! SUPPORT. Bits of integer words (04 R140 to R143): bitwise operations and shifts, counts of bits, byte reversal, and the words of LI, SEL,
CRC and MIX. -/

namespace Sys2Proof.Machine

open Sys2Proof.Claims

section
variable (ty : Ty) (a b : Word)

/-! ### Bitwise operations -/

theorem fnAnd_eq : fnAnd ty a b = quiet ty (low ty a &&& low ty b) := by
  rw [fnAnd, placed_toNat, low, BitVec.setWidth_and]
  rfl

theorem fnOr_eq : fnOr ty a b = quiet ty (low ty a ||| low ty b) := by
  rw [fnOr, placed_toNat, low, BitVec.setWidth_or]
  rfl

theorem fnXor_eq : fnXor ty a b = quiet ty (low ty a ^^^ low ty b) := by
  rw [fnXor, placed_toNat, low, BitVec.setWidth_xor]
  rfl

theorem fnAndn_eq : fnAndn ty a b = quiet ty (low ty a &&& ~~~(low ty b)) := by
  rw [fnAndn, placed_toNat, low, BitVec.setWidth_and, BitVec.setWidth_not (tyBits_le ty)]
  rfl

theorem fnNot_eq : fnNot ty a = quiet ty (~~~(low ty a)) := by
  rw [fnNot, placed_toNat, low, BitVec.setWidth_not (tyBits_le ty)]
  rfl

/-! ### Shifts and rotates, by a distance of b mod w -/

theorem dist_eq : dist ty b = (low ty b).toNat % tyBits ty := by rw [low_toNat, dist]

theorem fnShl_eq : fnShl ty a b = quiet ty (low ty a <<< dist ty b) := by
  rw [fnShl, wrapped_eq_quiet_ofNat, BitVec.ofNat_mul, ofNat_uv, ofNat_two_pow, BitVec.shiftLeft_eq_mul_twoPow]

theorem fnShr_eq : fnShr ty a b = quiet ty (low ty a >>> dist ty b) := by
  have h : BitVec.ofNat (tyBits ty) (uv ty a / 2 ^ dist ty b) = low ty a >>> dist ty b := by
    rw [← Nat.shiftRight_eq_div_pow, ← low_toNat, ← BitVec.toNat_ushiftRight, BitVec.ofNat_toNat, BitVec.setWidth_eq]
  rw [fnShr, wrapped_eq_quiet_ofNat, h]

theorem fnSar_eq : fnSar ty a b = quiet ty ((low ty a).sshiftRight (dist ty b)) := by
  rw [fnSar, wrapped_eq_quiet, BitVec.sshiftRight, Int.shiftRight_eq_div_pow, low_toInt]

/-- A rotation: the bits shifted out at the top come back at the bottom, where the shift has left zeros. -/
theorem rotate_toNat {w d : Nat} (x : BitVec w) (hd : d < w) : BitVec.ofNat w (x.toNat * 2 ^ d + x.toNat / 2 ^ (w - d)) = x.rotateLeft d := by
  have hpow : 2 ^ w = 2 ^ d * 2 ^ (w - d) := by rw [← Nat.pow_add]; congr 1; omega
  have hlow : x.toNat / 2 ^ (w - d) < 2 ^ d := by
    rw [Nat.div_lt_iff_lt_mul (Nat.two_pow_pos _), ← hpow]; exact x.isLt
  have hshift : x.toNat * 2 ^ d % 2 ^ w = 2 ^ d * (x.toNat % 2 ^ (w - d)) := by rw [hpow, Nat.mul_comm, Nat.mul_mod_mul_left]
  have hfit : 2 ^ d * (x.toNat % 2 ^ (w - d)) + x.toNat / 2 ^ (w - d) < 2 ^ w := by
    have h1 : 2 ^ d * (x.toNat % 2 ^ (w - d) + 1) ≤ 2 ^ d * 2 ^ (w - d) := Nat.mul_le_mul_left _ (Nat.mod_lt _ (Nat.two_pow_pos _))
    rw [Nat.mul_succ, ← hpow] at h1
    omega
  apply BitVec.eq_of_toNat_eq
  rw [BitVec.toNat_rotateLeft, Nat.mod_eq_of_lt hd, BitVec.toNat_ofNat, Nat.shiftLeft_eq, Nat.shiftRight_eq_div_pow, hshift,
    ← Nat.two_pow_add_eq_or_of_lt hlow, Nat.add_mod, hshift, Nat.add_mod_mod, Nat.mod_eq_of_lt hfit]

theorem fnRol_eq : fnRol ty a b = quiet ty ((low ty a).rotateLeft (dist ty b)) := by
  have hd : dist ty b < tyBits ty := Nat.mod_lt _ (tyBits_pos ty)
  rw [fnRol, wrapped_eq_quiet_ofNat, ← rotate_toNat _ hd, low_toNat]

end

/-! ### Counts of bits -/

/-- A count of bits of an integer type is its own payload. -/
theorem placed_count {ty : Ty} (h : isInt ty = true) {n : Nat} (hn : n ≤ tyBits ty) : placed ty n = BitVec.ofNat 64 n := by
  have hhi : (tyBits ty : Int) ≤ tyHi ty := by revert h; cases ty <;> decide
  have hlo : tyLo ty ≤ 0 := by revert h; cases ty <;> decide
  rw [placed_eq_put, ← BitVec.ofInt_natCast, put_ofInt_of_range ty (by omega) (by omega), BitVec.ofInt_natCast]

/-- Zeros above the highest one of a number of `w` bits. -/
def clzOf (w x : Nat) : Nat := w - (if x = 0 then 0 else Nat.log2 x + 1)

theorem clzOf_spec {w x : Nat} (hx : x < 2 ^ w) :
    clzOf w x ≤ w ∧ (∀ i, w - clzOf w x ≤ i → i < w → x.testBit i = false) ∧ (clzOf w x < w → x.testBit (w - 1 - clzOf w x) = true) := by
  unfold clzOf
  by_cases h : x = 0
  · subst h; simp
  · have hl : Nat.log2 x < w := (Nat.log2_lt h).mpr hx
    rw [if_neg h]
    refine ⟨by omega, fun i hi _ => Nat.testBit_lt_two_pow ((Nat.log2_lt h).mp (by omega)), fun _ => ?_⟩
    rw [show w - 1 - (w - (x.log2 + 1)) = x.log2 by omega]
    exact Nat.testBit_log2 h

theorem ctzFrom_spec (x i n : Nat) :
    ctzFrom x i n ≤ n ∧ (∀ j, j < ctzFrom x i n → x.testBit (i + j) = false) ∧ (ctzFrom x i n < n → x.testBit (i + ctzFrom x i n) = true) := by
  have hbit : x.testBit i = decide (x / 2 ^ i % 2 = 1) := Nat.testBit_eq_decide_div_mod_eq
  induction n generalizing i with
  | zero => simp [ctzFrom]
  | succ n ih =>
    have hbit' : x.testBit (i + 1) = decide (x / 2 ^ (i + 1) % 2 = 1) := Nat.testBit_eq_decide_div_mod_eq
    obtain ⟨hle, hzero, hone⟩ := ih (i + 1) hbit'
    rw [ctzFrom]
    split
    · next h => simp [hbit, h]
    · next h =>
      refine ⟨by omega, fun j hj => ?_, fun hlt => ?_⟩
      · cases j with
        | zero => simp [hbit, h]
        | succ j => rw [← Nat.add_assoc, Nat.add_right_comm]; exact hzero j (by omega)
      · rw [← Nat.add_assoc]; exact hone (by omega)

theorem popFrom_eq (x n : Nat) : popFrom x n = ((List.range n).filter fun i => x.testBit i).length := by
  induction n generalizing x with
  | zero => rfl
  | succ n ih =>
    rw [popFrom, ih, List.range_succ_eq_map, List.filter_cons, List.filter_map, Nat.testBit_zero]
    have hshift : (fun i => (x / 2).testBit i) = (fun i => x.testBit i) ∘ Nat.succ := by
      funext i; simp [Nat.testBit_succ]
    rw [hshift]
    obtain h | h := Nat.mod_two_eq_zero_or_one x <;> simp [h, Nat.add_comm]

theorem popFrom_le (x n : Nat) : popFrom x n ≤ n := by
  rw [popFrom_eq]
  exact (List.length_filter_le ..).trans (by simp)

/-! ### Byte reversal -/

theorem testBit_ofBytes (l : List Byte) (i : Nat) : (ofBytes l).testBit i = (nth 0 l (i / 8)).getLsbD (i % 8) := by
  induction l generalizing i with
  | nil => simp [ofBytes, nth]
  | cons b l ih =>
    have hb : b.toNat < 2 ^ 8 := b.isLt
    rw [ofBytes, Nat.add_comm, show 256 = 2 ^ 8 from rfl, Nat.testBit_two_pow_mul_add _ hb]
    split
    · next h => rw [Nat.div_eq_of_lt h, Nat.mod_eq_of_lt h]; rfl
    · next h =>
      obtain ⟨k, rfl⟩ := Nat.exists_eq_add_of_le (Nat.not_lt.mp h)
      rw [Nat.add_sub_cancel_left, ih, Nat.add_mod_left, Nat.add_div_left _ (by decide)]
      rfl

theorem nth_reverse {α : Type} (d : α) (l : List α) {i : Nat} (h : i < l.length) : nth d l.reverse i = nth d l (l.length - 1 - i) := by
  simp only [nth_eq_getD, List.getD_eq_getElem?_getD, List.getElem?_reverse h]

/-- The bits of a number whose bytes are reversed. -/
theorem testBit_reverse_bytes (x : Nat) {n i : Nat} (h : i < 8 * n) :
    (ofBytes (toBytes x n).reverse).testBit i = x.testBit (8 * (n - 1 - i / 8) + i % 8) := by
  have hi : i / 8 < n := by omega
  rw [testBit_ofBytes, nth_reverse _ _ (by rwa [toBytes_len]), toBytes_len, nth_toBytes _ _ (by omega), BitVec.getLsbD_ofNat,
    show 256 = 2 ^ 8 from rfl, ← Nat.pow_mul, Nat.testBit_div_two_pow, decide_eq_true (Nat.mod_lt _ (by decide)), Bool.true_and, Nat.add_comm]

theorem tyBits_eq_of_isInt {ty : Ty} (h : isInt ty = true) : tyBits ty = 8 * (tyBits ty / 8) :=
  tyBits_eq_bytes (by revert h; cases ty <;> decide)

/-! ### LI, CRC and MIX -/

/-- LI of an integer type reads IMM in the type (R70, R140). -/
theorem fnLi_int (o : Ops) (h : isInt o.ty = true) :
    fnLi o = (put o.ty (low o.ty (if tySigned o.ty then o.imm.signExtend 64 else o.imm.setWidth 64)), 0) := by
  have hp : o.ty ≠ .pred := by intro e; rw [e] at h; cases h
  have hl : low o.ty (immVal o.ty o.imm) = low o.ty (if tySigned o.ty then o.imm.signExtend 64 else o.imm.setWidth 64) := by
    revert h
    cases o.ty with
    | x64 | i32 | u32 | i64 | u64 | i16 | i8 | u8 => exact fun _ => rfl
    | bf16 | f16 | f32 | q8 | q4 | pred | tile | view => exact fun h => absurd h (by decide)
  rw [fnLi, if_neg hp, ← hl, ← placed_toNat]
  rfl

theorem fnLi_half (o : Ops) (h : o.ty = .bf16 ∨ o.ty = .f16) : fnLi o = (o.imm.setWidth 64, 0) := by
  have hz : zextN 16 (o.imm.setWidth 64).toNat = o.imm.setWidth 64 := BitVec.eq_of_toNat_eq (by simp [zextN]; omega)
  obtain h | h := h <;> simp only [fnLi, h] <;> exact congrArg (·, _) hz

theorem fnLi_f32 (o : Ops) (h : o.ty = .f32) : fnLi o = (o.imm.setWidth 64 <<< 16, 0) := by
  have hz : zextN 32 (BitVec.ofNat 64 (o.imm.toNat * 65536)).toNat = o.imm.setWidth 64 <<< 16 :=
    BitVec.eq_of_toNat_eq (by simp [zextN, Nat.shiftLeft_eq]; omega)
  simp only [fnLi, h]
  exact congrArg (·, _) hz

theorem fnLi_pred (o : Ops) (h : o.ty = .pred) (hi : o.imm = 0 ∨ o.imm = 1) : fnLi o = (o.imm.setWidth 64, 0) := by
  obtain hi | hi := hi <;> simp [fnLi, h, hi]

/-- The bytes of a word, lowest first, as fields of it. -/
theorem toBytes_eq_fields (b : Word) (n : Nat) : toBytes b.toNat n = (List.range n).map fun i => b.extractLsb' (8 * i) 8 := by
  have h := map_nth_range 0 (toBytes b.toNat n)
  rw [toBytes_len] at h
  rw [← h]
  exact List.map_congr_left fun i hi => nth_bvBytes b (List.mem_range.mp hi)

/-- The multiplier of a round of the noise mixer (R65). -/
theorem mixC_mod (n : Nat) : mixC (n % 3) =
    if n % 3 = 0 then 0xD6E8FEB86659FD93 else if n % 3 = 1 then 0x9E6C63D0676A9A99 else 0xCF3A2A1D5B7C41E5 := by
  obtain h | h | h : n % 3 = 0 ∨ n % 3 = 1 ∨ n % 3 = 2 := by omega
  all_goals rw [h]; rfl

end Sys2Proof.Machine

namespace Sys2Proof

open Machine Claims

theorem bitwiseAndShifts : BitwiseAndShifts :=
  ⟨binary_of_exec (fun _ _ => rfl) fun o => fnAnd_eq o.ty,
   binary_of_exec (fun _ _ => rfl) fun o => fnOr_eq o.ty,
   binary_of_exec (fun _ _ => rfl) fun o => fnXor_eq o.ty,
   binary_of_exec (fun _ _ => rfl) fun o => fnAndn_eq o.ty,
   unary_of_exec (fun _ _ => rfl) fun o => fnNot_eq o.ty,
   binary_of_exec (fun _ _ => rfl) fun o a b => by rw [fnShl_eq, dist_eq],
   binary_of_exec (fun _ _ => rfl) fun o a b => by rw [fnShr_eq, dist_eq],
   binary_of_exec (fun _ _ => rfl) fun o a b => by rw [fnSar_eq, dist_eq],
   binary_of_exec (fun _ _ => rfl) fun o a b => by rw [fnRol_eq, dist_eq]⟩

theorem bitCountsAndByteReversal : BitCountsAndByteReversal := by
  intro o s hi a w x
  have hx : x.toNat = uv o.ty a.v := low_toNat o.ty a.v
  have hbit (i : Nat) : x.getLsbD i = (uv o.ty a.v).testBit i := by rw [← hx]; rfl
  have hlt : uv o.ty a.v < 2 ^ w := Nat.mod_lt _ (Nat.two_pow_pos _)
  simp only [hbit]
  refine ⟨⟨clzOf w (uv o.ty a.v), yields_of_compute ?_, clzOf_spec hlt⟩, ⟨ctzFrom (uv o.ty a.v) 0 w, yields_of_compute ?_, ?_⟩,
    yields_of_compute ?_, BitVec.ofNat w (ofBytes (toBytes (uv o.ty a.v) (w / 8)).reverse), yields_of_compute ?_, fun i hiw => ?_⟩
  · rw [← placed_count hi (clzOf_spec hlt).1]; rfl
  · rw [← placed_count hi (ctzFrom_spec _ 0 w).1]; rfl
  · simpa only [Nat.zero_add] using ctzFrom_spec (uv o.ty a.v) 0 w
  · rw [← popFrom_eq, ← placed_count hi (popFrom_le _ _)]; rfl
  · rw [← placed_eq_put]; rfl
  · have hw := tyBits_eq_of_isInt hi
    rw [BitVec.getLsbD_ofNat, decide_eq_true hiw, Bool.true_and, testBit_reverse_bytes _ (by omega)]

theorem liSelCrcMix : LiSelCrcMix := by
  refine ⟨fun o s hi => yields_of_compute ?_, fun o s ht => yields_of_compute ?_, fun o s ht => yields_of_compute ?_,
    fun o s ht himm => yields_of_compute ?_, fun o s => yields_of_compute ?_, binary_of_exec (fun _ _ => rfl) fun o a b => ?_,
    binary_of_exec (fun _ _ => rfl) fun o a b => ?_⟩
  · rw [← fnLi_int o hi]; rfl
  · rw [← fnLi_half o ht]; rfl
  · rw [← fnLi_f32 o ht]; rfl
  · rw [← fnLi_pred o ht himm]; rfl
  · rw [← placed_toNat]; rfl
  · unfold fnCrc
    rw [toBytes_eq_fields]
    rfl
  · unfold fnMix mixRound
    rw [mixC_mod]

/-- Settles O2: shifts and counts read the bits of the low bits as a number; LI, SEL, CRC and MIX run their own rules. -/
theorem bitInstructions : Obligations.BitInstructions := ⟨bitwiseAndShifts, bitCountsAndByteReversal, liSelCrcMix⟩

end Sys2Proof
end

section
/-! SUPPORT. Fields of integer words (04 R141): BFX, BFI, SEXT and ZEXT as fields of bit vectors, and their bits. -/

namespace Sys2Proof.Machine

open Sys2Proof.Claims

/-! ### Sign extension -/

/-- A bit of a sign-extended vector. -/
theorem signExtend_getLsbD {w v i : Nat} (x : BitVec w) (hi : i < v) :
    (x.signExtend v).getLsbD i = if i < w then x.getLsbD i else x.getLsbD (w - 1) := by
  rw [BitVec.getLsbD_signExtend, decide_eq_true hi, Bool.true_and, BitVec.msb_eq_getLsbD_last]

theorem signExtend_of_zero (w v : Nat) : (0#w).signExtend v = 0#v := by
  rw [BitVec.signExtend, BitVec.toInt_zero]
  rfl

theorem put_zero (ty : Ty) (n : Nat) : put ty (0#n) = 0 := by
  unfold put
  rw [signExtend_of_zero, BitVec.setWidth_zero, ite_self]
  rfl

/-! ### An operand beyond its width -/

/-- A bit of an operand of a type, read at any place (R141). -/
def operandBit (ty : Ty) (a : Word) (i : Nat) : Bool :=
  if i < tyBits ty then a.getLsbD i else tySigned ty && a.getLsbD (tyBits ty - 1)

/-- An operand of a type with room for every place that a field can name. -/
def wideOperand (ty : Ty) (a : Word) : BitVec 512 := BitVec.ofInt 512 (tv ty a)

theorem low_getLsbD (ty : Ty) (a : Word) {i : Nat} (h : i < tyBits ty) : (low ty a).getLsbD i = a.getLsbD i := by
  rw [low, BitVec.getLsbD_setWidth, decide_eq_true h, Bool.true_and]

theorem wideOperand_getLsbD (ty : Ty) (a : Word) {i : Nat} (hi : i < 512) : (wideOperand ty a).getLsbD i = operandBit ty a i := by
  have hw := tyBits_pos ty
  unfold wideOperand operandBit
  rw [tv_eq]
  cases tySigned ty with
  | true =>
    rw [if_pos rfl, ← BitVec.signExtend, signExtend_getLsbD _ hi, low_getLsbD ty a (Nat.sub_one_lt hw.ne'), Bool.true_and]
    exact ite_congr rfl (fun h => low_getLsbD ty a h) fun _ => rfl
  | false =>
    rw [if_neg (by decide), BitVec.ofInt_natCast, BitVec.ofNat_toNat, BitVec.getLsbD_setWidth, decide_eq_true hi, Bool.true_and, Bool.false_and]
    split
    · next h => exact low_getLsbD ty a h
    · next h => exact BitVec.getLsbD_of_ge _ _ (by omega)

/-! ### BFX -/

/-- The field that BFX takes, as wide as its length. -/
def bfxField (ty : Ty) (a ctl : Word) (n : Nat) : BitVec n := (wideOperand ty a).extractLsb' (nfld ctl 0 8) n

/-- What BFX gives, of the width of its type. -/
def bfxValue (ty : Ty) (a ctl : Word) : BitVec (tyBits ty) :=
  let n := min (nfld ctl 8 8) (tyBits ty)
  if tySigned ty then (bfxField ty a ctl n).signExtend (tyBits ty) else (bfxField ty a ctl n).setWidth (tyBits ty)

theorem fnBfx_eq (ty : Ty) (a ctl : Word) : fnBfx ty a ctl = quiet ty (bfxValue ty a ctl) := by
  have hn : (if nfld ctl 8 8 < tyBits ty then nfld ctl 8 8 else tyBits ty) = min (nfld ctl 8 8) (tyBits ty) := by
    rw [min_def]; split <;> split <;> omega
  have hpos := nfld_lt ctl 0 8
  have hle : min (nfld ctl 8 8) (tyBits ty) ≤ 64 := (min_le_right ..).trans (tyBits_le ty)
  simp only [fnBfx, hn, bfxValue]
  generalize min (nfld ctl 8 8) (tyBits ty) = n at hle ⊢
  have hf : (tv ty a / (2 ^ nfld ctl 0 8 : Nat) % (2 ^ n : Nat)).toNat = (bfxField ty a ctl n).toNat := by
    rw [bfxField, wideOperand, extractLsb'_ofInt (by omega), BitVec.toNat_ofInt]
  rw [hf, sval_toNat, wrapped_eq_quiet, wrapped_eq_quiet_ofNat, ← BitVec.signExtend, BitVec.ofNat_toNat]
  generalize bfxField ty a ctl n = x
  by_cases h : n = 0
  · subst h
    rw [if_pos rfl, BitVec.of_length_zero (x := x), signExtend_of_zero, BitVec.setWidth_zero, ite_self, quiet, put_zero]
  · rw [if_neg h, apply_ite (quiet ty)]

theorem bfxValue_getLsbD (ty : Ty) (a ctl : Word) {i : Nat} (hi : i < tyBits ty) :
    let n := min (nfld ctl 8 8) (tyBits ty)
    (bfxValue ty a ctl).getLsbD i =
      if n = 0 then false else if i < n then operandBit ty a (nfld ctl 0 8 + i) else tySigned ty && operandBit ty a (nfld ctl 0 8 + n - 1) := by
  intro n
  have hpos := nfld_lt ctl 0 8
  have hle : n ≤ 64 := (min_le_right ..).trans (tyBits_le ty)
  have hfield {j : Nat} (hj : j < n) : (bfxField ty a ctl n).getLsbD j = operandBit ty a (nfld ctl 0 8 + j) := by
    rw [bfxField, BitVec.getLsbD_extractLsb', decide_eq_true hj, Bool.true_and, wideOperand_getLsbD ty a (by omega)]
  show (if tySigned ty then (bfxField ty a ctl n).signExtend (tyBits ty) else (bfxField ty a ctl n).setWidth (tyBits ty)).getLsbD i = _
  by_cases h0 : n = 0
  · generalize bfxField ty a ctl n = x
    clear_value n
    subst h0
    rw [BitVec.of_length_zero (x := x), signExtend_of_zero, BitVec.setWidth_zero, ite_self, if_pos rfl, BitVec.getLsbD_zero]
  rw [if_neg h0]
  cases tySigned ty with
  | true =>
    have hn := Nat.pos_of_ne_zero h0
    rw [if_pos rfl, signExtend_getLsbD _ hi, hfield (Nat.sub_one_lt h0), Bool.true_and, Nat.add_sub_assoc hn]
    exact ite_congr rfl (fun h => hfield h) fun _ => rfl
  | false =>
    rw [if_neg (by decide), BitVec.getLsbD_setWidth, decide_eq_true hi, Bool.true_and, Bool.false_and]
    split
    · next h => exact hfield h
    · next h => exact BitVec.getLsbD_of_ge _ _ (by omega)

/-! ### BFI -/

/-- What BFI gives: the bits of the mask from the second operand, the others from the first. -/
def bfiValue (ty : Ty) (a v ctl : Word) : BitVec (tyBits ty) :=
  let mask := (2 ^ nfld ctl 8 8 - 1) * 2 ^ nfld ctl 0 8
  (BitVec.ofNat 512 (uv ty a) &&& ~~~(BitVec.ofNat 512 mask) ||| (BitVec.ofNat 512 (v.toNat * 2 ^ nfld ctl 0 8) &&& BitVec.ofNat 512 mask)).setWidth _

theorem fnBfi_eq (ty : Ty) (a v ctl : Word) : fnBfi ty a v ctl = quiet ty (bfiValue ty a v ctl) := by
  rw [fnBfi, wrapped_eq_quiet_ofNat, BitVec.ofNat_toNat]
  rfl

theorem bfiValue_getLsbD (ty : Ty) (a v ctl : Word) {i : Nat} (hi : i < tyBits ty) :
    (bfiValue ty a v ctl).getLsbD i =
      if nfld ctl 0 8 ≤ i ∧ i < nfld ctl 0 8 + nfld ctl 8 8 then v.getLsbD (i - nfld ctl 0 8) else a.getLsbD i := by
  have h512 : i < 512 := hi.trans_le ((tyBits_le ty).trans (by decide))
  have ha : (uv ty a).testBit i = a.getLsbD i := by rw [← low_toNat]; exact low_getLsbD ty a hi
  have hv (j : Nat) : v.toNat.testBit j = v.getLsbD j := rfl
  unfold bfiValue
  simp only [BitVec.getLsbD_setWidth, BitVec.getLsbD_or, BitVec.getLsbD_and, BitVec.getLsbD_not, BitVec.getLsbD_ofNat, h512, hi, ha, hv,
    Nat.testBit_mul_two_pow, Nat.testBit_two_pow_sub_one, decide_true, Bool.true_and]
  by_cases h1 : nfld ctl 0 8 ≤ i
  · by_cases h2 : i < nfld ctl 0 8 + nfld ctl 8 8
    · simp [h1, h2, show i - nfld ctl 0 8 < nfld ctl 8 8 by omega]
    · simp [h1, h2, show ¬ i - nfld ctl 0 8 < nfld ctl 8 8 by omega]
  · simp [h1]

/-! ### SEXT and ZEXT -/

/-- What SEXT and ZEXT give: the low `n` bits, extended; all of the operand when it has no more. -/
def sextValue (ty : Ty) (a : Word) (n : Nat) : BitVec (tyBits ty) :=
  if n ≥ tyBits ty then low ty a else (a.setWidth n).signExtend (tyBits ty)
def zextValue (ty : Ty) (a : Word) (n : Nat) : BitVec (tyBits ty) :=
  if n ≥ tyBits ty then low ty a else (a.setWidth n).setWidth (tyBits ty)

theorem word_eq_zero_iff (n : Word) : n = 0 ↔ n.toNat = 0 := (BitVec.toNat_inj (y := 0#64)).symm

theorem fnSext_eq (ty : Ty) (a n : Word) : fnSext ty a n = quiet ty (sextValue ty a n.toNat) := by
  have hs : sval n.toNat a.toNat = (a.setWidth n.toNat).toInt := by rw [← sval_toNat, BitVec.toNat_setWidth, sval_mod]
  unfold fnSext sextValue
  rw [placed_uv, hs, wrapped_eq_quiet, ← BitVec.signExtend]
  split
  · next h =>
    have hw := tyBits_pos ty
    rw [(word_eq_zero_iff n).mp h, if_neg (by omega), BitVec.of_length_zero (x := a.setWidth 0), signExtend_of_zero, quiet, put_zero]
  · split <;> rfl

theorem fnZext_eq (ty : Ty) (a n : Word) : fnZext ty a n = quiet ty (zextValue ty a n.toNat) := by
  unfold fnZext zextValue
  rw [placed_uv, wrapped_eq_quiet_ofNat, ← BitVec.toNat_setWidth, BitVec.ofNat_toNat]
  split
  · next h =>
    have hw := tyBits_pos ty
    rw [(word_eq_zero_iff n).mp h, if_neg (by omega), BitVec.of_length_zero (x := a.setWidth 0), BitVec.setWidth_zero, quiet, put_zero]
  · split <;> rfl

theorem sextValue_getLsbD (ty : Ty) (a : Word) (n : Nat) {i : Nat} (hi : i < tyBits ty) :
    (sextValue ty a n).getLsbD i = if n = 0 then false else if n ≤ i then a.getLsbD (n - 1) else a.getLsbD i := by
  unfold sextValue
  by_cases hn : n ≥ tyBits ty
  · rw [if_pos hn, low_getLsbD ty a hi, if_neg (by omega), if_neg (by omega)]
  rw [if_neg hn, BitVec.getLsbD_signExtend, decide_eq_true hi, Bool.true_and, BitVec.msb_eq_getLsbD_last]
  simp only [BitVec.getLsbD_setWidth]
  by_cases h0 : n = 0
  · simp [h0]
  · by_cases h : i < n
    · simp [h, h0, Nat.not_le.mpr h]
    · simp [h, h0, Nat.not_lt.mp h, show n - 1 < n by omega]

theorem zextValue_getLsbD (ty : Ty) (a : Word) (n : Nat) {i : Nat} (hi : i < tyBits ty) :
    (zextValue ty a n).getLsbD i = if n ≤ i then false else a.getLsbD i := by
  unfold zextValue
  by_cases hn : n ≥ tyBits ty
  · rw [if_pos hn, low_getLsbD ty a hi, if_neg (by omega)]
  rw [if_neg hn]
  simp only [BitVec.getLsbD_setWidth, decide_eq_true hi, Bool.true_and]
  by_cases h : i < n
  · simp [h, Nat.not_le.mpr h]
  · simp [h, Nat.not_lt.mp h]

end Sys2Proof.Machine

namespace Sys2Proof

open Machine Claims

/-- Settles O3: each result is a field of its operands, whose bits are read one by one. -/
theorem fieldInstructions : Obligations.FieldInstructions := by
  show ∀ (o : Ops) (s : State), _
  intro o s hi a b c w
  have hpos (x : Word) : nfld x 0 8 = x.toNat % 256 := by simp [nfld]
  have hlen (x : Word) : nfld x 8 8 = x.toNat / 256 % 256 := rfl
  refine ⟨⟨bfxValue o.ty a.v b.v, yields_of_compute ?_, fun i hiw => ?_⟩, ⟨bfiValue o.ty a.v b.v c.v, yields_of_compute ?_, fun i hiw => ?_⟩,
    ⟨sextValue o.ty a.v b.v.toNat, yields_of_compute ?_, fun i => sextValue_getLsbD o.ty a.v _⟩,
    ⟨zextValue o.ty a.v b.v.toNat, yields_of_compute ?_, fun i => zextValue_getLsbD o.ty a.v _⟩⟩
  · exact congrArg (fun r => Host.Outcome.next (s.compute o 1 [a, b] r)) (fnBfx_eq ..)
  · rw [← hpos, ← hlen]
    exact bfxValue_getLsbD o.ty a.v b.v hiw
  · exact congrArg (fun r => Host.Outcome.next (s.compute o 1 [a, b, c] r)) (fnBfi_eq ..)
  · rw [← hpos, ← hlen]
    exact bfiValue_getLsbD o.ty a.v b.v c.v hiw
  · exact congrArg (fun r => Host.Outcome.next (s.compute o 1 [a, b] r)) (fnSext_eq ..)
  · exact congrArg (fun r => Host.Outcome.next (s.compute o 1 [a, b] r)) (fnZext_eq ..)

end Sys2Proof
end

section
/-! SUPPORT. Steward control (04 R132 to R134, R137) and the step (07 R258, 03 R83): branches, starts and halts of threads, and what one step runs. -/

namespace Sys2Proof.Machine

open Sys2Proof.Claims

/-! ### Branches (R134) -/

section
variable {s : State} {t : Nat} (o : Ops)

theorem Thread.away_eq (th : Thread) : th.away o = th.pc + o.imm.signExtend 64 := rfl

/-- A conditional branch goes the distance of IMM where its relation holds, and to the next word where it does not. -/
theorem State.branch_thread (h : s.focus = .thread t) (rel : Word → Word → Bool) : s.branch o rel =
    .next (s.setThread t { s.thread t with
      pc := if rel (s.opVal o.ty o.imm o.a).v (s.opVal o.ty o.imm o.b).v then (s.thread t).pc + o.imm.signExtend 64 else (s.thread t).pc + 1 }) := by
  rw [State.branch, State.onThread_thread h, Thread.away_eq]

/-- The same branch, with the relation that it tests on the operands that it reads. -/
theorem branch_of_exec {i : Instr} {rel : Word → Word → Bool} {c : Bool} (h : s.focus = .thread t) (hi : exec i s = s.branch o rel)
    (hc : rel (s.opVal o.ty o.imm o.a).v (s.opVal o.ty o.imm o.b).v = c) : exec i s =
    .next (s.setThread t { s.thread t with pc := if c then (s.thread t).pc + o.imm.signExtend 64 else (s.thread t).pc + 1 }) := by
  rw [hi, State.branch_thread o h, hc]

theorem exec_nop (h : s.focus = .thread t) : exec (.nop o) s = .next (s.setThread t { s.thread t with pc := (s.thread t).pc + 1 }) := by
  show execNop o s = _
  simp only [execNop, h]
  rfl

theorem exec_br (h : s.focus = .thread t) :
    exec (.br o) s = .next (s.setThread t { s.thread t with pc := (s.thread t).pc + o.imm.signExtend 64 }) := by
  show execBr o s = _
  rw [execBr, State.onThread_thread h, Thread.away_eq]

theorem exec_call (h : s.focus = .thread t) : exec (.call o) s = .next (s.setThread t { s.thread t with
    regs := match stewDest o.t0 with | some d => tset 0 (s.thread t).regs d ((s.thread t).pc + 1) | none => (s.thread t).regs,
    pc := (s.thread t).pc + o.imm.signExtend 64 }) := by
  show execCall o s = _
  rw [execCall, State.onThread_thread h, Thread.away_eq]
  cases stewDest o.t0 <;> rfl

theorem exec_ret (h : s.focus = .thread t) {n : BitVec 10} (ha : o.a = .reg n) :
    exec (.ret o) s = .next (s.setThread t { s.thread t with pc := tget 0 (s.thread t).regs n.toNat }) := by
  show execRet o s = _
  rw [execRet, State.onThread_thread h, ha]
  simp only [State.opVal, h]
  rfl

end

/-! ### Starts and halts (R137, R258) -/

/-- A halt event holds its code, the place and the thread (Table 7.10). -/
theorem haltEvent_fields (code t : Nat) (pc : Word) :
    let ev := mkEvent 4 code 0 0 0 0 0 pc.toNat t 0
    fld ev 60 4 = 4#4 ∧ fld ev 44 16 = BitVec.ofNat 16 code ∧ fld ev 64 64 = pc ∧ fld ev 128 64 = BitVec.ofNat 64 t := by
  refine ⟨fld_pack _ _ _ _ 4 rfl (by simp), fld_pack _ _ _ _ code rfl (by simp), ?_, fld_pack _ _ _ _ t rfl (by simp)⟩
  rw [mkEvent, fld_pack _ _ _ _ pc.toNat rfl (by simp), BitVec.ofNat_toNat, BitVec.setWidth_eq]

theorem exec_halt {s : State} {t : Nat} (o : Ops) (h : s.focus = .thread t) : exec (.halt o) s = .next (s.haltThread t 0 ((s.thread t).pc + 1)) := by
  show execHalt o s = _
  rw [execHalt, State.onThread_thread h]

theorem State.runnable_halted {s : State} {t : Nat} (h : (s.thread t).halted = true) : s.runnable t = false := by
  simp [State.runnable, h]

/-- A thread that has started is not started again. -/
theorem exec_threadStart_started {s : State} {t : Nat} (h : (s.thread t).started = true) : exec (.threadStart t) s = .next s := by
  show execThreadStart t s = _
  simp [execThreadStart, h]

theorem exec_threadStart_badImage {s : State} {t : Nat} (h : s.imageOk (s.image (s.thread t).image) = false) :
    exec (.threadStart t) s = .next s := by
  show execThreadStart t s = _
  simp [execThreadStart, h]

theorem exec_threadStart {s : State} {t : Nat} (ht : t < 64) (hp : s.hasPart t = true) (hs : (s.thread t).started = false)
    (h : s.imageOk (s.image (s.thread t).image) = true) : exec (.threadStart t) s = .next (s.setThread t { Thread.reset with
      started := true, image := (s.thread t).image, asid := BitVec.ofNat 16 (pAsid0 (s.part (s.partOfThread t)).desc) }) := by
  show execThreadStart t s = _
  simp [execThreadStart, ht, hp, hs, h]

theorem exec_threadRestart {s : State} {t : Nat} (hs : (s.thread t).started = true) (hh : (s.thread t).halted = true) (pc : Word) :
    exec (.threadRestart t pc) s = .next (s.setThread t { s.thread t with halted := false, pc := pc, stall := .none }) := by
  show execThreadRestart t pc s = _
  simp [execThreadRestart, hs, hh]

/-! ### What a thread fetches -/

/-- A legal word inside the image is the instruction that runs. -/
theorem State.fetched_legal {s : State} {t : Nat} {i : Instr} (hpc : (s.thread t).pc.toNat < (s.image (s.thread t).image).size)
    (hw : decode (tget 0 (s.image (s.thread t).image).words (s.thread t).pc.toNat) = .ok i)
    (hl : legal (s.image (s.thread t).image).version .steward i = true) : s.fetched t = i := by
  simp only [State.fetched, State.fetch, hpc, hw, hl, if_true]

/-- A word that is illegal or outside the image is an illegal fetch (R85). -/
theorem State.fetched_illegal {s : State} {t : Nat} (h : (s.image (s.thread t).image).size ≤ (s.thread t).pc.toNat ∨
    ∀ i, decode (tget 0 (s.image (s.thread t).image).words (s.thread t).pc.toNat) = .ok i →
      legal (s.image (s.thread t).image).version .steward i = false) : s.fetched t = .illegalWordFetch t := by
  by_cases hpc : (s.thread t).pc.toNat < (s.image (s.thread t).image).size
  · have hl := h.resolve_left (by omega)
    cases hw : decode (tget 0 (s.image (s.thread t).image).words (s.thread t).pc.toNat) with
    | error e => simp only [State.fetched, State.fetch, hpc, hw, if_true]
    | ok i => simp only [State.fetched, State.fetch, hpc, hw, hl i hw, if_true, Bool.false_eq_true, if_false]
  · simp only [State.fetched, State.fetch, hpc, if_false]

/-! ### What a step runs (log entry 1) -/

theorem step_firing {s : State} {f : Firing} {i : Instr} (hf : s.focus = .node f) (hi : decode f.word = .ok i) : step s = exec i s := by
  simp [step, hf, Firing.instr, hi]

section
variable {s : State} {t0 : Nat} {rest : List Move} (hf : s.focus = .thread t0)
include hf

theorem step_run {t : Nat} (ha : s.agenda = .run t :: rest) : step s = runThread t { s with agenda := rest } := by
  simp [step, hf, ha]

theorem step_next {t : Nat} (ha : s.agenda = []) (hn : s.nextThread = some t) : step s = runThread t s := by
  simp [step, hf, ha, hn]

theorem step_happen {i : Instr} (ha : s.agenda = .happen i :: rest) :
    step s = if (sig i).isNone then exec i { s with agenda := rest } else .next { s with agenda := rest } := by
  simp [step, hf, ha]

theorem step_tick (ha : s.agenda = .tick :: rest) : step s = s.endCycle rest := by simp [step, hf, ha]

theorem step_idle (ha : s.agenda = []) (hn : s.nextThread = none) : step s = s.endCycle [] := by simp [step, hf, ha, hn]

theorem step_outside {m : Move} (ha : s.agenda = m :: rest) (hr : ∀ t, m ≠ .run t) (hh : ∀ i, m ≠ .happen i) (ht : m ≠ .tick) :
    step s = State.outside { s with agenda := rest } m := by
  cases m with
  | run t => exact absurd rfl (hr t)
  | happen i => exact absurd rfl (hh i)
  | tick => exact absurd rfl ht
  | _ => simp [step, hf, ha]

/-- A thread runs because the agenda names it, or because it is the lowest one that can. -/
theorem step_thread {t : Nat} (h : s.agenda = .run t :: rest ∨ (s.agenda = [] ∧ rest = [] ∧ s.nextThread = some t ∧ s.runnable t = true)) :
    step s = runThread t { s with agenda := rest } := by
  obtain ha | ⟨ha, rfl, hn, -⟩ := h
  · exact step_run hf ha
  · rw [step_next hf ha hn, ← ha]

/-- A cycle ends because the agenda says so, or because nothing else can move. -/
theorem step_cycle (h : s.agenda = .tick :: rest ∨ (s.agenda = [] ∧ rest = [] ∧ s.nextThread = none)) : step s = s.endCycle rest := by
  obtain ha | ⟨ha, rfl, hn⟩ := h
  · exact step_tick hf ha
  · exact step_idle hf ha hn

end

theorem runThread_runnable {s : State} {t : Nat} {i : Instr} (h : s.runnable t = true) (hi : s.fetched t = i) (l : List Move) :
    runThread t { s with agenda := l } = exec i { s with agenda := l, focus := .thread t } := by
  have hi' : State.fetched { s with agenda := l, focus := .thread t } t = i := hi
  rw [runThread, if_pos (show State.runnable { s with agenda := l } t = true from h)]
  exact congrArg (exec · _) hi'

theorem runThread_still {s : State} {t : Nat} (h : s.runnable t = false) (l : List Move) :
    runThread t { s with agenda := l } = .next { s with agenda := l } := by
  rw [runThread, if_neg (by rw [show State.runnable { s with agenda := l } t = false from h]; decide)]

theorem encode_eq_none_iff (i : Instr) : encode i = none ↔ (sig i).isNone = true := by
  unfold encode
  cases sig i <;> simp

end Sys2Proof.Machine

namespace Sys2Proof

open Machine Claims

/-- Settles O10: each branch sets the program counter of its thread by its relation on the low bits of its operands. -/
theorem branchesMoveTheCounter : Obligations.BranchesMoveTheCounter := by
  intro o s t h
  refine ⟨exec_nop o h, exec_br o h, branch_of_exec (rel := fun a b => uv o.ty a == uv o.ty b) o h rfl (uv_beq ..),
    branch_of_exec (rel := fun a b => uv o.ty a != uv o.ty b) o h rfl ?_,
    branch_of_exec (rel := fun a b => decide (sv o.ty a < sv o.ty b)) o h rfl ?_,
    branch_of_exec (rel := fun a b => decide (sv o.ty b ≤ sv o.ty a)) o h rfl ?_,
    branch_of_exec (rel := fun a b => decide (uv o.ty a < uv o.ty b)) o h rfl ?_,
    branch_of_exec (rel := fun a b => decide (uv o.ty b ≤ uv o.ty a)) o h rfl ?_, exec_call o h, fun n => exec_ret o h⟩
  · rw [bne, bne, uv_beq]
  · rw [BitVec.slt_eq_decide, low_toInt, low_toInt]
  · rw [BitVec.sle_eq_decide, low_toInt, low_toInt]
  · rw [BitVec.ult_eq_decide, low_toNat, low_toNat]
  · rw [BitVec.ule_eq_decide, low_toNat, low_toNat]

theorem threadsStart : ThreadsStart := by
  intro s t ht hp hs
  refine ⟨exec_threadStart_badImage, fun hi => ⟨_, exec_threadStart ht hp hs hi, _, rfl, ?_⟩⟩
  exact ⟨rfl, rfl, rfl, rfl, rfl, rfl, rfl, rfl, fun _ => rfl, rfl, rfl, rfl⟩

theorem haltStopsTheThread : HaltStopsTheThread := by
  refine ⟨fun o s t h => ⟨_, exec_halt o h, mkEvent 4 0 0 0 0 0 0 ((s.thread t).pc + 1).toNat t 0, ?_⟩, fun s t pc hh => ⟨State.runnable_halted hh, fun hs => ?_⟩⟩
  · obtain ⟨hty, hcode, hpc, hid⟩ := haltEvent_fields 0 t ((s.thread t).pc + 1)
    exact ⟨hty, hcode, hpc, hid, rfl⟩
  · exact ⟨exec_threadStart_started hs, exec_threadRestart hs hh pc⟩

/-- Settles O11: the state that the first start gives, the halt event, and the restart. -/
theorem threadsStartHaltAndRestart : Obligations.ThreadsStartHaltAndRestart := ⟨threadsStart, haltStopsTheThread⟩

/-- Settles O57: the decoder evaluated on the words of the spec. -/
theorem wordsOfTheSpecDecode : Obligations.WordsOfTheSpecDecode := by
  unfold Obligations.WordsOfTheSpecDecode
  decide

/-- Settles O58: the step case by case, by what stands in focus and at the head of the agenda. -/
theorem stepRunsTheDecodedInstruction : Obligations.StepRunsTheDecodedInstruction := by
  refine ⟨fun s f i hf hi => step_firing hf hi, fun s t0 t rest hf h => ?_, fun s t0 i rest hf ha => ⟨fun he => ?_, fun he => ?_⟩,
    fun s t0 rest hf h => ⟨fun hd => ?_, fun d hd => ?_⟩, fun s d hd => State.due_acts hd, fun s t0 m rest hf ha => step_outside hf ha⟩
  · rw [step_thread hf h]
    exact ⟨fun hr i hpc hw hl => runThread_runnable hr (State.fetched_legal hpc hw hl) rest,
      fun hr hi => runThread_runnable hr (State.fetched_illegal hi) rest, fun hr => runThread_still hr rest⟩
  · rw [step_happen hf ha, if_pos ((encode_eq_none_iff i).mp he)]
  · rw [step_happen hf ha, if_neg (mt (encode_eq_none_iff i).mpr he)]
  · rw [step_cycle hf h, State.endCycle_next hd]
  · rw [step_cycle hf h, State.endCycle_due hd]

end Sys2Proof
end

section
/-! SUPPORT. Traps of a steward word (07 R259), the fields of tags (01 R11), and SENDT with its decision at an entry port (04 R135, 09 R290). -/

namespace Sys2Proof.Machine

open Sys2Proof.Claims

/-! ### Traps (R259) -/

/-- Taking a trap with TB clear leaves what the statements call trapped. -/
theorem trapped_takeTrap {s : State} {t code n : Nat} (h : NoTrap s t) (hc : code < 16) (hn : n < 65536) (eval : Nat) (epc : Word) :
    Trapped s (s.takeTrap t code eval n epc) t code n (BitVec.ofNat 64 eval) epc := by
  have hcause : pack 64 [(0, 4, code), (16, 16, n)] = BitVec.ofNat 64 (code + n * 65536) := by
    have hcode : code % 2 ^ 4 = code := Nat.mod_eq_of_lt hc
    have hnum : n % 2 ^ 16 = n := Nat.mod_eq_of_lt hn
    rw [pack, packNat, packNat, packNat, hcode, hnum, Nat.pow_zero, Nat.mul_one, Nat.add_zero]
    rfl
  rw [State.takeTrap_enter h]
  refine ⟨_, rfl, rfl, hcause, rfl, rfl, ?_, ?_, ?_, fun i h8 h9 h10 => ?_, rfl, rfl, rfl, rfl, rfl, rfl, rfl, rfl, rfl, rfl⟩
  · exact trapStatus_getLsbD _ 9
  · exact trapStatus_getLsbD _ 8
  · exact trapStatus_getLsbD _ 10
  · simp [trapStatus_getLsbD, h8, h9, h10]

theorem trapped_trapAt {s : State} {t code : Nat} (h : NoTrap s t) (hc : code < 16) (eval : Nat) :
    Trapped s (s.trapAt t code eval) t code 0 (BitVec.ofNat 64 eval) (s.thread t).pc := trapped_takeTrap h hc (by decide) eval _

theorem State.wordHigh_eq_highHalf (s : State) (t : Nat) : s.wordHigh t = highHalf s t := nfld_top _ 64 64 rfl

theorem trapped_trapWord {s : State} {t code : Nat} (h : NoTrap s t) (hc : code < 16) :
    Trapped s (s.trapWord t code) t code 0 (BitVec.ofNat 64 (highHalf s t)) (s.thread t).pc := by
  rw [State.trapWord, State.wordHigh_eq_highHalf]
  exact trapped_trapAt h hc _

/-! ### Fields of tags (R11) -/

section
variable (col ctx gen key iter : Nat)

@[simp] theorem tagCol_mkTag : tagCol (mkTag col ctx gen key iter) = col % 2 ^ 12 := nfld_pack _ _ _ _ _ rfl (by simp)
@[simp] theorem tagCtx_mkTag : tagCtx (mkTag col ctx gen key iter) = ctx % 2 ^ 2 := nfld_pack _ _ _ _ _ rfl (by simp)
@[simp] theorem tagGen_mkTag : tagGen (mkTag col ctx gen key iter) = gen % 2 ^ 4 := nfld_pack _ _ _ _ _ rfl (by simp)
@[simp] theorem tagKey_mkTag : tagKey (mkTag col ctx gen key iter) = key % 2 ^ 16 := nfld_pack _ _ _ _ _ rfl (by simp)
@[simp] theorem tagIter_mkTag : tagIter (mkTag col ctx gen key iter) = iter % 2 ^ 24 := nfld_pack _ _ _ _ _ rfl (by simp)
end

/-! ### The proxy rules of SENDT and WAITT (R135, R136) -/

section
variable {th : Thread} {px : Bool} {sndr : Nat}

theorem proxyTrap_user (hp : px = true) (hs : th.super = false) : proxyTrap th px sndr = some 9 := by simp [proxyTrap, hp, hs, cPrivilege]
theorem proxyTrap_low (hp : px = true) (hs : th.super = true) (hl : sndr < 64) : proxyTrap th px sndr = some 8 := by
  simp [proxyTrap, hp, hs, hl, cIllegal]
theorem proxyTrap_sender (hp : px = false) (hn : sndr ≠ 0) : proxyTrap th px sndr = some 8 := by simp [proxyTrap, hp, hn, cIllegal]
theorem proxyTrap_none (h : if px then th.super = true ∧ 64 ≤ sndr else sndr = 0) : proxyTrap th px sndr = none := by
  cases px with
  | true => obtain ⟨hs, hl⟩ := h; simp [proxyTrap, hs, Nat.not_lt.mpr hl]
  | false => simpa [proxyTrap] using h

end

/-! ### SENDT (R135) -/

section Sendt
variable {s : State} {t : Nat} (o : Ops)

/-- The offer that a SENDT makes with its descriptor. -/
def State.sendtOffer (s : State) (t : Nat) (o : Ops) : Offer :=
  let d := Claims.arg s o o.b
  ⟨t, s.partOfThread t, nfld d 44 2, nfld d 40 4, if bit d 54 then nfld d 46 8 else t, mkTag 0 (nfld d 44 2) 0 (nfld d 24 16) (nfld d 0 24),
    tyExtend o.ty (s.opVal o.ty o.imm o.a).v.toNat, stewDest o.t0, .fresh, s.cycle, .thread⟩

/-- The trap that a SENDT descriptor's fields call for. -/
def State.sendtTrap (s : State) (t : Nat) (o : Ops) : Option Nat :=
  if nfld (Claims.arg s o o.b) 55 9 ≠ 0 then some cIllegal
  else proxyTrap (s.thread t) (bit (Claims.arg s o o.b) 54) (nfld (Claims.arg s o o.b) 46 8)

theorem sendt_traps (h : s.focus = .thread t) {c : Nat} (hc : s.sendtTrap t o = some c) : exec (.sendt o) s = .next (s.trapWord t c) := by
  show execSendt o s = _
  unfold State.sendtTrap arg at hc
  rw [execSendt, State.onThread_thread h]
  dsimp only
  split at hc
  · next hr => cases hc; rw [if_pos hr]
  · next hr => rw [if_neg hr, hc]

theorem sendt_offers (h : s.focus = .thread t) (hc : s.sendtTrap t o = none) : exec (.sendt o) s =
    .next { s.setThread t { s.thread t with stall := .offer } with fab := { s.fab with offers := s.fab.offers ++ [s.sendtOffer t o] } } := by
  show execSendt o s = _
  unfold State.sendtTrap arg at hc
  rw [execSendt, State.onThread_thread h]
  dsimp only
  split at hc
  · cases hc
  · next hr => rw [if_neg hr, hc]; rfl

end Sendt

theorem sendtOffersOrTraps : SendtOffersOrTraps := by
  intro o s t h d px sndr super trap
  have hsndr : nfld d 46 8 = sndr := rfl
  have hres : nfld d 55 9 = d.toNat / 2 ^ 55 := nfld_top d 55 9 rfl
  have traps {c : Nat} (hn : NoTrap s t) (hc : c < 16) (ht : s.sendtTrap t o = some c) : trap c :=
    ⟨_, sendt_traps o h ht, trapped_trapWord hn hc⟩
  have hproxy (hr : d.toNat / 2 ^ 55 = 0) : s.sendtTrap t o = proxyTrap (s.thread t) px sndr := if_neg (not_not.mpr (hres.trans hr))
  refine ⟨fun hn hr => traps hn (by decide) (if_pos (by rwa [hres])),
    fun hn hr hp hs => traps hn (by decide) ((hproxy hr).trans (proxyTrap_user hp hs)),
    fun hn hr hp hs hlt => traps hn (by decide) ((hproxy hr).trans (proxyTrap_low hp hs hlt)),
    fun hn hr hp hs => traps hn (by decide) ((hproxy hr).trans (proxyTrap_sender hp hs)),
    fun hr hg => ⟨_, sendt_offers o h ((hproxy hr).trans (proxyTrap_none hg)), s.sendtOffer t o, ?_⟩⟩
  · refine ⟨rfl, rfl, rfl, rfl, rfl, rfl, rfl, rfl, rfl, rfl, rfl, ?_, ?_, rfl, rfl, rfl, rfl, rfl⟩
    · exact (tagKey_mkTag ..).trans (Nat.mod_mod _ _)
    · exact (tagIter_mkTag ..).trans (by simp [nfld, d])

/-! ### The state of a colour in a load -/

theorem State.colLoad_col (s : State) (c : Nat) (l : Word) : (s.colLoad c l).col = c ∧ (s.colLoad c l).load = l := by
  unfold State.colLoad
  cases h : lfind (fun x => x.col == c && x.load == l) s.fab.colLoads with
  | none => exact ⟨rfl, rfl⟩
  | some x => simpa using lfind_true h

theorem State.colLoad_setColLoad_same (s : State) {v : ColLoad} {c : Nat} {l : Word} (hc : v.col = c) (hl : v.load = l) :
    (s.setColLoad v).colLoad c l = v := by
  simp [State.colLoad, State.setColLoad, lfind, hc, hl]

/-! ### Decisions on an offer (R290) -/

section Decide
variable {s : State} {k : Nat} {q : Offer}

/-- The binding that an offer's sender has at its port. -/
def State.bindingOf (s : State) (q : Offer) : BitVec 64 := tget 0 (s.part q.part).bind (256 * q.ctx + q.sender)

/-- A PURGE of the colour is in progress. -/
def State.colPurged (s : State) (c : Nat) : Bool := s.fab.sysops.any fun x => match x.kind with | .purge _ col _ _ _ => col == c | _ => false

/-- The offer's iteration lies beyond the window of its colour, in a load of rounds whose O is set. -/
def State.offerAhead (s : State) (q : Offer) (c : Nat) (l : Load) : Bool :=
  s.hasRounds l && (s.colLoad c (dLoadid l.desc)).first.isSome && decide (s.window c (some l) ≤ age (s.oldest c (dLoadid l.desc)) (tagIter q.tag))

theorem decideOn_cut (h : (s.part q.part).cut ≠ .idle) : s.decideOn q = .status 3 := by
  simp [State.decideOn, h]

theorem decideOn_noLoad (hc : (s.part q.part).cut = .idle)
    (hl : (s.loadIn q.part q.ctx fun l => bit (dEntrymask l.desc) q.eport && l.live) = none) : s.decideOn q = .status 2 := by
  simp [State.decideOn, hc, hl]

/-- At an open port with a load: an unbound sender is refused, an offer behind a PURGE or beyond the window waits, a full colour refuses. -/
theorem decideOn_open {l : Load} (hc : (s.part q.part).cut = .idle)
    (hl : (s.loadIn q.part q.ctx fun l => bit (dEntrymask l.desc) q.eport && l.live) = some l) :
    s.decideOn q = let c := nfld (s.bindingOf q) 0 12
      if bit (s.bindingOf q) 12 = false then .status 2 else if s.colPurged c = true then .wait else if s.offerAhead q c l = true then .wait
      else if q.limit (s.colour c) ≤ (s.colour c).inflt then .status 1 else .letIn c l := by
  have hb : tget 0 (s.part q.part).bind (256 * q.ctx + q.sender) = s.bindingOf q := rfl
  have hidle : (Cut.idle != Cut.idle) = false := rfl
  simp only [State.decideOn, hc, hl, hb, hidle, Bool.false_eq_true, if_false]
  cases bit (s.bindingOf q) 12 <;> rfl

theorem decideOffer_status {n : Nat} (h : s.decideOn q = .status n) : s.decideOffer k q = s.answerOffer k q n := by
  rw [State.decideOffer, h]
theorem decideOffer_wait (h : s.decideOn q = .wait) :
    s.decideOffer k q = { s with fab := { s.fab with offers := setNth s.fab.offers k { q with wait := .waiting } } } := by
  rw [State.decideOffer, h]
theorem decideOffer_letIn {c : Nat} {l : Load} (h : s.decideOn q = .letIn c l) : s.decideOffer k q = (s.letIn q c l).answerOffer k q 0 := by
  rw [State.decideOffer, h]

/-- An undecided offer waits for its turn. -/
theorem offer_notTurn (hk : nth? s.fab.offers k = some q) (hw : q.wait = .fresh) (ht : s.offerTurn q = false) :
    exec (.entryOffer k) s = .next s := by
  show execEntryOffer k s = _
  simp [execEntryOffer, hk, hw, ht]

/-- An offer whose turn has come, and one that has waited, is decided. -/
theorem offer_decided (hk : nth? s.fab.offers k = some q) (ht : q.wait = .fresh → s.offerTurn q = true) :
    exec (if q.wait = .fresh then .entryOffer k else .entryOfferReleased k) s = .next (s.decideOffer k q) := by
  cases hw : q.wait with
  | fresh =>
    rw [if_pos rfl]
    show execEntryOffer k s = _
    simp [execEntryOffer, hk, hw, ht hw]
  | waiting =>
    rw [if_neg (by decide)]
    show execEntryOfferReleased k s = _
    simp [execEntryOfferReleased, hk, hw]

end Decide

/-! ### Admission (R129, R290) -/

/-- An admission sets O of its colour and load, and may take working copies and the NEXT of BARs afresh; nothing else. -/
theorem State.admitOldest_frame (s : State) (c : Nat) (l : Load) (i : Nat) :
    (∃ cl bars agens, s.admitOldest c l i =
      { s with fab := { s.fab with colLoads := cl, bars := bars }, port := { s.port with agens := agens } }) ∧
    ((s.admitOldest c l i).colLoad c (dLoadid l.desc)).egen = (s.colLoad c (dLoadid l.desc)).egen := by
  obtain ⟨hc, hl⟩ := s.colLoad_col c (dLoadid l.desc)
  have hset (o : Option Nat) (a : Bool) (n : Nat) := congrArg ColLoad.egen
    (s.colLoad_setColLoad_same (v := { s.colLoad c (dLoadid l.desc) with oldest := o, afresh := a, next := n }) hc hl)
  unfold State.admitOldest
  dsimp only
  split
  · exact ⟨⟨_, _, _, rfl⟩, hset (some i) false i⟩
  · split
    · exact ⟨⟨_, _, _, rfl⟩, hset _ _ _⟩
    · exact ⟨⟨_, _, _, rfl⟩, rfl⟩

/-- The token of an admitted offer, in the state `s1` that the admission has counted it in. -/
def State.entryToken (s s1 : State) (q : Offer) (c : Nat) (l : Load) : Token :=
  let tag := mkTag c q.ctx (s1.colLoad c (dLoadid l.desc)).egen.toNat (tagKey q.tag) (tagIter q.tag)
  let n := (s.entryNode l q.eport).getD (l.foot.headD 0, 0)
  ⟨tag, 0, .scalar, q.pay, none, .node n.1 n.2 0, .entryq q.eport, s1.parkedFor tag (dLoadid l.desc), 0, dLoadid l.desc, []⟩

theorem State.letIn_eq (s : State) (q : Offer) (c : Nat) (l : Load) :
    s.letIn q c l = let s1 := (s.admitOldest c l (tagIter q.tag)).inflUp c 1; s1.addToken (s.entryToken s1 q c l) := rfl

/-- What letting an offer in changes: INFLT rises by one, and its token lies at the port. -/
theorem State.letIn_frame (s : State) (q : Offer) (c : Nat) (l : Load) : ∃ (s1 : State) (tk : Token),
    s.letIn q c l = { s1 with fab := { s1.fab with tokens := s.fab.tokens ++ [tk] } } ∧
    s1.colours = tset Colour.reset s.colours c { s.colour c with inflt := (s.colour c).inflt + 1 } ∧
    s1.fab.offers = s.fab.offers ∧ s1.stew = s.stew ∧ s1.mem = s.mem ∧ s1.parts = s.parts ∧ s1.host = s.host ∧
    tk.sb = 0 ∧ tk.kind = .scalar ∧ tk.pay = q.pay ∧ tagCol tk.tag = c % 4096 ∧ tagCtx tk.tag = q.ctx % 4 ∧
    tagGen tk.tag = (s.colLoad c (dLoadid l.desc)).egen.toNat ∧
    tagKey tk.tag = tagKey q.tag ∧ tagIter tk.tag = tagIter q.tag ∧ tk.place = .entryq q.eport ∧ tk.load = dLoadid l.desc := by
  obtain ⟨⟨cl, bars, agens, hs⟩, hg⟩ := s.admitOldest_frame c l (tagIter q.tag)
  have htok : ((s.admitOldest c l (tagIter q.tag)).inflUp c 1).fab.tokens = s.fab.tokens := by rw [hs]; rfl
  refine ⟨(s.admitOldest c l (tagIter q.tag)).inflUp c 1, s.entryToken ((s.admitOldest c l (tagIter q.tag)).inflUp c 1) q c l, ?_, ?_⟩
  · rw [State.letIn_eq, ← htok]; rfl
  · have hegen : (((s.admitOldest c l (tagIter q.tag)).inflUp c 1).colLoad c (dLoadid l.desc)).egen = (s.colLoad c (dLoadid l.desc)).egen := hg
    rw [← hegen]
    refine ⟨?_, ?_, ?_, ?_, ?_, ?_, rfl, rfl, rfl, tagCol_mkTag .., tagCtx_mkTag .., ?_, ?_, ?_, rfl, rfl⟩
    case refine_7 => exact (tagGen_mkTag ..).trans (Nat.mod_eq_of_lt (BitVec.isLt _))
    case refine_8 => exact (tagKey_mkTag ..).trans (Nat.mod_mod _ _)
    case refine_9 => exact (tagIter_mkTag ..).trans (Nat.mod_mod _ _)
    all_goals rw [hs]; rfl

theorem entryPortDecides : EntryPortDecides := by
  intro s k q hk i p b c answered limit
  have hans (s1 : State) (n : Nat) : s1.answerOffer k q n = answered s1 n := by
    simp only [answered, State.answerOffer]
    cases q.who with
    | thread => cases q.dest <;> rfl
    | launch => rfl
    | path => rfl
  have hb : s.bindingOf q = b := rfl
  have hc : nfld (s.bindingOf q) 0 12 = c := by simp [nfld, c, hb]
  have hlim : q.limit (s.colour c) = limit := by simp only [limit, Offer.limit]
  refine ⟨fun hw ht => ?_, fun ht hcut => ?_, fun ht hcut hl => ?_, fun l ht hcut hl => ?_⟩
  · rw [show i = .entryOffer k from if_pos hw, offer_notTurn hk hw ht]
  · rw [offer_decided hk ht, decideOffer_status (decideOn_cut hcut), hans]
  · rw [offer_decided hk ht, decideOffer_status (decideOn_noLoad hcut hl), hans]
  intro purged ahead
  have hopen := decideOn_open hcut hl
  simp only [hc, hlim] at hopen
  have hbit : bit (s.bindingOf q) 12 = b.getLsbD 12 := rfl
  have hpur : s.colPurged c = purged := rfl
  have hah : s.offerAhead q c l = ahead := rfl
  rw [hbit, hpur, hah] at hopen
  rw [offer_decided hk ht]
  refine ⟨fun h => ?_, fun h hw => ?_, fun h hp ha hf => ?_, fun h hp ha hf => ?_⟩
  · rw [if_pos h] at hopen
    rw [decideOffer_status hopen, hans]
  · have hwait : (if purged = true then Decision.wait else if ahead = true then .wait
        else if limit ≤ (s.colour c).inflt then .status 1 else .letIn c l) = .wait := by
      obtain hp | ha := hw
      · rw [if_pos hp]
      · rw [if_pos ha, ite_self]
    rw [if_neg (ne_false_of_eq_true h), hwait] at hopen
    rw [decideOffer_wait hopen]
  · rw [if_neg (ne_false_of_eq_true h), if_neg (ne_true_of_eq_false hp), if_neg (ne_true_of_eq_false ha), if_pos hf] at hopen
    rw [decideOffer_status hopen, hans]
  · rw [if_neg (ne_false_of_eq_true h), if_neg (ne_true_of_eq_false hp), if_neg (ne_true_of_eq_false ha), if_neg (Nat.not_le.mpr hf)] at hopen
    obtain ⟨s1, tk, hs, hrest⟩ := s.letIn_frame q c l
    exact ⟨_, offer_decided hk ht, s1, tk, by rw [decideOffer_letIn hopen, hans, hs], hrest⟩

end Sys2Proof.Machine

namespace Sys2Proof

/-- Settles O12: the descriptor's checks and the offer, then the decision case by case. -/
theorem offersAtEntryPorts : Obligations.OffersAtEntryPorts := ⟨Machine.sendtOffersOrTraps, Machine.entryPortDecides⟩

end Sys2Proof
end

section
/-! SUPPORT. WAITT (04 R136): the checks of its descriptor, the source that it names, and what it takes or waits for. -/

namespace Sys2Proof.Machine

open Sys2Proof.Claims

/-! ### The descriptor -/

/-- The trap that a WAITT descriptor's fields call for. -/
def Thread.waittTrap (th : Thread) (d : Word) : Option Nat :=
  if nfld d 16 48 ≠ 0 ∨ (bit d 6 ∧ nfld d 7 9 ≠ 0) then some cIllegal else proxyTrap th (bit d 7) (nfld d 8 8)

/-- PX and SENDER stand together in bits 15:7. -/
theorem nfld_proxy (d : Word) : nfld d 7 9 = 0 ↔ bit d 7 = false ∧ nfld d 8 8 = 0 := by
  have hb : bit d 7 = decide (d.toNat / 2 ^ 7 % 2 = 1) := Nat.testBit_eq_decide_div_mod_eq
  rw [hb, decide_eq_false_iff_not]
  simp only [nfld]
  omega

section
variable {th : Thread} {d : Word}

theorem waittTrap_reserved (h : d.toNat / 65536 ≠ 0) : th.waittTrap d = some 8 :=
  if_pos (.inl (by rwa [nfld_top d 16 48 rfl]))
theorem waittTrap_event (h6 : d.getLsbD 6 = true) (hp : d.getLsbD 7 = true ∨ d.toNat / 256 % 256 ≠ 0) : th.waittTrap d = some 8 := by
  refine if_pos (.inr ⟨h6, fun h => ?_⟩)
  obtain ⟨h7, h8⟩ := (nfld_proxy d).mp h
  exact hp.elim (fun h => absurd (h7.symm.trans h) (by decide)) fun h => h h8
/-- A descriptor with no reserved bit, and of no proxy at an event port, traps by the proxy rules alone. -/
theorem waittTrap_proxy (hr : d.toNat / 65536 = 0) (h6 : d.getLsbD 6 = true → d.getLsbD 7 = false ∧ d.toNat / 256 % 256 = 0) :
    th.waittTrap d = proxyTrap th (d.getLsbD 7) (d.toNat / 256 % 256) :=
  if_neg fun h => h.elim (fun h => h ((nfld_top d 16 48 rfl).trans hr)) fun ⟨h1, h2⟩ => h2 ((nfld_proxy d).mpr (h6 h1))

end

section Exec
variable {s : State} {t : Nat} (o : Ops)

theorem waitt_traps (h : s.focus = .thread t) {c : Nat} (hc : (s.thread t).waittTrap (arg s o o.a) = some c) :
    exec (.waitt o) s = .next (s.trapWord t c) := by
  show execWaitt o s = _
  unfold Thread.waittTrap arg at hc
  rw [execWaitt, State.onThread_thread h]
  dsimp only
  split at hc
  · next hr => cases hc; rw [if_pos hr]
  · next hr => rw [if_neg hr, hc]

theorem waitt_takes (h : s.focus = .thread t) (hc : (s.thread t).waittTrap (arg s o o.a) = none) {s1 : State}
    (ht : s.tryTake t o (s.sourceOf t (arg s o o.a)) = some s1) : exec (.waitt o) s = .next s1 := by
  show execWaitt o s = _
  unfold Thread.waittTrap arg at hc
  unfold arg at ht
  rw [execWaitt, State.onThread_thread h]
  dsimp only
  split at hc
  · cases hc
  · next hr => rw [if_neg hr, hc]; dsimp only; rw [ht]

theorem waitt_waits (h : s.focus = .thread t) (hc : (s.thread t).waittTrap (arg s o o.a) = none)
    (ht : s.tryTake t o (s.sourceOf t (arg s o o.a)) = none) (hs : (s.thread t).stall = .none) : exec (.waitt o) s =
    .next { s.setThread t { s.thread t with stall := .waitt (if o.imm = 0 then none else some (s.cycle + o.imm.toNat * 1024)) } with
      stew := { s.stew with
        threads := tset Thread.reset s.stew.threads t
          { s.thread t with stall := .waitt (if o.imm = 0 then none else some (s.cycle + o.imm.toNat * 1024)) },
        waiters := s.stew.waiters ++ [(t, arg s o o.a)] } } := by
  show execWaitt o s = _
  unfold Thread.waittTrap arg at hc
  unfold arg at ht
  rw [execWaitt, State.onThread_thread h]
  dsimp only
  split at hc
  · cases hc
  · next hr => rw [if_neg hr, hc]; dsimp only; rw [ht]; dsimp only; rw [hs]; rfl

end Exec

/-! ### What the source holds -/

section Take
variable {s : State} {t : Nat} (o : Ops) {x : Source}

/-- An empty event port gives nothing. -/
theorem tryTake_noEvent (hx : x.event = true) (he : (s.part x.part).events = []) : s.tryTake t o x = none := by
  simp [State.tryTake, State.takeEvent, hx, he]

/-- An exit port with no colour bound, or with no token of that colour, gives nothing. -/
theorem tryTake_noToken (hx : x.event = false) (he : ∀ c, x.col = some c → s.exitToken x c = none) : s.tryTake t o x = none := by
  cases hc : x.col with
  | none => simp [State.tryTake, hx, hc]
  | some c => simp [State.tryTake, hx, hc, he c hc]

/-- With no event held behind it, the oldest event of the queue is taken. -/
theorem tryTake_event (hw : s.stew.waiters = []) (hx : x.event = true) {ev : Event} {rest : List Event}
    (he : (s.part x.part).events = ev :: rest) (hh : (s.part x.part).held = []) : s.tryTake t o x =
    some ((s.setPart x.part { s.part x.part with events := rest }).waitDone t o (dword ev 0) (dword ev 1) 0 (some (dword ev 2, dword ev 3))) := by
  simp [State.tryTake, State.takeEvent, lfind, hw, hx, he, hh]

/-- The oldest token of the colour is taken; a poisoned one traps. -/
theorem tryTake_token (hw : s.stew.waiters = []) (hx : x.event = false) {c k : Nat} {tk : Token} (hc : x.col = some c)
    (hk : s.exitToken x c = some k) (htk : nth? s.fab.tokens k = some tk) : s.tryTake t o x =
    some (if sbPZ tk.sb then (s.takeExit k c).trapAt t cPoison (tagClean tk.tag).toNat
      else (s.takeExit k c).waitDone t o tk.pay (tagClean tk.tag) tk.sb none) := by
  have hstew : (s.takeExit k c).stew.waiters.filter (fun w => w.1 != t) = (s.takeExit k c).stew.waiters := by
    have : (s.takeExit k c).stew.waiters = [] := by
      obtain h | ⟨v, h⟩ := (s.setTokens (dropNth s.fab.tokens k)).inflDown_frame c 1 <;> rw [State.takeExit, h] <;> exact hw
    rw [this]; rfl
  simp only [State.tryTake, hw, lfind, hx, hc, hk, htk, hstew]
  cases sbPZ tk.sb <;> rfl

end Take

/-! ### The end of a WAITT -/

/-- The thread whose WAITT ends with two values, with the side-band of what it took and the tail of an event. -/
def Thread.waited (th : Thread) (o : Ops) (v w : Word) (sb : BitVec 8) (ev : Option (Word × Word)) : Thread :=
  { th with
    regs := tset 0 (tset 0 th.regs (nfld o.t0 0 6) v) (nfld o.t0 0 6 + 1) w,
    status := if sbNL sb then th.status ||| (sb &&& 0x1F).zeroExtend 64 ||| 0x40 else th.status ||| (sb &&& 0x1F).zeroExtend 64,
    stall := .none, pc := th.pc + 1,
    evtx0 := match ev with | some e => e.1 | none => th.evtx0, evtx1 := match ev with | some e => e.2 | none => th.evtx1 }

theorem State.waitDone_eq (s : State) (t : Nat) (o : Ops) (v w : Word) (sb : BitVec 8) (ev : Option (Word × Word)) :
    s.waitDone t o v w sb ev = { s with stew := { s.stew with
      threads := tset Thread.reset s.stew.threads t ((s.thread t).waited o v w sb ev), waiters := s.stew.waiters.filter fun x => x.1 != t } } := by
  cases ev <;> rfl

/-- With no other thread waiting, only the thread changes. -/
theorem State.waitDone_of_waiters {s : State} (hw : s.stew.waiters = []) (t : Nat) (o : Ops) (v w : Word) (sb : BitVec 8) (ev : Option (Word × Word)) :
    s.waitDone t o v w sb ev = s.setThread t ((s.thread t).waited o v w sb ev) := by
  rw [State.waitDone_eq, hw, State.setThread, List.filter_nil, ← hw]

/-- A value without exception bits leaves STATUS as it is. -/
theorem Thread.waited_status (th : Thread) (o : Ops) (v w : Word) (ev : Option (Word × Word)) : (th.waited o v w 0 ev).status = th.status := by
  show th.status ||| ((0 : BitVec 8) &&& 0x1F).zeroExtend 64 = th.status
  simp

/-! ### The statements -/

/-- The binding that a descriptor's sender has in a slot of its thread's partition. -/
def State.waittBinding (s : State) (t : Nat) (d : Word) : Word :=
  tget 0 (s.part (s.partOfThread t)).bind (256 * (d.toNat / 16 % 4) + if d.getLsbD 7 then d.toNat / 256 % 256 else t)

theorem State.sourceOf_eq (s : State) (t : Nat) (d : Word) : s.sourceOf t d =
    ⟨s.partOfThread t, d.getLsbD 6, d.toNat / 16 % 4, d.toNat % 16,
      if (s.waittBinding t d).getLsbD 12 then some ((s.waittBinding t d).toNat % 4096) else none⟩ := by
  have h4 : nfld d 0 4 = d.toNat % 16 := by simp [nfld]
  have h12 (b : Word) : nfld b 0 12 = b.toNat % 4096 := by simp [nfld]
  unfold State.sourceOf
  dsimp only
  rw [h4, h12]
  rfl

section
variable {s : State} {t : Nat} (o : Ops) {d : Word}

/-- An exit port gives nothing where its colour, if one is bound, has no token there. -/
theorem tryTake_exit_none (h6 : d.getLsbD 6 = false)
    (hn : (s.waittBinding t d).getLsbD 12 = true → s.exitToken ⟨s.partOfThread t, false, d.toNat / 16 % 4, d.toNat % 16,
      some ((s.waittBinding t d).toNat % 4096)⟩ ((s.waittBinding t d).toNat % 4096) = none) : s.tryTake t o (s.sourceOf t d) = none := by
  rw [State.sourceOf_eq, h6]
  refine tryTake_noToken o rfl fun c hc => ?_
  dsimp only at hc
  split at hc
  · next hb => cases hc; rw [if_pos hb]; exact hn hb
  · cases hc

theorem tryTake_event_none (h6 : d.getLsbD 6 = true) (he : (s.part (s.partOfThread t)).events = []) : s.tryTake t o (s.sourceOf t d) = none :=
  tryTake_noEvent o h6 he

end

theorem waittTakesWaitsOrTraps : WaittTakesWaitsOrTraps := by
  intro o s t h hw d px sndr sv p dn sender b good trap
  have hdn : nfld o.t0 0 6 = dn := by simp [nfld, dn]
  have no6 {q : Prop} (h6 : d.getLsbD 6 = false) (h : d.getLsbD 6 = true) : q := absurd (h.symm.trans h6) (by decide)
  have traps {c : Nat} (hn : NoTrap s t) (hc : c < 16) (ht : (s.thread t).waittTrap d = some c) : trap c :=
    ⟨_, waitt_traps o h ht, trapped_trapWord hn hc⟩
  have passes (hg : good) (h6 : d.getLsbD 6 = true → px = false) : (s.thread t).waittTrap d = none := by
    obtain ⟨hr, hp⟩ := hg
    exact (waittTrap_proxy hr fun h => ⟨h6 h, (if_neg (ne_true_of_eq_false (h6 h))).mp hp⟩).trans (proxyTrap_none hp)
  refine ⟨fun hn hr => traps hn (by decide) (waittTrap_reserved hr), fun hn hr h6 hp => traps hn (by decide) (waittTrap_event h6 hp),
    fun hn hr h6 hp hs => traps hn (by decide) ((waittTrap_proxy hr (no6 h6)).trans (proxyTrap_user hp hs)),
    fun hn hr h6 hp hs hlt => traps hn (by decide) ((waittTrap_proxy hr (no6 h6)).trans (proxyTrap_low hp hs hlt)),
    fun hn hr h6 hp hs => traps hn (by decide) ((waittTrap_proxy hr (no6 h6)).trans (proxyTrap_sender hp hs)), fun ev rest hg h6 hp he hh => ?_,
    fun k tk hg h6 hb hk htk => ?_, fun hg hsrc hst => ?_⟩
  · have hdone : exec (.waitt o) s = .next ((s.setPart p { s.part p with events := rest }).setThread t
        ((s.thread t).waited o (dword ev 0) (dword ev 1) 0 (some (dword ev 2, dword ev 3)))) := by
      rw [waitt_takes o h (passes hg fun _ => hp) (tryTake_event o hw h6 he hh), State.waitDone_of_waiters (s := s.setPart _ _) hw]
      rfl
    refine ⟨_, hdone, _, rfl, ?_⟩
    rw [Thread.waited_status, ← hdn]
    exact ⟨rfl, rfl, rfl, rfl, rfl, rfl⟩
  · intro s1
    have hstew : s1.stew = s.stew := by
      obtain h | ⟨v, h⟩ := (s.setTokens (dropNth s.fab.tokens k)).inflDown_frame (b.toNat % 4096) 1 <;>
        simp only [s1, State.takeExit, h] <;> rfl
    have hth : s1.thread t = s.thread t := by unfold State.thread; rw [hstew]
    have hx : s.sourceOf t d = ⟨p, false, d.toNat / 16 % 4, d.toNat % 16, some (b.toNat % 4096)⟩ := by
      rw [State.sourceOf_eq, h6, show s.waittBinding t d = b from rfl, if_pos hb]
    have htake := tryTake_token (t := t) o hw (x := s.sourceOf t d) (by rw [hx]) (by rw [hx]) (by rw [hx]; exact hk) htk
    have hdone := waitt_takes o h (passes hg (no6 h6)) htake
    refine ⟨fun hz => ?_, fun hz hn => ?_⟩
    · rw [hz, if_neg (by decide)] at hdone
      refine ⟨_, hdone, _, State.waitDone_of_waiters (by rw [hstew]; exact hw) .., ?_⟩
      rw [hth]
      refine ⟨by rw [← hdn]; rfl, rfl, rfl, ?_⟩
      show (if sbNL tk.sb then _ else _) = _
      cases sbNL tk.sb <;> simp
    · rw [hz, if_pos rfl] at hdone
      have hn1 : NoTrap s1 t := by unfold NoTrap; rw [hth]; exact hn
      have ht := trapped_trapAt hn1 (code := cPoison) (by decide) (tagClean tk.tag).toNat
      rw [hth, BitVec.ofNat_toNat, BitVec.setWidth_eq] at ht
      exact ⟨_, hdone, ht⟩
  · have hnone : s.tryTake t o (s.sourceOf t d) = none := hsrc.elim (fun ⟨h6, _, he⟩ => tryTake_event_none o h6 he)
      fun ⟨h6, hn⟩ => tryTake_exit_none o h6 hn
    have h6px : d.getLsbD 6 = true → px = false := fun h6 => hsrc.elim (fun ⟨_, hp, _⟩ => hp) fun ⟨h, _⟩ => no6 h h6
    exact ⟨_, waitt_waits o h (passes hg h6px) hnone hst, rfl, ⟨d, by rw [hw]; rfl⟩, rfl, rfl, rfl⟩

/-- A limit that passes with nothing to take ends the wait with 0 and all ones. -/
theorem waittTimeout_passes {s : State} {t lim : Nat} {n : BitVec 10} {o : Ops} (hst : (s.thread t).stall = .waitt (some lim)) (hlim : lim ≤ s.cycle)
    (hdec : decode (tget 0 (s.image (s.thread t).image).words (s.thread t).pc.toNat) = .ok (.waitt o)) (ha : o.a = .reg n)
    (hnone : s.tryTake t o (s.sourceOf t ((s.thread t).reg n.toNat)) = none) :
    exec (.waittTimeout t) s = .next (s.waitDone t o 0 ones64 0 none) := by
  obtain ⟨g, hg, hgo⟩ : ∃ g, sig (.waitt o) = some g ∧ g.o = o := ⟨_, rfl, rfl⟩
  show execWaittTimeout t s = _
  simp only [execWaittTimeout, hst, Nat.not_lt.mpr hlim, if_false, hdec, hg, hgo, ha, hnone]

theorem waittLimitPasses : WaittLimitPasses := by
  intro o s t lim n hst hlim hdec ha d p b hnone
  have ht : s.tryTake t o (s.sourceOf t d) = none := by
    cases h6 : d.getLsbD 6 with
    | true => exact tryTake_event_none o h6 ((if_pos h6).mp hnone)
    | false => exact tryTake_exit_none o h6 ((if_neg (ne_true_of_eq_false h6)).mp hnone)
  refine ⟨_, waittTimeout_passes hst hlim hdec ha ht, ?_⟩
  have hth : (s.thread t).waited o 0 ones64 0 none =
      { s.thread t with regs := tset 0 (tset 0 (s.thread t).regs (o.t0.toNat % 64) 0) (o.t0.toNat % 64 + 1) (BitVec.allOnes 64),
                        pc := (s.thread t).pc + 1, stall := .none } := by
    have hst := (s.thread t).waited_status o 0 ones64 none
    have hdn : nfld o.t0 0 6 = o.t0.toNat % 64 := by simp [nfld]
    rw [← hdn]
    exact congrArg (fun st => { (s.thread t).waited o 0 ones64 0 none with status := st }) hst
  rw [State.waitDone_eq, hth]
  exact ⟨rfl, rfl, rfl, rfl⟩

end Sys2Proof.Machine

namespace Sys2Proof

/-- Settles O13: the descriptor's checks, what the source holds, and the end of the wait. -/
theorem waittTakesOrWaits : Obligations.WaittTakesOrWaits := ⟨Machine.waittTakesWaitsOrTraps, Machine.waittLimitPasses⟩

end Sys2Proof
end

section
/-! SUPPORT. LD and ST (04 R138): reads after writes of physical memory under a key slot (R451), what discarding read-ahead leaves, and the two
instructions case by case. -/

namespace Sys2Proof.Machine

open Sys2Proof.Claims

/-- Lists that hold the same at every place. -/
theorem eq_of_nth {α : Type} (d : α) {l k : List α} (hlen : l.length = k.length) (h : ∀ i, i < l.length → nth d l i = nth d k i) : l = k := by
  have hmap : (List.range l.length).map (nth d l) = (List.range k.length).map (nth d k) := by
    rw [← hlen]
    exact List.map_congr_left fun i hi => h i (List.mem_range.mp hi)
  exact (map_nth_range d l).symm.trans (hmap.trans (map_nth_range d k))

/-! ### Memory under a key slot (R451) -/

section
variable (m : Mem) (key : Nat)

theorem Mem.keyOf_rekey (a b : Nat) : (m.rekey key a).keyOf b = if a / 64 = b / 64 then key else m.keyOf b := by
  unfold Mem.rekey Mem.keyOf
  dsimp only
  rw [tget_tset]
  split
  · rfl
  · split <;> rfl

theorem Mem.length_read (a n : Nat) : (m.read key a n).length = n := by
  induction n generalizing a with
  | zero => rfl
  | succ n ih => simp [Mem.read, ih]

theorem Mem.nth_read (a n : Nat) {i : Nat} (h : i < n) : nth 0 (m.read key a n) i = m.read1 key (a + i) := by
  induction n generalizing a i with
  | zero => omega
  | succ n ih => cases i with
    | zero => rfl
    | succ i => rw [Mem.read, nth, ih _ (by omega), Nat.add_right_comm, Nat.add_assoc]

/-- Memory whose bytes are as before and whose key slots read the same. -/
theorem Mem.read1_congr {m' : Mem} {k a : Nat} (hm : mget m'.mem a = mget m.mem a) (hk : m'.keyOf a = m.keyOf a) : m'.read1 k a = m.read1 k a := by
  unfold Mem.read1
  rw [hm, hk]

theorem Mem.read_congr {m m' : Mem} {key a n : Nat} (h : ∀ a, m'.read1 key a = m.read1 key a) : m'.read key a n = m.read key a n := by
  induction n generalizing a with
  | zero => rfl
  | succ n ih => rw [Mem.read, Mem.read, h, ih]

/-- A byte that its key slot reads is stored as it is read. -/
theorem Mem.read1_own {a : Nat} (h : m.keyOf a = key) : m.read1 key a = mget m.mem a := by
  unfold Mem.read1
  dsimp only
  rw [if_pos (.inr h)]

/-- A line brought under a key slot is stored as that key slot reads it. -/
theorem Mem.mget_rekey (a b : Nat) : mget (m.rekey key a).mem b = if a / 64 = b / 64 then m.read1 key b else mget m.mem b := by
  unfold Mem.rekey
  dsimp only
  split
  · next h =>
    have hr (hl : a / 64 = b / 64) : m.read1 key b = mget m.mem b := by
      have hk : m.keyOf b = m.keyOf a := by unfold Mem.keyOf; rw [hl]
      unfold Mem.read1
      dsimp only
      rw [hk, if_pos h]
    split
    · next hl => exact (hr hl).symm
    · rfl
  · rw [mget_msetN, Mem.length_read]
    by_cases hl : a / 64 = b / 64
    · rw [if_pos (by omega), if_pos hl, Mem.nth_read _ _ _ _ (by omega)]
      congr 1
      omega
    · rw [if_neg (by omega), if_neg hl]

/-- It reads the same under it. -/
theorem Mem.read1_rekey_key (a b : Nat) : (m.rekey key a).read1 key b = m.read1 key b := by
  by_cases hl : a / 64 = b / 64
  · rw [Mem.read1_own _ _ (by rw [Mem.keyOf_rekey, if_pos hl]), Mem.mget_rekey, if_pos hl]
  · exact m.read1_congr (by rw [Mem.mget_rekey, if_neg hl]) (by rw [Mem.keyOf_rekey, if_neg hl])

/-- The other lines read as before under any key slot. -/
theorem Mem.read1_rekey_line {a b : Nat} (hl : a / 64 ≠ b / 64) (k : Nat) : (m.rekey key a).read1 k b = m.read1 k b :=
  m.read1_congr (by rw [Mem.mget_rekey, if_neg hl]) (by rw [Mem.keyOf_rekey, if_neg hl])

theorem Mem.read1_write1_key (a b : Nat) (v : Byte) : (m.write1 key a v).read1 key b = if a = b then v else m.read1 key b := by
  have hkey (c : Nat) : (m.write1 key a v).keyOf c = (m.rekey key a).keyOf c := rfl
  have hmem : mget (m.write1 key a v).mem b = if a = b then v else mget (m.rekey key a).mem b := mget_mset ..
  by_cases h : a = b
  · rw [if_pos h, Mem.read1_own _ _ (by rw [hkey, Mem.keyOf_rekey, if_pos (by rw [h])]), hmem, if_pos h]
  · rw [if_neg h, ← m.read1_rekey_key key a b]
    exact (m.rekey key a).read1_congr (by rw [hmem, if_neg h]) (hkey b)

theorem Mem.read1_write1_line {a b : Nat} (hl : a / 64 ≠ b / 64) (v : Byte) (k : Nat) : (m.write1 key a v).read1 k b = m.read1 k b := by
  have hmem : mget (m.write1 key a v).mem b = if a = b then v else mget (m.rekey key a).mem b := mget_mset ..
  rw [← m.read1_rekey_line key hl k]
  exact (m.rekey key a).read1_congr (by rw [hmem, if_neg (fun h => hl (by rw [h]))]) rfl

/-- Bytes written under a key slot read back under it, and every other byte reads under it as before. -/
theorem Mem.read1_write_key (a b : Nat) (l : List Byte) :
    (m.write key a l).read1 key b = if a ≤ b ∧ b < a + l.length then nth 0 l (b - a) else m.read1 key b := by
  induction l generalizing m a with
  | nil => simp [Mem.write]
  | cons v l ih =>
    rw [Mem.write, ih, Mem.read1_write1_key, List.length_cons]
    obtain h | rfl | h : b < a ∨ b = a ∨ a < b := by omega
    · rw [if_neg (by omega), if_neg (by omega), if_neg (by omega)]
    · rw [if_neg (by omega), if_pos rfl, if_pos (by omega), Nat.sub_self, nth]
    · obtain ⟨k, rfl⟩ : ∃ k, b = a + k + 1 := ⟨b - a - 1, by omega⟩
      rw [if_neg (by omega : ¬ a = a + k + 1), show a + k + 1 - (a + 1) = k by omega, show a + k + 1 - a = k + 1 by omega, nth]
      exact if_congr (by omega) rfl rfl

/-- Lines that a write does not touch read as before under any key slot. -/
theorem Mem.read1_write_line (a b : Nat) (l : List Byte) (h : b / 64 < a / 64 ∨ (a + l.length - 1) / 64 < b / 64) (k : Nat) :
    (m.write key a l).read1 k b = m.read1 k b := by
  induction l generalizing m a with
  | nil => rfl
  | cons v l ih =>
    rw [List.length_cons] at h
    cases l with
    | nil =>
      rw [Mem.write, Mem.write]
      exact m.read1_write1_line key (by simp at h; omega) v k
    | cons u l =>
      rw [List.length_cons] at h
      rw [Mem.write, ih _ _ (by rw [List.length_cons]; omega), m.read1_write1_line key (by omega)]

theorem Mem.read_write (a : Nat) (l : List Byte) : (m.write key a l).read key a l.length = l := by
  refine eq_of_nth 0 (Mem.length_read ..) fun i hi => ?_
  rw [Mem.length_read] at hi
  rw [Mem.nth_read _ _ _ _ hi, Mem.read1_write_key, if_pos (by omega), Nat.add_sub_cancel_left]

/-- A write leaves host memory and peer memory as they were. -/
theorem Mem.write_rest (a : Nat) (l : List Byte) : (m.write key a l).host = m.host ∧ (m.write key a l).peer = m.peer := by
  induction l generalizing m a with
  | nil => exact ⟨rfl, rfl⟩
  | cons v l ih =>
    have h1 : (m.write1 key a v).host = m.host ∧ (m.write1 key a v).peer = m.peer := by
      unfold Mem.write1 Mem.rekey
      dsimp only
      split <;> exact ⟨rfl, rfl⟩
    exact ⟨(ih _ _).1.trans h1.1, (ih _ _).2.trans h1.2⟩

end

/-! ### Read-ahead that is discarded (R388) -/

theorem State.advanceOld_frame (s : State) (r n : Nat) : ∃ v, s.advanceOld r n = { s with cov := v } := by
  induction n generalizing s with
  | zero => exact ⟨_, rfl⟩
  | succ n ih =>
    unfold State.advanceOld
    dsimp only
    split
    · exact ih _
    · exact ⟨_, rfl⟩

theorem State.endStarted_frame (s : State) (x : Option (Nat × Nat)) : ∃ v, s.endStarted x = { s with cov := v } := by
  cases x with
  | none => exact ⟨_, rfl⟩
  | some x =>
    obtain ⟨v, h⟩ := (s.setRegion x.1 ((s.region x.1).setStarted x.2 ((s.region x.1).started x.2 - 1))).advanceOld_frame x.1 3
    show ∃ w, State.uncoverDying (State.advanceOld _ _ _) _ = _
    rw [h]
    unfold State.uncoverDying
    dsimp only
    split
    · exact State.advanceOld_frame ..
    · exact ⟨_, rfl⟩

/-- Discarding read-ahead changes what is held of it, and the counts of the regions. -/
theorem State.dropAhead_frame (s : State) (p : Ahead → Bool) :
    ∃ v l, s.dropAhead p = { s with cov := v, port := { s.port with ahead := l } } := by
  have hfold (l : List Ahead) (s : State) : ∃ v, l.foldl (fun (s : State) h => s.endStarted h.started) s = { s with cov := v } := by
    induction l generalizing s with
    | nil => exact ⟨_, rfl⟩
    | cons h l ih =>
      obtain ⟨v, hv⟩ := s.endStarted_frame h.started
      obtain ⟨w, hw⟩ := ih (s.endStarted h.started)
      rw [List.foldl_cons, hw, hv]
      exact ⟨_, rfl⟩
  obtain ⟨v, hv⟩ := hfold (s.port.ahead.filter p) { s with port := { s.port with ahead := s.port.ahead.filter fun h => !p h } }
  exact ⟨v, _, hv⟩

theorem State.dropWritten_frame (s : State) (pa n : Nat) :
    ∃ v l, s.dropWritten pa n = { s with cov := v, port := { s.port with ahead := l } } := s.dropAhead_frame _

/-! ### LD and ST, case by case -/

section Access
variable {s : State} {t va : Nat} (o : Ops)

theorem ldTrap_high (h : 2 ^ 57 ≤ va) : s.ldTrap t o va = some 1 :=
  if_pos (by rw [Nat.div_ne_zero_iff]; exact ⟨by decide, h⟩)

theorem ldTrap_window (h : va < 2 ^ 57) (hw : windowOf va ≠ .none)
    (hbad : tyBytes o.ty ≠ 8 ∨ va % 8 ≠ 0 ∨ (s.thread t).super = false) : s.ldTrap t o va = some 2 := by
  have hno : ¬ (tyBytes o.ty = 8 ∧ va % 8 = 0 ∧ (s.thread t).super = true) := fun ⟨h1, h2, h3⟩ =>
    hbad.elim (· h1) fun hbad => hbad.elim (· h2) fun hu => absurd (hu.symm.trans h3) (by decide)
  rw [State.ldTrap, if_neg (by rw [Nat.div_eq_of_lt h]; decide), if_pos hw, if_neg hno]
  rfl

theorem ldTrap_align (h : va < 2 ^ 57) (hw : windowOf va = .none) (ha : va % tyBytes o.ty ≠ 0) : s.ldTrap t o va = some 11 := by
  rw [State.ldTrap, if_neg (by rw [Nat.div_eq_of_lt h]; decide), if_neg (not_not.mpr hw), if_pos ha]
  rfl

theorem ldTrap_none (h : va < 2 ^ 57) (hw : windowOf va = .none) (ha : va % tyBytes o.ty = 0) : s.ldTrap t o va = none := by
  rw [State.ldTrap, if_neg (by rw [Nat.div_eq_of_lt h]; decide), if_neg (not_not.mpr hw), if_neg (not_not.mpr ha)]

theorem stewPhys_fail {w : Bool} {n : Nat} (h : s.walkPlain (s.thread t).asid.toNat va w = .fail n) :
    s.stewPhys t va w = .error (.inl (if n = 2 then 2 else if n = 4 then 6 else 1)) := by
  simp only [State.stewPhys, h]
  rfl

theorem stewPhys_covered {w : Bool} {x : Xent} (h : s.walkPlain (s.thread t).asid.toNat va w = .ok x) (hc : x.cv = true) :
    s.stewPhys t va w = .error (.inl 2) := by
  simp only [State.stewPhys, h, hc, if_true]
  rfl

theorem stewPhys_ok {w : Bool} {x : Xent} (h : s.walkPlain (s.thread t).asid.toNat va w = .ok x) (hc : x.cv = false) :
    s.stewPhys t va w = .ok (x.frame + va % 2 ^ x.psz,
      s.keyFor (s.partOfThread t) x va (s.stewKey (s.partOfThread t) (s.thread t).asid.toNat)) := by
  simp only [State.stewPhys, h, hc, Bool.false_eq_true, if_false]
  rfl

/-- Both instructions trap on the checks that come before the access. -/
theorem access_traps (st : Bool) (h : s.focus = .thread t) {c : Nat} (hc : s.ldTrap t o (s.ldAddr o) = some c) :
    exec (if st then .st o else .ld o) s = .next (s.trapAt t c (s.ldAddr o)) := by
  cases st with
  | false => show execLd o s = _; simp only [execLd, h, hc]
  | true => show execSt o s = _; simp only [execSt, h, hc]

/-- Both instructions trap on a failed translation. -/
theorem translation_traps (st : Bool) (h : s.focus = .thread t) (hn : s.ldTrap t o (s.ldAddr o) = none) (hw : windowOf (s.ldAddr o) = .none)
    {c : Nat} (hc : s.stewPhys t (s.ldAddr o) st = .error (.inl c)) :
    exec (if st then .st o else .ld o) s = .next (s.trapAt t c (s.ldAddr o)) := by
  cases st with
  | false => show execLd o s = _; simp only [execLd, h, hn, hw, ne_eq, not_true_eq_false, if_false, hc]
  | true => show execSt o s = _; simp only [execSt, h, hn, hw, ne_eq, not_true_eq_false, if_false, hc]

section
variable (h : s.focus = .thread t) (hn : s.ldTrap t o (s.ldAddr o) = none) (hw : windowOf (s.ldAddr o) = .none) {pa key : Nat}
include h hn hw

theorem ld_poisoned (hp : s.stewPhys t (s.ldAddr o) false = .ok (pa, key)) (hb : s.mem.bad pa (tyBytes o.ty) = true) :
    exec (.ld o) s = .next (s.trapAt t cPoison (s.ldAddr o)) := by
  show execLd o s = _
  simp only [execLd, h, hn, hw, ne_eq, not_true_eq_false, if_false, hp, hb, if_true]

theorem ld_reads (hp : s.stewPhys t (s.ldAddr o) false = .ok (pa, key)) (hb : s.mem.bad pa (tyBytes o.ty) = false) :
    exec (.ld o) s = .next (wordDone s t o (tyExtend o.ty (ofBytes (s.mem.read key pa (tyBytes o.ty))))) := by
  show execLd o s = _
  simp only [execLd, h, hn, hw, ne_eq, not_true_eq_false, if_false, hp, hb, Bool.false_eq_true]
  unfold State.finishWord wordDone
  cases stewDest o.t0 <;> rfl

/-- A store writes its bytes and goes on; of the rest, read-ahead of those bytes is discarded. -/
theorem st_writes (hp : s.stewPhys t (s.ldAddr o) true = .ok (pa, key)) : ∃ v l, exec (.st o) s =
    .next { s.setThread t (s.thread t).advance with
      mem := (s.mem.write key pa (bvBytes (s.opVal o.ty o.imm o.b).v (tyBytes o.ty))).clearSb pa (tyBytes o.ty),
      cov := v, port := { s.port with ahead := l } } := by
  obtain ⟨v, l, hd⟩ := State.dropWritten_frame
    (s.setMem ((s.mem.write key pa (bvBytes (s.opVal o.ty o.imm o.b).v (tyBytes o.ty))).clearSb pa (tyBytes o.ty))) pa (tyBytes o.ty)
  refine ⟨v, l, ?_⟩
  show execSt o s = _
  simp only [execSt, h, hn, hw, ne_eq, not_true_eq_false, if_false, hp, hd]
  rfl

end
end Access

theorem loadStoreTraps : LoadStoreTraps := by
  intro st o s t h hn i va size trap
  have traps {c : Nat} (hc : c < 16) (hi : exec i s = .next (s.trapAt t c va)) : trap c := ⟨_, hi, trapped_trapAt hn hc va⟩
  refine ⟨fun hv => traps (by decide) (access_traps o st h (ldTrap_high o hv)),
    fun hv hw hb => traps (by decide) (access_traps o st h (ldTrap_window o hv hw hb)),
    fun hv hw ha => traps (by decide) (access_traps o st h (ldTrap_align o hv hw ha)), fun n hv hw ha hx => traps ?_ ?_,
    fun x hv hw ha hx => ⟨fun hc => traps (by decide) ?_, fun hc hst hb => traps (by decide) ?_⟩⟩
  · split
    · decide
    · split <;> decide
  · exact translation_traps o st h (ldTrap_none o hv hw ha) hw (stewPhys_fail hx)
  · exact translation_traps o st h (ldTrap_none o hv hw ha) hw (stewPhys_covered hx hc)
  · subst hst
    exact ld_poisoned o h (ldTrap_none o hv hw ha) hw (stewPhys_ok hx hc) hb

theorem loadStoreEffects : LoadStoreEffects := by
  intro o s t x h va size pa key hv hw ha hc
  refine ⟨fun hx hb => ld_reads o h (ldTrap_none o hv hw ha) hw (stewPhys_ok hx hc) hb, fun hx => ?_⟩
  obtain ⟨v, l, hst⟩ := st_writes o h (ldTrap_none o hv hw ha) hw (stewPhys_ok hx hc)
  have hlen : (bvBytes (s.opVal o.ty o.imm o.b).v size).length = size := length_bvBytes ..
  obtain ⟨hhost, hpeer⟩ := s.mem.write_rest key pa (bvBytes (s.opVal o.ty o.imm o.b).v size)
  have hread := s.mem.read_write key pa (bvBytes (s.opVal o.ty o.imm o.b).v size)
  have hin (a : Nat) := s.mem.read1_write_key key pa a (bvBytes (s.opVal o.ty o.imm o.b).v size)
  have hout (a k : Nat) := fun ho => s.mem.read1_write_line key pa a (bvBytes (s.opVal o.ty o.imm o.b).v size) ho k
  rw [hlen] at hread
  simp only [hlen] at hin hout
  have hclear (m : Mem) (k a : Nat) : (m.clearSb pa size).read1 k a = m.read1 k a := rfl
  have hstew : wordDone s t { o with t0 := 0 } 0 = s.setThread t (s.thread t).advance := by
    have hd : stewDest 0 = none := by decide
    simp only [wordDone, hd]
    rfl
  refine ⟨_, hst, by rw [hstew], rfl, rfl, rfl, hhost, hpeer, ?_, fun a ho => ?_, fun a k ho => (hclear ..).trans (hout a k ho)⟩
  · exact (Mem.read_congr fun a => hclear ..).trans hread
  · exact (hclear ..).trans ((hin a).trans (if_neg (by omega)))

end Sys2Proof.Machine

namespace Sys2Proof

/-- Settles O14: the traps in their order, and the bytes that LD reads and ST writes. -/
theorem stewardLoadsAndStores : Obligations.StewardLoadsAndStores := ⟨Machine.loadStoreTraps, Machine.loadStoreEffects⟩

end Sys2Proof
end

section
/-! SUPPORT. Flow nodes (04 R111 to R129): what a firing with a token at p0 does at each of them, and the window that DELAY and TAGSET keep. -/

namespace Sys2Proof.Machine

open Sys2Proof.Claims

/-! ### Side-bands and tokens of a firing -/

theorem sbOr_pair (a b : BitVec 8) : sbOr [a, b] = (a ||| b) &&& 0x7F := by simp [sbOr]

@[simp] theorem and_mask_mask (b : BitVec 8) : b &&& 0x7F &&& 0x7F = b &&& 0x7F := by rw [BitVec.and_assoc, BitVec.and_self]

/-- Bit 7 of an operand's side-band does not reach the joined one. -/
theorem or_mask_and_mask (a b : BitVec 8) : (a ||| b &&& 0x7F) &&& 0x7F = (a ||| b) &&& 0x7F := by
  rw [BitVec.and_or_distrib_right, and_mask_mask, ← BitVec.and_or_distrib_right]

theorem Firing.p0_of_tok {f : Firing} {d : Token} (h : f.tok 0 = some d) : f.p0 = d := by simp [Firing.p0, h]
theorem Firing.portVal_of_tok {f : Firing} {n : Nat} {d : Token} (h : f.tok n = some d) : f.portVal n = ⟨d.pay, d.sb &&& 0x7F⟩ := by
  simp [Firing.portVal, h]

theorem passOut_eq_passed (d : Token) (sb : BitVec 8) : passOut d sb = passed d sb := rfl
theorem outTo_eq_only (t : BitVec 24) (x : Out) : outTo t x = only t x := rfl
/-- A side-band that is masked is passed as it is. -/
theorem passed_mask (d : Token) (sb : BitVec 8) : passed d (sb &&& 0x7F) = passed d sb := by
  rw [passed, and_mask_mask]; rfl

/-- The payload of a tag: its bits from 6 up (R127). -/
theorem ofNat_tagId (t : Word) : BitVec.ofNat 64 (tagId t) = t >>> 6 :=
  BitVec.eq_of_toNat_eq (by simp [tagId, Nat.shiftRight_eq_div_pow]; omega)

/-- The operand of a tag instruction cut to a field of the tag. -/
theorem nfld_zero (v : Word) (n : Nat) : nfld v 0 n = v.toNat % 2 ^ n := by simp [nfld]

/-! ### Nodes that pass, choose, drop and read or write tags -/

section
variable {o : Ops} {s : State} {f : Firing} {d : Token} (h : FiresOn s f d)
include h

theorem flow_firing (g : Firing → State) : s.flow g = .next (g f) := State.flow_node h.1 g

theorem exec_copy : exec (.copy o) s = .next (s.fire f o 1 (both o (passed d d.sb)) d.sb) := by
  show execCopy o s = _
  rw [execCopy, flow_firing h, Firing.p0_of_tok h.2, outBoth_eq_both, passOut_eq_passed]

theorem exec_sink : exec (.sink o) s = .next (s.fire f o 1 [] d.sb) := by
  show execSink o s = _
  rw [execSink, flow_firing h, Firing.p0_of_tok h.2]

theorem exec_nullt : exec (.nullt o) s =
    .next (s.fire f o 1 (both o { passed d (d.sb ||| 0x40) with pay := 0 }) ((d.sb ||| 0x40) &&& 0x7F)) := by
  show execNullt o s = _
  rw [execNullt, flow_firing h, Firing.p0_of_tok h.2]
  dsimp only
  rw [outBoth_eq_both, passOut_eq_passed, sbOr_pair, passed_mask]
  rfl

theorem exec_gate {g : Token} (hg : f.tok 1 = some g) :
    let j := (d.sb ||| g.sb) &&& 0x7F
    exec (.gate o) s = .next (s.fire f o 1 (both o { passed d j with pay := if sbNL j || sbPZ j then 0 else d.pay, hist := f.hist }) j) := by
  intro j
  show execGate o s = _
  rw [execGate, flow_firing h, Firing.p0_of_tok h.2, Firing.portVal_of_tok hg]
  dsimp only
  rw [outBoth_eq_both, passOut_eq_passed, sbOr_pair, or_mask_and_mask]
  rfl

theorem exec_tagget : exec (.tagget o) s = .next (s.fire f o 1
    (both o { passed d d.sb with kind := .scalar, pay := if sbPZ d.sb then 0 else f.tag >>> 6 }) d.sb) := by
  show execTagget o s = _
  rw [execTagget, flow_firing h, Firing.p0_of_tok h.2]
  dsimp only
  rw [outBoth_eq_both, passOut_eq_passed, ofNat_tagId]

theorem exec_keyget : exec (.keyget o) s = .next (s.fire f o 1
    (both o { passed d d.sb with kind := .scalar, pay := if sbPZ d.sb then 0 else BitVec.ofNat 64 (tagKey f.tag) }) d.sb) := by
  show execKeyget o s = _
  rw [execKeyget, flow_firing h, Firing.p0_of_tok h.2]
  dsimp only
  rw [outBoth_eq_both, passOut_eq_passed]

theorem exec_genchk : exec (.genchk o) s = .next (s.fire f o 1
    (if tagGen f.tag = (s.colLoad (tagCol f.tag) d.load).egen.toNat then only o.t0 (passed d d.sb) else only o.t1 (passed d d.sb)) d.sb) := by
  show execGenchk o s = _
  rw [execGenchk, flow_firing h, Firing.p0_of_tok h.2]
  simp only [beq_iff_eq, passOut_eq_passed, outTo_eq_only]

theorem exec_entry : exec (.entry o) s = .next (s.fire f o 1 (both o ⟨0, 0, .scalar, tyExtend o.ty d.pay.toNat, none, f.tag, []⟩) 0) := by
  show execEntry o s = _
  rw [execEntry, flow_firing h, Firing.p0_of_tok h.2, outBoth_eq_both]

theorem exec_steer :
    let c := s.route o
    let j := (d.sb ||| c.sb) &&& 0x7F
    exec (.steer o) s = .next (s.fire f o 1
      (if sbPZ c.sb || sbPZ d.sb then both o { passed d (j ||| 0x20) with pay := 0, hist := f.hist }
       else if sbNL c.sb then both o { passed d (j ||| 0x40) with pay := 0, hist := f.hist }
       else if c.v.getLsbD 0 then only o.t0 { passed d j with hist := f.hist } else only o.t1 { passed d j with hist := f.hist }) j) := by
  intro c j
  show execSteer o s = _
  rw [execSteer, flow_firing h, Firing.p0_of_tok h.2]
  simp only [outBoth_eq_both, passOut_eq_passed, sbOr_pair, outTo_eq_only]
  rfl

/-- A token with the payload that joins the side-band of a second operand, as TAGSET and KEYSET send it. -/
def joined (f : Firing) (d : Token) (j : BitVec 8) : Out :=
  { passed d j with pay := if sbNL j || sbPZ j then 0 else d.pay, hist := f.hist }

theorem exec_keyset :
    let c := s.route o
    let j := (d.sb ||| c.sb) &&& 0x7F
    exec (.keyset o) s = .next (s.fire f o 1 (both o (if sbNL c.sb || sbPZ c.sb then joined f d j
      else { joined f d j with tag := tagWithKey f.tag (c.v.toNat % 65536) })) j) := by
  intro c j
  show execKeyset o s = _
  rw [execKeyset, flow_firing h, Firing.p0_of_tok h.2]
  simp only [outBoth_eq_both, passOut_eq_passed, sbOr_pair, nfld_zero]
  rfl

end

/-- MERGE passes the one token that its firing holds, at either port (R118). -/
theorem exec_merge {o : Ops} {s : State} {f : Firing} {d : Token} (hf : s.focus = .node f)
    (h : f.tok 0 = some d ∨ (f.tok 0 = none ∧ f.tok 1 = some d)) :
    exec (.merge o) s = .next (s.fire f o 1 (both o (passed d d.sb)) d.sb) := by
  have ht : (match f.tok 0 with | some t => t | none => (f.tok 1).getD f.p0) = d := by
    obtain h | ⟨h0, h1⟩ := h
    · rw [h]
    · rw [h0, h1]; rfl
  show execMerge o s = _
  rw [execMerge, State.flow_node hf]
  dsimp only
  rw [outBoth_eq_both, passOut_eq_passed]
  exact congrArg (fun t : Token => Host.Outcome.next (s.fire f o 1 (both o (passed t t.sb)) t.sb)) ht

/-! ### Second operands (R112) -/

theorem routingOperands : RoutingOperands := by
  intro o s f hf
  refine ⟨fun g hb hg => ?_, fun v hb => ?_, fun hb => ?_, fun n hb => ?_⟩
  · rw [State.route, hb]
    simp only [State.opVal, hf]
    exact Firing.portVal_of_tok hg
  · rw [State.route, hb]; rfl
  · rw [State.route, hb]
  · rw [State.route, hb]
    simp only [State.opVal, hf]

/-! ### DELAY and TAGSET (R125, R126) -/

@[simp] theorem tagIter_tagWithIter (t : Word) (i : Nat) : tagIter (tagWithIter t i) = i % 2 ^ 24 := tagIter_mkTag ..

/-- A result with a new iteration is sent when its age lies within the window, and is parked with a fault otherwise. -/
theorem State.retag_iter {s : State} {f : Firing} {d : Token} (hp : f.p0 = d) (o : Ops) {x : Out} {sb : BitVec 8} (hx : x.sb = sb) {i : Nat}
    (hi : i < 2 ^ 24) :
    s.retag f o { x with tag := tagWithIter f.tag i } =
      if age (s.oldest (tagCol f.tag) d.load) i < s.window (tagCol f.tag) (s.loadAt f.e f.ctx) then
        s.fire f o 1 (both o { x with tag := tagWithIter f.tag i }) sb
      else s.outsideWindow f o (both o { x with tag := tagWithIter f.tag i }) sb := by
  rw [← hx, State.retag, hp]
  dsimp only
  rw [tagIter_tagWithIter, Nat.mod_eq_of_lt hi, outBoth_eq_both]

/-- ELATCH lies in the elements. -/
theorem State.latch_frame (s : State) (f : Firing) (o : Ops) (bits : BitVec 8) :
    ∃ es, s.latch f o bits = { s with fab := { s.fab with elems := es } } := by
  unfold State.latch
  split
  · exact ⟨_, rfl⟩
  · exact ⟨_, rfl⟩

/-- Credits lie in the elements and INFLT in the colours. -/
theorem State.settle_frame (s : State) (e c n m : Nat) : ∃ es cs, s.settle e c n m = { s with colours := cs, fab := { s.fab with elems := es } } := by
  unfold State.settle
  split
  · exact ⟨_, _, rfl⟩
  · obtain h | ⟨v, h⟩ := s.inflDown_frame c (n - m)
    · exact ⟨_, _, h⟩
    · exact ⟨_, _, h⟩

/-- A fold of steps that change the tokens alone changes the tokens alone. -/
theorem foldl_tokens_frame {α : Type} {g : State → α → State} (hg : ∀ s x, ∃ ts, g s x = s.setTokens ts) (l : List α) (s : State) :
    ∃ ts, l.foldl g s = s.setTokens ts := by
  induction l generalizing s with
  | nil => exact ⟨_, rfl⟩
  | cons x l ih =>
    obtain ⟨ts, h⟩ := hg s x
    rw [List.foldl_cons, h]
    exact ih _

/-- A result outside the window leaves the firing with no results, the results parked, and a fault; the rest of the state stands. -/
theorem State.outsideWindow_eq (s : State) (f : Firing) (o : Ops) (outs : List Out) (sb : BitVec 8) :
    ∃ es ts cs, s.outsideWindow f o outs sb = State.raiseFault
      { s with colours := cs, fab := { s.fab with elems := es, tokens := ts, units := issued s f 1 [] }, focus := .thread 0 } (f.info cConfig sb) := by
  have hparked : ∃ ts, s.outsideWindow f o outs sb =
      ((((s.setTokens ts).latch f o sb).settle f.e (tagCol f.tag) f.count (outCount outs)).toUnit f 1 []).raiseFault (f.info cConfig sb) := by
    refine (foldl_tokens_frame (fun s x => ?_) outs s).imp fun ts h =>
      congrArg (fun t => (((State.latch t f o sb).settle f.e (tagCol f.tag) f.count (outCount outs)).toUnit f 1 []).raiseFault (f.info cConfig sb)) h
    split
    · exact ⟨_, rfl⟩
    · exact ⟨_, rfl⟩
  obtain ⟨ts, h⟩ := hparked
  obtain ⟨_, hl⟩ := (s.setTokens ts).latch_frame f o sb
  obtain ⟨es, cs, k⟩ := ((s.setTokens ts).latch f o sb).settle_frame f.e (tagCol f.tag) f.count (outCount outs)
  refine ⟨es, ts, cs, ?_⟩
  rw [h, k, hl]
  rfl

/-- A fault of a tag that no purge covers and no open round holds is recorded as it is (R262). -/
theorem State.raiseFault_faults {s : State} {f : FaultInfo} (hp : s.purgedAt f.e f.tag = false)
    (hr : s.roundOf (tagCol f.tag) (s.loadidAt f.e (tagCtx f.tag)) (tagIter f.tag) = none) :
    ∃ q, (s.raiseFault f).fab.faults = s.fab.faults ++ [q] ∧ q.tag = f.tag := by
  rw [State.raiseFault]
  simp only [hp, hr, Bool.false_eq_true, if_false]
  obtain ⟨ps, ts, js, h⟩ := s.parkRange_frame ((s.partOfElem f.e).getD 0) (tagCol f.tag) (tagIter f.tag) (tagIter f.tag) (some (s.loadidAt f.e (tagCtx f.tag)))
  rw [h]
  exact ⟨_, rfl, rfl⟩

theorem State.outsideWindow_units (s : State) (f : Firing) (o : Ops) (outs : List Out) (sb : BitVec 8) :
    (s.outsideWindow f o outs sb).fab.units = issued s f 1 [] := by
  obtain ⟨es, ts, cs, h⟩ := s.outsideWindow_eq f o outs sb
  rw [h]
  obtain ⟨ts, js, ps, fs, k⟩ := State.raiseFault_frame _ (f.info cConfig sb)
  rw [k]

theorem State.outsideWindow_faults {s : State} {f : Firing} (o : Ops) (outs : List Out) (sb : BitVec 8) (hp : s.purgedAt f.e f.tag = false)
    (hr : s.roundOf (tagCol f.tag) (s.loadidAt f.e (tagCtx f.tag)) (tagIter f.tag) = none) :
    ∃ q, (s.outsideWindow f o outs sb).fab.faults = s.fab.faults ++ [q] ∧ q.tag = f.tag := by
  obtain ⟨es, ts, cs, h⟩ := s.outsideWindow_eq f o outs sb
  rw [h]
  exact State.raiseFault_faults hp hr

section
variable {o : Ops} {s : State} {f : Firing} {d : Token} (h : FiresOn s f d)
include h

/-- DELAY moves the iteration on by its immediate. -/
theorem exec_delay :
    let i := (tagIter f.tag + o.imm.toNat) % 2 ^ 24
    let x : Out := { passed d d.sb with tag := tagWithIter f.tag i }
    exec (.delay o) s = .next (
      if age (s.oldest (tagCol f.tag) d.load) i < s.window (tagCol f.tag) (s.loadAt f.e f.ctx) then s.fire f o 1 (both o x) (d.sb &&& 0x7F)
      else s.outsideWindow f o (both o x) (d.sb &&& 0x7F)) := by
  intro i x
  have hr := State.retag_iter (Firing.p0_of_tok h.2) o (s := s) (x := passed d d.sb) rfl (Nat.mod_lt (tagIter f.tag + o.imm.toNat) (Nat.two_pow_pos 24))
  show execDelay o s = _
  rw [execDelay, flow_firing h, Firing.p0_of_tok h.2, passOut_eq_passed]
  exact congrArg Host.Outcome.next hr

/-- TAGSET takes the iteration from its second operand, unless that is null or poisoned. -/
theorem exec_tagset :
    let c := s.route o
    let j := (d.sb ||| c.sb) &&& 0x7F
    let n := c.v.toNat % 2 ^ 24
    let x : Out := { joined f d j with tag := tagWithIter f.tag n }
    exec (.tagset o) s = .next (
      if sbNL c.sb || sbPZ c.sb then s.fire f o 1 (both o (joined f d j)) j
      else if age (s.oldest (tagCol f.tag) d.load) n < s.window (tagCol f.tag) (s.loadAt f.e f.ctx) then s.fire f o 1 (both o x) j
      else s.outsideWindow f o (both o x) j) := by
  intro c j n x
  have hr := State.retag_iter (Firing.p0_of_tok h.2) o (s := s) (x := joined f d j) (and_mask_mask (d.sb ||| c.sb)) (Nat.mod_lt c.v.toNat (Nat.two_pow_pos 24))
  show execTagset o s = _
  rw [execTagset, flow_firing h, Firing.p0_of_tok h.2]
  simp only [outBoth_eq_both, passOut_eq_passed, sbOr_pair, nfld_zero]
  exact congrArg (fun t => Host.Outcome.next (if sbNL c.sb || sbPZ c.sb then s.fire f o 1 (both o (joined f d j)) j else t)) hr

end

theorem delayKeepsTheWindow {o : Ops} {s : State} {f : Firing} {d : Token} (h : FiresOn s f d) :
    let i := (tagIter f.tag + o.imm.toNat) % 2 ^ 24
    ¬ age (s.oldest (tagCol f.tag) d.load) i < s.window (tagCol f.tag) (s.loadAt f.e f.ctx) →
    Ends (.delay o) s fun s' => s' = s.outsideWindow f o (both o { passed d d.sb with tag := tagWithIter f.tag i }) (d.sb &&& 0x7F) ∧
      s'.fab.units = issued s f 1 [] ∧
      (s.purgedAt f.e f.tag = false → s.roundOf (tagCol f.tag) (s.loadidAt f.e (tagCtx f.tag)) (tagIter f.tag) = none →
        ∃ q : PendFault, s'.fab.faults = s.fab.faults ++ [q] ∧ q.tag = f.tag) := by
  intro i hw
  refine ⟨_, (exec_delay h).trans (by rw [if_neg hw]), rfl, ?_, ?_⟩
  · exact State.outsideWindow_units ..
  · exact State.outsideWindow_faults o _ _

theorem delayAndTagsetKeepTheWindow : DelayAndTagsetKeepTheWindow := by
  intro o s f d h c j window inside i n x
  refine ⟨fun hw => ?_, fun hw => delayKeepsTheWindow h (of_decide_eq_false hw), fun hc => ?_, fun hc hw => ?_, fun hc hw => ?_⟩
  · exact (exec_delay h).trans (by rw [if_pos (of_decide_eq_true hw)])
  · exact (exec_tagset h).trans (by rw [if_pos hc]; rfl)
  · exact (exec_tagset h).trans (by rw [if_neg (by simpa using hc), if_pos (of_decide_eq_true hw)]; rfl)
  · exact (exec_tagset h).trans (by rw [if_neg (by simpa using hc), if_neg (of_decide_eq_false hw)]; rfl)

theorem flowNodesPassTokens : FlowNodesPassTokens := by
  intro o s f d h c j
  exact ⟨exec_copy h, exec_steer h, exec_merge h.1 (.inl h.2), exec_sink h, exec_nullt h, fun g hg => exec_gate h hg, exec_tagget h, exec_keyget h,
    exec_keyset h, exec_genchk h, exec_entry h, fun s1 f1 hf h0 h1 => exec_merge hf (.inr ⟨h0, h1⟩)⟩

end Sys2Proof.Machine

namespace Sys2Proof

/-- Settles O24: each flow node on a firing with a token at p0, the second operands, and the window. -/
theorem flowNodes : Obligations.FlowNodes := ⟨Machine.flowNodesPassTokens, Machine.routingOperands, Machine.delayAndTagsetKeepTheWindow⟩

end Sys2Proof
end

section
/-! SUPPORT. Counts, barriers and events (04 R120, R121, R131): JOINN, BAR and EMIT. -/

namespace Sys2Proof.Machine

open Sys2Proof.Claims

/-! ### JOINN -/

/-- The join that counts at the position and tag of a firing. -/
def Firing.joins (f : Firing) (j : Join) : Bool := j.e == f.e && j.slot == f.slot && tagEq j.tag f.tag

/-- The joins of the other positions and tags. -/
def State.otherJoins (s : State) (f : Firing) : List Join := s.fab.joins.filter fun j => !f.joins j

/-- The count that a JOINN finds: the one held, or an empty one. -/
def State.joinFound (s : State) (f : Firing) (d : Token) : Join :=
  (lfind f.joins s.fab.joins).getD ⟨f.e, f.slot, f.tag, 0, 0, 0, [], d.load, false, d.seq⟩

/-- A count with one token more. -/
def Join.plus (j : Join) (d : Token) : Join :=
  { j with count := j.count + 1, sum := j.sum + d.pay, sb := (j.sb ||| d.sb) &&& 0x7F, hist := j.hist ++ d.hist }

/-- What the token that ends a count sends. -/
def Join.sent (j : Join) (f : Firing) : Out := ⟨0, j.sb, .scalar, if sbNL j.sb || sbPZ j.sb then 0 else j.sum, none, f.tag, j.hist⟩

/-- A firing that settles and goes to its unit leaves joins, tokens, memory and stewards. -/
theorem State.settle_toUnit_fields (t : State) (f : Firing) (n m : Nat) (outs : List Out) :
    let s' := (t.settle f.e (tagCol f.tag) n m).toUnit f 1 outs
    s'.fab.joins = t.fab.joins ∧ s'.fab.units = issued t f 1 outs ∧ s'.fab.tokens = t.fab.tokens ∧ s'.mem = t.mem ∧ s'.stew = t.stew := by
  obtain ⟨es, cs, k⟩ := t.settle_frame f.e (tagCol f.tag) n m
  rw [k]
  exact ⟨rfl, rfl, rfl, rfl, rfl⟩

section
variable {o : Ops} {s : State} {f : Firing} {d : Token} (h : FiresOn s f d)
include h

theorem exec_joinn :
    let j := (s.joinFound f d).plus d
    let n := 1 + if (lfind f.joins s.fab.joins).isSome then 1 else 0
    let others : State := { s with fab := { s.fab with joins := s.otherJoins f } }
    exec (.joinn o) s = .next (
      if j.count < o.imm.toNat then
        (State.settle { s with fab := { s.fab with joins := s.otherJoins f ++ [j] } } f.e (tagCol f.tag) n 1).toUnit f 1 []
      else ((others.latch f o j.sb).settle f.e (tagCol f.tag) n (outCount (both o (j.sent f)))).toUnit f 1 (both o (j.sent f))) := by
  intro j n others
  show execJoinn o s = _
  rw [execJoinn, State.flow_node h.1, Firing.p0_of_tok h.2]
  simp only [sbOr_pair, outBoth_eq_both]
  rfl

/-- A token that does not end the count is held in it. -/
theorem joinn_counts (hn : ((s.joinFound f d).plus d).count < o.imm.toNat) : Ends (.joinn o) s fun s' =>
    s'.fab.joins = s.otherJoins f ++ [(s.joinFound f d).plus d] ∧ s'.fab.units = issued s f 1 [] ∧ s'.fab.tokens = s.fab.tokens ∧
      s'.mem = s.mem ∧ s'.stew = s.stew := by
  refine ⟨_, exec_joinn h, ?_⟩
  rw [if_pos hn]
  exact State.settle_toUnit_fields ..

/-- The token that ends the count sends the sum. -/
theorem joinn_sends (hn : o.imm.toNat ≤ ((s.joinFound f d).plus d).count) : Ends (.joinn o) s fun s' =>
    s'.fab.joins = s.otherJoins f ∧ s'.fab.units = issued s f 1 (both o (((s.joinFound f d).plus d).sent f)) ∧ s'.fab.tokens = s.fab.tokens ∧
      s'.mem = s.mem ∧ s'.stew = s.stew := by
  refine ⟨_, exec_joinn h, ?_⟩
  rw [if_neg (Nat.not_lt.mpr hn)]
  obtain ⟨es, hl⟩ := State.latch_frame { s with fab := { s.fab with joins := s.otherJoins f } } f o ((s.joinFound f d).plus d).sb
  rw [hl]
  exact State.settle_toUnit_fields ..

end

theorem joinnCountsAndSums : JoinnCountsAndSums := by
  intro o s f d h mine rest
  have hnew (hj : lfind mine s.fab.joins = none) : s.joinFound f d = ⟨f.e, f.slot, f.tag, 0, 0, 0, [], d.load, false, d.seq⟩ :=
    congrArg (Option.getD · _) hj
  have hold {j : Join} (hj : lfind mine s.fab.joins = some j) : s.joinFound f d = j := congrArg (Option.getD · _) hj
  refine ⟨fun hj hn => ?_, fun hj hn => ?_, fun j hj hn => ?_, fun j hj hn => ?_⟩
  · obtain ⟨s', he, hjs, hrest⟩ := joinn_counts h (o := o) (by rw [hnew hj]; exact hn)
    rw [hnew hj] at hjs
    exact ⟨s', he, ⟨_, hjs, rfl, rfl, rfl, rfl, BitVec.zero_add _, congrArg (· &&& 0x7F) BitVec.zero_or⟩, hrest⟩
  · have hsum : (s.joinFound f d).plus d = ⟨f.e, f.slot, f.tag, 1, d.pay, d.sb &&& 0x7F, d.hist, d.load, false, d.seq⟩ := by
      have hsb : (0 ||| d.sb) &&& 0x7F = d.sb &&& 0x7F := congrArg (· &&& 0x7F) BitVec.zero_or
      rw [hnew hj]
      exact congrArg₂ (Join.mk f.e f.slot f.tag 1 · · d.hist d.load false d.seq) (BitVec.zero_add _) hsb
    have hs := joinn_sends h (o := o) (by rw [hnew hj]; exact hn)
    rwa [hsum] at hs
  · have := joinn_counts h (o := o) (by rw [hold hj]; exact hn)
    rwa [hold hj] at this
  · have := joinn_sends h (o := o) (by rw [hold hj]; exact hn)
    rwa [hold hj] at this

/-! ### BAR -/

theorem State.barNext_setBarNext (s : State) (e slot col : Nat) (load : Word) (n : Nat) :
    (s.setBarNext e slot col load n).barNext e slot col load = n := by
  simp [State.barNext, State.setBarNext, lfind]

/-- With no held token of NEXT nothing is released. -/
theorem barRelease_none {held : List Token} {next : Nat} (h : ∀ x ∈ held, tagIter x.tag ≠ next) (n : Nat) : barRelease held next n = ([], next) := by
  have hnow : held.filter (fun t => tagIter t.tag == next) = [] := List.filter_eq_nil_iff.mpr fun x hx => by simpa using h x hx
  cases n with
  | zero => rfl
  | succ n => rw [barRelease]; simp [hnow]

/-- A lone token of NEXT is released, and NEXT moves on by one. -/
theorem barRelease_single {t : Token} {next : Nat} (h : tagIter t.tag = next) (hn : next < 2 ^ 24) :
    barRelease [t] next 2 = ([t], (next + 1) % iterMod) := by
  have hmoved : tagIter t.tag ≠ (next + 1) % iterMod := by rw [h, iterMod]; omega
  have hrest : barRelease [t] ((next + 1) % iterMod) 1 = ([], (next + 1) % iterMod) :=
    barRelease_none (by simpa using hmoved) 1
  rw [barRelease, hrest]
  simp [h]

theorem mem_insertSeq {t x : Token} {l : List Token} : x ∈ insertSeq t l ↔ x = t ∨ x ∈ l := by
  induction l with
  | nil => simp [insertSeq]
  | cons u us ih =>
    rw [insertSeq]
    split
    · rw [List.mem_cons]
    · rw [List.mem_cons, ih, List.mem_cons]; tauto

theorem State.latchAll_frame (s : State) (f : Firing) (o : Ops) (l : List Token) : ∃ es, s.latchAll f o l = { s with fab := { s.fab with elems := es } } := by
  induction l generalizing s with
  | nil => exact ⟨_, rfl⟩
  | cons x l ih =>
    obtain ⟨es, h⟩ := s.latch_frame { f with tag := x.tag } o x.sb
    rw [State.latchAll, h]
    exact ih _

/-- The tokens that a BAR holds for the colour and load of a firing, with that of the firing among them. -/
def State.barQueue (s : State) (f : Firing) (d : Token) : List Token :=
  insertSeq { d with place := .barHold } ((s.fab.tokens.filter f.barHeld).filter fun x => x != d)

section
variable {o : Ops} {s : State} {f : Firing} {d : Token} (h : FiresOn s f d)
include h

theorem State.barPlan_pass (hold : age (s.oldest (tagCol f.tag) d.load) (tagIter f.tag) <
    age (s.oldest (tagCol f.tag) d.load) (s.barNext f.e f.slot (tagCol f.tag) d.load)) : (s.barPlan f).pass = true := by
  rw [State.barPlan, Firing.p0_of_tok h.2]
  dsimp only
  rw [if_pos hold]

theorem State.barPlan_queue (hold : age (s.oldest (tagCol f.tag) d.load) (s.barNext f.e f.slot (tagCol f.tag) d.load) ≤
    age (s.oldest (tagCol f.tag) d.load) (tagIter f.tag)) {out : List Token} {n : Nat}
    (hr : barRelease (s.barQueue f d) (s.barNext f.e f.slot (tagCol f.tag) d.load) ((s.barQueue f d).length + 1) = (out, n)) :
    s.barPlan f = ⟨false, s.barQueue f d, out, n⟩ := by
  have hq : s.barQueue f d = insertSeq { d with place := .barHold } (s.fab.tokens.filter fun x => f.barHeld x && x != d) := by
    rw [State.barQueue, List.filter_filter]
    simp only [Bool.and_comm]
  rw [hq] at hr ⊢
  rw [State.barPlan, Firing.p0_of_tok h.2]
  dsimp only
  rw [if_neg (Nat.not_lt.mpr hold), hr]

theorem exec_bar_pass (hp : (s.barPlan f).pass = true) : exec (.bar o) s = .next (s.fire f o 1 (both o (passed d d.sb)) d.sb) := by
  show execBar o s = _
  rw [execBar, State.flow_node h.1, Firing.p0_of_tok h.2]
  dsimp only
  rw [if_pos hp, outBoth_eq_both, passOut_eq_passed]

/-- A firing that does not pass: what its plan holds and releases. -/
theorem bar_queues {held out : List Token} {n : Nat} (hp : s.barPlan f = ⟨false, held, out, n⟩) : Ends (.bar o) s fun s' =>
    s'.fab.tokens = s.fab.tokens.filter (fun x => !f.barHeld x) ++ held.filter (fun x => !out.contains x) ∧
      s'.fab.units = issued s f 1 (out.map fun x => both o (passed x x.sb)).flatten ∧
      s'.barNext f.e f.slot (tagCol f.tag) d.load = n ∧ s'.mem = s.mem ∧ s'.stew = s.stew := by
  let keep := s.fab.tokens.filter (fun x => !f.barHeld x) ++ held.filter fun x => !out.contains x
  let outs := (out.map fun x => both o (passed x x.sb)).flatten
  let s1 := (s.setTokens keep).setBarNext f.e f.slot (tagCol f.tag) d.load n
  have hexec : exec (.bar o) s =
      .next (((s1.latchAll f o out).settle f.e (tagCol f.tag) (1 + out.length) (outCount outs + 1)).toUnit f 1 outs) := by
    show execBar o s = _
    rw [execBar, State.flow_node h.1, Firing.p0_of_tok h.2]
    simp only [hp, outBoth_eq_both, passOut_eq_passed]
    rfl
  obtain ⟨_, hl⟩ := s1.latchAll_frame f o out
  obtain ⟨es, cs, hs⟩ := (s1.latchAll f o out).settle_frame f.e (tagCol f.tag) (1 + out.length) (outCount outs + 1)
  rw [hs, hl] at hexec
  exact ⟨_, hexec, rfl, rfl, (s.setTokens keep).barNext_setBarNext f.e f.slot (tagCol f.tag) d.load n, rfl, rfl⟩

end

theorem barOrdersIterations : BarOrdersIterations := by
  intro o s f d h hd col oldest next held others
  refine ⟨fun hold => exec_bar_pass h (State.barPlan_pass h hold), fun hold hne hheld => ?_, fun hnext hlt hheld => ?_⟩
  · have hnone : ∀ x ∈ s.barQueue f d, tagIter x.tag ≠ next := fun x hx => by
      obtain rfl | hx := mem_insertSeq.mp hx
      · exact hd.trans_ne hne
      · exact hheld x (List.mem_of_mem_filter hx)
    obtain ⟨s', he, htok, hrest⟩ := bar_queues h (o := o) (State.barPlan_queue h hold (barRelease_none hnone _))
    refine ⟨s', he, ?_, hrest⟩
    rw [htok]
    simp [State.barQueue, others, held]
  · have hq : s.barQueue f d = [{ d with place := .barHold }] := by
      rw [State.barQueue, show s.fab.tokens.filter f.barHeld = [] from hheld]; rfl
    have hr : barRelease (s.barQueue f d) next ((s.barQueue f d).length + 1) = ([{ d with place := .barHold }], (next + 1) % iterMod) := by
      rw [hq]; exact barRelease_single (hd.trans hnext) hlt
    obtain ⟨s', he, htok, hunits, hrest⟩ := bar_queues h (o := o) (State.barPlan_queue h (hnext ▸ Nat.le_refl _) hr)
    refine ⟨s', he, ?_, ?_, hrest⟩
    · rw [htok, hq]
      simp [others]
    · rw [hunits]
      simp [passed]

/-! ### EMIT -/

/-- The fields of a USER event (Table 7.10). -/
theorem userEvent_fields (d : Token) (e : Nat) (code : Nat) :
    let ev := userEvent d e code
    fld ev 60 4 = 1#4 ∧ fld ev 44 16 = BitVec.ofNat 16 code ∧ fld ev 36 8 = d.sb &&& 0x7F ∧ nfld ev 34 2 = tagCtx d.tag ∧ nfld ev 22 12 = tagCol d.tag ∧
      fld ev 64 64 = tagClean d.tag ∧ fld ev 128 64 = d.pay := by
  have hof {w : Nat} (v : BitVec w) : BitVec.ofNat w v.toNat = v := by rw [BitVec.ofNat_toNat, BitVec.setWidth_eq]
  have hmod (lo len : Nat) : nfld d.tag lo len % 2 ^ len = nfld d.tag lo len := Nat.mod_mod ..
  refine ⟨fld_pack _ _ _ _ 1 rfl (by simp), fld_pack _ _ _ _ code rfl (by simp), (fld_pack _ _ _ _ (d.sb &&& 0x7F).toNat rfl (by simp)).trans (hof _),
    (nfld_pack _ _ _ _ (tagCtx d.tag) rfl (by simp)).trans (hmod ..), (nfld_pack _ _ _ _ (tagCol d.tag) rfl (by simp)).trans (hmod ..),
    (fld_pack _ _ _ _ (tagClean d.tag).toNat rfl (by simp)).trans (hof _), (fld_pack _ _ _ _ d.pay.toNat rfl (by simp)).trans (hof _)⟩

/-- An event that finds space enters the queue. -/
theorem State.sendEvent_space {s : State} {p : Nat} (hl : (s.part p).events.length < 224) (hh : (s.part p).held = []) (ev : Event) :
    s.sendEvent p ev = s.setPart p { s.part p with events := (s.part p).events ++ [ev] } := by
  obtain ⟨h, -⟩ | ⟨-, h⟩ := s.sendEvent_eq p ev
  · exact h
  · exact absurd h (by simp [hh]; omega)

section
variable {o : Ops} {s : State} {f : Firing} {d : Token} (h : FiresOn s f d)
include h

theorem exec_emit :
    let p := (s.partOfElem f.e).getD 0
    exec (.emit o) s = .next (
      if sbPZ d.sb then s.faultFiring f (f.info cPoison d.sb)
      else if (s.part p).events.length < 224 && (s.part p).held.isEmpty then (s.fire f o 1 [] d.sb).sendEvent p (userEvent d f.e o.imm.toNat)
      else { ((s.latch f o d.sb).addToken { d with place := .emitWait }) with focus := .thread 0 }) := by
  show execEmit o s = _
  rw [execEmit, State.flow_node h.1, Firing.p0_of_tok h.2]

theorem emit_writes (hz : sbPZ d.sb = false) (hl : (s.part ((s.partOfElem f.e).getD 0)).events.length < 224)
    (hh : (s.part ((s.partOfElem f.e).getD 0)).held = []) :
    let p := (s.partOfElem f.e).getD 0
    exec (.emit o) s = .next { s.fire f o 1 [] d.sb with
      parts := tset Part.reset s.parts p { s.part p with events := (s.part p).events ++ [userEvent d f.e o.imm.toNat] } } := by
  intro p
  obtain ⟨es, cs, us, k⟩ := s.fire_frame f o 1 [] d.sb
  rw [exec_emit h, hz, if_neg Bool.false_ne_true, if_pos (by simp [hl, hh]), k]
  exact congrArg Host.Outcome.next (State.sendEvent_space (by exact hl) (by exact hh) _)

end

/-- EMIT_SPACE_RESUME with space for the oldest firing that waits. -/
theorem emitSpaceResume_writes {s : State} {e k : Nat} {d : Token}
    (hk : findIdx? (fun t : Token => t.place == .emitWait && !t.parked && (match t.dst with | .node g _ _ => g == e | _ => false)) s.fab.tokens 0 = some k)
    (hd : nth? s.fab.tokens k = some d) (hl : (s.part ((s.partOfElem e).getD 0)).events.length < 224)
    (hh : (s.part ((s.partOfElem e).getD 0)).held = []) :
    ∃ code, exec (.emitSpaceResume e) s = .next (((s.setTokens (dropNth s.fab.tokens k)).inflDown (tagCol d.tag) 1).sendEvent
      ((s.partOfElem e).getD 0) (userEvent d e code)) := by
  rw [show exec (.emitSpaceResume e) s = execEmitSpaceResume e s from rfl, execEmitSpaceResume]
  dsimp only
  split
  · next hnone => exact absurd (hk.symm.trans hnone) (by simp)
  · next k' hk' =>
    obtain rfl : k = k' := Option.some.inj (hk.symm.trans hk')
    rw [if_pos (by simp [hl, hh]), hd]
    exact ⟨_, rfl⟩

theorem emitWritesAnEventOrWaits : EmitWritesAnEventOrWaits := by
  constructor
  · intro o s f d h p space
    refine ⟨fun hz => ?_, fun hz hs => ?_, fun hz hs => ?_⟩
    · rw [exec_emit h, if_pos hz]; rfl
    · obtain ⟨hl, hh⟩ := Bool.and_eq_true_iff.mp hs
      obtain ⟨hty, hcode, hrest⟩ := userEvent_fields d f.e o.imm.toNat
      exact ⟨_, emit_writes h hz (of_decide_eq_true hl) (List.isEmpty_iff.mp hh), _, rfl, hty, hcode.trans (by simp), hrest⟩
    · obtain ⟨es, k⟩ := s.latch_frame f o d.sb
      refine ⟨_, exec_emit h, ?_⟩
      rw [if_neg (by simp [hz]), if_neg (by simpa [space] using hs), k]
      exact ⟨rfl, rfl, rfl, rfl⟩
  · intro s e k d p hk hd hl hh
    obtain ⟨code, he⟩ := emitSpaceResume_writes hk hd hl hh
    let taken := (s.setTokens (dropNth s.fab.tokens k)).inflDown (tagCol d.tag) 1
    rw [State.sendEvent_space (s := taken) hl hh] at he
    obtain ⟨hty, -, -, -, -, -, hpay⟩ := userEvent_fields d e code
    exact ⟨_, he, _, rfl, rfl, rfl, hty, hpay, rfl⟩

end Sys2Proof.Machine

namespace Sys2Proof

/-- Settles O25: the count of a JOINN, the order that a BAR keeps, and the events of EMIT. -/
theorem countsBarriersAndEvents : Obligations.CountsBarriersAndEvents :=
  ⟨Machine.joinnCountsAndSums, Machine.barOrdersIterations, Machine.emitWritesAnEventOrWaits⟩

end Sys2Proof
end

section
/-! SUPPORT. Rounds (04 R122, 11 R338 to R342): a round opens, behind a reconfiguration token where one is needed, is reported complete, and is prepared. -/

namespace Sys2Proof.Machine

open Sys2Proof.Claims

theorem lfind_eq_none {α : Type} {p : α → Bool} {l : List α} : lfind p l = none ↔ ∀ x ∈ l, p x = false := by
  induction l with
  | nil => simp [lfind]
  | cons y l ih =>
    rw [lfind]
    cases hp : p y with
    | true => simp [hp]
    | false => simp [hp, ih]

/-! ### Opening -/

/-- What has to hold for a stream to open a round (R122, R340, R344, R464). -/
theorem State.mayOpen_conditions {s : State} {x : Stream} {l : Load} (h : s.mayOpen x l = true) :
    x.rc = true ∧ x.k < x.n ∧ (s.openRounds (tagCol x.tag) x.load).length < 2 ∧ (∀ r ∈ s.openRounds (tagCol x.tag) x.load, r.voided = false) ∧
    (s.part l.part).cut = .idle ∧ age (s.oldest (tagCol x.tag) x.load) ((tagIter x.tag + x.k) % 2 ^ 24) < s.window (tagCol x.tag) (some l) := by
  unfold State.mayOpen at h
  simp only [Bool.and_eq_true, decide_eq_true_eq, List.all_eq_true, Bool.not_eq_true', beq_iff_eq] at h
  obtain ⟨⟨⟨⟨⟨⟨⟨⟨⟨hrc, -⟩, hk⟩, -⟩, hw⟩, -⟩, hlen⟩, hvoid⟩, hcut⟩, -⟩ := h
  exact ⟨hrc, hk, hlen, hvoid, hcut, hw⟩

section
variable {s : State} {k : Nat} {x : Stream} {l : Load} (hx : nth? s.fab.streams k = some x) (hl : s.loadAt x.e (tagCtx x.tag) = some l)
include hx hl

theorem exec_roundOpen_refuses (hm : s.mayOpen x l = false) : exec (.roundOpen k) s = .next s := by
  show execRoundOpen k s = _
  rw [execRoundOpen, hx]
  dsimp only
  rw [hl]
  dsimp only
  rw [hm]
  rfl

/-- No passage is under way for the colour and the load: the stream opens its round, or sends the token of one first. -/
theorem exec_roundOpen_fresh (hm : s.mayOpen x l = true) (hp : ∀ p ∈ s.fab.passages, ¬ (p.1 = tagCol x.tag ∧ p.2.1 = l.order)) :
    exec (.roundOpen k) s = .next (
      if (s.fab.rounds.all fun r => !(r.col == tagCol x.tag && r.load == x.load && r.ctx == dCtx l.desc)) && !(s.earlier l).isEmpty then
        { s with fab := { s.fab with
          passages := s.fab.passages ++ [(tagCol x.tag, l.order, (((s.earlier l).map fun m => m.2).flatten).eraseDups ++ [200])] } }
      else s.openRound x l) := by
  have hnone : lfind (fun p => p.1 == tagCol x.tag && p.2.1 == l.order) s.fab.passages = none :=
    lfind_eq_none.mpr fun p h => by simpa using hp p h
  show execRoundOpen k s = _
  rw [execRoundOpen, hx]
  dsimp only
  rw [hl]
  dsimp only
  rw [hm, hnone]
  rfl

end

/-- The round that a stream opens. -/
theorem State.openRound_opens (s : State) (x : Stream) (l : Load) : ∃ r : Round,
    (s.openRound x l).fab.rounds = r :: s.fab.rounds ∧ r.col = tagCol x.tag ∧ r.load = x.load ∧ r.ctx = dCtx l.desc ∧
    r.rbase = (tagIter x.tag + x.k) % 2 ^ 24 ∧ r.nr = min (dRound l.desc) (x.n - x.k) ∧ r.voided = false ∧ r.ports = s.loadPorts l ∧
    r.done = (s.loadPorts l).filter (fun p => (s.countedAt l p).isEmpty) ∧ r.counts = [] ∧ r.restored = false ∧ r.half = s.freeHalf (tagCol x.tag) x.load ∧
    r.opened = s.cycle ∧ r.room = (s.loadPorts l).map (fun p => (p, s.roomAt p)) ∧ (s.openRound x l).mem = s.mem ∧ (s.openRound x l).stew = s.stew ∧
    (s.openRound x l).fab.streams = s.fab.streams ∧ (s.openRound x l).fab.tokens = s.fab.tokens ∧
    (∀ g, g ∈ s.port.agens → g.col = tagCol x.tag → g.ctx = dCtx l.desc → g.e ∈ l.foot →
      ∃ g', g' ∈ (s.openRound x l).port.agens ∧ g'.e = g.e ∧ g'.slot = g.slot ∧ g'.copy = g.copy ∧ g'.snaps = (r.rbase, g.copy) :: g.snaps) := by
  refine ⟨_, rfl, rfl, rfl, rfl, rfl, ?_, rfl, rfl, rfl, rfl, rfl, rfl, rfl, rfl, rfl, rfl, rfl, rfl, fun g hg hc hx hf => ⟨_, List.mem_map_of_mem hg, ?_⟩⟩
  · show (if dRound l.desc < x.n - x.k then dRound l.desc else x.n - x.k) = _
    split <;> omega
  · dsimp only
    rw [if_pos (by simp [hc, hx, hf])]
    exact ⟨rfl, rfl, rfl, rfl⟩

/-- A load of the same graph that was raised before stands among the earlier ones, with its ports and the dies of its view nodes. -/
theorem State.mem_earlier {s : State} {l m : Load} (hm : m ∈ s.fab.loads) (hp : m.part = l.part) (hg : dGraphid m.desc = dGraphid l.desc)
    (ho : m.order < l.order) : (m, s.passed m) ∈ s.earlier l := by
  unfold State.earlier
  exact List.mem_append_left _ (List.mem_map.mpr ⟨m, List.mem_filter.mpr ⟨hm, by simp [hp, hg, ho]⟩, rfl⟩)

theorem State.mem_passed {s : State} {m : Load} {p : Nat} : p ∈ s.passed m ↔ p ∈ s.loadPorts m ∨ ∃ d ∈ s.viewDies m, p = 128 + d := by
  simp only [State.passed, List.mem_append, List.mem_map, eq_comm]

theorem exec_reconfigurationToken {s : State} {k c x p : Nat} {ps : List Nat} {l : Load} (hk : nth? s.fab.passages k = some (c, x, p :: ps))
    (hl : lfind (fun l => l.order == x) s.fab.loads = some l) :
    exec (.reconfigurationToken k) s = .next (
      if (if p = 200 then (s.earlier l).all (fun m => (s.roundsOf c m.1).isEmpty) else s.passes (s.earlier l) c p) = true then
        { s with fab := { s.fab with passages := setNth s.fab.passages k (c, x, ps) } }
      else s) := by
  show execReconfigurationToken k s = _
  rw [execReconfigurationToken, hk]
  dsimp only
  rw [hl]

theorem roundsOpen : RoundsOpen := by
  refine ⟨fun s x l h => State.mayOpen_conditions h, fun s k x l hx hl => ?_, fun s l m hm hp hg ho => ⟨_, State.mem_earlier hm hp hg ho, fun p => State.mem_passed⟩,
    fun s k c x p ps l hk hl => ?_⟩
  · intro c first none'
    have hfirst : (s.fab.rounds.all fun r => !(r.col == c && r.load == x.load && r.ctx == dCtx l.desc)) = true ↔ first := by
      simp only [first, List.all_eq_true, Bool.not_eq_true', Bool.eq_false_iff, ne_eq, Bool.and_eq_true, beq_iff_eq, and_assoc]
    refine ⟨exec_roundOpen_refuses hx hl, fun hm hp h => ?_, fun hm hp hf he => ?_⟩
    · have hcond : ¬ ((s.fab.rounds.all fun r => !(r.col == c && r.load == x.load && r.ctx == dCtx l.desc)) && !(s.earlier l).isEmpty) = true := by
        rw [Bool.and_eq_true, hfirst]
        rintro ⟨hf, he⟩
        exact h.elim (fun hn => hn hf) (fun hn => by simp [hn] at he)
      refine ⟨_, exec_roundOpen_fresh hx hl hm hp, ?_⟩
      rw [if_neg hcond]
      exact s.openRound_opens x l
    · refine ⟨_, exec_roundOpen_fresh hx hl hm hp, ?_⟩
      rw [if_pos (by rw [Bool.and_eq_true, hfirst]; exact ⟨hf, by simpa using he⟩)]
      refine ⟨_, rfl, rfl, rfl, fun p => ?_⟩
      rw [List.mem_eraseDups, List.mem_flatten]
      simp only [List.mem_map, exists_exists_and_eq_and]
  · intro ok
    rw [exec_reconfigurationToken hk hl]
    exact ⟨fun h => by rw [if_pos h], fun h => by rw [if_neg (Bool.eq_false_iff.mp h)]⟩

/-! ### Completion -/

/-- Accesses of a counted node that a round has performed at a port. -/
def Round.countAt (r : Round) (p : Nat) (x : Nat × Nat) : Nat :=
  match lfind (fun c => c.1 == p && c.2.1 == x.1 && c.2.2.1 == x.2) r.counts with | some c => c.2.2.2 | none => 0

/-- A port has performed what it counts for a round. -/
def State.performed (s : State) (r : Round) (l : Load) (p : Nat) : Prop :=
  if r.restored then s.roundLeft r = false else ∀ x ∈ s.countedAt l p, r.nr ≤ r.countAt p x

/-- A round with one port's report more. -/
def Round.reported (r : Round) (p : Nat) : Round :=
  { r with done := p :: r.done, state := if r.ports.all (fun q => (p :: r.done).contains q) then .complete else .opened }

section
variable {s : State} {k p : Nat} {r : Round} {l : Load} (hk : nth? s.fab.rounds k = some r) (hl : s.roundLoad r = some l)
include hk hl

/-- The decision on a report of a port of an open round. -/
theorem exec_roundCompleteReport (ho : r.state = .opened) (hv : r.voided = false) (hp : p ∈ r.ports) (hd : p ∉ r.done)
    (hr : ∀ st ∈ storesOf s r, st.replay = false) :
    exec (.roundCompleteReport k p) s = .next (
      if (if r.restored then !s.roundLeft r else (s.countedAt l p).all fun x => decide (r.nr ≤ r.countAt p x)) = true then s.putRound k (r.reported p) else s) := by
  have hpend : (s.port.stores.any fun st => st.of r && st.replay) = false := by
    simpa [storesOf] using hr
  show execRoundCompleteReport k p s = _
  rw [execRoundCompleteReport, hk]
  dsimp only
  rw [hl]
  dsimp only
  rw [ho, hv, hpend, List.contains_iff_mem.mpr hp, Bool.eq_false_iff.mpr (mt List.contains_iff_mem.mp hd)]
  simp only [Bool.and_true, Bool.true_and, beq_self_eq_true, Bool.not_false]
  rw [← hv]
  rfl

end

theorem roundsReport (s : State) (k p : Nat) (r : Round) (l : Load) (hk : nth? s.fab.rounds k = some r) (ho : r.state = .opened) (hv : r.voided = false)
    (hl : s.roundLoad r = some l) (hp : p ∈ r.ports) (hd : p ∉ r.done) (hr : ∀ st ∈ storesOf s r, st.replay = false) :
    (s.performed r l p → exec (.roundCompleteReport k p) s = .next (s.putRound k (r.reported p))) ∧
      (¬ s.performed r l p → exec (.roundCompleteReport k p) s = .next s) := by
  have hfull : (if r.restored then !s.roundLeft r else (s.countedAt l p).all fun x => decide (r.nr ≤ r.countAt p x)) = true ↔ s.performed r l p := by
    unfold State.performed
    cases r.restored <;> simp
  rw [exec_roundCompleteReport hk hl ho hv hp hd hr]
  exact ⟨fun h => by rw [if_pos (hfull.mpr h)], fun h => by rw [if_neg (mt hfull.mp h)]⟩

/-! ### Prepare -/

/-- One store replaced in the buffers. -/
def State.putStore (s : State) (v : Store) : State :=
  { s with port := { s.port with stores := s.port.stores.map fun x => if x.id == v.id then v else x } }

section
variable {s : State} {r : Round} {pos : Store → Nat} {st : Store} {l : List Store}

theorem State.prepareAll_other (h : st.of r = false) : s.prepareAll r pos (st :: l) = s.prepareAll r pos l := by
  rw [State.prepareAll]
  simp [h]

theorem State.prepareAll_unmarked (h : st.of r = true) (hm : st.marked = false) :
    s.prepareAll r pos (st :: l) = (s.putStore { st with prepared := true }).prepareAll r pos l := by
  rw [State.prepareAll]
  dsimp only
  rw [if_neg (by simp [h]), if_neg (by simp [hm])]
  rfl

theorem State.prepareAll_fails (h : st.of r = true) (hm : st.marked = true) {n : Nat} (hn : s.retranslate st = .error n) :
    s.prepareAll r pos (st :: l) = ((s.askStore st n).raiseFault (st.info n (pos st)), false) := by
  rw [State.prepareAll]
  simp [h, hm, hn]

end

/-- Without marked stores the buffers alone change, and every store of the round is prepared. -/
theorem State.prepareAll_prepares {r : Round} {pos : Store → Nat} (l : List Store) (s : State) (hm : ∀ st ∈ l, st.of r = true → st.marked = false)
    (hl : ∀ st ∈ s.port.stores, st.of r = true → st.prepared = true ∨ st ∈ l) :
    ∃ l', s.prepareAll r pos l = ({ s with port := { s.port with stores := l' } }, true) ∧ l'.length = s.port.stores.length ∧
      ∀ st ∈ l', st.of r = true → st.prepared = true := by
  induction l generalizing s with
  | nil => exact ⟨_, rfl, rfl, fun st h ho => (hl st h ho).resolve_right List.not_mem_nil⟩
  | cons st l ih =>
    have hm' : ∀ st ∈ l, st.of r = true → st.marked = false := fun x hx => hm x (List.mem_cons_of_mem _ hx)
    cases ho : st.of r with
    | false =>
      rw [State.prepareAll_other ho]
      refine ih s hm' fun x hx hxo => (hl x hx hxo).imp_right fun h => ?_
      obtain rfl | h := List.mem_cons.mp h
      · exact absurd hxo (by simp [ho])
      · exact h
    | true =>
      rw [State.prepareAll_unmarked ho (hm st List.mem_cons_self ho)]
      obtain ⟨l', he, hlen, hall⟩ := ih (s.putStore { st with prepared := true }) hm' fun x hx hxo => by
        obtain ⟨y, hy, rfl⟩ := List.mem_map.mp hx
        by_cases hid : (y.id == ({ st with prepared := true } : Store).id) = true
        · exact .inl (by rw [if_pos hid])
        · rw [if_neg hid] at hxo ⊢
          refine (hl y hy hxo).imp_right fun h => ?_
          obtain rfl | h := List.mem_cons.mp h
          · exact absurd (beq_self_eq_true _) hid
          · exact h
      exact ⟨l', he, hlen.trans (List.length_map ..), hall⟩

/-- A round's only store that fails to translate ends the prepare step with its fault. -/
theorem State.prepareAll_only_fails {s : State} {r : Round} {pos : Store → Nat} {st : Store} {n : Nat} (hm : st.marked = true) (hn : s.retranslate st = .error n)
    (l : List Store) (hl : l.filter (fun x => x.of r) = [st]) :
    s.prepareAll r pos l = ((s.askStore st n).raiseFault (st.info n (pos st)), false) := by
  induction l with
  | nil => exact absurd hl (by simp)
  | cons x l ih =>
    cases ho : x.of r with
    | false =>
      rw [State.prepareAll_other ho]
      exact ih (by simpa [ho] using hl)
    | true =>
      obtain rfl : x = st := (List.cons.inj ((List.filter_cons_of_pos (p := fun x => x.of r) ho).symm.trans hl)).1
      exact State.prepareAll_fails ho hm hn

/-- Asking the host for a page changes the host's side alone. -/
theorem State.askStore_frame (s : State) (st : Store) (n : Nat) : ∃ v, s.askStore st n = { s with host := v } := by
  unfold State.askStore State.pageRequest State.setVf
  split
  · split
    · split
      · exact ⟨_, rfl⟩
      · exact ⟨_, rfl⟩
    · exact ⟨_, rfl⟩
  · exact ⟨_, rfl⟩

theorem exec_roundPrepare {s : State} {k : Nat} {r : Round} (hr : RoundAt s k r .complete) (hp : ∀ st ∈ storesOf s r, st.replay = false) :
    exec (.roundPrepare k) s = .next (
      if s.isOldest r then
        if (s.prepareAll r s.storePos s.port.stores).2 then (s.prepareAll r s.storePos s.port.stores).1.putRound k { r with state := .prepared }
        else (s.prepareAll r s.storePos s.port.stores).1
      else s) := by
  obtain ⟨hk, hst, hv, hvd⟩ := hr
  have hreplay : (s.port.stores.all fun st => !(st.of r && st.replay)) = true := by
    simpa [storesOf, imp_iff_not_or, or_assoc] using hp
  show execRoundPrepare k s = _
  rw [execRoundPrepare, hk]
  dsimp only
  rw [hst, hv, hvd, hreplay]
  simp

theorem roundsCompleteAndPrepare : RoundsCompleteAndPrepare := by
  refine ⟨fun s k p r l hk ho hv hl hp hd hr => ?_, fun s k r hr hp => ⟨fun h => ?_, fun h hm => ?_, fun st n h hst hm hn => ?_⟩⟩
  · exact roundsReport s k p r l hk ho hv hl hp hd hr
  · rw [exec_roundPrepare hr hp, h]; rfl
  · obtain ⟨l', he, hlen, hall⟩ := State.prepareAll_prepares (pos := s.storePos) s.port.stores s
      (fun st hs ho => hm st (List.mem_filter.mpr ⟨hs, ho⟩)) fun st hs _ => .inr hs
    refine ⟨_, exec_roundPrepare hr hp, ?_⟩
    rw [if_pos h, he]
    exact ⟨rfl, rfl, rfl, hlen, hall⟩
  · obtain ⟨v, hv⟩ := s.askStore_frame st n
    refine ⟨_, exec_roundPrepare hr hp, ?_⟩
    rw [if_pos h, State.prepareAll_only_fails hm hn _ hst, if_neg Bool.false_ne_true, hv]
    obtain ⟨_, _, _, _, k1⟩ := State.raiseFault_frame { s with host := v } (st.info n (s.storePos st))
    obtain ⟨_, _, _, _, k2⟩ := s.raiseFault_frame (st.info n (s.storePos st))
    rw [k1, k2]
    exact ⟨rfl, rfl, rfl⟩

end Sys2Proof.Machine
end

section
/-! SUPPORT. Rounds commit (11 R342, 12 R353 to R355): what writing stores does to memory and to the buffers, and the two phases of a port. -/

namespace Sys2Proof.Machine

open Sys2Proof.Claims

/-! ### Writing through a port -/

section
variable (m : Mem) (key : Nat)

/-- Lines that a write does not touch read as before under any key slot, whatever the lines are that it touches. -/
theorem Mem.read1_write_apart (a b : Nat) (l : List Byte) (h : ∀ i, i < l.length → (a + i) / 64 ≠ b / 64) (k : Nat) :
    (m.write key a l).read1 k b = m.read1 k b := by
  induction l generalizing m a with
  | nil => rfl
  | cons v l ih =>
    have hhead : a / 64 ≠ b / 64 := h 0 (Nat.succ_pos _)
    have htail : ∀ i, i < l.length → (a + 1 + i) / 64 ≠ b / 64 := fun i hi => by
      rw [Nat.add_assoc, Nat.add_comm 1 i]
      exact h (i + 1) (Nat.succ_lt_succ hi)
    rw [Mem.write, ih _ _ htail, m.read1_write1_line key hhead]

theorem Mem.write_peerFail (a : Nat) (l : List Byte) : (m.write key a l).peerFail = m.peerFail := by
  induction l generalizing m a with
  | nil => rfl
  | cons v l ih =>
    rw [Mem.write, ih]
    unfold Mem.write1 Mem.rekey
    dsimp only
    split
    · rfl
    · rfl

end

/-- A write through the configuration port goes to memory's heat counts or to an element. -/
theorem State.cfgWrite_frame (s : State) (a : Nat) (v : Word) :
    ∃ m es, (s.cfgWrite a v).getD s = { s with mem := m, fab := { s.fab with elems := es } } ∧ m.peerFail = s.mem.peerFail := by
  unfold State.cfgWrite
  split
  · exact ⟨_, _, rfl, rfl⟩
  · exact ⟨_, _, rfl, rfl⟩
  · exact ⟨_, _, rfl, rfl⟩
  · split
    · exact ⟨_, _, rfl, rfl⟩
    · exact ⟨_, _, rfl, rfl⟩
  · exact ⟨_, _, rfl, rfl⟩

/-- A write through a port leaves rounds, tokens and buffered stores. -/
theorem State.spaceWrite_frame (s : State) (p key pa : Nat) (data : List Byte) (sb : BitVec 8) :
    ∃ m v es l, s.spaceWrite p key pa data sb =
      { s with mem := m, cov := v, fab := { s.fab with elems := es }, port := { s.port with ahead := l } } ∧ m.peerFail = s.mem.peerFail := by
  unfold State.spaceWrite
  split
  · obtain ⟨v, l, h⟩ := State.dropWritten_frame
      (s.setMem { (s.mem.write key pa data).clearSb pa data.length with sbits := tset 0 ((s.mem.write key pa data).clearSb pa data.length).sbits pa (sbExc sb) })
      pa data.length
    exact ⟨_, v, _, l, h, s.mem.write_peerFail key pa data⟩
  · exact ⟨_, _, _, _, rfl, rfl⟩
  · exact ⟨_, _, _, _, rfl, rfl⟩
  · obtain ⟨m, es, h, hp⟩ := s.cfgWrite_frame pa (BitVec.ofNat 64 (ofBytes data))
    exact ⟨m, _, es, _, h, hp⟩

/-- A write through a port of global memory writes the bytes under its key slot. -/
theorem State.spaceWrite_global {s : State} {p : Nat} (h : spaceOf p = .global) (key pa : Nat) (data : List Byte) (sb : BitVec 8) (k a : Nat) :
    (s.spaceWrite p key pa data sb).mem.read1 k a = (s.mem.write key pa data).read1 k a := by
  rw [State.spaceWrite, h]
  dsimp only
  obtain ⟨v, l, hd⟩ := State.dropWritten_frame
    (s.setMem { (s.mem.write key pa data).clearSb pa data.length with sbits := tset 0 ((s.mem.write key pa data).clearSb pa data.length).sbits pa (sbExc sb) })
    pa data.length
  rw [hd]
  rfl

/-- A write to a peer or to the host leaves global memory. -/
theorem State.spaceWrite_elsewhere {s : State} {p : Nat} (hg : spaceOf p ≠ .global) (hc : spaceOf p ≠ .config) (key pa : Nat) (data : List Byte) (sb : BitVec 8)
    (k a : Nat) : (s.spaceWrite p key pa data sb).mem.read1 k a = s.mem.read1 k a := by
  unfold State.spaceWrite
  split
  · next h => exact absurd h hg
  · rfl
  · rfl
  · next h => exact absurd h hc

/-! ### Writing a list of stores -/

/-- The entries of a list that are still to be written. -/
def unwritten (l : List Store) : List Store := l.filter fun st => !st.null && !st.written

/-- A buffered store after the entries of a list have been marked written. -/
def markWritten (l : List Store) (x : Store) : Store := if l.any (fun w => w.id == x.id) then { x with written := true } else x

theorem markWritten_cons (st : Store) (l : List Store) (x : Store) :
    markWritten l (if x.id == st.id then { x with written := true } else x) = markWritten (st :: l) x := by
  by_cases h : x.id = st.id
  · have hhead : markWritten (st :: l) x = { x with written := true } := by
      rw [markWritten, List.any_cons, h, beq_self_eq_true, Bool.true_or, if_pos rfl]
    rw [hhead, if_pos (by rw [h, beq_self_eq_true])]
    unfold markWritten
    split
    · rfl
    · rfl
  · rw [if_neg (by simpa using h), markWritten, markWritten, List.any_cons, beq_eq_false_iff_ne.mpr (Ne.symm h), Bool.false_or]

theorem markWritten_of (l : List Store) (x : Store) (r : Round) : (markWritten l x).of r = x.of r := by
  unfold markWritten
  split
  · rfl
  · rfl

/-- An entry needs no more writing. -/
theorem markWritten_done (l : List Store) (x : Store) :
    ((markWritten l x).null || (markWritten l x).written) = true ↔ x.null = true ∨ x.written = true ∨ ∃ w ∈ l, w.id = x.id := by
  unfold markWritten
  split
  · next h =>
    have hyes : ∃ w ∈ l, w.id = x.id := by simpa using h
    simp [hyes]
  · next h =>
    have hno : ¬ ∃ w ∈ l, w.id = x.id := by simpa using h
    simp [hno]

/-- The state in which a store that its peer accepts has been written and marked. -/
def State.storeWritten (s : State) (st : Store) : State :=
  let s1 := if st.null || st.written then s else s.spaceWrite st.port st.key st.pa st.data st.sb
  { s1 with port := { s1.port with stores := s1.port.stores.map fun x => if x.id == st.id then { x with written := true } else x } }

theorem State.writeStores_cons {s : State} {st : Store} (h : s.peerRefuses st = none) (l : List Store) :
    s.writeStores (st :: l) = (s.storeWritten st).writeStores l := by
  rw [State.writeStores, h]
  rfl

theorem State.storeWritten_frame (s : State) (st : Store) :
    ∃ m v es l, s.storeWritten st = { s with
      mem := m, cov := v, fab := { s.fab with elems := es },
      port := { s.port with ahead := l, stores := s.port.stores.map fun x => if x.id == st.id then { x with written := true } else x } } ∧
      m.peerFail = s.mem.peerFail := by
  unfold State.storeWritten
  split
  · exact ⟨_, _, _, _, rfl, rfl⟩
  · obtain ⟨m, v, es, l, h, hp⟩ := s.spaceWrite_frame st.port st.key st.pa st.data st.sb
    rw [h]
    exact ⟨m, v, es, l, rfl, hp⟩

/-- What a peer refuses does not depend on what has been written. -/
theorem State.storeWritten_peerRefuses (s : State) (st x : Store) : (s.storeWritten st).peerRefuses x = s.peerRefuses x := by
  obtain ⟨m, v, es, l, h, hp⟩ := s.storeWritten_frame st
  unfold State.peerRefuses
  rw [h]
  dsimp only
  rw [hp]

theorem State.storeWritten_mem {s : State} {st : Store} (h : (st.null || st.written) = false) :
    (s.storeWritten st).mem = (s.spaceWrite st.port st.key st.pa st.data st.sb).mem := by
  rw [State.storeWritten, h]
  rfl

/-- Writing stores that no peer refuses changes memory, the elements and the marks of the stores. -/
theorem State.writeStores_frame (l : List Store) (s : State) (h : ∀ st ∈ l, s.peerRefuses st = none) :
    ∃ m v es ah, s.writeStores l = { s with
      mem := m, cov := v, fab := { s.fab with elems := es }, port := { s.port with ahead := ah, stores := s.port.stores.map (markWritten l) } } := by
  induction l generalizing s with
  | nil =>
    have hid : s.port.stores.map (markWritten []) = s.port.stores := List.map_id _
    exact ⟨s.mem, s.cov, s.fab.elems, s.port.ahead, by rw [hid]; rfl⟩
  | cons st l ih =>
    obtain ⟨m, v, es, ah, k⟩ := ih (s.storeWritten st) fun x hx => (s.storeWritten_peerRefuses st x).trans (h x (List.mem_cons_of_mem _ hx))
    obtain ⟨_, _, _, _, k1, -⟩ := s.storeWritten_frame st
    rw [State.writeStores_cons (h st List.mem_cons_self), k, k1]
    simp only [List.map_map, Function.comp_def, markWritten_cons]
    exact ⟨_, _, _, _, rfl⟩

/-- A store leaves the lines that it does not touch. -/
theorem State.storeWritten_read1 {s : State} {st : Store} (hc : st ∈ unwritten [st] → spaceOf st.port ≠ .config) {a : Nat}
    (ha : st ∈ unwritten [st] → spaceOf st.port = .global → ∀ i, i < st.data.length → (st.pa + i) / 64 ≠ a / 64) (k : Nat) :
    (s.storeWritten st).mem.read1 k a = s.mem.read1 k a := by
  cases hw : st.null || st.written with
  | true => rw [State.storeWritten, hw]; rfl
  | false =>
    have hu : st ∈ unwritten [st] := by simpa [unwritten] using hw
    rw [State.storeWritten_mem hw]
    by_cases hg : spaceOf st.port = .global
    · exact (State.spaceWrite_global hg ..).trans (s.mem.read1_write_apart st.key st.pa a st.data (ha hu hg) k)
    · exact State.spaceWrite_elsewhere hg (hc hu) ..

theorem mem_unwritten_cons {st x : Store} {l : List Store} : x ∈ unwritten (st :: l) ↔ (x = st ∧ st ∈ unwritten [st]) ∨ x ∈ unwritten l := by
  unfold unwritten
  rw [List.filter_cons, List.filter_cons]
  split
  · simp
  · simp

theorem State.writeStores_read1 (l : List Store) (s : State) (h : ∀ st ∈ l, s.peerRefuses st = none) (hc : ∀ st ∈ unwritten l, spaceOf st.port ≠ .config)
    {a : Nat} (ha : ∀ st ∈ unwritten l, spaceOf st.port = .global → ∀ i, i < st.data.length → (st.pa + i) / 64 ≠ a / 64) (k : Nat) :
    (s.writeStores l).mem.read1 k a = s.mem.read1 k a := by
  induction l generalizing s with
  | nil => rfl
  | cons st l ih =>
    have hhead (hu : st ∈ unwritten [st]) : st ∈ unwritten (st :: l) := mem_unwritten_cons.mpr (.inl ⟨rfl, hu⟩)
    have htail {x : Store} (hx : x ∈ unwritten l) : x ∈ unwritten (st :: l) := mem_unwritten_cons.mpr (.inr hx)
    rw [State.writeStores_cons (h st List.mem_cons_self),
      ih _ (fun x hx => (s.storeWritten_peerRefuses st x).trans (h x (List.mem_cons_of_mem _ hx))) (fun x hx => hc x (htail hx)) fun x hx => ha x (htail hx)]
    exact State.storeWritten_read1 (fun hu => hc st (hhead hu)) (fun hu => ha st (hhead hu)) k

/-- A store of global memory that shares no line with the other entries reads back. -/
theorem State.writeStores_read (l : List Store) (s : State) (h : ∀ st ∈ l, s.peerRefuses st = none) (hc : ∀ st ∈ unwritten l, spaceOf st.port ≠ .config)
    (hn : (unwritten l).Nodup) {st : Store} (hm : st ∈ unwritten l) (hg : spaceOf st.port = .global)
    (hapart : ∀ q ∈ unwritten l, q ≠ st → spaceOf q.port = .global → linesApart q st) :
    (s.writeStores l).mem.read st.key st.pa st.data.length = st.data := by
  induction l generalizing s with
  | nil => exact absurd hm List.not_mem_nil
  | cons x l ih =>
    have htail {y : Store} (hy : y ∈ unwritten l) : y ∈ unwritten (x :: l) := mem_unwritten_cons.mpr (.inr hy)
    have hacc : ∀ y ∈ l, (s.storeWritten x).peerRefuses y = none := fun y hy =>
      (s.storeWritten_peerRefuses x y).trans (h y (List.mem_cons_of_mem _ hy))
    have hconf : ∀ y ∈ unwritten l, spaceOf y.port ≠ .config := fun y hy => hc y (htail hy)
    have hsub : (unwritten l).Nodup := by
      unfold unwritten at hn ⊢
      exact hn.sublist ((List.sublist_cons_self x l).filter _)
    rw [State.writeStores_cons (h x List.mem_cons_self)]
    by_cases hin : st ∈ unwritten l
    · exact ih _ hacc hconf hsub hin fun q hq => hapart q (htail hq)
    · obtain ⟨rfl, hu⟩ := (mem_unwritten_cons.mp hm).resolve_right hin
      have hwrite : (st.null || st.written) = false := by simpa [unwritten] using hu
      refine eq_of_nth 0 (Mem.length_read ..) fun i hi => ?_
      rw [Mem.length_read] at hi
      have hline : ∀ q ∈ unwritten l, spaceOf q.port = .global → ∀ j, j < q.data.length → (q.pa + j) / 64 ≠ (st.pa + i) / 64 := fun q hq hqg j hj =>
        hapart q (htail hq) (fun he => hin (he ▸ hq)) hqg j i hj hi
      rw [Mem.nth_read _ _ _ _ hi, State.writeStores_read1 l _ hacc hconf hline, State.storeWritten_mem hwrite, State.spaceWrite_global hg,
        Mem.read1_write_key, if_pos (by omega), Nat.add_sub_cancel_left]

/-! ### Acknowledging and committing -/

theorem State.endStores_frame (l : List Store) (s : State) : ∃ v, s.endStores l = { s with cov := v } := by
  induction l generalizing s with
  | nil => exact ⟨_, rfl⟩
  | cons st l ih =>
    obtain ⟨v, h⟩ := s.endStarted_frame st.started
    obtain ⟨w, k⟩ := ih (s.endStarted st.started)
    exact ⟨w, k.trans (by rw [h])⟩

/-- The rounds that a committed round leaves: itself, and those that do not lie behind O. -/
def committedRounds (l : List Round) (k : Nat) (r : Round) : List Round :=
  (setNth l k { r with state := .committed, room := [] }).filter fun q =>
    !(q.col == r.col && q.load == r.load && q.state == .committed && !behind (roundNext r) q.rbase)

/-- What a commit changes: the rounds, the buffers, what is read ahead, and O. -/
theorem State.commitRound_frame (s : State) (k : Nat) (r : Round) : ∃ v ah gs cl, s.commitRound k r =
    State.setColLoad { s with
      cov := v, fab := { s.fab with rounds := committedRounds s.fab.rounds k r },
      port := { s.port with stores := s.port.stores.filter (fun st => !st.of r), ahead := ah, agens := gs } } cl ∧
    cl.col = r.col ∧ cl.load = r.load ∧ cl.oldest = some (roundNext r) := by
  let s0 := s.putRound k { r with state := .committed, room := [] }
  obtain ⟨v, hv⟩ := State.endStores_frame (s0.port.stores.filter fun st => st.of r)
    { s0 with port := { s0.port with stores := s0.port.stores.filter fun st => !st.of r } }
  obtain ⟨w, ah, hw⟩ := State.dropAhead_frame (s0.dropStores fun st => st.of r) fun h => (h.col == r.col && s.loadidAt h.e h.ctx == r.load) && r.holds h.iter
  have hd : (s0.dropStores fun st => st.of r) = { s0 with cov := v, port := { s0.port with stores := s0.port.stores.filter fun st => !st.of r } } := hv
  rw [hd] at hw
  unfold State.commitRound
  dsimp only
  rw [show (s.putRound k { r with state := .committed, room := [] }).dropStores (fun st => st.of r) = _ from hd, hw]
  exact ⟨w, ah, _, _, rfl, (State.colLoad_col ..).1, (State.colLoad_col ..).2, rfl⟩

theorem mem_setNth {α : Type} {l : List α} {k : Nat} (h : k < l.length) (y : α) : y ∈ setNth l k y := by
  induction l generalizing k with
  | nil => exact absurd h (Nat.not_lt_zero k)
  | cons x l ih => cases k with
    | zero => exact List.mem_cons_self
    | succ k => exact List.mem_cons_of_mem _ (ih (Nat.lt_of_succ_lt_succ h))

/-- A round of at most 2^23 iterations lies behind the iteration after it. -/
theorem behind_roundNext {r : Round} (h : 0 < r.nr) (hn : r.nr ≤ 2 ^ 23) : behind (roundNext r) r.rbase = true := by
  unfold behind age roundNext iterMod
  rw [decide_eq_true_eq]
  omega

theorem mem_committedRounds {l : List Round} {k : Nat} {r : Round} (hk : k < l.length) (h : 0 < r.nr) (hn : r.nr ≤ 2 ^ 23) :
    { r with state := .committed, room := [] } ∈ committedRounds l k r :=
  List.mem_filter.mpr ⟨mem_setNth hk _, by simp [behind_roundNext h hn]⟩

/-- An acknowledgement leaves memory, tokens, faults and stewards, whether or not it commits the round. -/
theorem State.acked_rest (s : State) (k : Nat) (r : Round) : (s.acked k r).mem = s.mem ∧ (s.acked k r).fab.tokens = s.fab.tokens ∧
    (s.acked k r).fab.faults = s.fab.faults ∧ (s.acked k r).stew = s.stew := by
  unfold State.acked
  split
  · obtain ⟨v, ah, gs, cl, h, -⟩ := s.commitRound_frame k r
    rw [h]
    exact ⟨rfl, rfl, rfl, rfl⟩
  · exact ⟨rfl, rfl, rfl, rfl⟩

/-! ### The two phases of a port -/

theorem beforeRelease_eq (l : List Store) : beforeRelease l = l.takeWhile fun st => !st.release := by
  induction l with
  | nil => rfl
  | cons st l ih =>
    rw [beforeRelease, List.takeWhile_cons, ih]
    cases st.release with
    | true => rfl
    | false => rfl

theorem State.beforeWait_eq (s : State) (r : Round) (l : List Store) : s.beforeWait r l = l.takeWhile fun st => !s.relstWaits r st := by
  induction l with
  | nil => rfl
  | cons st l ih =>
    rw [State.beforeWait, List.takeWhile_cons, ih]
    cases s.relstWaits r st with
    | true => rfl
    | false => rfl

theorem State.storesAt_eq (s : State) (r : Round) (p : Nat) : s.storesAt r p = (storesOf s r).filter fun st => st.port == p := by
  rw [State.storesAt, storesOf, List.filter_filter]
  simp only [Bool.and_comm]

/-- Every entry of a round needs no more writing, once a list has been marked. -/
theorem all_markWritten {s : State} {r : Round} (l : List Store) :
    ((s.port.stores.map (markWritten l)).all fun st => !st.of r || st.null || st.written) = true ↔
      ∀ st ∈ storesOf s r, st.null = true ∨ st.written = true ∨ ∃ w ∈ l, w.id = st.id := by
  have hone (st : Store) : (!(markWritten l st).of r || (markWritten l st).null || (markWritten l st).written) = true ↔
      (st.of r = true → st.null = true ∨ st.written = true ∨ ∃ w ∈ l, w.id = st.id) := by
    rw [Bool.or_assoc, Bool.or_eq_true, markWritten_of, markWritten_done]
    cases st.of r with
    | true => simp
    | false => simp
  simp only [List.all_map, List.all_eq_true, Function.comp_apply, hone, storesOf, List.mem_filter, and_imp]

/-- A port writes entries that no peer refuses and acknowledges. -/
theorem portWrote {s : State} {k : Nat} {r : Round} (x : RState) (y : List Nat) {l : List Store} (hacc : ∀ st ∈ l, s.peerRefuses st = none) :
    PortWrote s k r { r with state := x, acked := y } l ((s.writeStores l).acked k { r with state := x, acked := y }) := by
  let q : Round := { r with state := x, acked := y }
  obtain ⟨m, v, es, ah, hw⟩ := State.writeStores_frame l s hacc
  obtain ⟨hmem, htok, -, -⟩ := (s.writeStores l).acked_rest k q
  have hall : (q.ports.all (fun p => q.acked.contains p) && (s.writeStores l).port.stores.all fun st => !st.of q || st.null || st.written) = true ↔
      (∀ p ∈ q.ports, p ∈ q.acked) ∧ ∀ st ∈ storesOf s r, st.null = true ∨ st.written = true ∨ ∃ w ∈ l, w.id = st.id := by
    rw [Bool.and_eq_true, hw]
    exact and_congr (by simp) (all_markWritten (r := r) l)
  refine ⟨fun hc => ⟨fun st hm hg hapart hn => ?_, fun a key ha => ?_⟩, ?_, fun h => ?_, fun h => ?_⟩
  · rw [hmem]
    exact State.writeStores_read l s hacc hc hn hm hg hapart
  · rw [hmem]
    exact State.writeStores_read1 l s hacc hc ha key
  · rw [htok, hw]
  · obtain ⟨w, ah', gs, cl, hcm, hcol, hload, hold⟩ := (s.writeStores l).commitRound_frame k q
    rw [State.acked, if_pos (hall.mpr h), hcm, hw]
    refine ⟨?_, fun st hst => ?_, fun hnr hle hk => mem_committedRounds hk hnr hle⟩
    · rw [State.oldest, State.colLoad_setColLoad_same _ hcol hload, hold]
      rfl
    · have ho : (!st.of r) = true := (List.mem_filter.mp hst).2
      exact (Bool.not_eq_true' _).mp ho
  · rw [State.acked, if_neg (mt hall.mp h), hw]
    exact ⟨rfl, rfl⟩

section
variable {s : State} {n k p : Nat} {r : Round} (hn : nth? s.roundPorts n = some (k, p, r))
include hn

theorem exec_roundCommit : exec (.roundCommit n) s = .next (
    if (r.state == .phase1 || (r.state == .prepared && !r.voided && !s.voiding r)) && !r.acked.contains p then
      (s.writeStores (((storesOf s r).filter fun st => st.port == p).takeWhile fun st => !st.release)).acked k
        { r with state := .phase1, acked := p :: r.acked }
    else s) := by
  show execRoundCommit n s = _
  rw [execRoundCommit, hn]
  dsimp only
  rw [beforeRelease_eq, State.storesAt_eq]

/-- A port that has not acknowledged writes its first entries when its round may go on. -/
theorem exec_roundCommit_writes (h : RoundAt s k r .prepared ∨ r.state = .phase1) (hp : p ∉ r.acked) : exec (.roundCommit n) s = .next (
    (s.writeStores (((storesOf s r).filter fun st => st.port == p).takeWhile fun st => !st.release)).acked k
      { r with state := .phase1, acked := p :: r.acked }) := by
  have hgo : (r.state == .phase1 || (r.state == .prepared && !r.voided && !s.voiding r)) = true := by
    obtain ⟨-, hst, hv, hvd⟩ | hst := h
    · simp [hst, hv, hvd]
    · simp [hst]
  rw [exec_roundCommit hn, if_pos (by rw [hgo]; simpa using hp)]

theorem exec_releasePhase : exec (.releasePhase n) s = .next (
    if r.state == .phase1 && r.acked.contains p && (((s.port.stores.filter fun st => st.of r && st.release).map fun st => s.releaseScope r st).flatten).all
        fun q => r.acked.contains q then
      (s.writeStores (((storesOf s r).filter fun st => st.port == p).takeWhile fun st => !s.relstWaits r st)).acked k r
    else s) := by
  show execReleasePhase n s = _
  rw [execReleasePhase, hn]
  dsimp only
  rw [State.beforeWait_eq, State.storesAt_eq]

end

/-- The ports that the scopes of a round's RELST entries require have acknowledged. -/
theorem releaseScopes_acked {s : State} {r : Round} :
    ((((s.port.stores.filter fun st => st.of r && st.release).map fun st => s.releaseScope r st).flatten).all fun q => r.acked.contains q) = true ↔
      ∀ st ∈ storesOf s r, st.release = true → ∀ q ∈ s.releaseScope r st, q ∈ r.acked := by
  simp only [List.all_eq_true, List.mem_flatten, List.mem_map, List.mem_filter, Bool.and_eq_true, storesOf, List.contains_iff_mem]
  constructor
  · rintro h st ⟨hs, ho⟩ hr q hq
    exact h q ⟨_, ⟨st, ⟨hs, ho, hr⟩, rfl⟩, hq⟩
  · rintro h q ⟨_, ⟨st, ⟨hs, ho, hr⟩, rfl⟩, hq⟩
    exact h st ⟨hs, ho⟩ hr q hq

/-- A store that its peer refuses leaves its fault and a mark. -/
theorem State.writeStores_refused {s : State} {st : Store} {c : Nat} (hnull : st.null = false) (hw : st.written = false) (hc : s.peerRefuses st = some c) :
    ∃ l, s.writeStores [st] = { s.raiseFault (st.info c (s.storePos st)) with port := { (s.raiseFault (st.info c (s.storePos st))).port with stores := l } } := by
  rw [State.writeStores, hc, hnull, hw]
  exact ⟨_, rfl⟩

theorem roundsCommit : RoundsCommit := by
  intro s n k p r hn mine first need accepted
  have hsub {f : Store → Bool} (h : accepted) : ∀ st ∈ mine.takeWhile f, s.peerRefuses st = none := fun st hst =>
    h st (List.mem_of_mem_filter ((List.takeWhile_sublist f).mem hst))
  refine ⟨fun st c hr hp hf hnull hw hc => ?_, fun hr hp ha => ⟨_, exec_roundCommit_writes hn hr hp, portWrote _ _ (hsub ha)⟩, fun hp => ?_,
    fun hst hp hneed ha => ⟨_, (exec_releasePhase hn).trans ?_, portWrote r.state r.acked (hsub ha)⟩, fun hst hneed => ?_⟩
  · intro s1
    obtain ⟨l, hl⟩ := State.writeStores_refused hnull hw hc
    obtain ⟨ts, js, ps, fs, hs1⟩ := s.raiseFault_frame (st.info c (s.storePos st))
    refine ⟨_, exec_roundCommit_writes hn (.inl hr) hp, ?_⟩
    rw [show ((storesOf s r).filter fun st => st.port == p).takeWhile (fun st => !st.release) = [st] from hf]
    obtain ⟨hmem, htok, hfault, hstew⟩ := (s.writeStores [st]).acked_rest k { r with state := .phase1, acked := p :: r.acked }
    rw [hmem, htok, hfault, hstew, hl]
    exact ⟨by rw [hs1], rfl, rfl, by rw [hs1]⟩
  · rw [exec_roundCommit hn, if_neg (by simp [hp])]
  · rw [if_pos (by rw [Bool.and_eq_true, releaseScopes_acked]; exact ⟨by simp [hst, hp], hneed⟩)]
  · rw [exec_releasePhase hn, if_neg (by rw [Bool.and_eq_true, releaseScopes_acked]; exact fun h => hneed h.2)]

end Sys2Proof.Machine

namespace Sys2Proof

/-- Settles O36: rounds open, are reported complete and prepared, and commit in two phases. -/
theorem roundsOpenAndCommit : Obligations.RoundsOpenAndCommit := ⟨Machine.roundsOpen, Machine.roundsCompleteAndPrepare, Machine.roundsCommit⟩

end Sys2Proof
end

section
/-! SUPPORT. Scalar floating point (05 R149 to R157): the relations of FCMP, the classes of FCLASS, FABS and FNEG on the bits of a datum, and MAXI. -/

namespace Sys2Proof.Machine

open Sys2Proof.Claims

/-! ### The arithmetic instructions (R149, R153, R154) -/

theorem fld_zero_eq_setWidth {n : Nat} (x : BitVec n) {k : Nat} (h : k ≤ n) : fld x 0 k = x.setWidth k :=
  (BitVec.setWidth_eq_extractLsb' h).symm

theorem floatInstructionsComplete : FloatInstructionsComplete := by
  refine ⟨?_, ?_, ?_, ?_, ?_, ?_, ?_, ?_, ?_, ?_, ?_, fun o s => yields_of_compute ?_⟩
  · exact binary_of_exec (fun _ _ => rfl) fun _ _ _ => rfl
  · exact binary_of_exec (fun _ _ => rfl) fun _ _ _ => rfl
  · exact binary_of_exec (fun _ _ => rfl) fun _ _ _ => rfl
  · exact ternary_of_exec (fun _ _ => rfl) fun _ _ _ _ => rfl
  · exact binary_of_exec (fun _ _ => rfl) fun _ _ _ => rfl
  · exact unary_of_exec (fun _ _ => rfl) fun _ _ => rfl
  · exact unary_of_exec (fun _ _ => rfl) fun _ _ => rfl
  · exact unary_of_exec (fun _ _ => rfl) fun _ _ => rfl
  · exact unary_of_exec (fun _ _ => rfl) fun _ _ => rfl
  · exact unary_of_exec (fun _ _ => rfl) fun _ _ => rfl
  · exact unary_of_exec (fun _ _ => rfl) fun _ _ => rfl
  · rw [← fld_zero_eq_setWidth o.imm (by decide)]; rfl

/-! ### Minimum, maximum and sign (R50, R150) -/

/-- Of two data that are no NaN, FMIN and FMAX take what their comparison says, and the first of equal ones. -/
theorem fMinMax_data {f : Fmt} {a b : Nat} (ha : fIsNan f a = false) (hb : fIsNan f b = false) (wantMax : Bool) :
    fMinMax f wantMax a b = match compare (fPlace f a) (fPlace f b) with
      | .lt => if wantMax then fBits f b else fBits f a
      | .gt => if wantMax then fBits f a else fBits f b
      | .eq => fBits f a := by
  have hna := Fmt.read_ne_nan ha
  have hnb := Fmt.read_ne_nan hb
  have hcmp := fpCompare_read ha hb
  unfold fMinMax
  split
  · next h _ => exact absurd h hna
  · next h _ => exact absurd h hna
  · next h _ => exact absurd h hnb
  · rw [hcmp]
    cases compare (fPlace f a) (fPlace f b) <;> rfl

/-- FMIN and FMAX take the other operand beside a NaN, and of two data the one whose place is lower, or higher (R50). -/
theorem fMinMax_eq (f : Fmt) (wantMax : Bool) (a b : Nat) : fMinMax f wantMax a b =
    if fIsNan f a && fIsNan f b then f.nan else if fIsNan f a then fBits f b else if fIsNan f b then fBits f a
    else if (if wantMax then fPlace f b ≤ fPlace f a else fPlace f a ≤ fPlace f b) then fBits f a else fBits f b := by
  cases ha : fIsNan f a <;> cases hb : fIsNan f b
  · rw [fMinMax_data ha hb]
    rcases lt_trichotomy (fPlace f a) (fPlace f b) with h | h | h
    · rw [compare_lt_iff_lt.mpr h]
      cases wantMax <;> simp [h.le, h]
    · rw [compare_eq_iff_eq.mpr h]
      cases wantMax <;> simp [h]
    · rw [compare_gt_iff_gt.mpr h]
      cases wantMax <;> simp [h.le, h]
  · have hna := Fmt.read_ne_nan ha
    simp only [fMinMax, Fmt.read_nan hb]
    cases hr : f.read a
    · exact absurd hr hna
    · rfl
    · rfl
  · have hnb := Fmt.read_ne_nan hb
    simp only [fMinMax, Fmt.read_nan ha]
    cases hr : f.read b
    · exact absurd hr hnb
    · rfl
    · rfl
  · simp [fMinMax, Fmt.read_nan ha, Fmt.read_nan hb]

/-- A datum is its sign above its exponent and fraction. -/
theorem fBits_eq (f : Fmt) (n : Nat) : fBits f n = fMag f n + if fSign f n then 2 ^ (f.eb + f.fb) else 0 := by
  rw [fBits, Nat.pow_succ, Nat.mod_mul, fMag, fSign]
  rcases Nat.mod_two_eq_zero_or_one (n / 2 ^ (f.eb + f.fb)) with h | h <;> simp [h]

theorem fBits_mod (f : Fmt) (n : Nat) : fBits f n % 2 ^ (f.eb + f.fb) = fMag f n :=
  Nat.mod_mod_of_dvd _ (Nat.pow_dvd_pow 2 (Nat.le_succ _))

theorem fAbs_eq (f : Fmt) (a : Nat) : fAbs f a = if fIsNan f a then f.nan else fBits f a % 2 ^ (f.eb + f.fb) := by
  rw [fBits_mod]
  simp only [fAbs, Fmt.read_eq_nan]
  rfl

theorem fNeg_eq (f : Fmt) (a : Nat) :
    fNeg f a = if fIsNan f a then f.nan else fBits f a % 2 ^ (f.eb + f.fb) + if fSign f a then 0 else 2 ^ (f.eb + f.fb) := by
  have hlt : fMag f a < 2 ^ (f.eb + f.fb) := Nat.mod_lt _ (Nat.two_pow_pos _)
  have hflip : (fBits f a + 2 ^ (f.bits - 1)) % 2 ^ f.bits = fMag f a + if fSign f a then 0 else 2 ^ (f.eb + f.fb) := by
    rw [fBits_eq, show f.bits - 1 = f.eb + f.fb from rfl, Fmt.bits, Nat.pow_succ]
    generalize 2 ^ (f.eb + f.fb) = p at *
    cases fSign f a
    · exact Nat.mod_eq_of_lt (by simp; omega)
    · rw [if_pos rfl, if_pos rfl, Nat.add_assoc, ← Nat.mul_two, Nat.add_mod_right, Nat.mod_eq_of_lt (by omega), Nat.add_zero]
  rw [fBits_mod, ← hflip]
  simp only [fNeg, Fmt.read_eq_nan]
  rfl

/-! ### Comparison and classes (R151, Table 5.2) -/

/-- Data are compared by their places; a NaN is unordered (R50). -/
theorem fpCompare_eq (f : Fmt) (a b : Nat) : fpCompare true (f.read a) (f.read b) =
    if fIsNan f a || fIsNan f b then none else some (compare (fPlace f a) (fPlace f b)) := by
  cases ha : fIsNan f a
  · cases hb : fIsNan f b
    · exact fpCompare_read ha hb
    · have hna := Fmt.read_ne_nan ha
      rw [Fmt.read_nan hb]
      cases f.read a <;> rfl
  · rw [Fmt.read_nan ha]; rfl

/-- A relation of FCMP on the places of two data, or on unordered ones (R151). -/
def FRel.ofPlaces (r : FRel) (un : Bool) (x y : Int) : Bool :=
  match r with
  | .eq => !un && x == y
  | .ne => un || x != y
  | .lt => !un && decide (x < y)
  | .le => !un && decide (x ≤ y)
  | .gt => !un && decide (y < x)
  | .ge => !un && decide (y ≤ x)
  | .un => un

theorem fCmp_eq (f : Fmt) (r : FRel) (a b : Nat) : fCmp f r a b = r.ofPlaces (fIsNan f a || fIsNan f b) (fPlace f a) (fPlace f b) := by
  unfold fCmp
  rw [fpCompare_eq]
  cases fIsNan f a || fIsNan f b
  · rcases lt_trichotomy (fPlace f a) (fPlace f b) with h | h | h
    · rw [compare_lt_iff_lt.mpr h]
      cases r <;> simp [FRel.ofPlaces, bne, h, h.le, h.ne, h.not_gt]
    · rw [compare_eq_iff_eq.mpr h]
      cases r <;> simp [FRel.ofPlaces, h]
    · rw [compare_gt_iff_gt.mpr h]
      cases r <;> simp [FRel.ofPlaces, bne, h, h.le, h.ne', h.not_gt]
  · cases r <;> rfl

/-- FCLASS sets the bit of the one class that the fields of the datum name (Table 5.2). -/
theorem fClass_eq (f : Fmt) (n : Nat) : fClass f n =
    if fIsNan f n then 0x100 else if fIsInf f n then (if fSign f n then 0x01 else 0x80)
    else if fIsZero f n then (if fSign f n then 0x08 else 0x10) else if fExpo f n = 0 then (if fSign f n then 0x04 else 0x20)
    else if fSign f n then 0x02 else 0x40 := by
  unfold fClass
  cases hn : fIsNan f n
  · rcases fIsInf_or_fin hn with hi | hx
    · simp [Fmt.read_inf hi, hi]
    · have hi : fIsInf f n = false := by simp [fIsInf, hx]
      obtain ⟨m, e, hread, -⟩ := Fmt.read_fin hx
      have hz : fIsZero f n = decide (m = 0) := by rw [fIsZero_eq, decide_eq_decide, Fmt.read_fin_zero hread]
      simp only [hread, hi, hz, fExpo, beq_iff_eq, decide_eq_true_eq, Bool.false_eq_true, if_false]
      rfl
  · simp [Fmt.read_nan hn]

/-- A choice of data is the choice of their payloads. -/
theorem fpPay_fMinMax (f : Fmt) (wantMax : Bool) (a b : Nat) : fpPay (fMinMax f wantMax a b, 0) =
    if fIsNan f a && fIsNan f b then (BitVec.ofNat 64 f.nan, 0) else if fIsNan f a then (BitVec.ofNat 64 (fBits f b), 0)
    else if fIsNan f b then (BitVec.ofNat 64 (fBits f a), 0)
    else if (if wantMax then fPlace f b ≤ fPlace f a else fPlace f a ≤ fPlace f b) then (BitVec.ofNat 64 (fBits f a), 0)
    else (BitVec.ofNat 64 (fBits f b), 0) := by
  rw [fMinMax_eq]
  simp only [fpPay, apply_ite (BitVec.ofNat 64), apply_ite (Prod.mk · (0 : BitVec 8))]

theorem fpPay_b2n (p : Bool) : fpPay (b2n p, 0) = truth p := by cases p <;> rfl

/-- A relation of FCMP as a payload. -/
theorem fpPay_fCmp (f : Fmt) (r : FRel) (a b : Nat) :
    fpPay (b2n (fCmp f r a b), 0) = truth (r.ofPlaces (fIsNan f a || fIsNan f b) (fPlace f a) (fPlace f b)) := by
  rw [fpPay_b2n, fCmp_eq]

theorem floatComparisonsAndClasses : FloatComparisonsAndClasses := by
  unfold FloatComparisonsAndClasses
  intro f un pl bits nan pick top
  refine ⟨?_, ?_, ?_, ?_, ?_, ?_, ?_, ?_, ?_, ?_, ?_, ?_⟩
  · refine binary_of_exec (fun _ _ => rfl) fun o a b => (fpPay_fMinMax (f o) false a.toNat b.toNat).trans ?_
    simp only [pick, decide_eq_true_eq]
    rfl
  · refine binary_of_exec (fun _ _ => rfl) fun o a b => (fpPay_fMinMax (f o) true a.toNat b.toNat).trans ?_
    simp only [pick, decide_eq_true_eq]
    rfl
  · refine unary_of_exec (fun _ _ => rfl) fun o a => ?_
    show fpPay (fAbs (f o) a.toNat, 0) = _
    rw [fAbs_eq, fpPay, apply_ite (BitVec.ofNat 64), apply_ite (Prod.mk · (0 : BitVec 8))]
  · refine unary_of_exec (fun _ _ => rfl) fun o a => ?_
    show fpPay (fNeg (f o) a.toNat, 0) = _
    rw [fNeg_eq, fpPay, apply_ite (BitVec.ofNat 64), apply_ite (Prod.mk · (0 : BitVec 8))]
  · exact binary_of_exec (fun _ _ => rfl) fun o a b => fpPay_fCmp (f o) .eq a.toNat b.toNat
  · exact binary_of_exec (fun _ _ => rfl) fun o a b => fpPay_fCmp (f o) .ne a.toNat b.toNat
  · exact binary_of_exec (fun _ _ => rfl) fun o a b => fpPay_fCmp (f o) .lt a.toNat b.toNat
  · exact binary_of_exec (fun _ _ => rfl) fun o a b => fpPay_fCmp (f o) .le a.toNat b.toNat
  · exact binary_of_exec (fun _ _ => rfl) fun o a b => fpPay_fCmp (f o) .gt a.toNat b.toNat
  · exact binary_of_exec (fun _ _ => rfl) fun o a b => fpPay_fCmp (f o) .ge a.toNat b.toNat
  · exact binary_of_exec (fun _ _ => rfl) fun o a b => fpPay_fCmp (f o) .un a.toNat b.toNat
  · refine unary_of_exec (fun _ _ => rfl) fun o a => ?_
    show fpPay (fClass (f o) a.toNat, 0) = _
    rw [fClass_eq]
    simp only [fpPay, apply_ite (BitVec.ofNat 64)]
    rfl

/-! ### MAXI (R155, R156) -/

/-- A type of a format has the format's bits. -/
theorem tyBits_eq_bits {ty : Ty} (h : isFp ty = true) : tyBits ty = (fmtOf ty).bits := by
  revert h
  cases ty <;> decide

theorem fBits_lt (ty : Ty) (n : Nat) : fBits (fmtOf ty) n < 2 ^ 32 := by
  have hbits : (fmtOf ty).bits ≤ 32 := by cases ty <;> decide
  exact Nat.lt_of_lt_of_le (Nat.mod_lt _ (Nat.two_pow_pos _)) (Nat.pow_le_pow_right (by decide) hbits)

/-- MAXI takes the first of two pairs when its key is higher, or as high with an index no larger. -/
theorem maxPair_eq (ty : Ty) (ord : Bool) (p q : Nat × Nat) : maxPair ty ord p q =
    if pairKey (fmtOf ty) ord q.2 < pairKey (fmtOf ty) ord p.2 ∨ (pairKey (fmtOf ty) ord p.2 = pairKey (fmtOf ty) ord q.2 ∧ p.1 ≤ q.1)
    then p else q := by
  simp only [maxPair, outranks_iff (fmtOf_eb_pos ty)]
  grind

theorem maxiRanksPairs : MaxiRanksPairs := by
  unfold MaxiRanksPairs
  intro key o s h f a b va vb ia ib k takeA v
  refine yields_of_compute ?_
  have hidx (x : Word) : pairIdx x = x.toNat / 2 ^ 32 := nfld_top x 32 32 rfl
  have hval (x : Word) : pairVal o.ty x = fBits f x.toNat := by rw [pairVal, tyBits_eq_bits h]; rfl
  have hmax : maxPair o.ty (bit o.imm 0) (pairIdx a.v, pairVal o.ty a.v) (pairIdx b.v, pairVal o.ty b.v) = if takeA then (ia, va) else (ib, vb) := by
    rw [maxPair_eq, hidx, hidx, hval, hval]
    rfl
  have hout : pairOut o.ty (if takeA then (ia, va) else (ib, vb)) =
      BitVec.ofNat 64 ((if takeA then ia else ib) * 2 ^ 32 + if fIsNan f v then f.nan else v) := by
    have hia (x : Word) : x.toNat / 2 ^ 32 < 2 ^ 32 := by have := x.isLt; omega
    simp only [v]
    split
    · exact pairOut_eq o.ty (hia a.v) (fBits_lt o.ty _)
    · exact pairOut_eq o.ty (hia b.v) (fBits_lt o.ty _)
  rw [← hout, ← hmax]
  rfl

end Sys2Proof.Machine

namespace Sys2Proof

/-- Settles O4: every rule on the fields of its data, with the comparison of two data as that of their places. -/
theorem floatInstructions : Obligations.FloatInstructions :=
  ⟨Machine.floatInstructionsComplete, Machine.floatComparisonsAndClasses, Machine.maxiRanksPairs⟩

end Sys2Proof
end

section
/-! SUPPORT. BFRD, BFQRY and RENEW (06 R218 to R220): the operand that BFRD reads, the status word, and the renewals that RENEW begins and
its unit ends. -/

namespace Sys2Proof.Machine

open Sys2Proof.Claims

/-! ### The operand of BFRD -/

/-- Lines that hold no poison hold none in a part of them. -/
theorem poolPoisoned_of_within {el : Elem} {a n k w : Nat} (hw : k + w ≤ n) (h : poolPoisoned el a n = false) :
    poolPoisoned el (a + k) w = false := by
  rw [poolPoisoned, List.any_eq_false] at h ⊢
  intro l hl hp
  refine h l hl ?_
  rw [Bool.and_eq_true, decide_eq_true_eq, decide_eq_true_eq] at hp ⊢
  exact ⟨(Nat.div_le_div_right (Nat.le_add_right a k)).trans hp.1, hp.2.trans (Nat.div_le_div_right (by omega))⟩

/-- A type of whole bytes fills a line with a whole number of elements. -/
theorem tyBytes_dvd_line (ty : Ty) : tyBits ty / 8 = 0 ∨ tyBits ty / 8 ∣ 64 := by cases ty <;> decide

/-- An element that begins within the lines of a slot ends within them. -/
theorem element_within_lines (ty : Ty) {x lines : Nat} (h : x * (tyBits ty / 8) < 64 * lines) :
    x * (tyBits ty / 8) + tyBits ty / 8 ≤ 64 * lines := by
  rcases tyBytes_dvd_line ty with hz | ⟨c, hc⟩
  · rw [hz] at h ⊢; omega
  · have hx : x < c * lines := by
      refine Nat.lt_of_mul_lt_mul_left (a := tyBits ty / 8) ?_
      rwa [← Nat.mul_assoc, ← hc, Nat.mul_comm]
    calc x * (tyBits ty / 8) + tyBits ty / 8 = tyBits ty / 8 * (x + 1) := by ring
      _ ≤ tyBits ty / 8 * (c * lines) := Nat.mul_le_mul_left _ hx
      _ = 64 * lines := by rw [← Nat.mul_assoc, ← hc]

theorem nth_drop {α : Type} (d : α) (l : List α) (k i : Nat) : nth d (l.drop k) i = nth d l (k + i) := by
  rw [nth_eq_getD, nth_eq_getD, List.getD_eq_getElem?_getD, List.getElem?_drop, List.getD_eq_getElem?_getD]

/-- A part of a list, place by place. -/
theorem take_drop_eq_map_range {α : Type} (d : α) {l : List α} {k w : Nat} (h : k + w ≤ l.length) :
    (l.drop k).take w = (List.range w).map fun i => nth d l (k + i) := by
  have hlen : ((l.drop k).take w).length = w := by rw [List.length_take, List.length_drop]; omega
  conv_lhs => rw [← map_nth_range d ((l.drop k).take w), hlen]
  refine List.map_congr_left fun i hi => ?_
  rw [← nth_drop, nth_eq_getD, nth_eq_getD, List.getD_eq_getElem?_getD, List.getElem?_take_of_lt (List.mem_range.mp hi),
    List.getD_eq_getElem?_getD]

/-- A live operand token whose reference passes its checks reads the lines of a slot of an allocated buffer (R26, R160). -/
theorem State.arg_of_live {s : State} {f : Firing} {ty : Ty} {n : BitVec 2} {hold : Bool} {tk : Token} (ht : f.tok n.toNat = some tk)
    (hd : sbDead tk.sb = false) (ha : s.argFault f (s.arg f ty (.port n) hold) = none) :
    ∃ b, s.buf f.e f.ctx (refBuf tk.pay) = some b ∧ s.arg f ty (.port n) hold =
      ⟨(tk.sb &&& 0x7F) ||| (if poolPoisoned (s.elem f.e) (b.slotByte (refSlot tk.pay)) (64 * refLines tk.pay) then sbPoison else 0),
        some (refBuf tk.pay, refSlot tk.pay), refLines tk.pay,
        mgetN (s.elem f.e).pool (b.slotByte (refSlot tk.pay)) (64 * refLines tk.pay), b.slot (refSlot tk.pay), 0, hold⟩ := by
  cases hb : s.buf f.e f.ctx (refBuf tk.pay) with
  | none =>
    simp only [State.arg, ht, hd, hb, Bool.false_eq_true, if_false, State.argFault] at ha
    cases ha
  | some b =>
    refine ⟨b, rfl, ?_⟩
    simp only [State.arg, ht, hd, hb, Bool.false_eq_true, if_false]

theorem sbDead_or (a b : BitVec 8) : sbDead (a ||| b) = (sbDead a || sbDead b) := by
  simp only [sbDead, sbNL, sbPZ, bit, BitVec.getLsbD_or]
  cases a.getLsbD 6 <;> cases b.getLsbD 6 <;> cases a.getLsbD 5 <;> rfl

theorem sbDead_and_mask (a : BitVec 8) : sbDead (a &&& 0x7F) = sbDead a := by
  simp [sbDead, sbNL, sbPZ, bit]

theorem sbDead_sbOr_pair (a b : BitVec 8) : sbDead (sbOr [a, b]) = (sbDead a || sbDead b) := by
  rw [sbOr_pair, sbDead_and_mask, sbDead_or]

theorem sbOr_pair_mask (a b : BitVec 8) : sbOr [a &&& 0x7F, b] = sbOr [a, b] := by
  simp only [sbOr_pair]
  ext i
  simp [Bool.and_or_distrib_right]

/-! ### BFRD, case by case (R218) -/

theorem exec_bfrd (o : Ops) (s : State) : exec (.bfrd o) s = execBfrd o s := rfl
theorem exec_bfqry (o : Ops) (s : State) : exec (.bfqry o) s = execBfqry o s := rfl
theorem exec_renew (o : Ops) (s : State) : exec (.renew o) s = execRenew o s := rfl

section Bfrd
variable {o : Ops} {s : State} {f : Firing} {n : BitVec 2} {tk : Token}

/-- The slot operand of a BFRD, and the joined side-band of its two tokens. -/
abbrev State.readArg (s : State) (f : Firing) (o : Ops) : Arg := s.arg f o.ty o.a (o.imm.getLsbD 5)
abbrev State.sbRd (s : State) (o : Ops) (tk : Token) : BitVec 8 := sbOr [tk.sb, (s.opVal .x64 o.imm o.b).sb]
/-- The place in the slot that the index of a BFRD names, in bytes. -/
abbrev State.readAt (s : State) (o : Ops) : Nat := (s.opVal .x64 o.imm o.b).v.toNat * (tyBits o.ty / 8)

variable (hf : s.focus = .node f) (hn : o.a = .port n) (ht : f.tok n.toNat = some tk) (ha : s.argFault f (s.readArg f o) = none)
include hf hn ht ha

theorem bfrd_dead (hd : sbDead (s.sbRd o tk) = true) :
    exec (.bfrd o) s = .next (gives (s.releaseAll f.e f.ctx (releases [s.readArg f o])) f o 1 0 (s.sbRd o tk)) := by
  have hport : (f.portVal n.toNat).sb = tk.sb &&& 0x7F := by simp only [Firing.portVal, ht]
  rw [exec_bfrd, execBfrd, State.flow_node hf, ← State.bufDone_eq_gives]
  simp only [State.readArg, hn, bit] at ha ⊢
  simp only [ha, hport, sbOr_pair_mask, hd, if_true]

theorem bfrd_beyond (hd : sbDead (s.sbRd o tk) = false) (hk : 64 * (s.readArg f o).lines ≤ s.readAt o) :
    exec (.bfrd o) s = .next (s.faultFiring f (f.info cBuffer (s.sbRd o tk))) := by
  have hport : (f.portVal n.toNat).sb = tk.sb &&& 0x7F := by simp only [Firing.portVal, ht]
  rw [exec_bfrd, execBfrd, State.flow_node hf]
  simp only [State.readArg, hn, bit] at ha hk ⊢
  simp only [ha, hport, sbOr_pair_mask, hd, hk, Bool.false_eq_true, if_false, if_true]

theorem bfrd_reads (hd : sbDead (s.sbRd o tk) = false) (hk : s.readAt o < 64 * (s.readArg f o).lines) (hp : sbPZ (s.readArg f o).sb = false) :
    exec (.bfrd o) s = .next (gives (s.releaseAll f.e f.ctx (releases [s.readArg f o])) f o 1
      (tyExtend o.ty (ofBytes ((List.range (tyBits o.ty / 8)).map fun i => nth 0 (s.readArg f o).bytes (s.readAt o + i)))) (s.sbRd o tk)) := by
  have hport : (f.portVal n.toNat).sb = tk.sb &&& 0x7F := by simp only [Firing.portVal, ht]
  have hlive : sbDead tk.sb = false := by rw [sbDead_sbOr_pair, Bool.or_eq_false_iff] at hd; exact hd.1
  have hend := element_within_lines o.ty hk
  rw [exec_bfrd, execBfrd, State.flow_node hf, ← State.bufDone_eq_gives]
  simp only [State.readArg, hn, bit] at ha hk hend hp ⊢
  obtain ⟨b, hb, harg⟩ := State.arg_of_live ht hlive ha
  simp only [ha, hport, sbOr_pair_mask, hd, Nat.not_le.mpr hk, Bool.false_eq_true, if_false]
  rw [harg] at hk hp hend ⊢
  have hclean : poolPoisoned (s.elem f.e) (b.slotByte (refSlot tk.pay)) (64 * refLines tk.pay) = false := by
    by_contra hc
    rw [Bool.not_eq_false] at hc
    simp [hc, sbPZ, bit, sbPoison] at hp
  simp only [hb, poolPoisoned_of_within hend hclean, Bool.false_eq_true, if_false]
  rw [take_drop_eq_map_range 0 (by rwa [length_mgetN])]

end Bfrd

/-! ### A search of a list -/

theorem lfind_eq_find? {α : Type} (p : α → Bool) (l : List α) : lfind p l = l.find? p := by
  induction l with
  | nil => rfl
  | cons x l ih => rw [lfind, List.find?, ih]; cases p x <;> rfl

theorem lfind_some {α : Type} {p : α → Bool} {l : List α} (h : ∃ x ∈ l, p x = true) : ∃ x, lfind p l = some x := by
  rw [lfind_eq_find?]
  exact Option.isSome_iff_exists.mp (List.find?_isSome.mpr h)

/-! ### BFQRY, case by case (R219, Table 6.7) -/

/-- One bit of a vector as a field of it. -/
theorem getLsbD_of_nfld {n : Nat} {w : BitVec n} {i : Nat} {p : Bool} (h : nfld w i 1 = b2n p % 2 ^ 1) : w.getLsbD i = p := by
  show w.toNat.testBit i = p
  rw [nfld, Nat.pow_one] at h
  rw [Nat.testBit_eq_decide_div_mod_eq, h]
  cases p <;> rfl

/-- The fields of the status word of an allocated buffer's slot. -/
theorem State.bufStatus_fields {s : State} {e c n : Nat} {b : Buf} (h : s.buf e c n = some b) (i : Nat) :
    let v := s.bufStatus e c n i
    nfld v 32 13 = (4096 - elemKept (s.elem e)) % 8192 ∧ nfld v 13 4 = b.widx % 16 ∧ v.getLsbD 12 = true ∧ v.getLsbD 11 = (b.slot i).exp ∧
      v.getLsbD 10 = (b.slot i).kept ∧ v.getLsbD 9 = (b.slot i).full ∧
      nfld v 0 9 = (if (b.slot i).data = true ∧ (b.slot i).exp = false ∧ ((b.slot i).stamp - (s.elem e).retcnt).toNat ≤ 400
        then ((b.slot i).stamp - (s.elem e).retcnt).toNat else 0) := by
  intro v
  have hv : v = pack 64 [(32, 13, 4096 - elemKept (s.elem e)), (13, 4, b.widx), (12, 1, b2n true), (11, 1, b2n (b.slot i).exp),
      (10, 1, b2n (b.slot i).kept), (9, 1, b2n (b.slot i).full), (0, 9, (b.slot i).remain (s.elem e).retcnt)] := by
    simp only [v, State.bufStatus, h]
    rfl
  have hfield {lo len x : Nat} (hm : (lo, len, x) ∈ [(32, 13, 4096 - elemKept (s.elem e)), (13, 4, b.widx), (12, 1, b2n true),
      (11, 1, b2n (b.slot i).exp), (10, 1, b2n (b.slot i).kept), (9, 1, b2n (b.slot i).full), (0, 9, (b.slot i).remain (s.elem e).retcnt)]) :
      nfld v lo len = x % 2 ^ len := hv ▸ nfld_pack 64 _ _ _ _ rfl hm
  refine ⟨hfield (by simp), hfield (by simp), getLsbD_of_nfld (hfield (by simp)), getLsbD_of_nfld (hfield (by simp)),
    getLsbD_of_nfld (hfield (by simp)), getLsbD_of_nfld (hfield (by simp)), ?_⟩
  rw [hfield (x := (b.slot i).remain (s.elem e).retcnt) (by simp), Slot.remain]
  simp only [Bool.and_eq_true, Bool.not_eq_true', decide_eq_true_eq, and_assoc]
  split
  · next hr => exact Nat.mod_eq_of_lt (by omega)
  · rfl

section Queries
variable {o : Ops} {s : State} {f : Firing}

/-- The slot that IMM names. -/
abbrev imSlot (o : Ops) : Nat := nfld o.imm 5 4

theorem bfqry_dead (hf : s.focus = .node f) (hd : sbDead (s.opVal .x64 o.imm o.a).sb = true) :
    exec (.bfqry o) s = .next (gives s f o 1 0 (s.opVal .x64 o.imm o.a).sb) := by
  rw [exec_bfqry, execBfqry, State.flow_node hf, ← State.bufDone_eq_gives]
  simp only [hd, if_true]

theorem bfqry_beyond {b : Buf} (hf : s.focus = .node f) (hd : sbDead (s.opVal .x64 o.imm o.a).sb = false)
    (hb : s.buf f.e f.ctx (bufOf o) = some b) (hi : b.depth ≤ imSlot o) :
    exec (.bfqry o) s = .next (s.faultFiring f (f.info cBuffer (s.opVal .x64 o.imm o.a).sb)) := by
  rw [exec_bfqry, execBfqry, State.flow_node hf]
  simp only [hd, hb, hi, decide_true, Bool.false_eq_true, if_false, if_true]

theorem bfqry_answers (hf : s.focus = .node f) (hd : sbDead (s.opVal .x64 o.imm o.a).sb = false)
    (hb : ∀ b, s.buf f.e f.ctx (bufOf o) = some b → imSlot o < b.depth) :
    exec (.bfqry o) s = .next (gives s f o 1 (s.bufStatus f.e f.ctx (bufOf o) (imSlot o)) (s.opVal .x64 o.imm o.a).sb) := by
  rw [exec_bfqry, execBfqry, State.flow_node hf, ← State.bufDone_eq_gives]
  cases h : s.buf f.e f.ctx (bufOf o) with
  | none => simp only [hd, Bool.false_eq_true, if_false]
  | some b => simp only [hd, decide_eq_false (Nat.not_le.mpr (hb b h)), Bool.false_eq_true, if_false]

/-- The status word of a buffer that is not allocated has the free lines of the keep budget alone. -/
theorem State.bufStatus_none {e c n : Nat} (h : s.buf e c n = none) (i : Nat) :
    s.bufStatus e c n i = BitVec.ofNat 64 ((4096 - elemKept (s.elem e)) * 2 ^ 32) := by
  have hlt : 4096 - elemKept (s.elem e) < 2 ^ 13 := by omega
  simp only [State.bufStatus, h, pack, packNat, Nat.mod_eq_of_lt hlt, Nat.add_zero]

/-! ### RENEW, case by case (R220) -/

/-- The slots that a RENEW names: all of its buffer, or one. -/
def renewNames (o : Ops) (b : Buf) : List Nat := if bit o.imm 9 then List.range b.depth else [imSlot o]

theorem renewNames_def (o : Ops) (b : Buf) : (if bit o.imm 9 then List.range b.depth else [nfld o.imm 5 4]) = renewNames o b := rfl

/-- The buffer with the renewal of some of its slots begun. -/
def Buf.renewing (b : Buf) (st : BitVec 32) (l : List Nat) : Buf := l.foldl (fun b i => b.setSlot i ((b.slot i).renewing st)) b

theorem Buf.length_renewing (b : Buf) (st : BitVec 32) (l : List Nat) : (b.renewing st l).slots.length = b.slots.length := by
  induction l generalizing b with
  | nil => rfl
  | cons i l ih => exact (ih _).trans (b.length_setSlot ..)

theorem Buf.slot_renewing (b : Buf) (st : BitVec 32) (l : List Nat) {j : Nat} (hj : j < b.slots.length) :
    (b.renewing st l).slot j = if j ∈ l then { b.slot j with renew := some st } else b.slot j := by
  induction l generalizing b with
  | nil => rfl
  | cons i l ih =>
    show ((b.setSlot i ((b.slot i).renewing st)).renewing st l).slot j = _
    rw [ih _ (by rwa [Buf.length_setSlot]), Buf.slot_setSlot]
    by_cases hij : i = j
    · subst hij
      simp [hj, Slot.renewing]
    · simp [hij, Ne.symm hij]

theorem renew_dead (hf : s.focus = .node f) (hd : sbDead (s.opVal .x64 o.imm o.a).sb = true) :
    exec (.renew o) s = .next (gives s f o 1 0 (s.opVal .x64 o.imm o.a).sb) := by
  rw [exec_renew, execRenew, State.flow_node hf, ← State.bufDone_eq_gives]
  simp only [hd, if_true]

variable (hf : s.focus = .node f) (hd : sbDead (s.opVal .x64 o.imm o.a).sb = false)
include hf hd

theorem renew_noBuffer (hb : s.buf f.e f.ctx (bufOf o) = none) :
    exec (.renew o) s = .next (s.faultFiring f (f.info cBuffer (s.opVal .x64 o.imm o.a).sb)) := by
  rw [exec_renew, execRenew, State.flow_node hf]
  simp only [hd, hb, Bool.false_eq_true, if_false]

variable {b : Buf} (hb : s.buf f.e f.ctx (bufOf o) = some b)
include hb

theorem renew_beyond (h : ∃ j ∈ renewNames o b, b.depth ≤ j) :
    exec (.renew o) s = .next (s.faultFiring f (f.info cBuffer (s.opVal .x64 o.imm o.a).sb)) := by
  have hany : (renewNames o b).any (fun i => decide (b.depth ≤ i)) = true := by simpa using h
  rw [exec_renew, execRenew, State.flow_node hf]
  simp only [hd, hb, rangeFrom_zero, renewNames_def, hany, Bool.false_eq_true, if_false, if_true]

variable (hin : ∀ j ∈ renewNames o b, j < b.depth)
include hin

theorem renew_stale (h : ∃ j ∈ renewNames o b, (b.slot j).full = true ∧ (b.slot j).exp = true) :
    ∃ m : FaultInfo, m.code = 4 ∧ exec (.renew o) s = .next (s.faultFiring f m) := by
  have hany : (renewNames o b).any (fun i => decide (b.depth ≤ i)) = false := by simpa using hin
  have hfind : ∃ i, lfind (fun i => (b.slot i).full && (b.slot i).exp) (renewNames o b) = some i :=
    lfind_some (by simpa using h)
  obtain ⟨i, hi⟩ := hfind
  rw [exec_renew, execRenew, State.flow_node hf]
  simp only [hd, hb, rangeFrom_zero, renewNames_def, hany, hi, Bool.false_eq_true, if_false]
  exact ⟨_, rfl, rfl⟩

/-- RENEW with nothing amiss: its full slots are being renewed, and a unit holds it for their lines. -/
theorem renew_begins (h : ∀ j ∈ renewNames o b, (b.slot j).full = true → (b.slot j).exp = false) :
    let sb := (s.opVal .x64 o.imm o.a).sb
    let full := (renewNames o b).filter fun j => (b.slot j).full
    let lines := b.size * full.length
    ∃ t, BooksOnly (s.setBuf f.e f.ctx (bufOf o) (some (b.renewing ((s.elem f.e).retcnt + BitVec.ofNat 32 b.life) full))) t ∧
      exec (.renew o) s = .next { t with
        fab := { t.fab with units := t.fab.units ++ [⟨f.e, f.ctx, f.slot, f.tag, s.cycle + (if lines = 0 then 1 else lines), 0, none,
          both o ⟨0, sb, .scalar, 0, none, f.tag, []⟩, none, [], full.map fun j => (bufOf o, j)⟩] }
        focus := .thread 0 } := by
  intro sb full lines
  have hany : (renewNames o b).any (fun i => decide (b.depth ≤ i)) = false := by simpa using hin
  have hfind : lfind (fun i => (b.slot i).full && (b.slot i).exp) (renewNames o b) = none := lfind_eq_none.mpr (by simpa using h)
  rw [exec_renew, execRenew, State.flow_node hf]
  simp only [hd, hb, rangeFrom_zero, renewNames_def, hany, hfind, Bool.false_eq_true, if_false, outBoth_eq_both]
  exact ⟨_, (State.latch_booksOnly _ f o sb).trans (State.settle_booksOnly _ f.e (tagCol f.tag) f.count _), rfl⟩

end Queries

/-! ### The end of a renewal (R315, R321) -/

/-- A buffer whose slot is put back as it stands is the buffer. -/
theorem Buf.setSlot_slot (b : Buf) (i : Nat) : b.setSlot i (b.slot i) = b := by
  have h : setNth b.slots i (nth Slot.empty b.slots i) = b.slots := by
    generalize b.slots = l
    induction l generalizing i with
    | nil => rfl
    | cons x l ih => cases i with
      | zero => rfl
      | succ i => rw [setNth, nth, ih]
  simp only [Buf.setSlot, Buf.slot, h]

/-- A slot whose renewal ends does not run out when it is kept or its new stamp lies ahead. -/
theorem Slot.age_of_life {q : Slot} {now : BitVec 32} (copying : Bool)
    (h : q.kept = true ∨ (1 ≤ (q.stamp - now).toNat ∧ (q.stamp - now).toNat ≤ 400)) : q.age copying now = q := by
  have hrun : q.runOut copying now = false := by
    rcases h with h | ⟨h1, h2⟩
    · simp [Slot.runOut, h]
    · have h0 : ((q.stamp - now).toNat == 0) = false := by rw [beq_eq_false_iff_ne]; omega
      simp only [Slot.runOut, h0, decide_eq_false (Nat.not_lt.mpr h2), Bool.or_false, Bool.and_false]
  rw [Slot.age, hrun, if_neg Bool.false_ne_true]

theorem State.setBuf_retcnt (s : State) (e c n : Nat) (v : Option Buf) (e' : Nat) : ((s.setBuf e c n v).elem e').retcnt = (s.elem e').retcnt := by
  rw [State.setBuf, State.setCtx, State.elem_setElem]
  split
  · next h => rw [h]
  · rfl

/-- Ending the renewal of one slot stamps it, and leaves the rest of its buffer and memory. -/
theorem State.renewAll_one {s : State} {e c n i : Nat} {b : Buf} {st : BitVec 32} (hb : s.buf e c n = some b) (hr : (b.slot i).renew = some st)
    (h : (b.slot i).kept = true ∨ (1 ≤ (st - (s.elem e).retcnt).toNat ∧ (st - (s.elem e).retcnt).toNat ≤ 400)) :
    (s.renewAll e c [(n, i)]).buf e c n = some (b.setSlot i { b.slot i with stamp := st, renew := none }) ∧
      (s.renewAll e c [(n, i)]).mem = s.mem := by
  have hi : i < b.slots.length := by
    by_contra hi
    have hempty : b.slot i = Slot.empty := nth_of_length_le _ (Nat.not_lt.mp hi)
    rw [hempty] at hr
    cases hr
  have hrenewed : (b.slot i).renewed = { b.slot i with stamp := st, renew := none } := by simp only [Slot.renewed, hr]
  set b1 := b.setSlot i { b.slot i with stamp := st, renew := none } with hb1
  have hslot : b1.slot i = { b.slot i with stamp := st, renew := none } := (b.slot_setSlot i i _).trans (if_pos ⟨rfl, hi⟩)
  have hmod : s.modSlot e c n i Slot.renewed = s.setBuf e c n (some b1) := by rw [State.modSlot_of_buf hb, hrenewed]
  show ((s.modSlot e c n i Slot.renewed).ageSlot e c n i).buf e c n = _ ∧ ((s.modSlot e c n i Slot.renewed).ageSlot e c n i).mem = _
  rw [hmod, State.ageSlot, State.modSlot_of_buf (State.buf_setBuf_same ..), State.setBuf_retcnt, Slot.age_of_life _ (by rw [hslot]; exact h),
    Buf.setSlot_slot, State.buf_setBuf_same]
  exact ⟨rfl, rfl⟩

theorem exec_unitCompletion (e : Nat) (s : State) : exec (.unitCompletion e) s = execUnitCompletion e s := rfl

/-- A firing that writes and releases nothing ends with its renewals and then sends its results. -/
theorem unitCompletion_renews {s : State} {e : Nat} {u : UnitOp} (hu : firstUnit e s.fab.units = some u) (hdue : u.due ≤ s.cycle)
    (hw : u.write = none) (hr : u.release = []) (hp : s.purgedAt u.e u.tag = false) :
    exec (.unitCompletion e) s = .next ((({ s with fab := { s.fab with units := s.fab.units.erase u } } : State).renewAll u.e u.ctx u.renews).sendOuts
      u.e u.ctx 0 u.outs) := by
  rw [exec_unitCompletion, execUnitCompletion]
  simp only [hu, hdue, if_true, State.endUnit, hw, hr, hp, Bool.false_eq_true, if_false]
  rfl

/-! ### The statement's three parts -/

section Parts
variable (o : Ops) (s : State) (f : Firing) (hf : s.focus = .node f)
include hf

/-- RENEW's slots, unit and frame, once its checks have passed. -/
theorem renew_ends {b : Buf} (hd : sbDead (s.opVal .x64 o.imm o.a).sb = false) (hb : s.buf f.e f.ctx (bufOf o) = some b)
    (hlen : b.slots.length = b.depth) (h : ∀ j ∈ renewNames o b, j < b.depth ∧ ((b.slot j).full = true → (b.slot j).exp = false)) :
    let full := (renewNames o b).filter fun j => (b.slot j).full
    let lines := b.size * full.length
    Ends (.renew o) s fun s' => ∃ b', s'.buf f.e f.ctx (bufOf o) = some b' ∧ b'.slots.length = b.slots.length ∧
      (∀ j, j < b.depth → b'.slot j = if j ∈ renewNames o b ∧ (b.slot j).full = true
        then { b.slot j with renew := some ((s.elem f.e).retcnt + BitVec.ofNat 32 b.life) } else b.slot j) ∧
      s'.fab.units = s.fab.units ++ [⟨f.e, f.ctx, f.slot, f.tag, s.cycle + (if lines = 0 then 1 else lines), 0, none,
        both o ⟨0, (s.opVal .x64 o.imm o.a).sb, .scalar, 0, none, f.tag, []⟩, none, [], full.map fun j => (bufOf o, j)⟩] ∧
      (s'.elem f.e).pool = (s.elem f.e).pool ∧ s'.mem = s.mem ∧ s'.fab.tokens = s.fab.tokens := by
  intro full lines
  obtain ⟨t, hbooks, hexec⟩ := renew_begins hf hd hb (fun j hj => (h j hj).1) fun j hj => (h j hj).2
  refine ⟨_, hexec, _, (hbooks.buf ..).trans (State.buf_setBuf_same ..), Buf.length_renewing .., fun j hj => ?_, ?_, ?_, hbooks.mem, hbooks.tokens⟩
  · rw [Buf.slot_renewing _ _ _ (hlen ▸ hj)]
    simp only [List.mem_filter]
  · simp only [hbooks.units]
    rfl
  · exact (hbooks.pool f.e).trans (State.setBuf_pool ..)

/-- BFQRY's answer, whether the buffer is allocated or not. -/
theorem bfqry_ends (hd : sbDead (s.opVal .x64 o.imm o.a).sb = false) :
    (s.buf f.e f.ctx (bufOf o) = none → exec (.bfqry o) s =
      .next (gives s f o 1 (BitVec.ofNat 64 ((4096 - elemKept (s.elem f.e)) * 2 ^ 32)) (s.opVal .x64 o.imm o.a).sb)) ∧
    ∀ b, s.buf f.e f.ctx (bufOf o) = some b → imSlot o < b.depth → exec (.bfqry o) s =
      .next (gives s f o 1 (s.bufStatus f.e f.ctx (bufOf o) (imSlot o)) (s.opVal .x64 o.imm o.a).sb) := by
  refine ⟨fun hb => ?_, fun b hb hi => bfqry_answers hf hd fun b' hb' => ?_⟩
  · rw [← State.bufStatus_none hb (imSlot o)]
    exact bfqry_answers hf hd fun b hb' => by rw [hb] at hb'; cases hb'
  · obtain rfl : b = b' := Option.some_inj.mp (hb.symm.trans hb')
    exact hi

end Parts

/-- A renewal that its unit ends gives its slot the stamp that RENEW wrote down. -/
theorem unitCompletion_stamps {s : State} {e n i : Nat} {u : UnitOp} {b : Buf} {st : BitVec 32} (hu : firstUnit e s.fab.units = some u)
    (hdue : u.due ≤ s.cycle) (hw : u.write = none) (hr : u.release = []) (hren : u.renews = [(n, i)]) (hp : s.purgedAt u.e u.tag = false)
    (hb : s.buf u.e u.ctx n = some b) (hst : (b.slot i).renew = some st)
    (hlife : (b.slot i).kept = true ∨ (1 ≤ (st - (s.elem u.e).retcnt).toNat ∧ (st - (s.elem u.e).retcnt).toNat ≤ 400)) :
    Ends (.unitCompletion e) s fun s' =>
      s'.buf u.e u.ctx n = some (b.setSlot i { b.slot i with stamp := st, renew := none }) ∧ s'.mem = s.mem := by
  let s1 : State := { s with fab := { s.fab with units := s.fab.units.erase u } }
  have hb1 : s1.buf u.e u.ctx n = some b := hb
  obtain ⟨hbuf, hmem⟩ := State.renewAll_one hb1 hst hlife
  obtain ⟨ts, hsent, -⟩ := State.sendFrom_eq (s1.renewAll u.e u.ctx [(n, i)]) none u.e u.ctx 0 u.outs
  refine ⟨_, unitCompletion_renews hu hdue hw hr hp, ?_⟩
  rw [hren, State.sendOuts, hsent]
  exact ⟨hbuf, hmem⟩

end Sys2Proof.Machine

namespace Sys2Proof

open Machine Claims

/-- Settles O39: BFRD, BFQRY and RENEW case by case, and the end of a renewal. -/
theorem buffersReadAndRenew : Obligations.BuffersReadAndRenew := by
  intro o s f hf
  rw [← nfld_zero_five]
  refine ⟨?_, ?_, fun e n i u b st hu hdue hw hr hren hp hb hst hlife => unitCompletion_stamps hu hdue hw hr hren hp hb hst hlife⟩
  · intro a x w k freed n tk hport ht ha
    exact ⟨bfrd_dead hf hport ht ha, fun r _ hd => ⟨fun hk => ⟨_, rfl, bfrd_beyond hf hport ht ha hd hk⟩, bfrd_reads hf hport ht ha hd⟩⟩
  · intro t n i free
    refine ⟨fun hd => ⟨bfqry_dead hf hd, renew_dead hf hd⟩, fun hd hb => ⟨_, rfl, renew_noBuffer hf hd hb⟩,
      fun hd hb _ => (bfqry_ends o s f hf hd).1 hb, fun b hd hb => ⟨fun hi => ⟨_, rfl, bfqry_beyond hf hd hb hi⟩, fun hi => ?_, ?_⟩⟩
    · exact ⟨_, (bfqry_ends o s f hf hd).2 b hb hi, State.bufStatus_fields hb i⟩
    · intro is
      exact ⟨fun h => ⟨_, rfl, renew_beyond hf hd hb h⟩, renew_stale hf hd hb, fun h hlen => renew_ends o s f hf hd hb hlen h⟩

end Sys2Proof
end

section
/-! SUPPORT. The DATA of an accumulator as a grid of 32 by 32 words (05 R176): how values are read from it, changed within a shape, and
written back. -/

namespace Sys2Proof.Machine

open Sys2Proof.Claims

/-! ### Grids of an accumulator -/

/-- 32 rows of 32 words of 32 bits. -/
structure AccGrid (d : List (List Nat)) : Prop where
  rows : d.length = 32
  cols : ∀ r ∈ d, r.length = 32
  words : ∀ r ∈ d, ∀ v ∈ r, v < 2 ^ 32

/-- Value (i, j) of a grid. -/
def gridAt (d : List (List Nat)) (i j : Nat) : Nat := nth 0 (nth [] d i) j

theorem AccGrid.row_length {d : List (List Nat)} (h : AccGrid d) {i : Nat} (hi : i < 32) : (nth [] d i).length = 32 :=
  h.cols _ (nth_mem [] (h.rows ▸ hi))

theorem accGrid_zeroGrid : AccGrid zeroGrid := by
  refine ⟨rfl, fun r hr => ?_, fun r hr v hv => ?_⟩ <;> rw [zeroGrid, List.mem_replicate] at hr <;> obtain ⟨-, rfl⟩ := hr
  · rfl
  · rw [(List.mem_replicate.mp hv).2]; decide

theorem nth_replicate {α : Type} (d x : α) (n i : Nat) : nth d (List.replicate n x) i = if i < n then x else d := by
  rw [nth_eq_getD, List.getD_eq_getElem?_getD, List.getElem?_replicate]
  split <;> rfl

theorem gridAt_zeroGrid (i j : Nat) : gridAt zeroGrid i j = 0 := by
  rw [gridAt, zeroGrid, nth_replicate]
  split
  · rw [nth_replicate]; split <;> rfl
  · rfl

/-! ### Joined bits -/

theorem orAll_append (l m : List (BitVec 8)) : orAll (l ++ m) = orAll l ||| orAll m := by
  induction l with
  | nil => simp
  | cons x l ih => rw [List.cons_append, orAll_cons, orAll_cons, ih, BitVec.or_assoc]

theorem orAll_flatten (l : List (List (BitVec 8))) : orAll l.flatten = orAll (l.map orAll) := by
  induction l with
  | nil => rfl
  | cons x l ih => rw [List.flatten_cons, orAll_append, ih, List.map_cons, orAll_cons]

/-! ### Changes within a shape -/

section MapRow
variable (g : Nat → Nat → Nat × BitVec 8)

theorem length_mapRow (j n : Nat) (l : List Nat) : (mapRow g j n l).1.length = l.length := by
  induction l generalizing j n with
  | nil => cases n <;> rfl
  | cons v l ih => cases n with
    | zero => rfl
    | succ n => exact congrArg (· + 1) (ih (j + 1) n)

/-- The first n values of a row are changed, from column j on. -/
theorem nth_mapRow (j n : Nat) (l : List Nat) {i : Nat} (hi : i < l.length) :
    nth 0 (mapRow g j n l).1 i = if i < n then (g (j + i) (nth 0 l i)).1 else nth 0 l i := by
  induction l generalizing j n i with
  | nil => exact absurd hi (Nat.not_lt_zero i)
  | cons v l ih => cases n with
    | zero => rfl
    | succ n => cases i with
      | zero => rfl
      | succ i =>
        show nth 0 (mapRow g (j + 1) n l).1 i = _
        rw [ih (j + 1) n (Nat.lt_of_succ_lt_succ hi), Nat.add_right_comm, Nat.add_assoc]
        simp only [Nat.add_lt_add_iff_right, nth]

theorem mapRow_bits (j n : Nat) (l : List Nat) (hn : n ≤ l.length) :
    (mapRow g j n l).2 = orAll ((List.range n).map fun i => (g (j + i) (nth 0 l i)).2) := by
  induction l generalizing j n with
  | nil => obtain rfl : n = 0 := Nat.le_zero.mp hn; rfl
  | cons v l ih => cases n with
    | zero => rfl
    | succ n =>
      show (g j v).2 ||| (mapRow g (j + 1) n l).2 = _
      rw [ih (j + 1) n (Nat.le_of_succ_le_succ hn)]
      simp [List.range_succ_eq_map, nth, Function.comp_def, Nat.add_assoc, Nat.add_comm 1]

/-- What a changed row holds was there, or is a new value. -/
theorem mem_mapRow {p : Nat → Prop} (hg : ∀ j v, p (g j v).1) (j n : Nat) {l : List Nat} (hl : ∀ v ∈ l, p v) : ∀ v ∈ (mapRow g j n l).1, p v := by
  induction l generalizing j n with
  | nil => cases n <;> exact hl
  | cons w l ih => cases n with
    | zero => exact hl
    | succ n =>
      intro v hv
      rcases List.mem_cons.mp hv with rfl | hv
      · exact hg j w
      · exact ih (j + 1) n (fun v hv => hl v (List.mem_cons_of_mem _ hv)) v hv

end MapRow

section MapGrid
variable (g : Nat → Nat → Nat → Nat × BitVec 8) (k : Nat)

theorem length_mapGrid (i n : Nat) (d : List (List Nat)) : (mapGrid g k i n d).1.length = d.length := by
  induction d generalizing i n with
  | nil => cases n <;> rfl
  | cons r d ih => cases n with
    | zero => rfl
    | succ n => exact congrArg (· + 1) (ih (i + 1) n)

/-- The first n rows of a grid are changed, from row i on. -/
theorem nth_mapGrid (i n : Nat) (d : List (List Nat)) {m : Nat} (hm : m < d.length) :
    nth [] (mapGrid g k i n d).1 m = if m < n then (mapRow (g (i + m)) 0 k (nth [] d m)).1 else nth [] d m := by
  induction d generalizing i n m with
  | nil => exact absurd hm (Nat.not_lt_zero m)
  | cons r d ih => cases n with
    | zero => rfl
    | succ n => cases m with
      | zero => rfl
      | succ m =>
        show nth [] (mapGrid g k (i + 1) n d).1 m = _
        rw [ih (i + 1) n (Nat.lt_of_succ_lt_succ hm), Nat.add_right_comm, Nat.add_assoc]
        simp only [Nat.add_lt_add_iff_right, nth]

theorem mapGrid_rowBits (i n : Nat) (d : List (List Nat)) (hn : n ≤ d.length) :
    (mapGrid g k i n d).2 = orAll ((List.range n).map fun m => (mapRow (g (i + m)) 0 k (nth [] d m)).2) := by
  induction d generalizing i n with
  | nil => obtain rfl : n = 0 := Nat.le_zero.mp hn; rfl
  | cons r d ih => cases n with
    | zero => rfl
    | succ n =>
      show (mapRow (g i) 0 k r).2 ||| (mapGrid g k (i + 1) n d).2 = _
      rw [ih (i + 1) n (Nat.le_of_succ_le_succ hn)]
      simp [List.range_succ_eq_map, nth, Function.comp_def, Nat.add_assoc, Nat.add_comm 1]

theorem mem_mapGrid {p : List Nat → Prop} (hg : ∀ i r, p r → p (mapRow (g i) 0 k r).1) (i n : Nat) {d : List (List Nat)} (hd : ∀ r ∈ d, p r) :
    ∀ r ∈ (mapGrid g k i n d).1, p r := by
  induction d generalizing i n with
  | nil => cases n <;> exact hd
  | cons w d ih => cases n with
    | zero => exact hd
    | succ n =>
      intro r hr
      rcases List.mem_cons.mp hr with rfl | hr
      · exact hg i w (hd w (List.mem_cons_self ..))
      · exact ih (i + 1) n (fun r hr => hd r (List.mem_cons_of_mem _ hr)) r hr

/-- Changed values of 32 bits leave a grid of an accumulator. -/
theorem accGrid_mapGrid (hg : ∀ i j v, (g i j v).1 < 2 ^ 32) (n : Nat) {d : List (List Nat)} (hd : AccGrid d) : AccGrid (mapGrid g k 0 n d).1 :=
  ⟨(length_mapGrid ..).trans hd.rows, mem_mapGrid g k (fun _ _ hr => (length_mapRow ..).trans hr) 0 n hd.cols,
    mem_mapGrid g k (fun i _ hr => mem_mapRow (g i) (hg i) 0 k hr) 0 n hd.words⟩

variable {d : List (List Nat)} (hd : d.length = 32) (hr : ∀ r ∈ d, r.length = 32)
include hd hr

/-- A change of the places of a shape. -/
theorem gridAt_mapGrid (n : Nat) {i j : Nat} (hi : i < 32) (hj : j < 32) :
    gridAt (mapGrid g k 0 n d).1 i j = if i < n ∧ j < k then (g i j (gridAt d i j)).1 else gridAt d i j := by
  have hrow : (nth [] d i).length = 32 := hr _ (nth_mem [] (hd ▸ hi))
  rw [gridAt, nth_mapGrid g k 0 n d (hd ▸ hi), Nat.zero_add]
  by_cases hin : i < n
  · rw [if_pos hin, nth_mapRow _ _ _ _ (hrow ▸ hj), Nat.zero_add]
    simp only [hin, true_and, gridAt]
  · rw [if_neg hin, if_neg fun h => hin h.1, gridAt]

/-- What a change of the places of a shape raises. -/
theorem mapGrid_bits (n : Nat) (hn : n ≤ 32) (hk : k ≤ 32) :
    (mapGrid g k 0 n d).2 = orAll ((places n k).map fun p => (g p.1 p.2 (gridAt d p.1 p.2)).2) := by
  rw [mapGrid_rowBits g k 0 n d (hd ▸ hn), map_places, orAll_flatten, List.map_map]
  refine congrArg orAll (List.map_congr_left fun i hi => ?_)
  have hrow : (nth [] d i).length = 32 := hr _ (nth_mem [] (hd ▸ Nat.lt_of_lt_of_le (List.mem_range.mp hi) hn))
  rw [mapRow_bits _ _ _ _ (hrow ▸ hk)]
  simp only [Nat.zero_add]
  rfl

end MapGrid

/-! ### DATA in the pool (R176, R278) -/

/-- Words that were laid down as bytes are read as they were. -/
theorem byteLanes_toBytes (k : Nat) (l : List Nat) (h : ∀ v ∈ l, v < 256 ^ k) :
    byteLanes k l.length (l.map fun v => toBytes v k).flatten = l := by
  induction l with
  | nil => rfl
  | cons v l ih =>
    rw [List.length_cons, byteLanes, List.map_cons, List.flatten_cons, List.take_left' (toBytes_len ..), List.drop_left' (toBytes_len ..),
      ih fun w hw => h w (List.mem_cons_of_mem _ hw), ofBytes_toBytes_mod, Nat.mod_eq_of_lt (h v (List.mem_cons_self ..))]

theorem length_flatten_toBytes (k : Nat) (l : List Nat) : (l.map fun v => toBytes v k).flatten.length = k * l.length := by
  induction l with
  | nil => rfl
  | cons v l ih => rw [List.map_cons, List.flatten_cons, List.length_append, ih, toBytes_len, List.length_cons, Nat.mul_succ, Nat.add_comm]

theorem length_gridRows (k n : Nat) (l : List Nat) : (gridRows k n l).length = n := by
  induction n generalizing l with
  | zero => rfl
  | succ n ih => rw [gridRows, List.length_cons, ih]

theorem mem_gridRows {k n : Nat} {l : List Nat} (h : l.length = n * k) : ∀ r ∈ gridRows k n l, r.length = k ∧ ∀ v ∈ r, v ∈ l := by
  induction n generalizing l with
  | zero => simp [gridRows]
  | succ n ih =>
    rw [Nat.succ_mul] at h
    intro r hr
    rcases List.mem_cons.mp hr with rfl | hr
    · exact ⟨by rw [List.length_take]; omega, fun v hv => List.mem_of_mem_take hv⟩
    · obtain ⟨hlen, hmem⟩ := ih (by rw [List.length_drop]; omega) r hr
      exact ⟨hlen, fun v hv => List.mem_of_mem_drop (hmem v hv)⟩

/-- Rows cut from rows that were joined. -/
theorem gridRows_flatten (k : Nat) (d : List (List Nat)) (h : ∀ r ∈ d, r.length = k) : gridRows k d.length d.flatten = d := by
  induction d with
  | nil => rfl
  | cons r d ih =>
    have hr := h r (List.mem_cons_self ..)
    rw [List.length_cons, gridRows, List.flatten_cons, List.take_left' hr, List.drop_left' hr, ih fun r hr => h r (List.mem_cons_of_mem _ hr)]

theorem length_flatten_of_rows (k : Nat) (d : List (List Nat)) (h : ∀ r ∈ d, r.length = k) : d.flatten.length = d.length * k := by
  induction d with
  | nil => simp
  | cons r d ih =>
    rw [List.flatten_cons, List.length_append, ih fun r hr => h r (List.mem_cons_of_mem _ hr), h r (List.mem_cons_self ..), List.length_cons,
      Nat.succ_mul, Nat.add_comm]

theorem accGrid_accData (s : State) (e c n : Nat) : AccGrid (s.accData e c n) := by
  have hlen : (byteLanes 4 1024 (mgetN (s.elem e).pool (accByte (s.ctx e c).partwd n) 4096)).length = 32 * 32 := byteLanes_length ..
  exact ⟨length_gridRows .., fun r hr => (mem_gridRows hlen r hr).1, fun r hr v hv => byteLanes_lt 4 1024 _ v ((mem_gridRows hlen r hr).2 v hv)⟩

theorem State.accData_of_pool {s t : State} {e c : Nat} (hp : (t.elem e).pool = (s.elem e).pool) (hw : (t.ctx e c).partwd = (s.ctx e c).partwd)
    (n : Nat) : t.accData e c n = s.accData e c n := by
  rw [State.accData, State.accData, hp, hw]

theorem State.setAccData_ctx (s : State) (e c n : Nat) (d : List (List Nat)) (c' : Nat) : (s.setAccData e c n d).ctx e c' = s.ctx e c' := by
  rw [State.ctx, State.setAccData, State.elem_setElem_same]
  rfl

/-- DATA is read as it was written. -/
theorem State.accData_setAccData (s : State) (e c n : Nat) {d : List (List Nat)} (hd : AccGrid d) : (s.setAccData e c n d).accData e c n = d := by
  have hflat : d.flatten.length = 1024 := by rw [length_flatten_of_rows 32 d hd.cols, hd.rows]
  have hpool : ((s.setAccData e c n d).elem e).pool =
      msetN (s.elem e).pool (accByte (s.ctx e c).partwd n) (d.flatten.map fun v => toBytes v 4).flatten := by
    rw [State.setAccData, State.elem_setElem_same]
    rfl
  have hbytes : (d.flatten.map fun v => toBytes v 4).flatten.length = 4096 := by rw [length_flatten_toBytes, hflat]
  have hwords : ∀ v ∈ d.flatten, v < 256 ^ 4 := fun v hv => by
    obtain ⟨r, hr, hv⟩ := List.mem_flatten.mp hv
    exact hd.words r hr v hv
  rw [State.accData, State.setAccData_ctx, hpool]
  conv_lhs => rw [← hbytes, mgetN_msetN, ← hflat, byteLanes_toBytes 4 _ hwords]
  rw [← hd.rows]
  conv_lhs => rw [hd.rows]
  exact hd.rows ▸ gridRows_flatten 32 d hd.cols

end Sys2Proof.Machine
end

section
/-! SUPPORT. What an f32 result can be, and the completion of an open group (05 R61, R62). -/

namespace Sys2Proof.Machine

open Sys2Proof.Claims

/-! ### f32 results are words of 32 bits -/

/-- Exponent and fraction of a rounded significand below 2 ^ (bias + 1) fit their fields. -/
theorem magnitude_lt {f : Fmt} {n d k : Nat} (heb : 2 ≤ f.eb) (h : Significand f.fb n d k) (hk : k * 2 ^ (d - n) < 2 ^ (2 * f.bias + f.fb)) :
    (d - n) * 2 ^ f.fb + k < 2 ^ (f.eb + f.fb) := by
  obtain ⟨x, r, hr, hw, hunits⟩ := unitsOf_significand h
  have hx := expo_lt_of_unitsOf_lt heb (hunits.trans_lt hk)
  calc (d - n) * 2 ^ f.fb + k = x * 2 ^ f.fb + r := hw
    _ < (x + 1) * 2 ^ f.fb := by rw [Nat.succ_mul]; omega
    _ ≤ 2 ^ f.eb * 2 ^ f.fb := Nat.mul_le_mul_right _ (by omega)
    _ = 2 ^ (f.eb + f.fb) := (Nat.pow_add ..).symm

theorem round_f32_lt (sat neg : Bool) (m : Nat) (e : Int) : (fmtF32.round 0 sat neg m e false).1 < 2 ^ 32 := by
  by_cases hm : m = 0
  · rw [Fmt.round, if_pos ⟨hm, rfl⟩]
    cases neg <;> decide
  have hn : 1 - (fmtF32.bias : Int) - fmtF32.fb = min e (-149) + (-149 - min e (-149)).toNat := by
    rw [show 1 - (fmtF32.bias : Int) - fmtF32.fb = -149 by decide]
    omega
  obtain ⟨under, -, -, hround⟩ := round_eq fmtF32 (rm := 0) sat neg hm (min_le_left e (-149)) hn rfl
  rw [hround]
  split
  · cases sat <;> cases neg <;> decide
  · next hsmall =>
    have hsig := (roundInt_spec neg (m * 2 ^ (e - min e (-149)).toNat)
      (lastPlace fmtF32.fb (-149 - min e (-149)).toNat (m * 2 ^ (e - min e (-149)).toNat)) (rm := 0) (by decide)).1.significand
    have hmag := magnitude_lt (f := fmtF32) (by decide) hsig (by
      rw [Nat.not_le, Nat.pow_add _ _ (Int.toNat _)] at hsmall
      rw [← Nat.mul_lt_mul_right (Nat.two_pow_pos (-149 - min e (-149)).toNat), Nat.mul_assoc, ← Nat.pow_add, Nat.sub_add_cancel hsig.place]
      exact hsmall)
    have hsign : b2n neg ≤ 1 := by cases neg <;> decide
    exact Nat.lt_of_lt_of_le (Nat.add_lt_add_left hmag _) (by rw [← Nat.succ_mul]; exact Nat.mul_le_mul_right _ (Nat.succ_le_succ hsign))

/-- A value put into f32 is a word of 32 bits. -/
theorem fin_f32_lt (sat : Bool) (v : Fp × BitVec 8) : (fmtF32.fin 0 sat v).1 < 2 ^ 32 := by
  show (fmtF32.put 0 sat v.1).1 < 2 ^ 32
  cases v.1 with
  | nan => show fmtF32.nan < _; decide
  | inf neg => show fmtF32.inf neg < _; cases neg <;> decide
  | fin neg m e => exact round_f32_lt sat neg m e

/-! ### Completing an open group -/

/-- The change of the value at (i, j) when the group of `a` completes. -/
def groupTerm (a : Acc) (sat : Bool) (i j v : Nat) : Nat × BitVec 8 :=
  let p := fmtF32.fin 0 false (mulFp (fmtF16.read (scaleOf a.ascale i)) (fmtF16.read (scaleOf a.bscale j)))
  let q := fmtF32.fin 0 sat (mulFp (fpOfInt false (nth 0 a.partials (32 * i + j)) 0) (fmtF32.read p.1))
  let r := fmtF32.fin 0 sat (addFp 0 (fmtF32.read v) (fmtF32.read q.1))
  (r.1, r.2 ||| q.2 ||| p.2)

section CloseGroup
variable (a : Acc) (d : List (List Nat)) (sat : Bool)

theorem closeGroup_open (h : a.gleft ≠ 0) :
    let x := mapGrid (groupTerm a sat) (a.shape.getD (0, 0)).2 0 (a.shape.getD (0, 0)).1 d
    closeGroup a d sat = ({ a with gleft := 0, partials := [], ascale := 0, bscale := 0, asb := a.asb ||| x.2 }, x.1, x.2) := by
  rw [closeGroup, Acc.isOpen, if_pos (bne_iff_ne.mpr h)]
  rfl

theorem closeGroup_closed (h : a.gleft = 0) : closeGroup a d sat = (a, d, 0) := by
  rw [closeGroup, Acc.isOpen, if_neg (by simp [h])]

/-- What a completion leaves of the accumulator, and where the bits that it raises go. -/
theorem closeGroup_frame :
    let x := closeGroup a d sat
    x.1.owner = a.owner ∧ x.1.kc = a.kc ∧ x.1.shape = a.shape ∧ x.1.mode = a.mode ∧ x.1.idx = a.idx ∧ x.1.asb = a.asb ||| x.2.2 := by
  by_cases h : a.gleft = 0
  · rw [closeGroup_closed a d sat h]
    exact ⟨rfl, rfl, rfl, rfl, rfl, BitVec.or_zero.symm⟩
  · rw [closeGroup_open a d sat h]
    exact ⟨rfl, rfl, rfl, rfl, rfl, rfl⟩

theorem closeGroup_asb : (closeGroup a d sat).1.asb = a.asb ||| (closeGroup a d sat).2.2 := (closeGroup_frame a d sat).2.2.2.2.2

theorem closeGroup_shape : (closeGroup a d sat).1.shape = a.shape := (closeGroup_frame a d sat).2.2.1

theorem accGrid_closeGroup (hd : AccGrid d) : AccGrid (closeGroup a d sat).2.1 := by
  by_cases h : a.gleft = 0
  · rwa [closeGroup_closed a d sat h]
  · rw [closeGroup_open a d sat h]
    exact accGrid_mapGrid (groupTerm a sat) _ (fun i j v => fin_f32_lt sat _) _ hd

end CloseGroup

theorem groupsClose : GroupsClose := by
  intro a d sat rows cols hopen hshape hd hr hrows hcols x
  obtain ⟨howner, hkc, hsh, hmode, -, hasb⟩ := closeGroup_frame a d sat
  have hx : x = closeGroup a d sat := rfl
  refine ⟨by rw [hx, closeGroup_open a d sat hopen], by rw [hx, closeGroup_open a d sat hopen], hasb, howner, hkc, hsh, hmode, fun i j hi hj => ?_⟩
  rw [hx, closeGroup_open a d sat hopen, hshape]
  exact gridAt_mapGrid (groupTerm a sat) cols hd hr rows hi hj

end Sys2Proof.Machine
end

section
/-! SUPPORT. O32: how a firing into an accumulator ends, and when it may begin (05 R161, R177, R179, R191). -/

namespace Sys2Proof.Machine

open Sys2Proof.Claims

/-! ### The end of a firing into an accumulator (R179) -/

theorem State.accData_toUnitOf (s : State) (f : Firing) (o : Ops) (u : Nat) (acc : Option Nat) (lat : Nat) (outs : List Out) (w : Option SlotWrite)
    (args : List Arg) (bits : BitVec 8) (e c n : Nat) : (s.toUnitOf f o u acc lat outs w args bits).accData e c n = s.accData e c n := by
  refine State.accData_of_pool ?_ (by rw [State.toUnitOf_ctx]) n
  obtain ⟨t, k, h⟩ := s.toUnitOf_eq f o u acc lat outs w args bits
  rw [h]
  exact k.pool e

/-- The state in which a firing into accumulator n of its element leaves the accumulator and its DATA. -/
def State.putAcc (s : State) (f : Firing) (n : Nat) (a : Acc) (g : List (List Nat)) : State := (s.setAcc f.e f.ctx n a).setAccData f.e f.ctx n g

theorem State.putAcc_acc (s : State) (f : Firing) (n : Nat) (a : Acc) (g : List (List Nat)) :
    tget Acc.reset ((s.putAcc f n a g).ctx f.e f.ctx).accs n = a := by
  rw [State.putAcc, State.setAccData_ctx, State.setAcc, State.ctx_setCtx_same, tget_tset_same]

theorem State.accDone_some (s : State) (f : Firing) (o : Ops) (args : List Arg) (cycles : Nat) (sb : BitVec 8) (a : Acc) (g : List (List Nat)) :
    s.accDone f o args cycles sb a (some g) = (s.putAcc f (accOf o) a g).toUnitOf f o 2 (some (accOf o)) cycles
      (outBoth o (outOf 0 f.tag (if sbDead sb then 0 else BitVec.ofNat 64 a.kc, sb))) none args sb := rfl

/-- A firing that leaves the accumulator `a` with the values of `g` is in the matrix unit, with KC for its targets. -/
theorem State.accDone_accumulates (s : State) (f : Firing) (o : Ops) (args : List Arg) (cycles : Nat) (sb : BitVec 8) (a : Acc)
    {g : List (List Nat)} (hg : AccGrid g) :
    Accumulates s (s.accDone f o args cycles sb a (some g)) f o args cycles sb a ∧
      ∀ i j, dataAt (s.accDone f o args cycles sb a (some g)) f (accOf o) i j = gridAt g i j := by
  rw [State.accDone_some]
  refine ⟨⟨⟨?_, State.toUnitOf_frame ..⟩, ?_⟩, fun i j => ?_⟩
  · rw [State.toUnitOf_units, outBoth_eq_both]
    rfl
  · rw [State.toUnitOf_ctx, State.putAcc_acc]
  · rw [dataAt, State.accData_toUnitOf, State.putAcc, State.accData_setAccData _ _ _ _ hg]
    rfl

/-! ### When a firing into an accumulator may begin -/

theorem Acc.ownedBy_iff (c : Acc) (tag : Word) : c.ownedBy tag = true ↔ ∃ w, c.owner = some w ∧ tagEq w tag = true := by
  unfold Acc.ownedBy
  cases c.owner <;> simp

/-- The owner of an accumulator is the stored one; a poisoned line of DATA shows in ASB alone (R22). -/
theorem State.acc_owner (s : State) (e c n : Nat) : (s.acc e c n).owner = (tget Acc.reset (s.ctx e c).accs n).owner := by
  unfold State.acc
  split <;> rfl

/-- The hold bit of an operand says what its firing releases, and nothing of what it reads. -/
theorem State.arg_hold (s : State) (f : Firing) (ty : Ty) (x : Opnd) (h : Bool) : s.arg f ty x false = { s.arg f ty x h with hold := false } := by
  cases x with
  | port n =>
    simp only [State.arg]
    cases f.tok n.toNat with
    | none => rfl
    | some t =>
      simp only
      split
      · rfl
      · cases s.buf f.e f.ctx (refBuf t.pay) <;> rfl
  | _ => rfl

section Products
variable {s : State} {f : Firing} {o : Ops} {a b : Arg} {c : Acc} (ha : a = s.arg f .tile o.a (bit o.imm 5)) (hb : b = s.arg f .tile o.b (bit o.imm 6))
  (hc : c = s.acc f.e f.ctx (accOf o)) {body : Arg → Arg → Acc → Option (Acc × List (List Nat) × BitVec 8 × Nat)}
include ha hb hc

/-- The readiness of a product in the operands that it reads. -/
theorem State.productReady_eq : s.productReady f o =
    (c.ownedBy f.tag && (sbDead (argsSb [a, b]) || sbDead c.asb || (s.argsFault f [a, b]).isSome || !a.slot.hv || hTcol a.slot.hdr == c.kc)) := by
  rw [State.productReady, s.arg_hold f .tile o.a (bit o.imm 5), s.arg_hold f .tile o.b (bit o.imm 6), ← ha, ← hb, ← hc]
  rfl

/-- A product stays at its inputs until the accumulator is its tag's and the matrix queue has room. -/
theorem State.productNode_waits (h : c.ownedBy f.tag = false ∨ s.matrixRoom f.e = false) : s.productNode f o body = s.unfire f := by
  have hready : (s.productReady f o && s.matrixRoom f.e) = false := by
    rw [State.productReady_eq ha hb hc]
    rcases h with h | h <;> simp only [h, Bool.false_and, Bool.and_false]
  simp only [State.productNode, hready, Bool.not_false, if_true]

/-- A product with readable operands stays at its inputs until KC is the column of its tile. -/
theorem State.productNode_early (hread : Readable s f [a, b]) (hlive : sbDead c.asb = false) (hv : a.slot.hv = true)
    (hk : hTcol a.slot.hdr ≠ c.kc) : s.productNode f o body = s.unfire f := by
  have hready : (s.productReady f o && s.matrixRoom f.e) = false := by
    rw [State.productReady_eq ha hb hc]
    simp [hread.1, hread.2, hlive, hv, hk]
  simp only [State.productNode, hready, Bool.not_false, if_true]

end Products

/-- A product may begin, and its operands are readable tiles. -/
def ProductMayBegin (s : State) (f : Firing) (a b : Arg) (c : Acc) : Prop :=
  Readable s f [a, b] ∧ sbDead c.asb = false ∧ a.slot.hv = true ∧ b.slot.hv = true ∧ c.ownedBy f.tag = true ∧ hTcol a.slot.hdr = c.kc ∧
    s.matrixRoom f.e = true

theorem ProductMayBegin.tiles {s : State} {f : Firing} {a b : Arg} {c : Acc} (h : ProductMayBegin s f a b c) : a.slot.hv = true ∧ b.slot.hv = true := by
  obtain ⟨-, -, hva, hvb, -⟩ := h
  exact ⟨hva, hvb⟩

section Products
variable {s : State} {f : Firing} {o : Ops} {a b : Arg} {c : Acc} (ha : a = s.arg f .tile o.a (bit o.imm 5)) (hb : b = s.arg f .tile o.b (bit o.imm 6))
  (hc : c = s.acc f.e f.ctx (accOf o)) (h : ProductMayBegin s f a b c)
  {body : Arg → Arg → Acc → Option (Acc × List (List Nat) × BitVec 8 × Nat)}
include ha hb hc h

theorem State.productMayBegin_ready : (s.productReady f o && s.matrixRoom f.e) = true := by
  obtain ⟨-, -, -, -, hown, hk, hroom⟩ := h
  rw [State.productReady_eq ha hb hc]
  simp [hown, hk, hroom]

/-- A product that begins and that its body refuses raises BUFFER. -/
theorem State.productNode_buffer (hbody : body a b c = none) : s.productNode f o body = s.faultFiring f (f.info cBuffer (argsSb [a, b])) := by
  have hready := State.productMayBegin_ready ha hb hc h
  obtain ⟨⟨hfault, hlive⟩, hacc, hva, hvb, -⟩ := h
  unfold State.productNode
  simp only [← ha, ← hb, ← hc, hready, hfault, hlive, hacc, hva, hvb, hbody, Bool.not_true, Bool.and_self, Bool.or_self, Bool.false_eq_true, if_false]

/-- A product that begins leaves what its body makes of the accumulator and of DATA. -/
theorem State.productNode_accDone {r : Acc × List (List Nat) × BitVec 8 × Nat} (hbody : body a b c = some r) :
    s.productNode f o body = s.accDone f o [a, b] r.2.2.2 (argsSb [a, b] ||| r.2.2.1)
      { r.1 with kc := c.kcNext, idx := (hTrow a.slot.hdr, hTcol b.slot.hdr), asb := sbOr [r.1.asb, argsSb [a, b] ||| r.2.2.1] } (some r.2.1) := by
  have hready := State.productMayBegin_ready ha hb hc h
  obtain ⟨⟨hfault, hlive⟩, hacc, hva, hvb, -⟩ := h
  unfold State.productNode
  simp only [← ha, ← hb, ← hc, hready, hfault, hlive, hacc, hva, hvb, hbody, Bool.not_true, Bool.and_self, Bool.or_self, Bool.false_eq_true, if_false]

theorem State.productNode_accumulates {r : Acc × List (List Nat) × BitVec 8 × Nat} (hbody : body a b c = some r) (hr : AccGrid r.2.1) :
    let sb := argsSb [a, b] ||| r.2.2.1
    Accumulates s (s.productNode f o body) f o [a, b] r.2.2.2 sb
        { r.1 with kc := c.kcNext, idx := (hTrow a.slot.hdr, hTcol b.slot.hdr), asb := sbOr [r.1.asb, sb] } ∧
      ∀ i j, dataAt (s.productNode f o body) f (accOf o) i j = gridAt r.2.1 i j := by
  rw [State.productNode_accDone ha hb hc h hbody]
  exact s.accDone_accumulates _ _ _ _ _ _ hr

end Products

end Sys2Proof.Machine
end

section
/-! SUPPORT. O32: TCLR and TACC (05 R180, R183). -/

namespace Sys2Proof.Machine

open Sys2Proof.Claims

theorem exec_tclr (o : Ops) (s : State) : exec (.tclr o) s = execTclr o s := rfl
theorem exec_tacc (o : Ops) (s : State) : exec (.tacc o) s = execTacc o s := rfl

/-! ### Equal changes of a shape -/

theorem mapRow_congr {g g' : Nat → Nat → Nat × BitVec 8} (j n : Nat) (l : List Nat) (h : ∀ i < n, g (j + i) = g' (j + i)) :
    mapRow g j n l = mapRow g' j n l := by
  induction l generalizing j n with
  | nil => cases n <;> rfl
  | cons v l ih => cases n with
    | zero => rfl
    | succ n =>
      have hfirst : g j = g' j := h 0 (Nat.succ_pos n)
      have hrest := ih (j + 1) n fun i hi => by
        rw [Nat.add_assoc, Nat.add_comm 1]
        exact h (i + 1) (Nat.succ_lt_succ hi)
      rw [mapRow, mapRow, hfirst, hrest]

theorem mapGrid_congr {g g' : Nat → Nat → Nat → Nat × BitVec 8} (k i n : Nat) (d : List (List Nat)) (h : ∀ m < n, ∀ j < k, g (i + m) j = g' (i + m) j) :
    mapGrid g k i n d = mapGrid g' k i n d := by
  induction d generalizing i n with
  | nil => cases n <;> rfl
  | cons r d ih => cases n with
    | zero => rfl
    | succ n =>
      have hfirst : mapRow (g i) 0 k r = mapRow (g' i) 0 k r := mapRow_congr 0 k r fun j hj => (Nat.zero_add j).symm ▸ h 0 (Nat.succ_pos n) j hj
      have hrest := ih (i + 1) n fun m hm => by
        rw [Nat.add_assoc, Nat.add_comm 1]
        exact h (m + 1) (Nat.succ_lt_succ hm)
      rw [mapGrid, mapGrid, hfirst, hrest]

/-- Changes that agree at the places of a shape. -/
theorem mapGrid_eq {g g' : Nat → Nat → Nat → Nat × BitVec 8} {k n : Nat} (d : List (List Nat)) (h : ∀ i < n, ∀ j < k, g i j = g' i j) :
    mapGrid g k 0 n d = mapGrid g' k 0 n d :=
  mapGrid_congr k 0 n d fun m hm j hj => (Nat.zero_add m).symm ▸ h m hm j hj

/-! ### TCLR (R180) -/

section Tclr
variable {s : State} {f : Firing} (o : Ops) (hf : s.focus = .node f)
include hf

theorem tclr_waits (h : s.accReady f o (.tclr o) = false) : exec (.tclr o) s = .next (s.unfire f) := by
  rw [exec_tclr, execTclr, State.flow_node hf]
  simp only [h, Bool.not_false, if_true]

theorem tclr_clears (h : s.accReady f o (.tclr o) = true) :
    let c := s.acc f.e f.ctx (accOf o)
    let t := s.opVal .x64 o.imm o.a
    Ends (.tclr o) s fun s' =>
      Accumulates s s' f o [scalarArg t] 4 ((t.sb ||| (closeGroup c (s.accData f.e f.ctx (accOf o)) (satOf o)).2.2) &&& 0x7F)
        { owner := some (tagClean f.tag), kc := o.imm.toNat, shape := none, mode := .unset, gleft := 0, partials := [], ascale := 0, bscale := 0,
          idx := c.idx, asb := t.sb } ∧
      ∀ i j, i < 32 → j < 32 → dataAt s' f (accOf o) i j = 0 := by
  intro c t
  have hexec : exec (.tclr o) s = .next (s.accDone f o [scalarArg t] 4 (sbOr [t.sb, (closeGroup c (s.accData f.e f.ctx (accOf o)) (satOf o)).2.2])
      { Acc.reset with owner := some (tagClean f.tag), kc := o.imm.toNat, asb := t.sb, idx := c.idx } (some zeroGrid)) := by
    rw [exec_tclr, execTclr, State.flow_node hf]
    simp only [h, Bool.not_true, Bool.false_eq_true, if_false, c, t]
  obtain ⟨hdone, hdata⟩ := s.accDone_accumulates f o [scalarArg t] 4 (sbOr [t.sb, (closeGroup c (s.accData f.e f.ctx (accOf o)) (satOf o)).2.2])
    { Acc.reset with owner := some (tagClean f.tag), kc := o.imm.toNat, asb := t.sb, idx := c.idx } accGrid_zeroGrid
  refine ⟨_, hexec, ?_, fun i j _ _ => (hdata i j).trans (gridAt_zeroGrid i j)⟩
  rw [sbOr_pair] at hdone ⊢
  exact hdone

end Tclr

/-! ### TACC (R183) -/

/-- The sum that TACC puts in place of the value v at (i, j). -/
def taccSum (fmt : Nat) (sat : Bool) (a : Arg) (i j v : Nat) : Nat × BitVec 8 :=
  if fmt = 5 then ((v + elemAt a i j) % 2 ^ 32, 0)
  else fmtF32.fin 0 sat (addFp 0 (fmtF32.read v) ((fmtOf (fmtTy fmt)).read (elemAt a i j)))

theorem taccSum_lt (fmt : Nat) (sat : Bool) (a : Arg) (i j v : Nat) : (taccSum fmt sat a i j v).1 < 2 ^ 32 := by
  unfold taccSum
  split
  · exact Nat.mod_lt _ (by decide)
  · exact fin_f32_lt sat _

/-- The mode that a tile of a format sets. -/
def taccMode (fmt : Nat) : AMode := if fmt = 5 then .integer else .float

theorem taccBody_some {a : Arg} {c : Acc} {rows cols fmt : Nat} (ht : TileIn a rows cols fmt) (hfmt : fmt < 3 ∨ fmt = 5)
    (hmode : c.mode = .unset ∨ c.mode = taccMode fmt) (hshape : c.shape = none ∨ c.shape = some (rows, cols)) (sat : Bool) (data : List (List Nat)) :
    let x := closeGroup c data sat
    let y := mapGrid (taccSum fmt sat a) cols 0 rows x.2.1
    taccBody sat data a c = some ({ x.1 with mode := taccMode fmt, shape := some (rows, cols) }, y.1, y.2 ||| x.2.2) := by
  intro x y
  have hgrid := tileIn_gridRows ht
  obtain ⟨hv, rfl, rfl, rfl⟩ := ht
  have hm : (if (hFmt a.slot.hdr == 5) = true then AMode.integer else .float) = taccMode (hFmt a.slot.hdr) := by simp only [beq_iff_eq, taccMode]
  have hguard : (a.slot.hv && (fmtFp (hFmt a.slot.hdr) || hFmt a.slot.hdr == 5) && (c.mode == .unset || c.mode == taccMode (hFmt a.slot.hdr)) &&
      (c.shape.isNone || c.shape == some (hNrow a.slot.hdr + 1, hNcol a.slot.hdr + 1))) = true := by
    simp only [Bool.and_eq_true, Bool.or_eq_true, beq_iff_eq, fmtFp_iff, Option.isNone_iff_eq_none]
    exact ⟨⟨⟨hv, hfmt⟩, hmode⟩, hshape⟩
  simp only [taccBody, hm, hguard, hgrid, Bool.not_true, Bool.false_eq_true, if_false]
  rw [mapGrid_eq (g' := taccSum (hFmt a.slot.hdr) sat a) x.2.1 fun i hi j hj => ?_]
  · rw [nth_map_range [] _ hi, nth_map_range 0 _ hj]
    funext v
    simp only [beq_iff_eq, taccSum]

section Tacc
variable {s : State} {f : Firing} (o : Ops) (hf : s.focus = .node f)
include hf

theorem tacc_waits (h : (s.acc f.e f.ctx (accOf o)).ownedBy f.tag = false ∨ s.matrixRoom f.e = false) :
    exec (.tacc o) s = .next (s.unfire f) := by
  have hready : s.accReady f o (.tacc o) = false := by
    rcases h with h | h <;> simp only [State.accReady, h, Bool.false_and, Bool.and_false]
  rw [exec_tacc, execTacc, State.flow_node hf]
  simp only [hready, Bool.not_false, if_true]

variable {a : Arg} {c : Acc} (ha : a = s.arg f .tile o.a (bit o.imm 5)) (hc : c = s.acc f.e f.ctx (accOf o)) (hown : c.ownedBy f.tag = true)
  (hroom : s.matrixRoom f.e = true) (hfault : s.argsFault f [a] = none)
include ha hc hown hroom hfault

/-- TACC with a readable operand that its body takes. -/
theorem tacc_exec {r : Acc × List (List Nat) × BitVec 8} (hlive : sbDead a.sb = false)
    (hbody : taccBody (satOf o) (s.accData f.e f.ctx (accOf o)) a c = some r) :
    exec (.tacc o) s = .next (s.accDone f o [a] 4 (a.sb ||| r.2.2) { r.1 with asb := sbOr [r.1.asb, a.sb ||| r.2.2] } (some r.2.1)) := by
  subst ha hc
  rw [exec_tacc, execTacc, State.flow_node hf]
  simp only [State.accReady, hown, hroom, hfault, hlive, hbody, Bool.and_self, Bool.not_true, Bool.false_eq_true, if_false]

/-- TACC under a null or poisoned operand completes an open group alone (log entry 48). -/
theorem tacc_exec_dead {x : Acc × List (List Nat) × BitVec 8} (hx : x = closeGroup c (s.accData f.e f.ctx (accOf o)) (satOf o))
    (hdead : sbDead a.sb = true) :
    exec (.tacc o) s = .next (s.accDone f o [a] 4 (sbOr [a.sb, x.2.2]) { x.1 with asb := sbOr [x.1.asb, sbOr [a.sb, x.2.2]] } (some x.2.1)) := by
  subst ha hc hx
  rw [exec_tacc, execTacc, State.flow_node hf]
  simp only [State.accReady, hown, hroom, hfault, hdead, Bool.and_self, Bool.not_true, Bool.false_eq_true, if_false, if_true]

end Tacc

/-! ### The bits of an accumulator (R22, R177) -/

/-- Bits that the completion of a group put into ASB, and into the result, join it once. -/
theorem sbOr_absorb (a z w : BitVec 8) : sbOr [a ||| z, w ||| z] = (a ||| (w ||| z)) &&& 0x7F := by
  rw [sbOr_pair]
  congr 1
  ac_rfl

theorem sbOr_absorb_masked (a z w : BitVec 8) : sbOr [a ||| z, (w ||| z) &&& 0x7F] = (a ||| ((w ||| z) &&& 0x7F)) &&& 0x7F := by
  simp only [sbOr_pair, BitVec.and_or_distrib_right, BitVec.and_assoc, BitVec.and_self]
  ac_rfl

/-! ### TCLR and TACC together -/

/-- The rows and columns of a tile are at most 32. -/
theorem hNrow_succ_le (h : BitVec 256) : hNrow h + 1 ≤ 32 := nfld_lt h 80 5
theorem hNcol_succ_le (h : BitVec 256) : hNcol h + 1 ≤ 32 := nfld_lt h 85 5

theorem tileIn_le {a : Arg} {rows cols fmt : Nat} (h : TileIn a rows cols fmt) : rows ≤ 32 ∧ cols ≤ 32 := by
  obtain ⟨-, rfl, rfl, -⟩ := h
  exact ⟨hNrow_succ_le _, hNcol_succ_le _⟩

section Tacc
variable {s : State} {f : Firing} (o : Ops) (hf : s.focus = .node f) {a : Arg} {c : Acc} (ha : a = s.arg f .tile o.a (bit o.imm 5))
  (hc : c = s.acc f.e f.ctx (accOf o)) (hown : c.ownedBy f.tag = true) (hroom : s.matrixRoom f.e = true)
include hf ha hc hown hroom

theorem tacc_adds {rows cols fmt : Nat} (hread : Readable s f [a]) (ht : TileIn a rows cols fmt) (hfmt : fmt < 3 ∨ fmt = 5)
    (hmode : c.mode = .unset ∨ c.mode = taccMode fmt) (hshape : c.shape = none ∨ c.shape = some (rows, cols)) :
    let x := closeGroup c (s.accData f.e f.ctx (accOf o)) (satOf o)
    let sum := fun i j => taccSum fmt (satOf o) a i j (gridAt x.2.1 i j)
    let raised := orAll ((places rows cols).map fun p => (sum p.1 p.2).2) ||| x.2.2
    Ends (.tacc o) s fun s' =>
      Accumulates s s' f o [a] 4 (a.sb ||| raised)
        { x.1 with mode := taccMode fmt, shape := some (rows, cols), asb := (c.asb ||| (a.sb ||| raised)) &&& 0x7F } ∧
      ∀ i j, i < 32 → j < 32 → dataAt s' f (accOf o) i j = if i < rows ∧ j < cols then (sum i j).1 else gridAt x.2.1 i j := by
  intro x sum raised
  have hx : AccGrid x.2.1 := accGrid_closeGroup _ _ _ (accGrid_accData ..)
  obtain ⟨hrows, hcols⟩ := tileIn_le ht
  have hbits : (mapGrid (taccSum fmt (satOf o) a) cols 0 rows x.2.1).2 ||| x.2.2 = raised :=
    congrArg (· ||| x.2.2) (mapGrid_bits _ cols hx.rows hx.cols rows hrows hcols)
  have hasb : sbOr [x.1.asb, a.sb ||| raised] = (c.asb ||| (a.sb ||| raised)) &&& 0x7F := by
    rw [closeGroup_asb, ← BitVec.or_assoc a.sb, sbOr_absorb]
  have hexec := tacc_exec o hf ha hc hown hroom hread.1 ((sbDead_sbOr_singleton a.sb).symm.trans hread.2)
    (taccBody_some ht hfmt hmode hshape (satOf o) (s.accData f.e f.ctx (accOf o)))
  obtain ⟨hdone, hdata⟩ := s.accDone_accumulates f o [a] 4 (a.sb ||| raised)
    { x.1 with mode := taccMode fmt, shape := some (rows, cols), asb := sbOr [x.1.asb, a.sb ||| raised] }
    (accGrid_mapGrid _ cols (taccSum_lt fmt (satOf o) a) rows hx)
  rw [hasb] at hdone hdata
  rw [hbits, hasb] at hexec
  exact ⟨_, hexec, hdone, fun i j hi hj => (hdata i j).trans (gridAt_mapGrid _ cols hx.rows hx.cols rows hi hj)⟩

theorem tacc_dead (hfault : s.argsFault f [a] = none) (hdead : sbDead a.sb = true) :
    let x := closeGroup c (s.accData f.e f.ctx (accOf o)) (satOf o)
    let sb := (a.sb ||| x.2.2) &&& 0x7F
    Ends (.tacc o) s fun s' => Accumulates s s' f o [a] 4 sb { x.1 with asb := (c.asb ||| sb) &&& 0x7F } ∧
      ∀ i j, i < 32 → j < 32 → dataAt s' f (accOf o) i j = gridAt x.2.1 i j := by
  intro x sb
  have hx : AccGrid x.2.1 := accGrid_closeGroup _ _ _ (accGrid_accData ..)
  have hsb : sbOr [a.sb, x.2.2] = sb := sbOr_pair ..
  have hasb : sbOr [x.1.asb, sb] = (c.asb ||| sb) &&& 0x7F := by rw [closeGroup_asb, sbOr_absorb_masked]
  have hexec := tacc_exec_dead o hf ha hc hown hroom hfault (x := x) rfl hdead
  obtain ⟨hdone, hdata⟩ := s.accDone_accumulates f o [a] 4 sb { x.1 with asb := (c.asb ||| sb) &&& 0x7F } hx
  rw [hsb, hasb] at hexec
  exact ⟨_, hexec, hdone, fun i j _ _ => hdata i j⟩

end Tacc

theorem accumulatorsClearAndAdd : AccumulatorsClearAndAdd := by
  intro o s f hf n c t a rows cols fmt mine x before _
  have hmine : mine ↔ c.ownedBy f.tag = true := (c.ownedBy_iff f.tag).symm
  have hother (h : ¬ mine) : c.ownedBy f.tag = false := by rwa [hmine, Bool.not_eq_true] at h
  refine ⟨fun hown hroom _ => ?_, fun hno hsome => ?_, fun hroom => ?_, fun hno => tacc_waits o hf (.inl (hother hno)),
    fun hown hroom hread hv => tacc_adds o hf rfl rfl (hmine.mp hown) hroom hread ⟨hv, rfl, rfl, rfl⟩,
    fun hown hroom => tacc_dead o hf rfl rfl (hmine.mp hown) hroom⟩
  · refine tclr_clears o hf ?_
    rw [hmine] at hown
    simp only [State.accReady, hroom, Bool.and_true, Bool.or_eq_true, Option.isNone_iff_eq_none]
    exact hown
  · refine tclr_waits o hf ?_
    have hsome' : (s.acc f.e f.ctx (accOf o)).owner.isNone = false := by rwa [← Bool.not_eq_true, Option.isNone_iff_eq_none]
    have hother' : (s.acc f.e f.ctx (accOf o)).ownedBy f.tag = false := hother hno
    simp only [State.accReady, hsome', hother', Bool.or_self, Bool.false_and]
  · exact ⟨tclr_waits o hf (by simp only [State.accReady, hroom, Bool.and_false]), tacc_waits o hf (.inr hroom)⟩

end Sys2Proof.Machine
end

section
/-! SUPPORT. O32: the products TMMA and TMMQ (05 R181, R182). -/

namespace Sys2Proof.Machine

open Sys2Proof.Claims

theorem exec_tmma (o : Ops) (s : State) : exec (.tmma o) s = execTmma o s := rfl
theorem exec_tmmq (o : Ops) (s : State) : exec (.tmmq o) s = execTmmq o s := rfl

/-! ### Joined bits do not depend on their order -/

theorem getLsbD_orAll (l : List (BitVec 8)) (i : Nat) : (orAll l).getLsbD i = true ↔ ∃ x ∈ l, x.getLsbD i = true := by
  induction l with
  | nil => simp
  | cons x l ih => rw [orAll_cons, BitVec.getLsbD_or, Bool.or_eq_true, ih, List.exists_mem_cons_iff]

theorem orAll_eq_of_mem_iff {l m : List (BitVec 8)} (h : ∀ x, x ∈ l ↔ x ∈ m) : orAll l = orAll m := by
  refine BitVec.eq_of_getLsbD_eq fun i _ => ?_
  rw [Bool.eq_iff_iff, getLsbD_orAll, getLsbD_orAll]
  simp only [h]

/-- The bits of all places of a shape, joined column by column. -/
theorem orAll_columns (rows cols : Nat) (g : Nat → Nat → BitVec 8) :
    orAll ((List.range cols).map fun j => orAll ((List.range rows).map fun i => g i j)) = orAll ((places rows cols).map fun p => g p.1 p.2) := by
  have hjoin : orAll ((List.range cols).map fun j => orAll ((List.range rows).map fun i => g i j)) =
      orAll ((List.range cols).map fun j => (List.range rows).map fun i => g i j).flatten := by
    rw [orAll_flatten, List.map_map]
    rfl
  rw [hjoin, map_places]
  refine orAll_eq_of_mem_iff fun x => ?_
  simp only [List.mem_flatten, List.mem_map, exists_exists_and_eq_and, List.mem_range]
  exact ⟨fun ⟨j, hj, i, hi, h⟩ => ⟨i, hi, j, hj, h⟩, fun ⟨i, hi, j, hj, h⟩ => ⟨j, hj, i, hi, h⟩⟩

/-- The model joins the bits of lists of lists by nested folds. -/
theorem foldl_foldl_or_eq_orAll {α : Type} (g : α → BitVec 8) (l : List (List α)) :
    l.foldl (fun x c => c.foldl (fun y v => y ||| g v) x) 0 = orAll (l.map fun c => orAll (c.map g)) := by
  simp only [foldl_or_eq_orAll]
  exact BitVec.zero_or

/-! ### The checks of R181 -/

theorem shapeOk_iff (a b : BitVec 256) (c : Acc) (m : AMode) : shapeOk a b c m = true ↔
    (hNcol a = hNrow b ∧ hTcol a = hTrow b ∧ (c.shape = none ∨ c.shape = some (hNrow a + 1, hNcol b + 1))) ∧ (c.mode = .unset ∨ c.mode = m) := by
  unfold shapeOk
  cases c.shape <;> simp [and_comm, and_left_comm]

section Tiles
variable {a b : Arg} {rows cols k fa fb : Nat} (ta : TileIn a rows k fa) (tb : TileIn b k cols fb)

include tb in
/-- The columns of a tile operand. -/
theorem tileIn_gridCols : gridCols (hNcol b.slot.hdr + 1) (gridRows (hNcol b.slot.hdr + 1) (hNrow b.slot.hdr + 1) (tileElems b.slot.hdr b.bytes)) =
    (List.range cols).map fun j => (List.range k).map fun i => elemAt b i j := by
  have hgrid := tileIn_gridRows tb
  obtain ⟨-, rfl, rfl, -⟩ := tb
  rw [hgrid, gridCols_map]

include ta tb in
/-- The shape of the accumulator that a product of two tiles is added to. -/
theorem tileIn_product_shape : some (rows, cols) = some (hNrow a.slot.hdr + 1, hNcol b.slot.hdr + 1) := by
  obtain ⟨-, rfl, -⟩ := ta
  obtain ⟨-, -, rfl, -⟩ := tb
  rfl

theorem intDot_map {α : Type} (p q : α → Int) (l : List α) : intDot (l.map p) (l.map q) = (l.map fun x => p x * q x).sum := by
  induction l with
  | nil => rfl
  | cons x l ih => rw [List.map_cons, List.map_cons, intDot, ih, List.map_cons, List.sum_cons]

/-! ### TMMA on integers (R60) -/

/-- The sum that an integer product puts in place of the value v at (i, j). -/
def mmaIntSum (a b : Arg) (k i j v : Nat) : Nat × BitVec 8 :=
  (wrapInt 32 ((v : Int) + ((List.range k).map fun x => sval 8 (elemAt a i x) * sval 8 (elemAt b x j)).sum), 0)

theorem mmaIntSum_lt (a b : Arg) (k i j v : Nat) : (mmaIntSum a b k i j v).1 < 2 ^ 32 := by
  show (_ % ((2 ^ 32 : Nat) : Int)).toNat < 2 ^ 32
  omega

include ta tb in
theorem mmaBody_int {c : Acc} (hk : hTcol a.slot.hdr = hTrow b.slot.hdr) (hshape : c.shape = none ∨ c.shape = some (rows, cols))
    (hfa : fa = 6) (hfb : fb = 6) (hmode : c.mode = .unset ∨ c.mode = .integer) (sat : Bool) (data : List (List Nat)) :
    let x := closeGroup c data sat
    mmaBody sat data a b c = some ({ x.1 with mode := .integer, shape := some (rows, cols) }, (mapGrid (mmaIntSum a b k) cols 0 rows x.2.1).1, x.2.2, 16) := by
  intro x
  have hra := tileIn_gridRows ta
  have hcb := tileIn_gridCols tb
  obtain ⟨-, rfl, rfl, hfa'⟩ := ta
  obtain ⟨-, hkb, rfl, hfb'⟩ := tb
  rw [hfa] at hfa'
  rw [hfb] at hfb'
  have hok : shapeOk a.slot.hdr b.slot.hdr c .integer = true := (shapeOk_iff ..).mpr ⟨⟨(Nat.succ_injective hkb).symm, hk, hshape⟩, hmode⟩
  rw [hkb] at hcb
  simp only [mmaBody, hfa', hfb', hok, hra, hcb, fmtFp, Nat.reduceBEq, beq_self_eq_true, Bool.or_true, Bool.and_self, Bool.or_self,
    Bool.not_true, Bool.not_false, Bool.true_or, if_true, Bool.false_eq_true, if_false]
  rw [mapGrid_eq (g' := mmaIntSum a b (hNcol a.slot.hdr + 1)) x.2.1 fun i hi j hj => ?_]
  rw [nth_map_range [] _ hi, nth_map_range [] _ hj, List.map_map, List.map_map, intDot_map]
  rfl

/-! ### TMMA on floats (R58, R59, R63) -/

/-- Element (x, j) of a tile of weights; q8 and q4 are dequantised (R63). -/
def tileWeight (b : Arg) (x j : Nat) : Fp × BitVec 8 :=
  if hFmt b.slot.hdr < 3 then ((fmtOf (fmtTy (hFmt b.slot.hdr))).read (elemAt b x j), 0)
  else mulFp (fmtF16.read (scaleOf b.slot.scale j)) (fpOfInt false ((elemAt b x j : Int) - zeroOf b.slot.scale j) 0)

/-- The block sum at (i, j) (R58, R59). -/
def mmaBlock (a b : Arg) (k i j : Nat) : Fp × BitVec 8 :=
  (Dot.none.addAll ((List.range k).map fun x => (fmtOf (fmtTy (hFmt a.slot.hdr))).read (elemAt a i x))
    ((List.range k).map fun x => (tileWeight b x j).1)).val k

/-- The sum that a float product puts in place of the value v at (i, j). -/
def mmaSum (sat : Bool) (a b : Arg) (k i j v : Nat) : Nat × BitVec 8 :=
  let r := fmtF32.fin 0 sat (addFp 0 (fmtF32.read v) (mmaBlock a b k i j).1)
  (r.1, r.2 ||| (mmaBlock a b k i j).2)

theorem mmaSum_lt (sat : Bool) (a b : Arg) (k i j v : Nat) : (mmaSum sat a b k i j v).1 < 2 ^ 32 := fin_f32_lt sat _

theorem weightCol_eq (b : Arg) (k j : Nat) : weightCol b.slot.hdr b.slot.scale j ((List.range k).map fun x => elemAt b x j) =
    (List.range k).map fun x => tileWeight b x j := by
  unfold weightCol tileWeight
  by_cases h : hFmt b.slot.hdr < 3
  · simp only [(fmtFp_iff _).mpr h, h, if_true, List.map_map, Function.comp_def]
  · have hfp : fmtFp (hFmt b.slot.hdr) = false := by rwa [← Bool.not_eq_true, fmtFp_iff]
    simp only [hfp, h, Bool.false_eq_true, if_false, List.map_map, Function.comp_def, dequantise]

include ta tb in
theorem mmaBody_float {c : Acc} (hk : hTcol a.slot.hdr = hTrow b.slot.hdr) (hshape : c.shape = none ∨ c.shape = some (rows, cols))
    (hfa : fa < 3) (hfb : fb < 3 ∨ ((fb = 3 ∨ fb = 4) ∧ hRax b.slot.hdr = 1)) (hmode : c.mode = .unset ∨ c.mode = .float) (sat : Bool)
    (data : List (List Nat)) :
    let x := closeGroup c data sat
    let y := mapGrid (mmaSum sat a b k) cols 0 rows x.2.1
    mmaBody sat data a b c = some ({ x.1 with mode := .float, shape := some (rows, cols) }, y.1,
      y.2 ||| orAll ((places k cols).map fun p => (tileWeight b p.1 p.2).2) ||| x.2.2, if fa = 0 ∨ fb = 0 then 128 else 32) := by
  intro x y
  have hra := tileIn_gridRows ta
  have hcb := tileIn_gridCols tb
  obtain ⟨-, rfl, rfl, rfl⟩ := ta
  obtain ⟨-, hkb, rfl, rfl⟩ := tb
  rw [hkb] at hcb
  have hok : shapeOk a.slot.hdr b.slot.hdr c .float = true := (shapeOk_iff ..).mpr ⟨⟨(Nat.succ_injective hkb).symm, hk, hshape⟩, hmode⟩
  have hint : (hFmt a.slot.hdr == 6) = false := beq_eq_false_iff_ne.mpr (by omega)
  have hguard : (shapeOk a.slot.hdr b.slot.hdr c .float && (fmtFp (hFmt a.slot.hdr) || false) &&
      (fmtFp (hFmt b.slot.hdr) || hFmt b.slot.hdr == 3 || hFmt b.slot.hdr == 4 || hFmt b.slot.hdr == 6) && (hFmt b.slot.hdr == 6) == false &&
      (!(hFmt b.slot.hdr == 3 || hFmt b.slot.hdr == 4) || hRax b.slot.hdr == 1)) = true := by
    simp only [hok, fmtFp, decide_eq_true hfa]
    rcases hfb with h | ⟨h | h, hr⟩
    · simp [h]; omega
    · simp [h, hr]
    · simp [h, hr]
  have hcols : (rangeFrom 0 (hNcol b.slot.hdr + 1)).map (fun j => weightCol b.slot.hdr b.slot.scale j (nth []
        ((List.range (hNcol b.slot.hdr + 1)).map fun j => (List.range (hNcol a.slot.hdr + 1)).map fun i => elemAt b i j) j)) =
      (List.range (hNcol b.slot.hdr + 1)).map fun j => (List.range (hNcol a.slot.hdr + 1)).map fun i => tileWeight b i j := by
    rw [rangeFrom_zero]
    refine List.map_congr_left fun j hj => ?_
    rw [nth_map_range [] _ (List.mem_range.mp hj), weightCol_eq]
  simp only [mmaBody, hint, hguard, hra, hcb, hcols, Bool.not_true, Bool.false_eq_true, if_false, List.map_map, foldl_foldl_or_eq_orAll,
    Bool.or_eq_true, beq_iff_eq]
  rw [mapGrid_eq (g' := mmaSum sat a b (hNcol a.slot.hdr + 1)) x.2.1 fun i hi j hj => ?_]
  · rw [← orAll_columns _ _ fun i j => (tileWeight b i j).2]
    simp only [Function.comp_def, List.map_map]
    rfl
  · rw [nth_map_range [] _ hi, nth_map_range [] _ hj]
    simp only [Function.comp_apply, List.map_map]
    rfl

/-! ### TMMQ (R61, R62, R182) -/

/-- The exact partial that one tile adds at (i, j). -/
def mmqPart (a b : Arg) (k i j : Nat) : Int :=
  ((List.range k).map fun x => ((elemAt a i x : Int) - zeroOf a.slot.scale i) * ((elemAt b x j : Int) - zeroOf b.slot.scale j)).sum

/-- The accumulator, its DATA and the bits raised once an opening tile has completed an open group. -/
def mmqStart (opens : Bool) (c : Acc) (data : List (List Nat)) (sat : Bool) : Acc × List (List Nat) × BitVec 8 :=
  if opens then closeGroup c data sat else (c, data, 0)

/-- The exact partials once a tile has been added; an opening tile begins at 0. -/
def mmqPartials (opens : Bool) (c : Acc) (a b : Arg) (rows cols k : Nat) : List Int :=
  addPartials rows cols (if opens then List.replicate 1024 0 else c.partials) (mmqPart a b k)

/-- The accumulator with the group of the tile open, and `left` tiles of it to come with this one. -/
def mmqOpen (c : Acc) (a b : Arg) (rows cols left : Nat) (l : List Int) : Acc :=
  { c with mode := .float, shape := some (rows, cols), partials := l, ascale := a.slot.scale, bscale := b.slot.scale, gleft := left }

/-- The last tile of a group completes it; another one leaves one tile fewer to come. -/
def mmqEnd (last : Prop) [Decidable last] (c : Acc) (data : List (List Nat)) (sat : Bool) : Acc × List (List Nat) × BitVec 8 :=
  if last then closeGroup c data sat else ({ c with gleft := c.gleft - 1 }, data, 0)

theorem mmqStart_asb (opens : Bool) (c : Acc) (data : List (List Nat)) (sat : Bool) :
    (mmqStart opens c data sat).1.asb = c.asb ||| (mmqStart opens c data sat).2.2 := by
  cases opens with
  | false => exact BitVec.or_zero.symm
  | true => exact closeGroup_asb ..

theorem accGrid_mmqStart (opens : Bool) (c : Acc) {data : List (List Nat)} (hd : AccGrid data) (sat : Bool) :
    AccGrid (mmqStart opens c data sat).2.1 := by
  cases opens with
  | false => exact hd
  | true => exact accGrid_closeGroup c data sat hd

theorem mmqEnd_frame (last : Prop) [Decidable last] (c : Acc) (data : List (List Nat)) (sat : Bool) :
    (mmqEnd last c data sat).1.shape = c.shape ∧ (mmqEnd last c data sat).1.asb = c.asb ||| (mmqEnd last c data sat).2.2 := by
  unfold mmqEnd
  split
  · exact ⟨closeGroup_shape .., closeGroup_asb ..⟩
  · exact ⟨rfl, BitVec.or_zero.symm⟩

theorem accGrid_mmqEnd (last : Prop) [Decidable last] (c : Acc) {data : List (List Nat)} (hd : AccGrid data) (sat : Bool) :
    AccGrid (mmqEnd last c data sat).2.1 := by
  unfold mmqEnd
  split
  · exact accGrid_closeGroup c data sat hd
  · exact hd

/-- A tile adds its exact products to the partials of the outputs within the shape. -/
theorem nth_addPartials (p : List Int) (g : Nat → Nat → Int) {i j : Nat} (hi : i < rows) (hj : j < cols) (hrows : rows ≤ 32) (hcols : cols ≤ 32) :
    nth 0 (addPartials rows cols p g) (32 * i + j) = nth 0 p (32 * i + j) + g i j := by
  have hrow : (32 * i + j) / 32 = i := by omega
  have hcol : (32 * i + j) % 32 = j := by omega
  rw [addPartials, rangeFrom_zero, nth_map_range 0 _ (by omega), hrow, hcol, if_pos ⟨hi, hj⟩]

theorem addPartials_congr {g g' : Nat → Nat → Int} (p : List Int) (h : ∀ i < rows, ∀ j < cols, g i j = g' i j) :
    addPartials rows cols p g = addPartials rows cols p g' := by
  unfold addPartials
  refine List.map_congr_left fun n _ => ?_
  by_cases hn : n / 32 < rows ∧ n % 32 < cols
  · rw [if_pos hn, if_pos hn, h _ hn.1 _ hn.2]
  · rw [if_neg hn, if_neg hn]

theorem nth_mmqPartials (opens : Bool) (c : Acc) {i j : Nat} (hi : i < rows) (hj : j < cols) (hrows : rows ≤ 32) (hcols : cols ≤ 32) :
    nth 0 (mmqPartials opens c a b rows cols k) (32 * i + j) = (if opens then 0 else nth 0 c.partials (32 * i + j)) + mmqPart a b k i j := by
  rw [mmqPartials, nth_addPartials _ _ hi hj hrows hcols]
  cases opens with
  | false => rfl
  | true => rw [if_pos rfl, if_pos rfl, nth_replicate, ite_self]

/-- The tile goes on with an open group of its own scales. -/
def mmqGoesOn (a b : Arg) (c : Acc) : Bool := c.gleft != 0 && (a.slot.scale == c.ascale && b.slot.scale == c.bscale)

/-- What TMMQ asks of its operands and of the accumulator, the group apart (R181, R182). -/
def MmqFits (a b : Arg) (c : Acc) (rows cols : Nat) : Prop :=
  hTcol a.slot.hdr = hTrow b.slot.hdr ∧ (c.shape = none ∨ c.shape = some (rows, cols)) ∧ hRax a.slot.hdr = 0 ∧ hRax b.slot.hdr = 1 ∧
    1 ≤ hGrp a.slot.hdr ∧ hGrp b.slot.hdr = hGrp a.slot.hdr ∧ (c.mode = .unset ∨ c.mode = .float)

include ta tb in
/-- With fitting operands TMMQ turns on its group alone. -/
theorem mmq_guard {c : Acc} (hfmt : fa = 3 ∨ fa = 4) (hsame : fb = fa) (hfits : MmqFits a b c rows cols) (group : Bool) :
    (shapeOk a.slot.hdr b.slot.hdr c .float && (hFmt a.slot.hdr == 3 || hFmt a.slot.hdr == 4) && hFmt b.slot.hdr == hFmt a.slot.hdr &&
      hRax a.slot.hdr == 0 && hRax b.slot.hdr == 1 && hGrp a.slot.hdr != 0 && hGrp a.slot.hdr == hGrp b.slot.hdr && group) = group := by
  obtain ⟨-, rfl, rfl, rfl⟩ := ta
  obtain ⟨-, hkb, rfl, rfl⟩ := tb
  obtain ⟨hk, hshape, hraxa, hraxb, hgrp, hgrpb, hmode⟩ := hfits
  have hok : shapeOk a.slot.hdr b.slot.hdr c .float = true := (shapeOk_iff ..).mpr ⟨⟨(Nat.succ_injective hkb).symm, hk, hshape⟩, hmode⟩
  have hgrp0 : (hGrp a.slot.hdr != 0) = true := bne_iff_ne.mpr (by omega)
  have hquant : (hFmt a.slot.hdr == 3 || hFmt a.slot.hdr == 4) = true := by rcases hfmt with h | h <;> simp [h]
  simp only [hok, hquant, hsame, hraxa, hraxb, hgrp0, hgrpb, beq_self_eq_true, Bool.and_true, Bool.true_and]

include ta tb in
theorem mmqBody_none {c : Acc} (hfmt : fa = 3 ∨ fa = 4) (hsame : fb = fa) (hfits : MmqFits a b c rows cols)
    (hopens : (hTcol a.slot.hdr % groupTiles (hGrp a.slot.hdr) == 0) = false) (hon : mmqGoesOn a b c = false) (sat : Bool) (data : List (List Nat)) :
    mmqBody sat data a b c = none := by
  have hguard := mmq_guard ta tb hfmt hsame hfits false
  rw [← hon] at hguard
  simp only [mmqGoesOn] at hguard
  simp only [mmqBody, Acc.isOpen, hopens, Bool.false_or, hguard]
  rw [if_pos]
  show (!mmqGoesOn a b c) = true
  rw [hon]
  rfl

/-- The products of rows and columns, less their zero points, as the model takes them from its grids. -/
theorem mmq_addPartials (p : List Int) : addPartials rows cols p (fun i j =>
      intDot ((nth [] ((List.range rows).map fun i => (List.range k).map fun x => elemAt a i x) i).map fun (q : Nat) => (q : Int) - zeroOf a.slot.scale i)
        ((nth [] ((List.range cols).map fun j => (List.range k).map fun x => elemAt b x j) j).map fun (q : Nat) => (q : Int) - zeroOf b.slot.scale j)) =
    addPartials rows cols p (mmqPart a b k) := by
  refine addPartials_congr p fun i hi j hj => ?_
  rw [nth_map_range [] _ hi, nth_map_range [] _ hj, List.map_map, List.map_map, intDot_map]
  rfl

include ta tb in
theorem mmqBody_some {c : Acc} (hfmt : fa = 3 ∨ fa = 4) (hsame : fb = fa) (hfits : MmqFits a b c rows cols)
    (hgroup : (hTcol a.slot.hdr % groupTiles (hGrp a.slot.hdr) == 0) = true ∨ mmqGoesOn a b c = true) (sat : Bool) (data : List (List Nat)) :
    let g := groupTiles (hGrp a.slot.hdr)
    let r := hTcol a.slot.hdr
    let z := mmqStart (r % g == 0) c data sat
    let y := mmqEnd ((r + 1) % g = 0) (mmqOpen z.1 a b rows cols (g - r % g) (mmqPartials (r % g == 0) c a b rows cols k)) z.2.1 sat
    mmqBody sat data a b c = some (y.1, y.2.1, z.2.2 ||| y.2.2, if fa = 3 then 16 else 8) := by
  intro g r z y
  have hguard := mmq_guard ta tb hfmt hsame hfits true
  have hra := tileIn_gridRows ta
  have hcb := tileIn_gridCols tb
  obtain ⟨-, rfl, rfl, rfl⟩ := ta
  obtain ⟨-, hkb, rfl, rfl⟩ := tb
  rw [hkb] at hcb
  have hgo : (hTcol a.slot.hdr % groupTiles (hGrp a.slot.hdr) == 0 || c.isOpen && (a.slot.scale == c.ascale && b.slot.scale == c.bscale)) = true :=
    Bool.or_eq_true_iff.mpr hgroup
  simp only [mmqBody, hgo, hguard, hra, hcb, mmq_addPartials, Bool.not_true, Bool.false_eq_true, if_false, beq_iff_eq (a := hFmt a.slot.hdr),
    beq_iff_eq (a := (hTcol a.slot.hdr + 1) % groupTiles (hGrp a.slot.hdr))]
  have hz : z = mmqStart (hTcol a.slot.hdr % groupTiles (hGrp a.slot.hdr) == 0) c data sat := rfl
  simp only [y, hz, g, r]
  cases hTcol a.slot.hdr % groupTiles (hGrp a.slot.hdr) == 0 <;> rfl

end Tiles

end Sys2Proof.Machine
end

section
/-! SUPPORT. O32: what TMMA and TMMQ leave of the accumulator (05 R177, R181, R182). -/

namespace Sys2Proof.Machine

open Sys2Proof.Claims

/-- The accumulator after a product that left `c'` of `c` and raised the bits `sb` (R177, R181). -/
def nextAcc (c : Acc) (a b : Arg) (c' : Acc) (sb : BitVec 8) : Acc :=
  { c' with kc := (c.kc + 1) % 65536, idx := (hTrow a.slot.hdr, hTcol b.slot.hdr), shape := some (hNrow a.slot.hdr + 1, hNcol b.slot.hdr + 1),
            asb := (c.asb ||| sb) &&& 0x7F }

section Products
variable {s : State} {f : Firing} {o : Ops} {a b : Arg} {c : Acc} (ha : a = s.arg f .tile o.a (bit o.imm 5)) (hb : b = s.arg f .tile o.b (bit o.imm 6))
  (hc : c = s.acc f.e f.ctx (accOf o)) (hbegin : ProductMayBegin s f a b c)
include ha hb hc hbegin

/-- A product whose body keeps ASB but for bits that the result has too. -/
theorem product_ends {i : Instr} {body : Arg → Arg → Acc → Option (Acc × List (List Nat) × BitVec 8 × Nat)}
    (hexec : exec i s = .next (s.productNode f o body)) {c' : Acc} {g : List (List Nat)} {raised : BitVec 8} {cycles : Nat}
    (hbody : body a b c = some (c', g, raised, cycles)) (hg : AccGrid g) {sb w z : BitVec 8} (hsb : argsSb [a, b] ||| raised = sb)
    (hshape : c'.shape = some (hNrow a.slot.hdr + 1, hNcol b.slot.hdr + 1)) (hasb : c'.asb = c.asb ||| z) (hz : sb = w ||| z) :
    Ends i s fun s' => Accumulates s s' f o [a, b] cycles sb (nextAcc c a b c' sb) ∧ ∀ i j, dataAt s' f (accOf o) i j = gridAt g i j := by
  obtain ⟨hdone, hdata⟩ := State.productNode_accumulates ha hb hc hbegin hbody hg
  refine ⟨_, hexec, ?_, hdata⟩
  have hnext : nextAcc c a b c' sb = { c' with kc := c.kcNext, idx := (hTrow a.slot.hdr, hTcol b.slot.hdr), asb := sbOr [c'.asb, sb] } := by
    rw [nextAcc, ← hshape, hasb, hz, sbOr_absorb]
    rfl
  rw [hsb] at hdone
  rw [hnext]
  exact hdone

variable {rows cols k fa fb : Nat} (ta : TileIn a rows k fa) (tb : TileIn b k cols fb)
include ta tb

/-- TMMQ (R61, R62, R182): a tile that opens a group or goes on with its own. -/
theorem tmmq_ends (hf : s.focus = .node f) (hfmt : fa = 3 ∨ fa = 4) (hsame : fb = fa) (hfits : MmqFits a b c rows cols)
    (hgroup : (hTcol a.slot.hdr % groupTiles (hGrp a.slot.hdr) == 0) = true ∨ mmqGoesOn a b c = true) :
    let g := groupTiles (hGrp a.slot.hdr)
    let r := hTcol a.slot.hdr
    let z := mmqStart (r % g == 0) c (s.accData f.e f.ctx (accOf o)) (satOf o)
    let y := mmqEnd ((r + 1) % g = 0) (mmqOpen z.1 a b rows cols (g - r % g) (mmqPartials (r % g == 0) c a b rows cols k)) z.2.1 (satOf o)
    let sb := argsSb [a, b] ||| z.2.2 ||| y.2.2
    Ends (.tmmq o) s fun s' => Accumulates s s' f o [a, b] (if fa = 3 then 16 else 8) sb (nextAcc c a b y.1 sb) ∧
      ∀ i j, i < 32 → j < 32 → dataAt s' f (accOf o) i j = gridAt y.2.1 i j := by
  intro g r z y sb
  have hz : AccGrid z.2.1 := accGrid_mmqStart _ _ (accGrid_accData ..) _
  have hbody := mmqBody_some ta tb hfmt hsame hfits hgroup (satOf o) (s.accData f.e f.ctx (accOf o))
  have hexec : exec (.tmmq o) s = .next (s.productNode f o (mmqBody (satOf o) (s.accData f.e f.ctx (accOf o)))) := by
    rw [exec_tmmq, execTmmq, State.flow_node hf]
  have hasb : y.1.asb = c.asb ||| (z.2.2 ||| y.2.2) := by
    rw [← BitVec.or_assoc, ← mmqStart_asb]
    exact (mmqEnd_frame ..).2
  obtain ⟨t, ht, hdone, hdata⟩ := product_ends ha hb hc hbegin hexec hbody (accGrid_mmqEnd _ _ hz _) (BitVec.or_assoc ..).symm
    ((mmqEnd_frame ..).1.trans (tileIn_product_shape ta tb)) hasb (BitVec.or_assoc ..)
  exact ⟨t, ht, hdone, fun i j _ _ => hdata i j⟩

variable (hk : hTcol a.slot.hdr = hTrow b.slot.hdr) (hshape : c.shape = none ∨ c.shape = some (rows, cols))
include hk hshape

/-- TMMA on integers (R60, R181). -/
theorem tmma_int (hf : s.focus = .node f) (hfa : fa = 6) (hfb : fb = 6) (hmode : c.mode = .unset ∨ c.mode = .integer) :
    let x := closeGroup c (s.accData f.e f.ctx (accOf o)) (satOf o)
    let sb := argsSb [a, b] ||| x.2.2
    Ends (.tmma o) s fun s' => Accumulates s s' f o [a, b] 16 sb (nextAcc c a b { x.1 with mode := .integer } sb) ∧
      ∀ i j, i < 32 → j < 32 → dataAt s' f (accOf o) i j =
        if i < rows ∧ j < cols then (mmaIntSum a b k i j (gridAt x.2.1 i j)).1 else gridAt x.2.1 i j := by
  intro x sb
  have hx : AccGrid x.2.1 := accGrid_closeGroup _ _ _ (accGrid_accData ..)
  have hbody := mmaBody_int ta tb hk hshape hfa hfb hmode (satOf o) (s.accData f.e f.ctx (accOf o))
  have hexec : exec (.tmma o) s = .next (s.productNode f o (mmaBody (satOf o) (s.accData f.e f.ctx (accOf o)))) := by
    rw [exec_tmma, execTmma, State.flow_node hf]
  obtain ⟨t, ht, hdone, hdata⟩ := product_ends ha hb hc hbegin hexec hbody (accGrid_mapGrid _ cols (mmaIntSum_lt a b k) rows hx) (sb := sb) rfl
    (tileIn_product_shape ta tb) (closeGroup_asb ..) rfl
  exact ⟨t, ht, hdone, fun i j hi hj => (hdata i j).trans (gridAt_mapGrid _ cols hx.rows hx.cols rows hi hj)⟩

/-- TMMA on floats (R58, R59, R63, R181). -/
theorem tmma_float (hf : s.focus = .node f) (hfa : fa < 3) (hfb : fb < 3 ∨ ((fb = 3 ∨ fb = 4) ∧ hRax b.slot.hdr = 1))
    (hmode : c.mode = .unset ∨ c.mode = .float) :
    let x := closeGroup c (s.accData f.e f.ctx (accOf o)) (satOf o)
    let sum := fun i j => mmaSum (satOf o) a b k i j (gridAt x.2.1 i j)
    let sb := argsSb [a, b] ||| orAll ((places rows cols).map fun p => (sum p.1 p.2).2) ||| orAll ((places k cols).map fun p => (tileWeight b p.1 p.2).2) |||
      x.2.2
    Ends (.tmma o) s fun s' =>
      Accumulates s s' f o [a, b] (if fa = 0 ∨ fb = 0 then 128 else 32) sb (nextAcc c a b { x.1 with mode := .float } sb) ∧
      ∀ i j, i < 32 → j < 32 → dataAt s' f (accOf o) i j = if i < rows ∧ j < cols then (sum i j).1 else gridAt x.2.1 i j := by
  intro x sum sb
  have hx : AccGrid x.2.1 := accGrid_closeGroup _ _ _ (accGrid_accData ..)
  have hrows := (tileIn_le ta).1
  have hcols := (tileIn_le tb).2
  have hbits : (mapGrid (mmaSum (satOf o) a b k) cols 0 rows x.2.1).2 = orAll ((places rows cols).map fun p => (sum p.1 p.2).2) :=
    mapGrid_bits _ cols hx.rows hx.cols rows hrows hcols
  have hbody := mmaBody_float ta tb hk hshape hfa hfb hmode (satOf o) (s.accData f.e f.ctx (accOf o))
  have hexec : exec (.tmma o) s = .next (s.productNode f o (mmaBody (satOf o) (s.accData f.e f.ctx (accOf o)))) := by
    rw [exec_tmma, execTmma, State.flow_node hf]
  obtain ⟨t, ht, hdone, hdata⟩ := product_ends ha hb hc hbegin hexec hbody (accGrid_mapGrid _ cols (mmaSum_lt (satOf o) a b k) rows hx) (sb := sb)
    (by rw [hbits, ← BitVec.or_assoc, ← BitVec.or_assoc]) (tileIn_product_shape ta tb) (closeGroup_asb ..) rfl
  exact ⟨t, ht, hdone, fun i j hi hj => (hdata i j).trans (gridAt_mapGrid _ cols hx.rows hx.cols rows hi hj)⟩

end Products

section Misfits
variable {a b : Arg} {c : Acc} (sat : Bool) (data : List (List Nat)) (h : ∀ m, shapeOk a.slot.hdr b.slot.hdr c m = false)
include h

theorem mmaBody_misfit : mmaBody sat data a b c = none := by
  simp only [mmaBody, h, Bool.false_and, Bool.not_false, if_true]

theorem mmqBody_misfit : mmqBody sat data a b c = none := by
  simp only [mmqBody, h, Bool.false_and, Bool.not_false, if_true]

end Misfits

theorem productsAccumulate : ProductsAccumulate := by
  intro o s f hf n c a b ha hb rows cols k next fits x0 before ready _
  have hexec : exec (.tmma o) s = .next (s.productNode f o (mmaBody (satOf o) (s.accData f.e f.ctx n))) ∧
      exec (.tmmq o) s = .next (s.productNode f o (mmqBody (satOf o) (s.accData f.e f.ctx n))) := by
    rw [exec_tmma, execTmma, exec_tmmq, execTmmq, State.flow_node hf, State.flow_node hf]
    exact ⟨rfl, rfl⟩
  have hta (h : ready) : TileIn a rows k (hFmt ha) := ⟨(ProductMayBegin.tiles h).1, rfl, rfl, rfl⟩
  have htb (h : ready) (hk : hNcol ha = hNrow hb) : TileIn b k cols (hFmt hb) := ⟨(ProductMayBegin.tiles h).2, congrArg (· + 1) hk.symm, rfl, rfl⟩
  refine ⟨fun hno => ?_, fun hread hacc hv hne => ?_, fun hready hmisfit => ?_, fun hready hfits hfa hfb hmode => ?_,
    fun hready hfits hfa hfb hmode => ?_, fun hready hfits hfa hfb hraxa hraxb hgrp hgrpb hmode => ?_⟩
  · rw [hexec.1, hexec.2, State.productNode_waits rfl rfl rfl hno, State.productNode_waits rfl rfl rfl hno]
    exact ⟨rfl, rfl⟩
  · rw [hexec.1, hexec.2, State.productNode_early rfl rfl rfl hread hacc hv hne, State.productNode_early rfl rfl rfl hread hacc hv hne]
    exact ⟨rfl, rfl⟩
  · have hno (m : AMode) : shapeOk ha hb c m = false := by
      rw [← Bool.not_eq_true, shapeOk_iff]
      exact fun h => hmisfit h.1
    rw [hexec.1, hexec.2, State.productNode_buffer rfl rfl rfl hready (mmaBody_misfit _ _ hno),
      State.productNode_buffer rfl rfl rfl hready (mmqBody_misfit _ _ hno)]
    exact ⟨_, rfl, rfl, rfl⟩
  · obtain ⟨hk, htc, hshape⟩ := hfits
    exact tmma_int rfl rfl rfl hready (hta hready) (htb hready hk) htc hshape hf hfa hfb hmode
  · obtain ⟨hk, htc, hshape⟩ := hfits
    exact tmma_float rfl rfl rfl hready (hta hready) (htb hready hk) htc hshape hf hfa hfb hmode
  · intro g r opens goesOn part
    obtain ⟨hk, htc, hshape⟩ := hfits
    have ta := hta hready
    have tb := htb hready hk
    have hmmq : MmqFits a b c rows cols := ⟨htc, hshape, hraxa, hraxb, hgrp, hgrpb, hmode⟩
    have hgoes : mmqGoesOn a b c = goesOn := (Bool.and_assoc ..).symm
    refine ⟨fun hopens hgo => ?_, fun hgroup => ⟨mmqPartials opens c a b rows cols k, fun i j hi hj => ?_, ?_⟩⟩
    · rw [hexec.2, State.productNode_buffer rfl rfl rfl hready (mmqBody_none ta tb hfa hfb hmmq hopens (hgoes.trans hgo) _ _)]
      exact ⟨_, rfl, rfl⟩
    · exact nth_mmqPartials opens c hi hj (hNrow_succ_le _) (hNcol_succ_le _)
    · exact tmmq_ends rfl rfl rfl hready ta tb hf hfa hfb hmmq (hgoes ▸ hgroup)

end Sys2Proof.Machine
end

section
/-! SUPPORT. O32: TDRAIN (05 R184). -/

namespace Sys2Proof.Machine

open Sys2Proof.Claims

theorem exec_tdrain (o : Ops) (s : State) : exec (.tdrain o) s = execTdrain o s := rfl

/-! ### The tile -/

theorem take_eq_map_nth {α : Type} (x : α) {l : List α} {n : Nat} (h : n ≤ l.length) : l.take n = (List.range n).map (nth x l) := by
  conv_lhs => rw [← map_nth_range x l, ← List.map_take, List.take_range, Nat.min_eq_left h]

/-- The first rows and columns of a grid, row by row. -/
theorem take_places {d : List (List Nat)} (hd : AccGrid d) {rows cols : Nat} (hrows : rows ≤ 32) (hcols : cols ≤ 32) :
    ((d.take rows).map fun r => r.take cols).flatten = (places rows cols).map fun p => gridAt d p.1 p.2 := by
  rw [map_places, take_eq_map_nth [] (hd.rows ▸ hrows), List.map_map]
  refine congrArg List.flatten (List.map_congr_left fun i hi => ?_)
  exact take_eq_map_nth 0 (hd.row_length (Nat.lt_of_lt_of_le (List.mem_range.mp hi) hrows) ▸ hcols)

/-- The value that TDRAIN writes for a value of the accumulator. -/
def drainConv (o : Ops) (fmt v : Nat) : Nat × BitVec 8 := if fmt = 5 then (v, 0) else fpConv fmtF32 (fmtOf (fmtTy fmt)) (rmOf o) (satOf o) v

/-- The tile of an accumulator's values. -/
def drainTile (o : Ops) (c : Acc) (data : List (List Nat)) (fmt rows cols : Nat) : SlotRes :=
  tileOf c.idx.2 c.idx.1 0 0 0 fmt rows cols 0 ((places rows cols).map fun p => drainConv o fmt (gridAt data p.1 p.2))

/-- TROW and TCOL are 16 bits wide (Table 1.4). -/
theorem tileOf_mod (tcol trow fmt rows cols : Nat) (l : List (Nat × BitVec 8)) :
    tileOf (tcol % 2 ^ 16) (trow % 2 ^ 16) 0 0 0 fmt rows cols 0 l = tileOf tcol trow 0 0 0 fmt rows cols 0 l := by
  simp only [tileOf, mkHdr, pack, packNat, Nat.mod_mod]

theorem drainBody_some {o : Ops} {c : Acc} {data : List (List Nat)} {rows cols : Nat} (hd : AccGrid data) (hshape : c.shape = some (rows, cols))
    (hrows : 1 ≤ rows ∧ rows ≤ 32) (hcols : 1 ≤ cols ∧ cols ≤ 32)
    (hmode : if nfld o.imm 8 4 = 5 then c.mode = .integer else nfld o.imm 8 4 < 3 ∧ c.mode = .float) :
    drainBody o c data = some (drainTile o c data (nfld o.imm 8 4) rows cols) := by
  have hok : (c.mode = .integer ∧ (nfld o.imm 8 4 == 5) = true) ∨ (c.mode = .float ∧ fmtFp (nfld o.imm 8 4) = true) := by
    split at hmode
    · next h => exact .inl ⟨hmode, beq_iff_eq.mpr h⟩
    · exact .inr ⟨hmode.2, (fmtFp_iff _).mpr hmode.1⟩
  have hconv : (fun v => if (nfld o.imm 8 4 == 5) = true then (v, (0 : BitVec 8))
      else fpConv fmtF32 (fmtOf (fmtTy (nfld o.imm 8 4))) (rmOf o) (satOf o) v) = drainConv o (nfld o.imm 8 4) := by
    funext v
    simp only [beq_iff_eq, drainConv]
  have hbody : drainBody o c data = some (tileRes (mkHdr c.idx.2 c.idx.1 0 0 0 0 0 0 0) (nfld o.imm 8 4) (rows - 1) (cols - 1)
      ((((places rows cols).map fun p => gridAt data p.1 p.2).map (drainConv o (nfld o.imm 8 4))).map fun x => x.1) 0
      ((((places rows cols).map fun p => gridAt data p.1 p.2).map (drainConv o (nfld o.imm 8 4))).foldl (fun b x => b ||| x.2) 0)) := by
    rw [← hconv, ← take_places hd hrows.2 hcols.2]
    rcases hok with ⟨hm, hfmt⟩ | ⟨hm, hfmt⟩ <;>
      simp only [drainBody, hm, hfmt, hshape, Bool.not_true, Bool.false_eq_true, if_false, Option.getD_some, Option.isNone_some]
  rw [hbody, tileRes_foldl, hTcol_mkHdr, hTrow_mkHdr, hRax_mkHdr, hScl_mkHdr, hGrp_mkHdr, Nat.sub_add_cancel hrows.1, Nat.sub_add_cancel hcols.1,
    List.map_map]
  exact congrArg some (tileOf_mod ..)

/-! ### The state -/

/-- A side-band does not depend on what a literal operand would be. -/
theorem State.opVal_sb (s : State) (ty : Ty) (i j : BitVec 16) (x : Opnd) : (s.opVal ty i x).sb = (s.opVal ty j x).sb := by cases x <;> rfl

/-- The state in which TDRAIN leaves the accumulator, with its DATA when a group was open. -/
def State.drainAcc (s : State) (f : Firing) (n : Nat) (a : Acc) (opened : Bool) (g : List (List Nat)) : State :=
  if opened then s.putAcc f n a g else s.setAcc f.e f.ctx n a

section DrainAcc
variable (s : State) (f : Firing) (n : Nat) (a : Acc) (opened : Bool) (g : List (List Nat))

theorem State.drainAcc_frame : let t := s.drainAcc f n a opened g
    t.fab.units = s.fab.units ∧ t.cycle = s.cycle ∧ t.mem = s.mem ∧ t.stew = s.stew ∧ t.fab.tokens = s.fab.tokens := by
  cases opened <;> exact ⟨rfl, rfl, rfl, rfl, rfl⟩

theorem State.drainAcc_ctx : (s.drainAcc f n a opened g).ctx f.e f.ctx =
    { s.ctx f.e f.ctx with accs := tset Acc.reset (s.ctx f.e f.ctx).accs n a } := by
  cases opened with
  | false => exact State.ctx_setCtx_same ..
  | true => exact (State.setAccData_ctx ..).trans (State.ctx_setCtx_same ..)

theorem State.drainAcc_buf (m : Nat) : (s.drainAcc f n a opened g).buf f.e f.ctx m = s.buf f.e f.ctx m := by
  rw [State.buf, State.drainAcc_ctx]
  rfl

end DrainAcc

theorem State.reserveSlot_accs (s : State) (e c m : Nat) (b : Buf) : ((s.reserveSlot e c m b).ctx e c).accs = (s.ctx e c).accs := by
  rw [State.reserveSlot, State.setBuf, State.ctx_setCtx_same]

section Tdrain
variable {s : State} {f : Firing} {o : Ops} (hf : s.focus = .node f)
include hf

theorem tdrain_waits (h : s.accReady f o (.tdrain o) = false) : exec (.tdrain o) s = .next (s.unfire f) := by
  rw [exec_tdrain, execTdrain, State.flow_node hf]
  simp only [h, Bool.not_false, if_true]

/-- The owner of an accumulator after TDRAIN (R184). -/
def drained (o : Ops) (c : Acc) : Acc := if bit o.imm 5 then { c with owner := none } else c

variable {c : Acc} {x : Acc × List (List Nat) × BitVec 8} (hc : c = s.acc f.e f.ctx (accOf o))
  (hx : x = closeGroup c (s.accData f.e f.ctx (accOf o)) (satOf o)) {b : Buf} {r : SlotRes} (hready : s.accReady f o (.tdrain o) = true)
  (hbody : drainBody o x.1 x.2.1 = some r) (hb : s.buf f.e f.ctx (nfld o.imm 0 5) = some b) (hr : r.lines ≤ b.size)
include hc hx hready hbody hb hr

theorem tdrain_exec : exec (.tdrain o) s = .next ((s.drainAcc f (accOf o) (drained o x.1) c.isOpen x.2.1).slotNode f o
    [scalarArg (s.opVal .x64 o.imm o.a)] (sbOr [x.1.asb]) (fmtBits (nfld o.imm 8 4)) 0 (some r)) := by
  subst hc hx
  rw [exec_tdrain, execTdrain, State.flow_node hf]
  simp only [hready, hbody, hb, decide_eq_true hr, Bool.or_true, Bool.not_true, Bool.false_eq_true, if_false, if_true]
  rfl

theorem tdrain_writes (hfree : (b.slot b.widx).full = false) (ht : sbDead (s.opVal .x64 o.imm o.a).sb = false) (hlive : sbDead x.1.asb = false) :
    Ends (.tdrain o) s fun s' =>
      let sb := (((s.opVal .x64 o.imm o.a).sb ||| x.1.asb) &&& 0x7F) ||| (r.bits &&& 0x1F)
      let m := nfld o.imm 0 5
      s'.fab.units = s.fab.units ++ [⟨f.e, f.ctx, f.slot, f.tag, s.unitFree f.e 1 + vecCycles (fmtBits (nfld o.imm 8 4)) r.lines, 1, none,
        both o ⟨0, sb, .ref, mkRef m b.widx r.lines, none, f.tag, []⟩,
        some ⟨m, b.widx, r.data, r.lines, r.hv, r.hdr, r.scale, bit o.fl 5⟩, [], []⟩] ∧
      (s'.acc f.e f.ctx (accOf o)).owner = (drained o x.1).owner ∧ s'.mem = s.mem ∧ s'.stew = s.stew ∧ s'.fab.tokens = s.fab.tokens := by
  have hsb : sbOr [argsSb [scalarArg (s.opVal .x64 o.imm o.a)], sbOr [x.1.asb]] = ((s.opVal .x64 o.imm o.a).sb ||| x.1.asb) &&& 0x7F := by
    show sbOr [sbOr [(s.opVal .x64 o.imm o.a).sb], sbOr [x.1.asb]] = _
    simp [sbOr, ← BitVec.and_or_distrib_right, BitVec.and_assoc]
  have hdead : sbDead (((s.opVal .x64 o.imm o.a).sb ||| x.1.asb) &&& 0x7F) = false := by rw [sbDead_and_mask, sbDead_or, ht, hlive]; rfl
  have hlines : (if argLines [scalarArg (s.opVal .x64 o.imm o.a)] < r.lines then r.lines else argLines [scalarArg (s.opVal .x64 o.imm o.a)]) = r.lines := by
    show (if 0 < r.lines then r.lines else 0) = r.lines
    split <;> omega
  obtain ⟨hunits, hcycle, hmem, hstew, htok⟩ := s.drainAcc_frame f (accOf o) (drained o x.1) c.isOpen x.2.1
  have hctx := s.drainAcc_ctx f (accOf o) (drained o x.1) c.isOpen x.2.1
  have hbuf := (s.drainAcc_buf f (accOf o) (drained o x.1) c.isOpen x.2.1 (nfld o.imm 0 5)).trans hb
  have hexec := tdrain_exec hf hc hx hready hbody hb hr
  generalize s.drainAcc f (accOf o) (drained o x.1) c.isOpen x.2.1 = u at *
  rw [u.slotNode_writes f o _ _ _ _ rfl (hsb ▸ hdead) hbuf hfree hr, hsb, hlines, outBoth_eq_both] at hexec
  obtain ⟨fmem, fstew, -, ftok, -⟩ := (u.reserveSlot f.e f.ctx (nfld o.imm 0 5) b).toUnitOf_frame f o 1 none
    (vecCycles (fmtBits (nfld o.imm 8 4)) r.lines + 0) _ _ _ _
  refine ⟨_, hexec, ?_, ?_, fmem.trans hmem, fstew.trans hstew, ftok.trans htok⟩
  · rw [State.toUnitOf_units, State.reserveSlot_unitFree, State.unitFree, hunits, hcycle]
    show u.fab.units ++ _ = _
    rw [hunits]
    rfl
  · rw [State.acc_owner, State.toUnitOf_ctx, State.reserveSlot_accs, hctx, tget_tset_same]

end Tdrain

/-- When TDRAIN may begin (R161, R184). -/
theorem State.accReady_tdrain {s : State} {f : Firing} {o : Ops} {n : Nat} {c : Acc} {t : Val} (hn : n = accOf o) (hc : c = s.acc f.e f.ctx n)
    (ht : t = s.opVal .x64 o.imm o.a) : s.accReady f o (.tdrain o) = (c.ownedBy f.tag && !s.matrixBusy f.e f.ctx n &&
      (sbDead (c.asb ||| t.sb) || s.destReady f.e f.ctx (nfld o.imm 0 5))) := by
  rw [ht, s.opVal_sb .x64 o.imm 0, sbDead_or, ← sbDead_sbOr_pair, hc, hn]
  rfl

theorem State.destReady_of_buf {s : State} {e c m : Nat} {b : Buf} (hb : s.buf e c m = some b) : s.destReady e c m = !(b.slot b.widx).full := by
  rw [State.destReady, hb]

theorem tdrainWritesTheTile : TdrainWritesTheTile := by
  intro o s f rows cols hf n c t fmt conv x res
  have hready : s.accReady f o (.tdrain o) = (c.ownedBy f.tag && !s.matrixBusy f.e f.ctx n &&
      (sbDead (c.asb ||| t.sb) || s.destReady f.e f.ctx (nfld o.imm 0 5))) := State.accReady_tdrain rfl rfl rfl
  refine ⟨fun hno => tdrain_waits hf ?_, fun b hown hidle hlive hb hfull => tdrain_waits hf ?_,
    fun hown hidle hshape hrows hcols hrows' hcols' hmode ht hlive b ⟨hb, hfree⟩ hlines => ?_⟩
  · rcases hno with h | h <;> simp only [hready, h, Bool.not_true, Bool.and_false, Bool.false_and]
  · rw [← nfld_zero_five] at hb
    rw [hready, State.destReady_of_buf hb, hfull, hlive, Bool.not_true, Bool.or_self, Bool.and_false]
  · rw [← nfld_zero_five] at hb
    have hgood : s.accReady f o (.tdrain o) = true := by
      rw [hready, State.destReady_of_buf hb, hfree, hown, hidle, Bool.not_false, Bool.or_true]
      rfl
    obtain ⟨howner, -, hsh, hmd, hidx, -⟩ := closeGroup_frame c (s.accData f.e f.ctx n) (satOf o)
    have hmode' : if fmt = 5 then x.1.mode = .integer else fmt < 3 ∧ x.1.mode = .float := by rwa [show x.1.mode = c.mode from hmd]
    have hgrid := accGrid_closeGroup c _ (satOf o) (accGrid_accData s f.e f.ctx n)
    have hbody := drainBody_some (o := o) hgrid (hsh.trans hshape) ⟨hrows, hrows'⟩ ⟨hcols, hcols'⟩ hmode'
    have hres : drainTile o x.1 x.2.1 fmt rows cols = res := by rw [drainTile, show x.1.idx = c.idx from hidx]; rfl
    have howner' : (drained o x.1).owner = if o.imm.getLsbD 5 then none else c.owner := by
      rw [← howner, drained, apply_ite Acc.owner]
      rfl
    obtain ⟨u, hexec, hunits, hacc, hrest⟩ := tdrain_writes hf rfl rfl hgood (hbody.trans (congrArg some hres)) hb hlines hfree ht hlive
    rw [nfld_zero_five] at hunits
    exact ⟨u, hexec, hunits, hacc.trans howner', hrest⟩

end Sys2Proof.Machine

namespace Sys2Proof

/-- Settles O32: each instruction ends in `State.accDone` or a slot write with the grid that its body makes of DATA, and the body's grids, read place
by place, are the sums that the statement names. -/
theorem accumulatorsAndProducts : Obligations.AccumulatorsAndProducts :=
  ⟨Machine.accumulatorsClearAndAdd, Machine.productsAccumulate, Machine.groupsClose, Machine.tdrainWritesTheTile⟩

end Sys2Proof
end

section
/-! SUPPORT. Tokens that leave an element or a port (08 R266 to R269): what the way of a token depends on, and the tokens of a list of results. -/

namespace Sys2Proof.Machine

open Sys2Proof.Claims

/-! ### Ways -/

/-- An element that keeps its context slots leaves those of all. -/
theorem State.ctxs_setElem (s : State) (e : Nat) (v : Elem) (h : v.ctxs = (s.elem e).ctxs) (e' : Nat) : ((s.setElem e v).elem e').ctxs = (s.elem e').ctxs := by
  rw [State.elem_setElem]
  split
  · next he => rw [h, he]
  · rfl

/-- The second state agrees with the first in all that a token's way depends on: the time, the loads, the fused columns and the elements' words. -/
structure SameWays (s s' : State) : Prop where
  cycle : s'.cycle = s.cycle
  loads : s'.fab.loads = s.fab.loads
  fuse : s'.mem.fuse = s.mem.fuse
  words : ∀ e c, (s'.ctx e c).words = (s.ctx e c).words

theorem SameWays.refl (s : State) : SameWays s s := ⟨rfl, rfl, rfl, fun _ _ => rfl⟩

theorem SameWays.trans {s t u : State} (h : SameWays s t) (k : SameWays t u) : SameWays s u :=
  ⟨k.cycle.trans h.cycle, k.loads.trans h.loads, k.fuse.trans h.fuse, fun e c => (k.words e c).trans (h.words e c)⟩

section
variable {s s' : State} (h : SameWays s s')
include h

theorem SameWays.slotWord (e c n : Nat) : s'.slotWord e c n = s.slotWord e c n := by simp only [State.slotWord, h.words]
theorem SameWays.loadAt (e c : Nat) : s'.loadAt e c = s.loadAt e c := by simp only [State.loadAt, h.loads]
theorem SameWays.loadidAt (e c : Nat) : s'.loadidAt e c = s.loadidAt e c := by simp only [State.loadidAt, h.loadAt]
theorem SameWays.physOf (e : Nat) : s'.physOf e = s.physOf e := by simp only [State.physOf, h.fuse]
theorem SameWays.toPort (e p : Nat) : s'.toPort e p = s.toPort e p := by simp only [State.toPort, h.physOf]
theorem SameWays.controller (l : Load) : s'.controller l = s.controller l := by simp only [State.controller, h.words]

/-- The token of a result is the same in both states. -/
theorem SameWays.tokenFrom (port : Option Nat) (e ctx lag : Nat) (x : Out) : s'.tokenFrom port e ctx lag x = s.tokenFrom port e ctx lag x := by
  simp only [State.tokenFrom, h.loadidAt, h.physOf, h.cycle, h.loadAt, h.controller]

theorem SameWays.sent (port : Option Nat) (e ctx lag : Nat) (outs : List Out) : sent s' port e ctx lag outs = sent s port e ctx lag outs := by
  simp only [Claims.sent, h.tokenFrom]

end

/-- The same time, loads, fused columns and context slots give the same ways. -/
theorem sameWays_of_ctxs {s s' : State} (hcycle : s'.cycle = s.cycle) (hloads : s'.fab.loads = s.fab.loads) (hfuse : s'.mem.fuse = s.mem.fuse)
    (h : ∀ e, (s'.elem e).ctxs = (s.elem e).ctxs) : SameWays s s' :=
  ⟨hcycle, hloads, hfuse, fun e c => by simp only [State.ctx, h]⟩

theorem sameWays_setTokens (s : State) (l : List Token) : SameWays s (s.setTokens l) := ⟨rfl, rfl, rfl, fun _ _ => rfl⟩

/-- An element that keeps its context slots keeps the ways. -/
theorem sameWays_setElem (s : State) (e : Nat) (v : Elem) (h : v.ctxs = (s.elem e).ctxs) : SameWays s (s.setElem e v) :=
  sameWays_of_ctxs rfl rfl rfl (s.ctxs_setElem e v h)

/-! ### Sending (R269) -/

/-- Results that leave join the tokens, each a cycle after the one before. -/
theorem State.sendFrom_sent (s : State) (port : Option Nat) (e ctx lag : Nat) (outs : List Out) :
    s.sendFrom port e ctx lag outs = s.setTokens (s.fab.tokens ++ sent s port e ctx lag outs) := by
  induction outs generalizing s lag with
  | nil => simp [State.sendFrom, sent, State.setTokens]
  | cons x outs ih =>
    have hcons : sent s port e ctx lag (x :: outs) = (s.tokenFrom port e ctx lag x).toList ++ sent s port e ctx (lag + 1) outs := by
      rw [sent, List.zipIdx_cons, List.filterMap_cons]
      cases s.tokenFrom port e ctx lag x <;> rfl
    rw [hcons, State.sendFrom]
    cases s.tokenFrom port e ctx lag x with
    | none => exact ih s (lag + 1)
    | some t =>
      show (s.addToken t).sendFrom port e ctx (lag + 1) outs = _
      rw [ih, State.addToken, (sameWays_setTokens s _).sent]
      simp [State.setTokens]

end Sys2Proof.Machine
end

section
/-! SUPPORT. Address generators (06 R196 to R202): the working copy of a colour, and the two instructions that change it. -/

namespace Sys2Proof.Machine

open Sys2Proof.Claims

/-! ### Fields and searches -/

/-- The lowest field of a vector. -/
theorem nfld_low {n : Nat} (w : BitVec n) (k : Nat) : nfld w 0 k = w.toNat % 2 ^ k := by simp [nfld]

theorem lfind_append_singleton {α : Type} {p : α → Bool} {l : List α} {x : α} (h : ∀ y ∈ l, p y = false) (hx : p x = true) :
    lfind p (l ++ [x]) = some x := by
  rw [lfind_eq_find?, List.find?_append, ← lfind_eq_find?, lfind_eq_none.mpr h]
  simp [hx]

/-! ### Working copies (R198) -/

/-- A working copy that is put in place is the one that is found. -/
theorem State.agenOf_setAgen (s : State) (a : Agen) : (s.setAgen a).agenOf a.e a.ctx a.slot a.col = some a := by
  refine lfind_append_singleton (fun b hb => ?_) (by simp)
  exact (Bool.not_eq_true' _).mp (List.mem_filter.mp hb).2

section TakeCopy
variable {s : State} {f : Firing} {g : Nat} {sb : BitVec 8} {w : SlotWord}

/-- The working copy that a record makes. -/
def freshCopy (s : State) (f : Firing) (g : Nat) (r : Shape) : Agen :=
  ⟨f.e, f.ctx, g, tagCol f.tag, r,
    (s.fab.rounds.filter fun x => x.col == tagCol f.tag && x.load == s.loadidAt f.e f.ctx).map fun x => (x.rbase, r), none, none, 0, []⟩

theorem State.takeCopy_some {a : Agen} (h : s.agenOf f.e f.ctx g (tagCol f.tag) = some a) : s.takeCopy f g sb = .ok (s, a) := by
  simp only [State.takeCopy, h]

theorem State.takeCopy_none (h : s.agenOf f.e f.ctx g (tagCol f.tag) = none) (hw : (s.slotWord f.e f.ctx g).getD 0 = w) : s.takeCopy f g sb =
    if poolPoisoned (s.elem f.e) (regByte (s.ctx f.e f.ctx).partwd (nfld w 100 10)) 48 then .error { s.agenInfo f g cConfig sb with code := cPoison }
    else if wOpc w = 0xB0 ∧ s.shapeOk f.e f.ctx w (recordAt s f w) ∧ s.nodesOk f.e f.ctx g (recordAt s f w) then
      .ok (s.setAgen (freshCopy s f g (recordAt s f w)), freshCopy s f g (recordAt s f w))
    else .error (s.agenInfo f g cConfig sb) := by
  subst hw
  simp only [State.takeCopy, h]
  rfl

end TakeCopy

theorem workingCopies : WorkingCopies := by
  intro s f g sb w r good bad
  refine ⟨fun a ha => State.takeCopy_some ha, fun hnone => ⟨fun hbad => ?_, fun hbad hgood => ?_, fun hbad hgood => ?_⟩⟩
  · rw [State.takeCopy_none hnone rfl, if_pos hbad]
    exact ⟨_, rfl, rfl, rfl⟩
  · rw [State.takeCopy_none hnone rfl, if_neg (Bool.eq_false_iff.mp hbad), if_neg hgood]
    exact ⟨_, rfl, rfl, rfl⟩
  · rw [State.takeCopy_none hnone rfl, if_neg (Bool.eq_false_iff.mp hbad), if_pos hgood]
    exact ⟨_, _, rfl, rfl, rfl, s.agenOf_setAgen (freshCopy s f g r), rfl, rfl, rfl, rfl⟩

/-! ### AGEN and PARAM (R196, R199, R202) -/

theorem exec_agen {o : Ops} {s : State} {f : Firing} {d : Token} (h : FiresOn s f d) : exec (.agen o) s = .next (
    match s.takeCopy f f.slot d.sb with
    | .error i => s.faultFiring f i
    | .ok (s1, a) =>
      if sbPZ d.sb then s1.faultFiring f (s1.agenInfo f f.slot cPoison d.sb)
      else if sbNL d.sb then s1.fire f o 1 [] d.sb
      else ((s1.dropAhead fun h => h.of a).setAgen { a with region := some (tagIter f.tag, nfld d.pay 0 32), ra := tagIter f.tag, got := [] }).fire f o 1 [] d.sb) := by
  show execAgen o s = _
  rw [execAgen, flow_firing h, Firing.p0_of_tok h.2] <;> rfl

/-- The record with one field replaced, as PARAM does. -/
def paramRecord (r : Shape) (n : Nat) (v : Word) : Shape := if n = 0 then setFld r 0 64 v.toNat else setFld r (128 + 64 * (n - 1)) 32 v.toNat

theorem paramRecord_getLsbD (r : Shape) {n : Nat} (hn : n ≤ 4) (v : Word) (i : Nat) : (paramRecord r n v).getLsbD i =
    if n = 0 ∧ i < 64 then v.getLsbD i
    else if n ≠ 0 ∧ 64 + 64 * n ≤ i ∧ i < 96 + 64 * n then v.getLsbD (i - (64 + 64 * n)) else r.getLsbD i := by
  unfold paramRecord
  split
  · next h0 =>
    rw [setFld_getLsbD _ _ _ _ _ (by decide)]
    by_cases hi : i < 64
    · simp [h0, hi, Nat.mod_eq_of_lt v.isLt, BitVec.getLsbD]
    · simp [h0, hi]
  · next h0 =>
    have hat : 128 + 64 * (n - 1) = 64 + 64 * n := by omega
    have hend : 64 + 64 * n + 32 = 96 + 64 * n := by omega
    rw [hat, setFld_getLsbD _ _ _ _ _ (by omega), hend]
    by_cases hi : 64 + 64 * n ≤ i ∧ i < 96 + 64 * n
    · have hlt : i - (64 + 64 * n) < 32 := by omega
      simp only [h0, hi, false_and, if_false, ne_eq, not_false_eq_true, true_and, if_true, Nat.testBit_mod_two_pow, hlt, decide_true, Bool.true_and]
      rfl
    · simp [h0, hi]

theorem exec_param {o : Ops} {s : State} {f : Firing} (h : s.focus = .node f) : exec (.param o) s = .next (
    match s.takeCopy f (o.imm.toNat % 128) (s.opVal .x64 o.imm o.a).sb with
    | .error i => s.faultFiring f i
    | .ok (s1, a) =>
      let v := s.opVal .x64 o.imm o.a
      let done := both o ⟨0, v.sb, .scalar, 0, none, f.tag, f.hist⟩
      if sbDead v.sb then s1.fire f o 1 done v.sb
      else if s1.shapeOk f.e f.ctx (agenWord s f o) (paramRecord a.copy (o.imm.toNat / 128 % 8) v.v) then
        (s1.setAgen { a with copy := paramRecord a.copy (o.imm.toNat / 128 % 8) v.v }).fire f o 1 done v.sb
      else s1.faultFiring f (s1.agenInfo f (o.imm.toNat % 128) cConfig v.sb)) := by
  show execParam o s = _
  rw [execParam, State.flow_node h]
  dsimp only
  rw [outBoth_eq_both, nfld_low]
  rfl

theorem agenAndParam : AgenAndParam := by
  intro o s f hf
  refine ⟨fun d hd => ?_, ?_⟩
  · have hex := exec_agen (o := o) ⟨hf, hd⟩
    refine ⟨fun i hi => ?_, fun s1 a hp ht => ⟨s1.agenInfo f f.slot cPoison d.sb, rfl, ?_⟩, fun s1 a hp ht => ?_⟩
    · rw [hex, hi]
    · rw [hex, ht]
      simp only [hp, if_true]
    · rw [hex, ht]
      simp only [hp, nfld_zero, Bool.false_eq_true, if_false]
      split <;> rfl
  · intro v n g done
    have hex := exec_param (o := o) hf
    refine ⟨fun i hi => ?_, fun s1 a hd ht => ?_, fun s1 a hd ht hn => ⟨paramRecord a.copy n v.v, paramRecord_getLsbD _ hn _, fun hok => ?_,
      fun hok => ⟨s1.agenInfo f g cConfig v.sb, rfl, ?_⟩⟩⟩
    · rw [hex, hi]
    · rw [hex, ht]
      exact congrArg Host.Outcome.next (if_pos hd)
    · rw [hex, ht]
      exact congrArg Host.Outcome.next ((if_neg (by simpa using hd)).trans (if_pos hok))
    · rw [hex, ht]
      exact congrArg Host.Outcome.next ((if_neg (by simpa using hd)).trans (if_neg (by simpa using hok)))

end Sys2Proof.Machine
end

section
/-! SUPPORT. Access nodes at their element (06 R193 to R195, R203 to R207): each case of what a node does before its port has the access. -/

namespace Sys2Proof.Machine

open Sys2Proof.Claims

theorem State.settleHeld_frame (s : State) (e c n m : Nat) : ∃ es, s.settleHeld e c n m = { s with fab := { s.fab with elems := es } } := by
  unfold State.settleHeld
  split
  · exact ⟨_, rfl⟩
  · exact ⟨_, rfl⟩

/-- Taking a working copy changes the working copies alone. -/
theorem State.takeCopy_frame {s s1 : State} {f : Firing} {g : Nat} {sb : BitVec 8} {a : Agen} (h : s.takeCopy f g sb = .ok (s1, a)) :
    ∃ gs, s1 = { s with port := { s.port with agens := gs } } := by
  cases hg : s.agenOf f.e f.ctx g (tagCol f.tag) with
  | some b =>
    rw [State.takeCopy_some hg] at h
    cases h
    exact ⟨_, rfl⟩
  | none =>
    rw [State.takeCopy_none hg rfl] at h
    split at h
    · cases h
    · split at h
      · cases h
        exact ⟨_, rfl⟩
      · cases h

theorem sbPZ_of_live {b : BitVec 8} (h : sbDead b = false) : sbPZ b = false := (sbPZ_sbNL_of_live h).1

/-- A side-band that is not poisoned is dead exactly when it is null. -/
theorem sbDead_eq_sbNL {b : BitVec 8} (h : sbPZ b = false) : sbDead b = sbNL b := by rw [sbDead, h, Bool.or_false]

/-! ### The parts of an access node -/

/-- The chain operand of an access node (R194). -/
def chainTok (f : Firing) (o : Ops) (ch : Opnd) : Option Token := if o.imm.getLsbD 7 then (match ch with | .port n => f.tok n.toNat | _ => none) else none
/-- The results of an access that has not been performed: null ones, with its chain. -/
def nodeOuts (f : Firing) (sb : BitVec 8) (chain : Option Token) : List Out :=
  accessOuts f.word ⟨0, sb, .scalar, 0, none, f.tag, []⟩ (chain.map fun t => chainOut f.tag t.sb t.hist)
/-- The access goes along a stream. -/
def AKind.streams (k : AKind) : Bool := match k with | .lds => true | .sts => true | _ => false
/-- No region of an AGEN is open for a firing. -/
def State.regionShut (s : State) (f : Firing) (g : Nat) : Bool := match s.agenOf f.e f.ctx g (tagCol f.tag) with | some a => a.region.isNone | none => true

theorem AKind.streams_iff {k : AKind} : k.streams = true ↔ k = .lds ∨ k = .sts := by cases k <;> simp [AKind.streams]

theorem State.regionShut_iff {s : State} {f : Firing} {g : Nat} :
    s.regionShut f g = false ↔ ∃ a r, s.agenOf f.e f.ctx g (tagCol f.tag) = some a ∧ a.region = some r := by
  unfold State.regionShut
  cases s.agenOf f.e f.ctx g (tagCol f.tag) with
  | none => simp
  | some a => simp [Option.isSome_iff_exists]

/-- The access that a node hands over, with the operand tokens and the count that it keeps. -/
def nodeAccess (s : State) (f : Firing) (o : Ops) (k : AKind) (idx dat : Val) (ch : Opnd) (ops : Tbl (Option Token)) (n : Nat) : Access :=
  let sb := sbOr [idx.sb, dat.sb]
  let p := wPort (agenWord s f o)
  ⟨s.port.next, k, p, f.e, f.ctx, f.slot, f.word, f.tag, sb, idx.v, dat.v, sbExc dat.sb, (chainTok f o ch).map fun t => t.sb,
    (match chainTok f o ch with | some t => t.hist | none => []), o.imm.toNat % 128, none, none, s.cycle + 1 + s.toPort f.e p, sbDead sb, false, ops, n,
    s.loadidAt f.e f.ctx⟩

/-- What a node does once its working copy is there (`s1`): a null or poisoned load sends its results, every other access goes to its port, and the
port counts it when R341 has it counted. -/
def State.handOver (s s1 : State) (f : Firing) (o : Ops) (k : AKind) (idx dat : Val) (ch : Opnd) : State :=
  let sb := sbOr [idx.sb, dat.sb]
  let outs := nodeOuts f sb (chainTok f o ch)
  let now := sbDead sb && !k.stores
  let s3 := if now then s1.fire f o 1 outs sb else { s1.settleHeld f.e (tagCol f.tag) f.count (outCount outs) with focus := .thread 0 }
  if now && !k.counted then s3
  else { s3 with port := { s3.port with
    accesses := s3.port.accesses ++ [nodeAccess s f o k idx dat ch (if now then [] else f.ops) (if now then 0 else Nat.max f.count (outCount outs))],
    next := s3.port.next + 1 } }

section
variable {s s1 : State} {f : Firing} {o : Ops} {k : AKind} {idx dat : Val} {ch : Opnd}

/-- The cases of an access node. -/
theorem State.access_eq : s.access f o k idx dat ch =
    if k.streams && s.regionShut f (o.imm.toNat % 128) then s.unfire f
    else if sbPZ (sbOr [idx.sb, dat.sb]) && k.stores then
      s.faultFiring f { s.agenInfo f (o.imm.toNat % 128) cPoison (sbOr [idx.sb, dat.sb]) with acc := k.acc }
    else match s.takeCopy f (o.imm.toNat % 128) (sbOr [idx.sb, dat.sb]) with
      | .error i => s.faultFiring f { i with acc := k.acc }
      | .ok (s1, _) => s.handOver s1 f o k idx dat ch := by
  have hhist : ((chainTok f o ch).map fun t => chainOut f.tag t.sb (match chainTok f o ch with | some t => t.hist | none => [])) =
      (chainTok f o ch).map fun t => chainOut f.tag t.sb t.hist := by cases chainTok f o ch <;> rfl
  unfold State.access State.handOver nodeOuts
  rw [← hhist, nfld_low]
  dsimp only
  cases ht : s.takeCopy f (o.imm.toNat % 2 ^ 7) (sbOr [idx.sb, dat.sb]) with
  | error i => rfl
  | ok x =>
    obtain ⟨s1, a⟩ := x
    obtain ⟨gs, rfl⟩ := State.takeCopy_frame ht
    rfl

/-- A null or poisoned load sends its results at once. -/
theorem State.handOver_now {gs : List Agen} (hs1 : s1 = { s with port := { s.port with agens := gs } }) (hd : sbDead (sbOr [idx.sb, dat.sb]) = true)
    (hk : k.stores = false) : let s' := s.handOver s1 f o k idx dat ch
    s'.fab.units = issued s f 1 (nodeOuts f (sbOr [idx.sb, dat.sb]) (chainTok f o ch)) ∧ s'.mem = s.mem ∧ s'.stew = s.stew ∧ s'.fab.tokens = s.fab.tokens := by
  have hunits := s1.fire_units f o 1 (nodeOuts f (sbOr [idx.sb, dat.sb]) (chainTok f o ch)) (sbOr [idx.sb, dat.sb])
  obtain ⟨hmem, hstew, htok⟩ := s1.fire_rest f o 1 (nodeOuts f (sbOr [idx.sb, dat.sb]) (chainTok f o ch)) (sbOr [idx.sb, dat.sb])
  rw [State.handOver]
  simp only [hd, hk, Bool.not_false, Bool.and_self, if_true, Bool.true_and]
  subst hs1
  split
  · exact ⟨hunits, hmem, hstew, htok⟩
  · exact ⟨hunits, hmem, hstew, htok⟩

/-- Every other access goes to its port, and its operand tokens stay counted. -/
theorem State.handOver_sent {gs : List Agen} (hs1 : s1 = { s with port := { s.port with agens := gs } })
    (hn : (sbDead (sbOr [idx.sb, dat.sb]) && !k.stores) = false) : let s' := s.handOver s1 f o k idx dat ch
    s'.port.accesses = s.port.accesses ++
      [nodeAccess s f o k idx dat ch f.ops (Nat.max f.count (outCount (nodeOuts f (sbOr [idx.sb, dat.sb]) (chainTok f o ch))))] ∧
    s'.fab.units = s.fab.units ∧ s'.mem = s.mem ∧ s'.stew = s.stew ∧ s'.fab.tokens = s.fab.tokens := by
  obtain ⟨es, hs⟩ := s1.settleHeld_frame f.e (tagCol f.tag) f.count (outCount (nodeOuts f (sbOr [idx.sb, dat.sb]) (chainTok f o ch)))
  rw [State.handOver]
  simp only [hn, Bool.false_eq_true, if_false, Bool.false_and, hs]
  subst hs1
  exact ⟨rfl, rfl, rfl, rfl, rfl⟩

end

/-- The access nodes, each with its kind, operands and chain (Table 6.3). -/
theorem exec_accessNode {o : Ops} {s : State} {f : Firing} (hf : s.focus = .node f) {i : Instr} {kind : AKind} {idx dat : Val} {chain : Option Token}
    (h : (i, kind, idx, dat, chain) ∈ ([
      (.lds o, .lds, s.opVal .x64 o.imm o.a, ⟨0, 0⟩, chainTok f o o.b),
      (.sts o, .sts, ⟨0, 0⟩, s.opVal o.ty o.imm o.a, chainTok f o o.b),
      (.ldr o, .ldr, s.opVal .x64 o.imm o.a, ⟨0, 0⟩, chainTok f o o.b),
      (.str o, .str, s.opVal .x64 o.imm o.a, s.opVal o.ty o.imm o.b, chainTok f o o.c),
      (.updAdd o, .upd 0, s.opVal .x64 o.imm o.a, s.opVal o.ty o.imm o.b, chainTok f o o.c),
      (.updMin o, .upd 1, s.opVal .x64 o.imm o.a, s.opVal o.ty o.imm o.b, chainTok f o o.c),
      (.updMax o, .upd 2, s.opVal .x64 o.imm o.a, s.opVal o.ty o.imm o.b, chainTok f o o.c),
      (.updOr o, .upd 3, s.opVal .x64 o.imm o.a, s.opVal o.ty o.imm o.b, chainTok f o o.c),
      (.updAnd o, .upd 4, s.opVal .x64 o.imm o.a, s.opVal o.ty o.imm o.b, chainTok f o o.c),
      (.updXchg o, .upd 5, s.opVal .x64 o.imm o.a, s.opVal o.ty o.imm o.b, chainTok f o o.c),
      (.updCas o, .upd 6, s.opVal .x64 o.imm o.a, s.opVal .x64 o.imm o.b, chainTok f o o.c),
      (.acqld o, .acqld, s.opVal .x64 o.imm o.a, ⟨0, 0⟩, chainTok f o o.b),
      (.relst o, .relst, s.opVal .x64 o.imm o.a, s.opVal o.ty o.imm o.b, chainTok f o o.c)] : List (Instr × AKind × Val × Val × Option Token))) :
    ∃ ch, exec i s = .next (s.access f o kind idx dat ch) ∧ chain = chainTok f o ch := by
  simp only [List.mem_cons, List.not_mem_nil, or_false, Prod.mk.injEq] at h
  rcases h with ⟨rfl, rfl, rfl, rfl, rfl⟩ | ⟨rfl, rfl, rfl, rfl, rfl⟩ | ⟨rfl, rfl, rfl, rfl, rfl⟩ | ⟨rfl, rfl, rfl, rfl, rfl⟩ | ⟨rfl, rfl, rfl, rfl, rfl⟩ |
    ⟨rfl, rfl, rfl, rfl, rfl⟩ | ⟨rfl, rfl, rfl, rfl, rfl⟩ | ⟨rfl, rfl, rfl, rfl, rfl⟩ | ⟨rfl, rfl, rfl, rfl, rfl⟩ | ⟨rfl, rfl, rfl, rfl, rfl⟩ |
    ⟨rfl, rfl, rfl, rfl, rfl⟩ | ⟨rfl, rfl, rfl, rfl, rfl⟩ | ⟨rfl, rfl, rfl, rfl, rfl⟩ <;>
  exact ⟨_, State.flow_node hf _, rfl⟩

theorem accessNodesReachTheirPort : AccessNodesReachTheirPort := by
  intro o s f hf col g p ch none' i kind idx dat chain hmem sb stream region outs
  obtain ⟨c, hex, hchain⟩ := exec_accessNode hf hmem
  have hsb : sb = sbOr [idx.sb, dat.sb] := (sbOr_pair ..).symm
  have houts : outs = nodeOuts f sb (chainTok f o c) := by rw [← hchain]; rfl
  have hgoes (hr : stream → region) : (kind.streams && s.regionShut f g) = false := by
    by_cases hk : stream
    · rw [State.regionShut_iff.mpr (hr hk), Bool.and_false]
    · rw [Bool.eq_false_iff.mpr (mt AKind.streams_iff.mp hk), Bool.false_and]
  rw [State.access_eq, ← hsb] at hex
  refine ⟨fun hs hr => ?_, fun hr hp hk => ⟨{ s.agenInfo f g cPoison sb with acc := kind.acc }, rfl, ?_⟩, fun n hr hp ht => ⟨{ n with acc := kind.acc }, rfl, ?_⟩, fun s1 ag hr ht =>
    ⟨fun hd hk => ⟨_, hex, ?_⟩, fun h => ⟨_, hex, nodeAccess s f o kind idx dat c f.ops (Nat.max f.count (outCount outs)), ?_⟩⟩⟩
  · rw [hex, if_pos (by rw [AKind.streams_iff.mpr hs, (Bool.not_eq_false _).mp (mt State.regionShut_iff.mp hr)]; rfl)]
  · rw [hex, if_neg (Bool.eq_false_iff.mp (hgoes hr)), if_pos (by rw [hp, hk]; rfl)]
  · have hns : (sbPZ sb && kind.stores) = false := by
      cases h : sbPZ sb with
      | false => rfl
      | true => rw [hp h]; rfl
    rw [hex, if_neg (Bool.eq_false_iff.mp (hgoes hr)), if_neg (Bool.eq_false_iff.mp hns), ht]
  · obtain ⟨gs, hs1⟩ := State.takeCopy_frame ht
    rw [if_neg (Bool.eq_false_iff.mp (hgoes hr)), if_neg (by rw [hk, Bool.and_false]; exact Bool.false_ne_true), ht, houts, hsb]
    exact State.handOver_now hs1 (hsb ▸ hd) hk
  · have hp : (sbPZ sb && kind.stores) = false := by
      obtain h | ⟨h, -⟩ := h
      · rw [sbPZ_of_live h, Bool.false_and]
      · rw [h, Bool.false_and]
    have hn : (sbDead sb && !kind.stores) = false := by
      obtain h | ⟨-, h⟩ := h
      · rw [h, Bool.false_and]
      · rw [h, Bool.not_true, Bool.and_false]
    have hnull : sbDead sb = sbNL sb := by
      obtain h | ⟨h, -⟩ := h
      · exact sbDead_eq_sbNL (sbPZ_of_live h)
      · exact sbDead_eq_sbNL h
    obtain ⟨gs, hs1⟩ := State.takeCopy_frame ht
    rw [if_neg (Bool.eq_false_iff.mp (hgoes hr)), if_neg (Bool.eq_false_iff.mp hp), ht]
    rw [hsb] at hn hnull
    obtain ⟨hacc, hunits, hm, hst, htok⟩ := State.handOver_sent (ch := c) hs1 hn
    rw [houts, hsb, hchain]
    exact ⟨hacc, rfl, rfl, rfl, rfl, rfl, rfl, rfl, rfl, rfl, rfl, rfl, hnull, rfl, rfl, rfl, rfl, rfl, hunits, hm, hst, htok⟩

end Sys2Proof.Machine
end

section
/-! SUPPORT. The address of an access and its checks (06 R199, R200), and what a failed check leaves (R262). -/

namespace Sys2Proof.Machine

open Sys2Proof.Claims

/-! ### Stream positions (R199) -/

section Stream
variable (r : Shape)

/-- The position that digits name, and the offset that they give, from dimension `d` on. -/
def posOf (ds : List Nat) (d : Nat) : Nat := (ds.zipIdx d).foldr (fun (x : Nat × Nat) n => x.1 + shE r x.2 * n) 0
def offOf (ds : List Nat) (d : Nat) : Int := ((ds.zipIdx d).map fun (x : Nat × Nat) => (x.1 : Int) * shS r x.2).sum

theorem posOf_cons (x : Nat) (ds : List Nat) (d : Nat) : posOf r (x :: ds) d = x + shE r d * posOf r ds (d + 1) := by simp [posOf]
theorem offOf_cons (x : Nat) (ds : List Nat) (d : Nat) : offOf r (x :: ds) d = x * shS r d + offOf r ds (d + 1) := by simp [offOf]

/-- The digits of a position in the extents are the model's divisions. -/
theorem streamOff_posOf (x : Nat) (ds : List Nat) (d : Nat) (off : Int) (h : ∀ i, i < (x :: ds).length → nth 0 (x :: ds) i < shE r (d + i)) :
    streamOff r d (x :: ds).length (posOf r (x :: ds) d) off = some (off + offOf r (x :: ds) d) := by
  induction ds generalizing x d off with
  | nil =>
    have hx : x < shE r d := h 0 (by simp)
    simp [streamOff, posOf, offOf, hx]
  | cons y ds ih =>
    have hx : x < shE r d := h 0 (by simp)
    have hrest : ∀ i, i < (y :: ds).length → nth 0 (y :: ds) i < shE r (d + 1 + i) := fun i hi => by
      rw [Nat.add_assoc, Nat.add_comm 1 i]
      exact h (i + 1) (Nat.succ_lt_succ hi)
    rw [posOf_cons, offOf_cons, List.length_cons, streamOff, if_neg (by simp), Nat.add_mul_div_left _ _ (by omega), Nat.div_eq_of_lt hx, Nat.zero_add,
      Nat.add_mul_mod_self_left, Nat.mod_eq_of_lt hx, ih y (d + 1) _ hrest, add_assoc]

/-- A position at or beyond the product of the extents lies beyond the shape. -/
theorem streamOff_beyond (n d q : Nat) (off : Int) (hE : ∀ i, i < n + 1 → 0 < shE r (d + i)) (hq : ((List.range' d (n + 1)).map (shE r)).prod ≤ q) :
    streamOff r d (n + 1) q off = none := by
  induction n generalizing d q off with
  | zero =>
    have hle : shE r d ≤ q := by simpa using hq
    rw [streamOff, if_pos rfl, if_pos hle]
  | succ n ih =>
    rw [streamOff, if_neg (by omega)]
    refine ih _ _ _ (fun i hi => ?_) ?_
    · rw [Nat.add_assoc, Nat.add_comm 1 i]
      exact hE (i + 1) (Nat.succ_lt_succ hi)
    · rw [Nat.le_div_iff_mul_le (show 0 < shE r d from hE 0 (Nat.succ_pos _)), mul_comm]
      simpa [List.range'_succ] using hq

end Stream

theorem wrapInt_64 (x : Int) : wrapInt 64 x = (x % 2 ^ 64).toNat := by simp [wrapInt]

theorem accessAddr_stream {r : Shape} (h : shCls r = false) (start it0 it : Nat) (idx : Word) : accessAddr r (some (it0, start)) it idx =
    match streamOff r 0 (shNdim r) ((start + age it0 it) % 2 ^ 32) 0 with
    | some off => .ok (((if shVw r then 0 else (shBase r : Int)) + off) % 2 ^ 64).toNat
    | none => .error (cConfig, 0) := by
  simp only [accessAddr, h, Bool.false_eq_true, if_false, Option.getD_some, wrapInt_64] <;> rfl

theorem accessAddr_random {r : Shape} (h : shCls r = true) (g : Option (Nat × Nat)) (it : Nat) (idx : Word) : accessAddr r g it idx =
    let a := (((if shVw r then 0 else (shBase r : Int)) + idx.toNat * shS r 0) % 2 ^ 64).toNat
    if shE r 0 ≤ idx.toNat then .error (cProtection, a) else .ok a := by
  simp only [accessAddr, h, if_true, wrapInt_64]

/-! ### The checks of an address (R200, R335, R378) -/

section Space
variable {s : State} {g : Agen} {r : Shape} {p part col a va : Nat} {write : Bool}

theorem State.spaceStep_misaligned {held : Option Xent} (h : a % shEsz r ≠ 0) : s.spaceStep g r p part col a va write held = .bad cAlign a := by
  rw [State.spaceStep, if_pos h]

variable (ha : a % shEsz r = 0)
include ha

theorem State.spaceStep_config {held : Option Xent} (hp : spaceOf p = .config) : s.spaceStep g r p part col a va write held =
    if shEsz r = 8 then .ok a a 0 none else .bad cProtection a := by
  simp only [State.spaceStep, ha, hp, ne_eq, not_true_eq_false, if_false]

theorem State.spaceStep_far {held : Option Xent} (hp : spaceOf p ≠ .config) (hva : 2 ^ 57 ≤ va) :
    s.spaceStep g r p part col a va write held = .bad cTranslation a := by
  unfold State.spaceStep
  rw [if_neg (by simpa using ha)]
  cases h : spaceOf p with
  | config => exact absurd h hp
  | peer => exact if_pos hva
  | global => exact if_pos hva
  | host => exact if_pos hva

theorem State.spaceStep_peer {held : Option Xent} (hp : spaceOf p = .peer) (hva : va < 2 ^ 57) : s.spaceStep g r p part col a va write held =
    if tget 0 s.mem.peerFail (2 ^ 41 * shPeer r + va / 65536) = 0 then .ok a (2 ^ 57 * shPeer r + va) 0 none
    else .bad (tget 0 s.mem.peerFail (2 ^ 41 * shPeer r + va / 65536)) a := by
  simp only [State.spaceStep, ha, hp, ne_eq, not_true_eq_false, if_false, if_neg (Nat.not_le.mpr hva)]
  cases tget 0 s.mem.peerFail (2 ^ 41 * shPeer r + va / 65536) with
  | zero => rfl
  | succ n => rfl

theorem State.spaceStep_window {held : Option Xent} (hp : spaceOf p = .global) (hva : va < 2 ^ 57) (hw : windowOf va ≠ .none) :
    s.spaceStep g r p part col a va write held = .bad cProtection a := by
  unfold State.spaceStep
  dsimp only
  rw [if_neg (by simpa using ha), hp]
  dsimp only
  rw [if_neg (Nat.not_le.mpr hva), if_pos ⟨rfl, hw⟩]

/-- A page in hand that covers the address decides. -/
theorem State.spaceStep_page {x : Xent} (hp : (spaceOf p = .global ∧ windowOf va = .none) ∨ spaceOf p = .host) (hva : va < 2 ^ 57)
    (hx : x.hits (if spaceOf p = .host then hostAsid (s.colour col).pasid else (s.colour col).asid) va = true) :
    s.spaceStep g r p part col a va write (some x) =
      if x.cv != shVw r then .denied a x
      else if write && !x.wr then .denied a x
      else .ok a (x.phys va) (if spaceOf p = .host then 0 else s.keyFor part x va (s.colour col).keyslot) (some x) := by
  unfold State.spaceStep
  dsimp only
  rw [if_neg (by simpa using ha)]
  obtain ⟨hp, hw⟩ | hp := hp
  · rw [hp] at hx ⊢
    simp only [reduceCtorEq, if_false] at hx
    simp only [if_neg (Nat.not_le.mpr hva), hw, hx, ne_eq, not_true_eq_false, and_false, if_true, reduceCtorEq, if_false]
  · rw [hp] at hx ⊢
    simp only [if_true] at hx
    simp only [if_neg (Nat.not_le.mpr hva), hx, reduceCtorEq, false_and, if_true, if_false]

end Space

/-- The checks of an address do not look at the accesses that wait. -/
theorem State.setAccess_spaceStep (s : State) (b : Access) (g : Agen) (r : Shape) (p part col a va : Nat) (write : Bool) (held : Option Xent) :
    (s.setAccess b).spaceStep g r p part col a va write held = s.spaceStep g r p part col a va write held := rfl

end Sys2Proof.Machine
end

section
/-! SUPPORT. How a port comes to perform an access (06 R195, R200, 11 R352, 12 R358): what its checks leave unchanged, and each way that they end. -/

namespace Sys2Proof.Machine

open Sys2Proof.Claims

/-! ### What the checks leave -/

/-- The second state differs from the first at most in what a port's checks of an access change: counts of regions, translations in elements and
working copies, what has been read ahead, and the access itself. -/
structure ChecksOnly (s s' : State) (id : Nat) : Prop where
  frame : ∃ v es l gs acs, s' = { s with
    cov := v, fab := { s.fab with elems := es }, port := { s.port with ahead := l, agens := gs, accesses := acs } }
  elems : ∀ e, ∃ x, s'.elem e = { s.elem e with xlat := x }
  others : (s'.port.accesses.filter fun b => b.id != id) = s.port.accesses.filter fun b => b.id != id
  ids : (s'.port.accesses.map fun b => b.id) = s.port.accesses.map fun b => b.id

theorem ChecksOnly.refl (s : State) (id : Nat) : ChecksOnly s s id := ⟨⟨_, _, _, _, _, rfl⟩, fun _ => ⟨_, rfl⟩, rfl, rfl⟩

theorem ChecksOnly.trans {s t u : State} {id : Nat} (h : ChecksOnly s t id) (k : ChecksOnly t u id) : ChecksOnly s u id := by
  refine ⟨?_, fun e => ?_, k.others.trans h.others, k.ids.trans h.ids⟩
  · obtain ⟨_, _, _, _, _, rfl⟩ := h.frame
    obtain ⟨_, _, _, _, _, rfl⟩ := k.frame
    exact ⟨_, _, _, _, _, rfl⟩
  · obtain ⟨_, hx⟩ := h.elems e
    obtain ⟨_, hy⟩ := k.elems e
    rw [hy, hx]
    exact ⟨_, rfl⟩

section
variable {s s' : State} {id : Nat} (h : ChecksOnly s s' id)
include h

theorem ChecksOnly.ctxs (e : Nat) : (s'.elem e).ctxs = (s.elem e).ctxs := by
  obtain ⟨_, hx⟩ := h.elems e
  rw [hx]

theorem ChecksOnly.ways : SameWays s s' := by
  have hc := h.ctxs
  obtain ⟨_, _, _, _, _, rfl⟩ := h.frame
  exact sameWays_of_ctxs rfl rfl rfl hc

theorem ChecksOnly.rest : s'.mem = s.mem ∧ s'.stew = s.stew ∧ s'.fab.tokens = s.fab.tokens ∧ s'.fab.rounds = s.fab.rounds ∧
    s'.port.stores = s.port.stores ∧ s'.colours = s.colours ∧ s'.parts = s.parts := by
  obtain ⟨_, _, _, _, _, rfl⟩ := h.frame
  exact ⟨rfl, rfl, rfl, rfl, rfl, rfl, rfl⟩

end

theorem checksOnly_of_cov {s : State} {id : Nat} (v : Cov) : ChecksOnly s { s with cov := v } id := ⟨⟨_, _, _, _, _, rfl⟩, fun _ => ⟨_, rfl⟩, rfl, rfl⟩

/-- Replacing an access leaves the others. -/
theorem checksOnly_setAccess (s : State) (b : Access) : ChecksOnly s (s.setAccess b) b.id := by
  refine ⟨⟨_, _, _, _, _, rfl⟩, fun _ => ⟨_, rfl⟩, ?_, ?_⟩
  · show ((s.port.accesses.map fun x => if x.id == b.id then b else x).filter fun x => x.id != b.id) = _
    induction s.port.accesses with
    | nil => rfl
    | cons x l ih =>
      rw [List.map_cons, List.filter_cons, List.filter_cons, ih]
      by_cases hx : x.id = b.id
      · simp [hx]
      · simp [hx]
  · show (s.port.accesses.map fun x => if x.id == b.id then b else x).map (fun x => x.id) = _
    rw [List.map_map]
    refine List.map_congr_left fun x _ => ?_
    by_cases hx : x.id = b.id
    · simp [hx]
    · simp [hx]

theorem checksOnly_dropAhead (s : State) (p : Ahead → Bool) (id : Nat) : ChecksOnly s (s.dropAhead p) id := by
  obtain ⟨v, l, h⟩ := s.dropAhead_frame p
  rw [h]
  exact ⟨⟨_, _, _, _, _, rfl⟩, fun _ => ⟨_, rfl⟩, rfl, rfl⟩

/-- What an engine's completion discards first (R358). -/
theorem State.afterEngine_checks (s : State) (a : Access) : ∃ l, (s.afterEngine a).2 = { a with hist := l } ∧ ChecksOnly s (s.afterEngine a).1 a.id := by
  unfold State.afterEngine
  split
  · exact ⟨_, rfl, (checksOnly_dropAhead s _ a.id).trans (checksOnly_setAccess _ { a with hist := a.hist.filter fun i => i != fromEngine })⟩
  · exact ⟨_, rfl, .refl s a.id⟩

/-- An access that starts counts in its region alone (R388). -/
theorem State.startAccess_frame {s s1 : State} {r : Nat} {x : Nat × Nat} (h : s.startAccess r = some (s1, x)) : ∃ v, s1 = { s with cov := v } := by
  unfold State.startAccess at h
  dsimp only at h
  split at h
  · cases h
  · cases h
    exact ⟨_, rfl⟩

theorem State.viewStep_frame {s s1 : State} {part asid a va : Nat} {r : Shape} {st x : Option (Nat × Nat)}
    (h : s.viewStep part asid r a st = .ok (some (s1, x, va))) : ∃ v, s1 = { s with cov := v } := by
  unfold State.viewStep at h
  split at h
  · cases h
    exact ⟨_, rfl⟩
  · dsimp only at h
    split at h
    · cases h
      exact ⟨_, rfl⟩
    · split at h
      · cases h
      · split at h
        · split at h
          · next hs =>
            cases h
            exact State.startAccess_frame hs
          · cases h
        · cases h

/-- The page of an access, remembered (R334). -/
theorem checksOnly_useFrame (s : State) (g : Agen) (x : Option Xent) (id : Nat) : ChecksOnly s (s.useFrame g x) id := by
  unfold State.useFrame
  split
  · split
    · exact .refl s id
    · next y _ =>
      refine ⟨⟨_, _, _, _, _, rfl⟩, fun e => ?_, rfl, rfl⟩
      show ∃ x, (s.setElem g.e _).elem e = _
      rw [State.elem_setElem]
      split
      · next he =>
        rw [he]
        split
        · exact ⟨_, rfl⟩
        · exact ⟨_, rfl⟩
      · exact ⟨_, rfl⟩
  · exact .refl s id

/-! ### The ways that an access goes -/

theorem exec_portAccessPerformed {s : State} {k : Nat} {a : Access} (h : PortTakes s k a) :
    exec (.portAccessPerformed k) s = .next ((s.afterEngine a).1.perform (s.afterEngine a).2) := by
  obtain ⟨hk, hat, hheld, hsince, hopen⟩ := h
  show execPortAccessPerformed k s = _
  rw [execPortAccessPerformed, hk]
  simp [hat, hheld, hsince, hopen]

section Perform
variable {s s1 : State} {a : Access} {g : Agen} {addr va : Nat} {st : Option (Nat × Nat)}

theorem State.perform_null (h : a.null = true) : s.perform a = s.performNull a := by
  unfold State.perform
  exact if_pos h

/-- The shape that an access uses: that of its round, or the working copy (R199). -/
def accShape (s : State) (a : Access) (g : Agen) : Shape := g.snap (((s.anyRound (tagCol a.tag) a.load (tagIter a.tag)).map fun q => q.rbase).getD 0)

variable (hn : a.null = false) (hah : s.aheadFor a = none) (hg : s.agenOf a.e a.ctx a.gslot (tagCol a.tag) = some g)
  (haddr : accessAddr (accShape s a g) g.region (tagIter a.tag) a.idx = .ok addr)
  (hv : s.viewStep ((s.partOfElem a.e).getD 0) (s.colour (tagCol a.tag)).asid (accShape s a g) addr a.started = .ok (some (s1, st, va)))
include hn hah hg haddr hv

/-- An access whose address is found goes as its check says. -/
theorem State.perform_found : s.perform a =
    (let b := { a with started := st }
    let s2 := s1.setAccess b
    match s1.spaceStep g (accShape s a g) a.at_ ((s.partOfElem a.e).getD 0) (tagCol a.tag) addr va a.kind.stores a.frame with
    | .bad k ad => s2.failAccess b k ad false
    | .denied ad x => (s2.useFrame g (some x)).failAccess b cProtection ad false
    | .full => s2
    | .walk asid v =>
      if s2.port.walks.any fun w => w.who == .access a.id then s2
      else
        let xp := match s2.slotWord a.e a.ctx (shXslot (accShape s a g)) with | some w => nfld w 0 7 | none => a.at_
        { s2 with port := { s2.port with walks := s2.port.walks ++ [⟨xp, a.e, asid, v, s2.agenWrites g a.kind.stores, .access a.id, s2.cycle + 1⟩] } }
    | .ok ad pa key x => (s2.useFrame g x).performAt b ad pa key x) := by
  unfold State.perform
  unfold accShape at haddr hv
  dsimp only
  rw [if_neg (Bool.eq_false_iff.mp hn), hg, hah]
  dsimp only
  rw [haddr]
  dsimp only
  rw [hv]
  rfl

omit hn hah hg haddr in
theorem checksOnly_found : ChecksOnly s (s1.setAccess { a with started := st }) a.id := by
  obtain ⟨v, rfl⟩ := State.viewStep_frame hv
  exact (checksOnly_of_cov v).trans (checksOnly_setAccess _ { a with started := st })

end Perform

/-! ### Faults of accesses (R200, R262) -/

/-- A page asked for lies with the host. -/
theorem State.pageRequest_frame (s : State) (p q va : Nat) : ∃ v, s.pageRequest p q va = { s with host := v } := by
  unfold State.pageRequest
  split
  · exact ⟨_, rfl⟩
  · exact ⟨_, rfl⟩

theorem State.askHost_frame (s : State) (a : Access) (code addr : Nat) : ∃ v, s.askHost a code addr = { s with host := v } := by
  unfold State.askHost
  dsimp only
  split_ifs
  · exact s.pageRequest_frame ..
  · exact ⟨_, rfl⟩

theorem State.inflDown_colours (s : State) (c n : Nat) : ∃ cs, s.inflDown c n = { s with colours := cs } := by
  obtain h | ⟨v, h⟩ := s.inflDown_frame c n
  · exact ⟨_, h⟩
  · exact ⟨_, h⟩

/-- What the fault of an access says of it (Table 7.8). -/
def FaultOf (a : Access) (code addr : Nat) (ra : Bool) (i : FaultInfo) : Prop :=
  i.code = code ∧ i.addr = addr ∧ i.slot = a.slot ∧ i.agslot = a.gslot ∧ i.pnum = (if a.kind.view then 0x7F else a.at_) ∧ i.e = a.e ∧ i.tag = a.tag ∧
    i.sb = a.sb ∧ i.acc = a.kind.acc ∧ i.ra = ra ∧ i.reason = wOpc a.word

/-- The fault of an access, with POS (R345). -/
def State.accessFault (s : State) (a : Access) (code addr : Nat) (ra : Bool) : FaultInfo := { faultInfo0 with
  code := code, reason := wOpc a.word, addr := addr, pos := if a.kind.view then 0 else s.posAt a.e a.ctx a.gslot a.tag a.load, slot := a.slot,
  agslot := a.gslot, pnum := if a.kind.view then 0x7F else a.at_, e := a.e, tag := a.tag, sb := a.sb, acc := a.kind.acc, ra := ra }

theorem State.accessFault_of (s : State) (a : Access) (code addr : Nat) (ra : Bool) : FaultOf a code addr ra (s.accessFault a code addr ra) :=
  ⟨rfl, rfl, rfl, rfl, rfl, rfl, rfl, rfl, rfl, rfl, rfl⟩

/-- A fault of an access: the access ends, its operand tokens lie parked, and the fault names its address, node and port. -/
theorem State.failAccess_eq (s : State) (a : Access) (code addr : Nat) (ra : Bool) : ∃ (v : Cov) (cs : Tbl Colour) (hs : HostSide),
    s.failAccess a code addr ra = State.raiseFault { s with
      cov := v, colours := cs, host := hs, fab := { s.fab with tokens := s.fab.tokens ++ recalled a.ops },
      port := { s.port with accesses := s.port.accesses.filter fun b => b.id != a.id } } (s.accessFault a code addr ra) := by
  obtain ⟨v, hend⟩ := (s.dropAccess a.id).endStarted_frame a.started
  obtain ⟨hs, hask⟩ := ((s.dropAccess a.id).endStarted a.started).askHost_frame a code addr
  obtain ⟨cs, hdown⟩ := (((s.dropAccess a.id).endStarted a.started).askHost a code addr).inflDown_colours (tagCol a.tag) (a.outs - (recalled a.ops).length)
  refine ⟨v, cs, hs, ?_⟩
  unfold State.failAccess
  dsimp only
  rw [hdown, hask, hend]
  rfl

/-- A fault leaves memory, the threads and the accesses. -/
theorem State.raiseFault_rest (s : State) (i : FaultInfo) : (s.raiseFault i).mem = s.mem ∧ (s.raiseFault i).stew = s.stew ∧ (s.raiseFault i).port = s.port ∧
    (s.raiseFault i).fab.units = s.fab.units ∧ (s.raiseFault i).fab.elems = s.fab.elems := by
  obtain ⟨_, _, _, _, h⟩ := s.raiseFault_frame i
  rw [h]
  exact ⟨rfl, rfl, rfl, rfl, rfl⟩

/-- An access that fails after its checks is gone, its operand tokens lie parked, and its fault is raised. -/
theorem ChecksOnly.failAccess {s t : State} {a b : Access} (h : ChecksOnly s t a.id) (hb : b = { a with started := b.started, hist := b.hist })
    (code addr : Nat) : ∃ (s2 : State) (i : FaultInfo), t.failAccess b code addr false = s2.raiseFault i ∧ FaultOf a code addr false i ∧
      s2.fab.tokens = s.fab.tokens ++ recalled a.ops ∧ s2.fab.rounds = s.fab.rounds ∧
      s2.port.accesses = (s.port.accesses.filter fun b => b.id != a.id) ∧ s2.mem = s.mem ∧ s2.stew = s.stew ∧ s2.port.stores = s.port.stores := by
  obtain ⟨v, cs, hs, heq⟩ := t.failAccess_eq b code addr false
  have hi := t.accessFault_of b code addr false
  obtain ⟨hmem, hstew, htok, hrounds, hstores, -, -⟩ := h.rest
  have hid : b.id = a.id := by rw [hb]
  have hops : b.ops = a.ops := by rw [hb]
  refine ⟨_, _, heq, ?_, ?_, hrounds, ?_, hmem, hstew, hstores⟩
  · generalize t.accessFault b code addr false = i at hi ⊢
    rw [hb] at hi
    exact hi
  · rw [← htok, ← hops]
  · rw [← h.others, ← hid]

end Sys2Proof.Machine
end

section
/-! SUPPORT. O33, concluded: addresses, checks, and the faults of failed checks. -/

namespace Sys2Proof.Machine

open Sys2Proof.Claims

/-- An access that a port takes: the state and the access once an engine's completion has discarded what had been read ahead. -/
theorem PortTakes.begins {s : State} {k : Nat} {a : Access} (h : PortTakes s k a) : ∃ (c : State) (l : List Nat),
    s.afterEngine a = (c, { a with hist := l }) ∧ ChecksOnly s c a.id ∧ exec (.portAccessPerformed k) s = .next (c.perform { a with hist := l }) := by
  obtain ⟨l, h2, hc⟩ := s.afterEngine_checks a
  refine ⟨(s.afterEngine a).1, l, Prod.ext rfl h2, hc, ?_⟩
  rw [exec_portAccessPerformed h, h2]

section
variable {s s' : State} {id : Nat} (h : ChecksOnly s s' id)
include h

theorem ChecksOnly.partOfElem (e : Nat) : s'.partOfElem e = s.partOfElem e := by
  obtain ⟨-, -, -, -, -, -, hparts⟩ := h.rest
  simp only [State.partOfElem, hparts]

theorem ChecksOnly.colour (c : Nat) : s'.colour c = s.colour c := by
  obtain ⟨-, -, -, -, -, hcols, -⟩ := h.rest
  simp only [State.colour, hcols]

end

theorem accessAddressesAndChecks : AccessAddressesAndChecks := by
  refine ⟨?_, ?_, fun r g it idx hc => accessAddr_random hc g it idx, fun s s1 k a g addr va code ad st hk => ?_, ?_⟩
  · intro r start it0 it idx ds hc hlen hds base q horner hq
    obtain ⟨x, ds, rfl⟩ : ∃ x l, ds = x :: l := List.exists_cons_of_length_pos (by rw [hlen]; exact Nat.succ_pos _)
    have hoff := streamOff_posOf r x ds 0 0 fun i hi => by
      rw [Nat.zero_add]
      exact hds i (hlen ▸ hi)
    rw [zero_add, hlen] at hoff
    rw [accessAddr_stream hc, show (start + age it0 it) % 2 ^ 32 = posOf r (x :: ds) 0 from hq, hoff]
    rfl
  · intro r start it0 it idx hc hE hq
    have hdim : shNdim r = nfld r 66 2 + 1 := rfl
    rw [accessAddr_stream hc, hdim, streamOff_beyond r _ 0 _ 0 (fun i hi => by rw [Nat.zero_add]; exact hE i hi)
      (by rw [← List.range_eq_range']; exact hq)]
    rfl
  · obtain ⟨c, l, hafter, hchk, hex⟩ := PortTakes.begins hk
    rw [hafter]
    intro c' r part hnull hah hg haddr hv check hcheck
    have hv' : c.viewStep ((c.partOfElem a.e).getD 0) (c.colour (tagCol a.tag)).asid (accShape c { a with hist := l } g) addr a.started =
        .ok (some (s1, st, va)) := by
      rw [hchk.partOfElem, hchk.colour]
      exact hv
    have hfound := State.perform_found (a := { a with hist := l }) hnull hah hg haddr hv'
    have hready : ChecksOnly s (s1.setAccess { a with hist := l, started := st }) a.id := hchk.trans (checksOnly_found (a := { a with hist := l }) hv')
    rw [hchk.partOfElem] at hfound
    have hfails : ∃ t : State, ChecksOnly s t a.id ∧ c.perform { a with hist := l } = t.failAccess { a with hist := l, started := st } code ad false := by
      obtain hbad | ⟨rfl, x, hden⟩ := hcheck
      · refine ⟨_, hready, ?_⟩
        rw [hfound, show s1.spaceStep g (accShape c { a with hist := l } g) a.at_ ((s.partOfElem a.e).getD 0) (tagCol a.tag) addr va a.kind.stores a.frame = _ from hbad]
      · refine ⟨_, hready.trans (checksOnly_useFrame _ g (some x) a.id), ?_⟩
        rw [hfound, show s1.spaceStep g (accShape c { a with hist := l } g) a.at_ ((s.partOfElem a.e).getD 0) (tagCol a.tag) addr va a.kind.stores a.frame = _ from hden]
        rfl
    obtain ⟨t, ht, hperf⟩ := hfails
    obtain ⟨s2, i, hraise, ⟨hcode, haddr', hslot, hag, -, he, htag, hsb, hacc, hra, hreason⟩, htok, -, haccs, hmem, hstew, -⟩ :=
      ht.failAccess (b := { a with hist := l, started := st }) rfl code ad
    obtain ⟨hm, hs, -⟩ := s2.raiseFault_rest i
    refine ⟨_, hex, s2, i, hperf.trans hraise, hcode, haddr', hslot, hag, he, htag, hsb, hacc, hra, hreason, htok, haccs, ?_, ?_⟩
    · rw [hperf, hraise, hm, hmem]
    · rw [hperf, hraise, hs, hstew]
  · intro s g r p part col a va write x check c hx
    refine ⟨fun ha => State.spaceStep_misaligned ha, fun ha => ⟨fun hp => State.spaceStep_config ha hp, fun hp hva => State.spaceStep_far ha hp hva,
      fun hp hva => State.spaceStep_peer ha hp hva, fun hp hva hw => State.spaceStep_window ha hp hva hw, fun hp hva => ?_⟩⟩
    have hpage := State.spaceStep_page (s := s) (g := g) (r := r) (p := p) (part := part) (col := col) (write := write) ha hp hva hx
    refine ⟨fun hcv => ?_, fun hcv hwr hx' => ?_, fun hcv hwr => ?_⟩
    · exact hpage.trans (if_pos (by simpa using hcv))
    · exact hpage.trans (by simp [hcv, hwr, hx'])
    · refine hpage.trans ?_
      rw [if_neg (by simp [hcv]), if_neg (by simpa using hwr)]
      rfl

end Sys2Proof.Machine

namespace Sys2Proof

/-- Settles O33: the working copies, the nodes that use them, and the address and checks of an access, each by the cases of its model function. -/
theorem accessNodes : Obligations.AccessNodes :=
  ⟨Machine.workingCopies, Machine.agenAndParam, Machine.accessNodesReachTheirPort, Machine.accessAddressesAndChecks⟩

end Sys2Proof
end

section
/-! SUPPORT. O34: loads, stores and updates that a port performs (06 R204 to R207, 11 R343, R352, R358). -/

namespace Sys2Proof.Machine

open Sys2Proof.Claims

/-! ### What the checks leave to a datum -/

section
variable {s s' : State} {id : Nat} (h : ChecksOnly s s' id)
include h

theorem ChecksOnly.regExists (e c n : Nat) : Machine.regExists (s'.ctx e c).partwd n = Machine.regExists (s.ctx e c).partwd n := by
  rw [State.ctx, State.ctx, h.ctxs]

theorem ChecksOnly.kreg (e c n : Nat) : s'.kreg e c n = s.kreg e c n := by
  obtain ⟨_, hx⟩ := h.elems e
  rw [State.kreg, State.kreg, State.ctx, State.ctx, hx]
  rfl

theorem ChecksOnly.cfgRead (pa : Nat) : s'.cfgRead pa = s.cfgRead pa := by
  have hreg (e : Nat) : (s'.elem e).elatch = (s.elem e).elatch ∧ (s'.elem e).retcnt = (s.elem e).retcnt := by
    obtain ⟨_, hx⟩ := h.elems e
    rw [hx]
    exact ⟨rfl, rfl⟩
  obtain ⟨hmem, -⟩ := h.rest
  unfold State.cfgRead
  split
  · rw [(hreg _).1]
  · rw [(hreg _).2]
  · rw [hmem]
  · rw [h.regExists, h.kreg]
  · rfl

theorem ChecksOnly.cfgWrite (pa : Nat) (v : Word) : (s'.cfgWrite pa v).isSome = (s.cfgWrite pa v).isSome := by
  unfold State.cfgWrite
  split
  · rfl
  · rfl
  · rfl
  · rw [h.regExists]
    split
    · rfl
    · rfl
  · rfl

theorem ChecksOnly.readDatum (hist : List Nat) (p key pa n : Nat) : s'.readDatum hist p key pa n = s.readDatum hist p key pa n := by
  obtain ⟨hmem, -, -, -, hstores, -⟩ := h.rest
  have hread : s'.spaceRead p key pa n = s.spaceRead p key pa n := by simp only [State.spaceRead, hmem, h.cfgRead]
  have hbad : s'.spaceBad p pa n = s.spaceBad p pa n := by simp only [State.spaceBad, hmem, h.cfgRead]
  simp only [State.readDatum, State.seen, hread, hbad, hmem, hstores]

theorem ChecksOnly.roundOf (c : Nat) (l : Word) (i : Nat) : s'.roundOf c l i = s.roundOf c l i := by
  obtain ⟨-, -, -, hrounds, -⟩ := h.rest
  simp only [State.roundOf, hrounds]

theorem ChecksOnly.entryFor (p : Nat) (r : Round) (line : Nat) (rel : Bool) : s'.entryFor p r line rel = s.entryFor p r line rel := by
  obtain ⟨-, -, -, -, hstores, -⟩ := h.rest
  simp only [State.entryFor, hstores]

theorem ChecksOnly.lineHeld (a : Access) (pa : Nat) : s'.lineHeld a pa = s.lineHeld a pa := by
  obtain ⟨-, -, -, -, hstores, -⟩ := h.rest
  simp only [State.lineHeld, hstores]

end

/-! ### What performing leaves -/

/-- The second state differs from the first at most in what performing an access changes besides tokens and stores: what its checks change, the
books of its round and colour, and the port's heat counts. -/
structure ServesOnly (s s' : State) (id : Nat) : Prop where
  frame : ∃ v cs ht es rs l gs acs, s' = { s with
    cov := v, colours := cs, mem := { s.mem with heat := ht }, fab := { s.fab with elems := es, rounds := rs },
    port := { s.port with ahead := l, agens := gs, accesses := acs } }
  ctxs : ∀ e, (s'.elem e).ctxs = (s.elem e).ctxs
  others : (s'.port.accesses.filter fun b => b.id != id) = s.port.accesses.filter fun b => b.id != id

theorem ServesOnly.refl (s : State) (id : Nat) : ServesOnly s s id := ⟨⟨_, _, _, _, _, _, _, _, rfl⟩, fun _ => rfl, rfl⟩

theorem ServesOnly.trans {s t u : State} {id : Nat} (h : ServesOnly s t id) (k : ServesOnly t u id) : ServesOnly s u id := by
  refine ⟨?_, fun e => (k.ctxs e).trans (h.ctxs e), k.others.trans h.others⟩
  obtain ⟨_, _, _, _, _, _, _, _, rfl⟩ := h.frame
  obtain ⟨_, _, _, _, _, _, _, _, rfl⟩ := k.frame
  exact ⟨_, _, _, _, _, _, _, _, rfl⟩

theorem ChecksOnly.serves {s s' : State} {id : Nat} (h : ChecksOnly s s' id) : ServesOnly s s' id := by
  refine ⟨?_, h.ctxs, h.others⟩
  obtain ⟨_, _, _, _, _, rfl⟩ := h.frame
  exact ⟨_, _, _, _, _, _, _, _, rfl⟩

section
variable {s s' : State} {id : Nat} (h : ServesOnly s s' id)
include h

theorem ServesOnly.ways : SameWays s s' := by
  have hc := h.ctxs
  obtain ⟨_, _, _, _, _, _, _, _, rfl⟩ := h.frame
  exact sameWays_of_ctxs rfl rfl rfl hc

theorem ServesOnly.rest : s'.mem.mem = s.mem.mem ∧ s'.mem.host = s.mem.host ∧ s'.mem.peer = s.mem.peer ∧ s'.stew = s.stew ∧
    s'.fab.tokens = s.fab.tokens ∧ s'.port.stores = s.port.stores := by
  obtain ⟨_, _, _, _, _, _, _, _, rfl⟩ := h.frame
  exact ⟨rfl, rfl, rfl, rfl, rfl, rfl⟩

/-- What a port reads under a key depends on bytes and keys alone. -/
theorem ServesOnly.read1 (key b : Nat) : s'.mem.read1 key b = s.mem.read1 key b := by
  obtain ⟨_, _, _, _, _, _, _, _, rfl⟩ := h.frame
  rfl

end

theorem servesOnly_endStarted (s : State) (x : Option (Nat × Nat)) (id : Nat) : ServesOnly s (s.endStarted x) id := by
  obtain ⟨v, h⟩ := s.endStarted_frame x
  rw [h]
  exact (checksOnly_of_cov v).serves

theorem State.countAccess_frame (s : State) (a : Access) : ∃ rs, s.countAccess a = { s with fab := { s.fab with rounds := rs } } := by
  unfold State.countAccess
  split
  · split
    · exact ⟨_, rfl⟩
    · exact ⟨_, rfl⟩
  · exact ⟨_, rfl⟩

theorem State.noteGot_frame (s : State) (a : Access) : ∃ gs, s.noteGot a = { s with port := { s.port with agens := gs } } := by
  unfold State.noteGot
  split
  · split
    · exact ⟨_, rfl⟩
    · exact ⟨_, rfl⟩
  · exact ⟨_, rfl⟩

theorem State.heatUp_frame (s : State) (p pa deliv starve : Nat) : ∃ ht, s.heatUp p pa deliv starve = { s with mem := { s.mem with heat := ht } } := by
  unfold State.heatUp
  split
  · exact ⟨_, rfl⟩
  · exact ⟨_, rfl⟩

theorem servesOnly_countAccess (s : State) (a : Access) (id : Nat) : ServesOnly s (s.countAccess a) id := by
  obtain ⟨rs, h⟩ := s.countAccess_frame a
  rw [h]
  exact ⟨⟨_, _, _, _, _, _, _, _, rfl⟩, fun _ => rfl, rfl⟩

theorem servesOnly_noteGot (s : State) (a : Access) (id : Nat) : ServesOnly s (s.noteGot a) id := by
  obtain ⟨gs, h⟩ := s.noteGot_frame a
  rw [h]
  exact ⟨⟨_, _, _, _, _, _, _, _, rfl⟩, fun _ => rfl, rfl⟩

theorem servesOnly_heatUp (s : State) (p pa deliv starve id : Nat) : ServesOnly s (s.heatUp p pa deliv starve) id := by
  obtain ⟨ht, h⟩ := s.heatUp_frame p pa deliv starve
  rw [h]
  exact ⟨⟨_, _, _, _, _, _, _, _, rfl⟩, fun _ => rfl, rfl⟩

theorem servesOnly_inflDown (s : State) (c n id : Nat) : ServesOnly s (s.inflDown c n) id := by
  obtain ⟨cs, h⟩ := s.inflDown_colours c n
  rw [h]
  exact ⟨⟨_, _, _, _, _, _, _, _, rfl⟩, fun _ => rfl, rfl⟩

theorem servesOnly_dropAccess (s : State) (id : Nat) : ServesOnly s (s.dropAccess id) id := by
  refine ⟨⟨_, _, _, _, _, _, _, _, rfl⟩, fun _ => rfl, ?_⟩
  show ((s.port.accesses.filter _).filter _) = _
  rw [List.filter_filter]
  simp

theorem servesOnly_capture (s : State) (e : Nat) (tag : Word) (slot : Nat) (bits : BitVec 8) (id : Nat) :
    ServesOnly s (s.setElem e ((s.elem e).capture s.cycle tag slot bits)) id :=
  ⟨⟨_, _, _, _, _, _, _, _, rfl⟩, s.ctxs_setElem e _ rfl, rfl⟩

/-- The results of a performed access leave its port, and the access is gone (R193, R195). -/
theorem State.reply_sent (s : State) {a : Access} (hv : a.kind.view = false) (res : Out) (hist : List Nat) : ∃ t : State,
    ServesOnly s t a.id ∧ t.port.accesses = (s.port.accesses.filter fun b => b.id != a.id) ∧
    s.reply a res hist = t.setTokens (s.fab.tokens ++
      sent s (some a.at_) a.e a.ctx 1 (accessOuts a.word res (a.chain.map fun b => chainOut a.tag b hist))) := by
  generalize hs1 : (s.dropAccess a.id).inflDown (tagCol a.tag) (a.outs - outCount (accessOuts a.word res (a.chain.map fun b => chainOut a.tag b hist))) = s1
  have hdown : ServesOnly s s1 a.id := hs1 ▸ (servesOnly_dropAccess s a.id).trans (servesOnly_inflDown ..)
  have haccs : s1.port.accesses = s.port.accesses.filter fun b => b.id != a.id := by
    obtain ⟨cs, h⟩ := (s.dropAccess a.id).inflDown_colours (tagCol a.tag)
      (a.outs - outCount (accessOuts a.word res (a.chain.map fun b => chainOut a.tag b hist)))
    rw [← hs1, h]
    rfl
  obtain ⟨t, ht, htaccs, hrep⟩ : ∃ t : State, ServesOnly s t a.id ∧ t.port.accesses = s1.port.accesses ∧
      s.reply a res hist = t.sendFrom (some a.at_) a.e a.ctx 1 (accessOuts a.word res (a.chain.map fun b => chainOut a.tag b hist)) := by
    unfold State.reply
    dsimp only
    rw [hs1, hv]
    split
    · exact ⟨_, hdown.trans (servesOnly_capture s1 a.e a.tag a.slot res.sb a.id), rfl, rfl⟩
    · exact ⟨_, hdown, rfl, rfl⟩
  obtain ⟨-, -, -, -, htok, -⟩ := ht.rest
  exact ⟨t, ht, htaccs.trans haccs, by rw [hrep, State.sendFrom_sent, ht.ways.sent, htok]⟩

/-- What a delivered datum leaves (R204). -/
theorem State.deliver_sent (s : State) {a : Access} (hv : a.kind.view = false) (v : Nat) (sb : BitVec 8) (pa : Nat) : ∃ t : State,
    ServesOnly s t a.id ∧ t.port.accesses = (s.port.accesses.filter fun b => b.id != a.id) ∧
    s.deliver a v sb pa = t.setTokens (s.fab.tokens ++ sent s (some a.at_) a.e a.ctx 1 (accessOuts a.word
      ⟨0, a.sb ||| sb, .scalar, tyExtend (wTy a.word) v, none, a.tag, []⟩ (a.chain.map fun b => chainOut a.tag b a.hist))) := by
  obtain ⟨t, ht, hdel⟩ : ∃ t : State, ServesOnly s t a.id ∧
      s.deliver a v sb pa = t.reply a ⟨0, a.sb ||| sb, .scalar, tyExtend (wTy a.word) v, none, a.tag, []⟩ a.hist := by
    have hbooks : ServesOnly s ((((s.endStarted a.started).countAccess a).heatUp a.at_ pa 1 0).noteGot a) a.id :=
      (servesOnly_endStarted ..).trans ((servesOnly_countAccess ..).trans ((servesOnly_heatUp ..).trans (servesOnly_noteGot ..)))
    unfold State.deliver
    dsimp only
    split
    · exact ⟨_, hbooks.trans (checksOnly_dropAhead ..).serves, rfl⟩
    · exact ⟨_, hbooks, rfl⟩
  obtain ⟨u, hu, haccs, hrep⟩ := t.reply_sent hv ⟨0, a.sb ||| sb, .scalar, tyExtend (wTy a.word) v, none, a.tag, []⟩ a.hist
  obtain ⟨-, -, -, -, htok, -⟩ := ht.rest
  exact ⟨u, ht.trans hu, haccs.trans ht.others, by rw [hdel, hrep, ht.ways.sent, htok]⟩

/-! ### Checked accesses -/

/-- A checked access is performed in a state that its checks alone have changed. -/
theorem PortTakes.checked {s s1 : State} {k : Nat} {a : Access} {ad pa key : Nat} {x : Option Xent} (h : PortTakes s k a)
    (hc : Checked (s.afterEngine a).1 s1 (s.afterEngine a).2 ad pa key x) : ∃ (t : State) (b : Access),
    b = { a with started := b.started, hist := (s.afterEngine a).2.hist } ∧ ChecksOnly s t a.id ∧
    exec (.portAccessPerformed k) s = .next (t.performAt b ad pa key x) := by
  obtain ⟨c, l, hafter, hchk, hex⟩ := PortTakes.begins h
  rw [hafter] at hc ⊢
  obtain ⟨hnull, hah, g, addr, va, st, hg, haddr, hv, hspace⟩ := hc
  have hfound := State.perform_found hnull hah hg haddr hv
  rw [show s1.spaceStep g (accShape c { a with hist := l } g) a.at_ ((c.partOfElem a.e).getD 0) (tagCol a.tag) addr va a.kind.stores a.frame = _ from hspace] at hfound
  exact ⟨_, _, rfl, (hchk.trans (checksOnly_found (a := { a with hist := l }) hv)).trans (checksOnly_useFrame _ g x a.id), hex.trans (by rw [hfound])⟩

theorem not_refused {α : Type} {o : Option α} {p : Prop} (h : p → o.isSome = true) : ¬(p ∧ o.isNone = true) := by
  rintro ⟨hp, hn⟩
  have hsome := h hp
  rw [Option.isNone_iff_eq_none.mp hn] at hsome
  cases hsome

/-- A write under a key slot changes bytes, key slots and poison. -/
theorem Mem.write_frame (m : Mem) (key a : Nat) (l : List Byte) : ∃ mm ks ps, m.write key a l = { m with mem := mm, keys := ks, poison := ps } := by
  induction l generalizing m a with
  | nil => exact ⟨_, _, _, rfl⟩
  | cons v l ih =>
    have h1 : ∃ mm ks ps, m.write1 key a v = { m with mem := mm, keys := ks, poison := ps } := by
      unfold Mem.write1 Mem.rekey
      dsimp only
      split
      · exact ⟨_, _, _, rfl⟩
      · exact ⟨_, _, _, rfl⟩
    obtain ⟨_, _, _, h⟩ := ih (m.write1 key a v) (a + 1)
    obtain ⟨_, _, _, h1⟩ := h1
    rw [Mem.write, h, h1]
    exact ⟨_, _, _, rfl⟩

section
variable {t : State} {b : Access} {ad pa key : Nat} {x : Option Xent}

/-- A load as its port performs it. -/
theorem State.performAt_load (hk : b.kind = .lds ∨ b.kind = .ldr ∨ b.kind = .acqld) (hcfg : spaceOf b.at_ = .config → (t.cfgRead pa).isSome = true) :
    t.performAt b ad pa key x = (let r := t.readDatum b.hist b.at_ key pa (accSize b)
      if r.2.2 then t.failAccess b cPoison ad false else t.deliver b r.1 r.2.1 pa) := by
  have hok := not_refused hcfg
  unfold State.performAt
  obtain h | h | h := hk
  · rw [h]
    exact if_neg hok
  · rw [h]
    exact if_neg hok
  · rw [h]
    exact if_neg hok

/-- A store as its port performs it. -/
theorem State.performAt_store (hk : b.kind = .sts ∨ b.kind = .str ∨ b.kind = .relst) (hcfg : spaceOf b.at_ = .config → (t.cfgWrite pa 0).isSome = true) :
    t.performAt b ad pa key x = t.enter b pa ad key x (bvBytes b.dat (accSize b)) 0 none := by
  have hok := not_refused hcfg
  unfold State.performAt
  obtain h | h | h := hk
  · rw [h]
    exact if_neg hok
  · rw [h]
    exact if_neg hok
  · rw [h]
    exact if_neg hok

/-- An update as its port performs it. -/
theorem State.performAt_update {fn : Nat} (hk : b.kind = .upd fn) (hcfg : spaceOf b.at_ = .config → (t.cfgWrite pa 0).isSome = true) :
    t.performAt b ad pa key x = (if t.lineHeld b pa then t.setAccess { b with held := true }
      else let r := t.readDatum b.hist b.at_ key pa (accSize b)
        if r.2.2 then t.failAccess b cPoison ad false
        else t.enter b pa ad key x (toBytes (updNew b.word r.1 b.dat).1 (accSize b)) (updNew b.word r.1 b.dat).2 (some (tyExtend (wTy b.word) r.1))) := by
  have hok := not_refused hcfg
  unfold State.performAt
  rw [hk]
  dsimp only
  rw [if_neg hok]
  rfl

/-- What a store or an update answers with. -/
def entryOut (b : Access) (sb : BitVec 8) (old : Option Word) : Out :=
  match old with
  | some v => ⟨0, b.sb ||| sb, .scalar, v, none, b.tag, []⟩
  | none => ⟨0, b.sb, .scalar, 0, none, b.tag, []⟩

/-- The entry of the store buffer that a store or an update makes (R343). -/
def State.entryStore (t : State) (b : Access) (r : Round) (m pa ad key : Nat) (x : Option Xent) (data : List Byte) (sb : BitVec 8) : Store :=
  ⟨b.id, b.at_, tagCol b.tag, b.ctx, b.load, r.rbase, m, ad, (t.colour (tagCol b.tag)).asid, x, pa, data, sbExc (b.dsb ||| sb), b.kind == .relst, false,
    r.voided, false, b.started, key, b.e, b.slot, b.gslot, b.tag, tagIter b.tag, (match b.kind with | .upd _ => some (b.dat, b.word) | _ => none), b.hist,
    false, false⟩

/-- The state with a store at the end of the buffers. -/
def State.buffered (t : State) (st : Store) : State := { t with port := { t.port with stores := t.port.stores ++ [st] } }

/-- A buffered access is counted in its round, and an update discards what had been read ahead (R341, R355). -/
def State.bookEntry (t : State) (b : Access) (r : Round) : State :=
  let c := if r.voided then t else t.countAccess b
  match b.kind with
  | .upd _ => c.discardAhead (tagCol b.tag) b.ctx b.e 2
  | _ => c

theorem servesOnly_bookEntry (t : State) (b : Access) (r : Round) (id : Nat) : ServesOnly t (t.bookEntry b r) id := by
  have hcount : ServesOnly t (if r.voided then t else t.countAccess b) id := by
    split
    · exact .refl t id
    · exact servesOnly_countAccess t b id
  unfold State.bookEntry
  dsimp only
  split
  · exact hcount.trans (checksOnly_dropAhead ..).serves
  · exact hcount

/-- A store or an update of an open round with room enters the buffer, and its tokens leave (R343). -/
theorem State.enter_buffered {r : Round} (hv : b.kind.view = false) (hr : t.roundOf (tagCol b.tag) b.load (tagIter b.tag) = some r)
    (hroom : r.voided = true ∨ ∃ m, t.entryFor b.at_ r (pa / 64) (b.kind == .relst) = some m ∧ m < 1024)
    (data : List Byte) (sb : BitVec 8) (old : Option Word) : ∃ (st : Store) (u : State), Buffered b r pa data st ∧ ServesOnly (t.buffered st) u b.id ∧
      u.port.accesses = (t.port.accesses.filter fun c => c.id != b.id) ∧
      t.enter b pa ad key x data sb old = u.setTokens (t.fab.tokens ++ sent t (some b.at_) b.e b.ctx 1
        (accessOuts b.word (entryOut b sb old) (b.chain.map fun c => chainOut b.tag c (b.hist ++ [b.id])))) := by
  obtain ⟨m, hm, hlt⟩ : ∃ m, (if r.voided then some 0 else t.entryFor b.at_ r (pa / 64) (b.kind == .relst)) = some m ∧ (m < 1024 ∨ r.voided = true) := by
    obtain h | ⟨m, hm, hlt⟩ := hroom
    · exact ⟨0, if_pos h, .inr h⟩
    · split
      · next h => exact ⟨0, rfl, .inr h⟩
      · exact ⟨m, hm, .inl hlt⟩
  have hin : ¬(1024 ≤ m ∧ (!r.voided) = true) := fun ⟨h1, h2⟩ => by
    obtain h | h := hlt
    · omega
    · simp [h] at h2
  have hbook := servesOnly_bookEntry (t.buffered (t.entryStore b r m pa ad key x data sb)) b r b.id
  obtain ⟨u, hu, haccs, hrep⟩ := ((t.buffered (t.entryStore b r m pa ad key x data sb)).bookEntry b r).reply_sent hv (entryOut b sb old) (b.hist ++ [b.id])
  obtain ⟨-, -, -, -, htok, -⟩ := hbook.rest
  have hways : SameWays t (t.buffered (t.entryStore b r m pa ad key x data sb)) := ⟨rfl, rfl, rfl, fun _ _ => rfl⟩
  refine ⟨t.entryStore b r m pa ad key x data sb, u, ⟨rfl, rfl, rfl, rfl, rfl, rfl, rfl, rfl, rfl, rfl⟩, hbook.trans hu, haccs.trans hbook.others, ?_⟩
  rw [(hways.trans hbook.ways).sent, htok] at hrep
  refine Eq.trans ?_ hrep
  unfold State.enter
  dsimp only
  rw [hr]
  dsimp only
  rw [hm]
  exact if_neg hin

/-- A store of an iteration whose round is no longer open is written at once (log entry 27). -/
theorem State.enter_written (hv : b.kind.view = false) (hr : t.roundOf (tagCol b.tag) b.load (tagIter b.tag) = none) (hg : spaceOf b.at_ = .global)
    (data : List Byte) (sb : BitVec 8) (old : Option Word) : ∃ u : State,
      (∀ k c, u.mem.read1 k c = (t.mem.write key pa data).read1 k c) ∧ u.stew = t.stew ∧
      u.port.accesses = (t.port.accesses.filter fun c => c.id != b.id) ∧
      t.enter b pa ad key x data sb old = u.setTokens (t.fab.tokens ++ sent t (some b.at_) b.e b.ctx 1
        (accessOuts b.word (entryOut b sb old) (b.chain.map fun c => chainOut b.tag c b.hist))) := by
  have hwritten := State.spaceWrite_global (s := t) hg key pa data (sbExc (b.dsb ||| sb))
  have hframe : ∃ m v l, t.spaceWrite b.at_ key pa data (sbExc (b.dsb ||| sb)) = { t with mem := m, cov := v, port := { t.port with ahead := l } } ∧
      m.fuse = t.mem.fuse := by
    rw [State.spaceWrite, hg]
    dsimp only
    obtain ⟨v, l, hd⟩ := State.dropWritten_frame
      (t.setMem { (t.mem.write key pa data).clearSb pa data.length with
        sbits := tset 0 ((t.mem.write key pa data).clearSb pa data.length).sbits pa (sbExc (sbExc (b.dsb ||| sb))) }) pa data.length
    obtain ⟨_, _, _, hm⟩ := t.mem.write_frame key pa data
    rw [hd, hm]
    exact ⟨_, _, _, rfl, rfl⟩
  obtain ⟨m, v, l, hw, hfuse⟩ := hframe
  rw [hw] at hwritten
  have hways : SameWays t { t with mem := m, cov := v, port := { t.port with ahead := l } } := ⟨rfl, rfl, hfuse, fun _ _ => rfl⟩
  have hend := servesOnly_endStarted { t with mem := m, cov := v, port := { t.port with ahead := l } } b.started b.id
  obtain ⟨u, hu, haccs, hrep⟩ := (State.endStarted { t with mem := m, cov := v, port := { t.port with ahead := l } } b.started).reply_sent hv (entryOut b sb old) b.hist
  obtain ⟨-, -, -, hstew, -, -⟩ := (hend.trans hu).rest
  obtain ⟨-, -, -, -, htok, -⟩ := hend.rest
  refine ⟨u, fun k c => ((hend.trans hu).read1 k c).trans (hwritten k c), hstew, haccs.trans hend.others, ?_⟩
  rw [(hways.trans hend.ways).sent, htok] at hrep
  refine Eq.trans ?_ hrep
  unfold State.enter
  dsimp only
  rw [hr]
  dsimp only
  rw [hw]
  rfl

end

/-! ### The claims -/

theorem PortTakes.null_load {s : State} {k : Nat} {a : Access} (h : PortTakes s k a) (hk : a.kind.stores = false) (hn : a.null = true) :
    Ends (.portAccessPerformed k) s fun s' => s'.port.accesses = (s.port.accesses.filter fun b => b.id != a.id) ∧
      s'.fab.tokens = s.fab.tokens ∧ s'.mem = s.mem ∧ s'.stew = s.stew := by
  obtain ⟨c, l, hafter, hchk, hex⟩ := PortTakes.begins h
  obtain ⟨rs, hcount⟩ := c.countAccess_frame { a with hist := l }
  obtain ⟨gs, hnote⟩ := (c.countAccess { a with hist := l }).noteGot_frame { a with hist := l }
  obtain ⟨v, ah, hdrop⟩ := (((c.countAccess { a with hist := l }).noteGot { a with hist := l }).dropAccess a.id).dropAhead_frame fun h => h.for_ { a with hist := l }
  obtain ⟨hmem, hstew, htok, -⟩ := hchk.rest
  have hnull : c.perform { a with hist := l } = ((((c.countAccess { a with hist := l }).noteGot { a with hist := l }).dropAccess a.id).dropAhead fun h => h.for_ { a with hist := l }) := by
    rw [State.perform_null (a := { a with hist := l }) hn, State.performNull]
    exact if_neg (by simp [hk])
  refine ⟨_, hex, ?_⟩
  rw [hnull, hdrop, hnote, hcount]
  exact ⟨hchk.others, htok, hmem, hstew⟩

theorem loadsDeliver : LoadsDeliver := by
  intro s s1 k a ad pa key x hk hkind
  have hstores : a.kind.stores = false := by obtain h | h | h := hkind <;> rw [h] <;> rfl
  have hview : a.kind.view = false := by obtain h | h | h := hkind <;> rw [h] <;> rfl
  have hacc : a.kind.acc = 0 := by obtain h | h | h := hkind <;> rw [h] <;> rfl
  refine ⟨PortTakes.null_load hk hstores, ?_⟩
  intro c hc hcfg d
  obtain ⟨t, b, hb, hchk, hex⟩ := PortTakes.checked hk hc
  have hhist : b.hist = c.2.hist := by rw [hb]
  rw [State.performAt_load (by rw [hb]; exact hkind) (by rw [hb, hchk.cfgRead]; exact hcfg)] at hex
  have hd : t.readDatum b.hist b.at_ key pa (accSize b) = d := by rw [hb, hchk.readDatum]; rfl
  dsimp only at hex
  rw [hd] at hex
  refine ⟨fun hgood => ?_, fun hbad => ?_⟩
  · rw [if_neg (by simp [hgood])] at hex
    obtain ⟨u, hu, haccs, hdel⟩ := t.deliver_sent (a := b) (by rw [hb]; exact hview) d.1 d.2.1 pa
    rw [hb] at hu
    obtain ⟨hm, hh, hp, hs, -, hst⟩ := (hchk.serves.trans hu).rest
    obtain ⟨-, -, htok, -⟩ := hchk.rest
    refine ⟨_, hex, ?_⟩
    rw [hdel]
    refine ⟨?_, ?_, hm, hh, hp, hs, hst⟩
    · show t.fab.tokens ++ _ = _
      rw [htok, hchk.ways.sent, hb]
    · refine haccs.trans ?_
      rw [hb]
      exact hchk.others
  · rw [if_pos hbad] at hex
    obtain ⟨s2, i, hfail, ⟨hcode, haddr, hslot, hag, hpnum, he, htag, hsb, hia, hra, hreason⟩, htok, hrounds, haccs, hmem, hstew, hst⟩ :=
      hchk.failAccess (b := b) (by rw [hhist]; exact hb) cPoison ad
    obtain ⟨hm, hs, hp, -⟩ := s2.raiseFault_rest i
    refine ⟨_, hex, ?_⟩
    rw [hfail]
    refine ⟨?_, ?_, ?_, ?_, ?_, ?_, s2, i, rfl, hcode, haddr, hslot, hag, ?_, he, htag, hsb, ?_, hra, hreason, htok, hrounds⟩
    · rw [hp, haccs]
    · rw [hm, hmem]
    · rw [hm, hmem]
    · rw [hm, hmem]
    · rw [hs, hstew]
    · rw [hp, hst]
    · rw [hpnum, hview]
      rfl
    · rw [hia, hacc]

theorem storesEnterTheRound : StoresEnterTheRound := by
  intro s s1 k a ad pa key x hk h hc hcfg n tokens plain gone roomFor
  obtain ⟨t, b, hb, hchk, hex⟩ := PortTakes.checked hk hc
  have hcfg' : spaceOf b.at_ = .config → (t.cfgWrite pa 0).isSome = true := by
    rw [hb, hchk.cfgWrite]
    exact hcfg
  obtain ⟨hmem, hstew, htok, -, hstores, -⟩ := hchk.rest
  have hroom (r : Round) (hr : roomFor r) : r.voided = true ∨ ∃ m, t.entryFor b.at_ r (pa / 64) (b.kind == .relst) = some m ∧ m < 1024 := by
    rw [hb, hchk.entryFor]
    exact hr
  have hround : t.roundOf (tagCol b.tag) b.load (tagIter b.tag) = s.roundOf (tagCol a.tag) a.load (tagIter a.tag) := by rw [hb, hchk.roundOf]
  have hent (hv : b.kind.view = false) (r : Round) (hr : s.roundOf (tagCol a.tag) a.load (tagIter a.tag) = some r) (hrm : roomFor r) (data : List Byte)
      (sb : BitVec 8) (old : Option Word) : ∃ s', t.enter b pa ad key x data sb old = s' ∧ ∃ st : Store,
        s'.port.stores = s.port.stores ++ [st] ∧ Buffered a r pa data st ∧ s'.fab.tokens = s.fab.tokens ++ tokens (entryOut a sb old) (h ++ [a.id]) ∧
        s'.port.accesses = gone ∧ s'.mem.mem = s.mem.mem ∧ s'.mem.host = s.mem.host ∧ s'.mem.peer = s.mem.peer ∧ s'.stew = s.stew := by
    obtain ⟨st, u, hst, hu, haccs, henter⟩ := State.enter_buffered (ad := ad) (key := key) (x := x) hv (hround.trans hr) (hroom r hrm) data sb old
    obtain ⟨hm, hh, hp, hs, -, hsts⟩ := hu.rest
    have hbuf : Buffered a r pa data st := by
      rw [hb] at hst
      exact hst
    refine ⟨_, rfl, st, ?_⟩
    rw [henter]
    refine ⟨hsts.trans (congrArg (· ++ [st]) hstores), hbuf, ?_, ?_, hm.trans (by rw [State.buffered, hmem]), hh.trans (by rw [State.buffered, hmem]),
      hp.trans (by rw [State.buffered, hmem]), hs.trans hstew⟩
    · show t.fab.tokens ++ _ = _
      rw [htok, hchk.ways.sent, hb]
      rfl
    · refine haccs.trans ?_
      rw [hb]
      exact hchk.others
  refine ⟨fun hkind => ?_, fun fn hkind => ?_⟩
  · have hview : b.kind.view = false := by
      rw [hb]
      obtain h | h | h := hkind <;> rw [h] <;> rfl
    rw [State.performAt_store (by rw [hb]; exact hkind) hcfg'] at hex
    refine ⟨fun r hr hrm => ?_, fun hr hg => ?_⟩
    · obtain ⟨s', henter, hs'⟩ := hent hview r hr hrm (bvBytes b.dat (accSize b)) 0 none
      rw [henter] at hex
      rw [hb] at hs'
      exact ⟨s', hex, hs'⟩
    · obtain ⟨u, hread, hs, haccs, henter⟩ := State.enter_written (ad := ad) (key := key) (pa := pa) (x := x) hview (hround.trans hr) (by rw [hb]; exact hg)
        (bvBytes b.dat (accSize b)) 0 none
      have hkey (c : Nat) : u.mem.read1 key c = if pa ≤ c ∧ c < pa + n then nth 0 (bvBytes a.dat n) (c - pa) else s.mem.read1 key c := by
        rw [hread, Mem.read1_write_key, length_bvBytes, hmem, hb]
        rfl
      rw [henter] at hex
      refine ⟨_, hex, ?_, fun c hc => ?_, ?_, haccs.trans ?_, hs.trans hstew⟩
      · refine eq_of_nth 0 ?_ fun i hi => ?_
        · rw [Mem.length_read, length_bvBytes]
        · rw [Mem.length_read] at hi
          rw [Mem.nth_read _ _ _ _ hi]
          exact (hkey (pa + i)).trans (by rw [if_pos (by omega), Nat.add_sub_cancel_left])
      · exact (hkey c).trans (if_neg (by omega))
      · show t.fab.tokens ++ _ = _
        rw [htok, hchk.ways.sent, hb]
        rfl
      · rw [hb]
        exact hchk.others
  · have hview : b.kind.view = false := by
      rw [hb, hkind]
      rfl
    rw [State.performAt_update (by rw [hb]; exact hkind) hcfg', show t.lineHeld b pa = s.lineHeld a pa by rw [hb, hchk.lineHeld]; rfl] at hex
    refine ⟨fun hheld => ?_, ?_⟩
    · rw [if_pos hheld] at hex
      have hin : a.id ∈ t.port.accesses.map fun c => c.id := by
        rw [hchk.ids]
        exact List.mem_map_of_mem (nth?_mem hk.1)
      obtain ⟨c, hc, hid⟩ := List.mem_map.mp hin
      refine ⟨_, hex, hmem, htok, hstores, { b with held := true }, List.mem_map.mpr ⟨c, hc, if_pos ?_⟩, by rw [hb], rfl⟩
      rw [hid, hb]
      exact beq_self_eq_true _
    · intro r hheld hr hrm d w hgood
      have hd : t.readDatum b.hist b.at_ key pa (accSize b) = d := by rw [hb, hchk.readDatum]; rfl
      have hw : updNew b.word d.1 b.dat = w := by rw [hb]
      dsimp only at hex
      rw [if_neg (by simp [hheld]), hd, hgood, if_neg (by simp), hw] at hex
      obtain ⟨s', henter, hs'⟩ := hent hview r hr hrm (toBytes w.1 (accSize b)) w.2 (some (tyExtend (wTy b.word) d.1))
      rw [henter] at hex
      rw [hb] at hs'
      exact ⟨s', hex, hs'⟩

/-! ### The values of updates (R206) -/

theorem uv_put (ty : Ty) (x : BitVec (tyBits ty)) : uv ty (put ty x) = x.toNat := by
  have h := placed_eq_put ty x.toNat
  rw [BitVec.ofNat_toNat, BitVec.setWidth_eq] at h
  rw [← h]
  exact (placed_toNat_mod ty _).trans (Nat.mod_eq_of_lt x.isLt)

theorem low_tyExtend (ty : Ty) (n : Nat) : low ty (tyExtend ty n) = BitVec.ofNat (tyBits ty) n := by
  apply BitVec.eq_of_toNat_eq
  rw [low_toNat, show tyExtend ty n = placed ty n from rfl, placed_eq_put, uv_put]

theorem updateValues : UpdateValues := by
  intro w old v hty hold fn n x y less
  have hx : low (wTy w) (tyExtend (wTy w) old) = x := low_tyExtend ..
  have hf32 : wTy w ≠ .f32 := by
    obtain h | h | h | h := hty <;> rw [h] <;> decide
  refine ⟨fun h => ?_, fun h => ?_, fun h => ?_, fun h => ?_, fun h => ?_, fun h => ?_, fun h hn => ?_⟩
  · simp only [updNew, show nfld w 116 4 = 0 from h, if_neg hf32, fnAdd_eq, quiet, uv_put, hx]
    rfl
  · simp only [updNew, show nfld w 116 4 = 1 from h, if_neg hf32, fnMin_eq, fnMinu_eq, quiet, less]
    split
    · simp only [uv_put, hx]
      rfl
    · simp only [uv_put, hx]
      rfl
  · simp only [updNew, show nfld w 116 4 = 2 from h, if_neg hf32, fnMax_eq, fnMaxu_eq, quiet, less]
    split
    · simp only [uv_put, hx]
      rfl
    · simp only [uv_put, hx]
      rfl
  · simp only [updNew, show nfld w 116 4 = 3 from h, fnOr_eq, quiet, uv_put, hx]
    rfl
  · simp only [updNew, show nfld w 116 4 = 4 from h, fnAnd_eq, quiet, uv_put, hx]
    rfl
  · simp only [updNew, show nfld w 116 4 = 5 from h, ← low_toNat]
    rfl
  · have hlt : old < 2 ^ 32 := hn ▸ hold
    have hhigh : nfld v 32 32 = v.toNat / 2 ^ 32 := Nat.mod_eq_of_lt (Nat.div_lt_of_lt_mul v.isLt)
    simp only [updNew, show nfld w 116 4 = 6 from h, Nat.mod_eq_of_lt hlt, hhigh, nfld_low]

end Sys2Proof.Machine

namespace Sys2Proof

/-- Settles O34: an access that has passed its checks is performed by its kind, and what performing changes is named once. -/
theorem loadsStoresAndUpdates : Obligations.LoadsStoresAndUpdates := ⟨Machine.loadsDeliver, Machine.storesEnterTheRound, Machine.updateValues⟩

end Sys2Proof
end

section
/-! SUPPORT. O35: OFORK, OJOIN and XLAT, the walks of page tables, and read-ahead (06 R201, R208, R209, 11 R331, R333). -/

namespace Sys2Proof.Machine

open Sys2Proof.Claims

/-! ### OFORK, OJOIN and XLAT (R208, R209) -/

/-- The bits of a joined token come from both. -/
theorem sbExc_joined (a b : BitVec 8) : sbExc (a &&& 0x7F) ||| sbExc (b &&& 0x7F) = (a ||| b) &&& 0x1F := by
  simp only [sbExc, BitVec.and_assoc, BitVec.and_or_distrib_right]
  rfl

section
variable {o : Ops} {s : State} {f : Firing} {d : Token} (h : FiresOn s f d)
include h

theorem exec_ofork : exec (.ofork o) s = .next (s.fire f o 1 (both o ⟨0, d.sb &&& 0x1F, .scalar, 0, none, f.tag, d.hist⟩) d.sb) := by
  show execOfork o s = _
  rw [execOfork, flow_firing h, Firing.p0_of_tok h.2, outBoth_eq_both]
  rfl

theorem exec_ojoin {c : Token} (hc : f.tok 1 = some c) : exec (.ojoin o) s =
    .next (s.fire f o 1 (both o ⟨0, (d.sb ||| c.sb) &&& 0x1F, .scalar, 0, none, f.tag, f.hist⟩) ((d.sb ||| c.sb) &&& 0x1F)) := by
  show execOjoin o s = _
  rw [execOjoin, flow_firing h, Firing.portVal_of_tok h.2, Firing.portVal_of_tok hc]
  dsimp only
  rw [sbExc_joined, outBoth_eq_both]

/-- The results of an XLAT with a payload. -/
def xlatOuts (o : Ops) (f : Firing) (d : Token) (v : Word) : List Out := both o ⟨0, d.sb, .scalar, v, none, f.tag, d.hist⟩

theorem exec_xlat_dead (hd : sbDead d.sb = true) : exec (.xlat o) s = .next (s.fire f o 1 (xlatOuts o f d 0) d.sb) := by
  show execXlat o s = _
  rw [execXlat, flow_firing h, Firing.p0_of_tok h.2]
  dsimp only
  rw [if_pos hd, outBoth_eq_both]
  rfl

variable (hd : sbDead d.sb = false)
include hd

theorem exec_xlat_far (hva : 2 ^ 57 ≤ d.pay.toNat) : exec (.xlat o) s = .next (s.fire f o 2 (xlatOuts o f d (failToken 3 d.pay.toNat)) d.sb) := by
  show execXlat o s = _
  rw [execXlat, flow_firing h, Firing.p0_of_tok h.2]
  dsimp only
  rw [if_neg (Bool.eq_false_iff.mp hd), if_pos hva, outBoth_eq_both]
  rfl

variable (hva : d.pay.toNat < 2 ^ 57)
include hva

theorem exec_xlat_hit {x : Xent} (hx : (s.elem f.e).lookup (s.colour (tagCol f.tag)).asid d.pay.toNat (o.imm.getLsbD 7) = some x) :
    exec (.xlat o) s = .next ((s.setElem f.e ((s.elem f.e).cache x)).fire f o 2
      (xlatOuts o f d (if x.cv then failToken 2 d.pay.toNat else frameToken x d.pay.toNat)) d.sb) := by
  show execXlat o s = _
  rw [execXlat, flow_firing h, Firing.p0_of_tok h.2]
  dsimp only
  rw [if_neg (Bool.eq_false_iff.mp hd), if_neg (Nat.not_le.mpr hva), show bit o.imm 7 = o.imm.getLsbD 7 from rfl, hx]
  dsimp only
  rw [outBoth_eq_both]
  rfl

theorem exec_xlat_miss (hx : (s.elem f.e).lookup (s.colour (tagCol f.tag)).asid d.pay.toNat (o.imm.getLsbD 7) = none) :
    Ends (.xlat o) s fun s' => s'.port.walks = s.port.walks ++ [⟨o.imm.toNat % 128, f.e, (s.colour (tagCol f.tag)).asid, d.pay.toNat, o.imm.getLsbD 7,
      .xlat (xlatOuts o f d 0), s.cycle + 2 * s.toPort f.e (o.imm.toNat % 128)⟩] ∧ s'.mem = s.mem ∧ s'.stew = s.stew ∧ s'.fab.units = s.fab.units := by
  obtain ⟨es, hl⟩ := s.latch_frame f o d.sb
  obtain ⟨es', cs, hs⟩ := (s.latch f o d.sb).settle_frame f.e (tagCol f.tag) f.count (outCount (xlatOuts o f d 0))
  have hexec : exec (.xlat o) s = .next { (s.latch f o d.sb).settle f.e (tagCol f.tag) f.count (outCount (xlatOuts o f d 0)) with
      port := { ((s.latch f o d.sb).settle f.e (tagCol f.tag) f.count (outCount (xlatOuts o f d 0))).port with
        walks := ((s.latch f o d.sb).settle f.e (tagCol f.tag) f.count (outCount (xlatOuts o f d 0))).port.walks ++
          [⟨o.imm.toNat % 128, f.e, (s.colour (tagCol f.tag)).asid, d.pay.toNat, o.imm.getLsbD 7, .xlat (xlatOuts o f d 0),
            s.cycle + 2 * s.toPort f.e (o.imm.toNat % 128)⟩] }, focus := .thread 0 } := by
    show execXlat o s = _
    rw [execXlat, flow_firing h, Firing.p0_of_tok h.2]
    dsimp only
    rw [if_neg (Bool.eq_false_iff.mp hd), if_neg (Nat.not_le.mpr hva), show bit o.imm 7 = o.imm.getLsbD 7 from rfl, hx]
    dsimp only
    rw [outBoth_eq_both, nfld_low]
    rfl
  rw [hs, hl] at hexec
  exact ⟨_, hexec, rfl, rfl, rfl, rfl⟩

end

/-! ### Walks that end (R333) -/

/-- A walker's cache is all that a walk of its port changes. -/
theorem State.walkPort_frame (s : State) (p asid va : Nat) (write : Bool) : ∃ wc, (s.walkPort p asid va write).2 = { s with port := { s.port with wcache := wc } } := by
  unfold State.walkPort
  dsimp only
  split
  · exact ⟨_, rfl⟩
  · exact ⟨_, rfl⟩

theorem State.walkPort_of {s s1 : State} {p asid va : Nat} {write : Bool} {r : WalkRes} (h : s.walkPort p asid va write = (r, s1)) :
    ∃ wc, s1 = { s with port := { s.port with wcache := wc } } := by
  obtain ⟨wc, hw⟩ := s.walkPort_frame p asid va write
  rw [h] at hw
  exact ⟨wc, hw⟩

/-- The state without the k-th walk. -/
def State.lessWalk (s : State) (k : Nat) : State := { s with port := { s.port with walks := dropNth s.port.walks k } }

section Walk
variable {s s1 : State} {k : Nat} {w : Walk} (hw : nth? s.port.walks k = some w) (hdue : w.due ≤ s.cycle) (hasid : w.asid < 65536)
include hw hdue hasid

theorem exec_pageWalk_ok {x : Xent} (hr : (s.lessWalk k).walkPort w.port w.asid w.va w.write = (.ok x, s1)) :
    exec (.pageWalk k) s = .next ((s1.setElem w.e ((s1.elem w.e).cache x)).walkDone w (.ok x)) := by
  have hof : (s.lessWalk k).walkOf w = (.ok x, s1) := by rw [State.walkOf, if_neg (Nat.not_le.mpr hasid), hr]
  show execPageWalk k s = _
  rw [execPageWalk, hw]
  dsimp only
  rw [if_neg (Nat.not_lt.mpr hdue), show ({ s with port := { s.port with walks := dropNth s.port.walks k } } : State) = s.lessWalk k from rfl, hof]

theorem exec_pageWalk_fail {n : Nat} (hr : (s.lessWalk k).walkPort w.port w.asid w.va w.write = (.fail n, s1)) :
    exec (.pageWalk k) s = .next (s1.walkDone w (.error n)) := by
  have hof : (s.lessWalk k).walkOf w = (.fail n, s1) := by rw [State.walkOf, if_neg (Nat.not_le.mpr hasid), hr]
  show execPageWalk k s = _
  rw [execPageWalk, hw]
  dsimp only
  rw [if_neg (Nat.not_lt.mpr hdue), show ({ s with port := { s.port with walks := dropNth s.port.walks k } } : State) = s.lessWalk k from rfl, hof]

end Walk

/-- The payload that an XLAT answers with. -/
def walkPay (w : Walk) (r : Except Nat Xent) : Word :=
  match r with
  | .ok x => if x.cv then failToken 2 w.va else frameToken x w.va
  | .error n => failToken n w.va

/-- The context slot of an XLAT's answer. -/
def xlatCtx (outs : List Out) : Nat := match outs with | y :: _ => tagCtx y.tag | [] => 0

/-- What an XLAT's walk sends to its targets (R209). -/
theorem State.walkDone_xlat (s : State) {w : Walk} {outs : List Out} (h : w.who = .xlat outs) (r : Except Nat Xent) : s.walkDone w r = s.setTokens (s.fab.tokens ++
    sent s none w.e (xlatCtx outs) 0 (outs.map fun y => { y with pay := walkPay w r })) := by
  rw [← State.sendFrom_sent]
  unfold State.walkDone
  rw [h]
  cases r <;> rfl

/-- A frame that an access has asked for is held for it (R334). -/
theorem State.walkDone_access {s : State} {w : Walk} {id : Nat} {a : Access} {x : Xent} (h : w.who = .access id)
    (ha : lfind (fun b => b.id == id) s.port.accesses = some a) : s.walkDone w (.ok x) = s.setAccess { a with frame := some x } := by
  unfold State.walkDone
  rw [h]
  dsimp only
  rw [ha]

theorem chainAndXlat : ChainAndXlat := by
  refine ⟨?_, ?_⟩
  · intro o s f d h res asid va write
    refine ⟨exec_ofork h, fun c hc => exec_ojoin h hc, fun hd => exec_xlat_dead h hd, fun hd hva => exec_xlat_far h hd hva, fun x hd hva hx => ?_,
      fun hd hva hx => exec_xlat_miss h hd hva hx⟩
    obtain ⟨hmem, hstew, -⟩ := State.fire_rest (s := s.setElem f.e ((s.elem f.e).cache x)) (f := f) (o := o) (lat := 2)
      (outs := res (if x.cv then failToken 2 va else frameToken x va)) (bits := d.sb)
    exact ⟨_, exec_xlat_hit h hd hva hx, State.fire_units .., hmem, hstew⟩
  · intro s k w hw hdue hasid s0
    refine ⟨fun x s1 outs hwho hr => ?_, fun n s1 outs hwho hr => ?_, fun x s1 id a hwho hr ha => ?_⟩
    · refine ⟨_, exec_pageWalk_ok hw hdue hasid hr, ?_⟩
      have hways : SameWays s1 (s1.setElem w.e ((s1.elem w.e).cache x)) := sameWays_setElem s1 w.e ((s1.elem w.e).cache x) rfl
      have hxlat : ((s1.setElem w.e ((s1.elem w.e).cache x)).elem w.e).xlat = ((s1.elem w.e).cache x).xlat := by rw [State.elem_setElem, if_pos rfl]
      obtain ⟨wc, rfl⟩ := State.walkPort_of hr
      rw [State.walkDone_xlat _ hwho, hways.sent]
      exact ⟨rfl, hxlat, rfl, rfl⟩
    · refine ⟨_, exec_pageWalk_fail hw hdue hasid hr, ?_⟩
      obtain ⟨wc, rfl⟩ := State.walkPort_of hr
      rw [State.walkDone_xlat _ hwho]
      exact ⟨rfl, rfl, rfl⟩
    · refine ⟨_, exec_pageWalk_ok hw hdue hasid hr, ?_⟩
      have ha' : lfind (fun b => b.id == id) (s1.setElem w.e ((s1.elem w.e).cache x)).port.accesses = some a := by
        obtain ⟨wc, rfl⟩ := State.walkPort_of hr
        exact ha
      rw [State.walkDone_access hwho ha']
      obtain ⟨wc, rfl⟩ := State.walkPort_of hr
      have hmem : a ∈ s.port.accesses := List.mem_of_find?_eq_some ((lfind_eq_find? ..).symm.trans ha)
      exact ⟨List.mem_map.mpr ⟨a, hmem, if_pos (beq_self_eq_true _)⟩, rfl, rfl, rfl⟩

/-! ### The walk of a table in memory (R331, R333, Table 11.3) -/

theorem lvlLow_eq {l : Nat} (h : l < 5) : lvlLow l = [46, 34, 29, 21, 16].getD l 0 := by interval_cases l <;> rfl

theorem lvlBits_eq {l : Nat} (h : l < 5) : lvlBits l = [11, 12, 5, 8, 5].getD l 0 := by interval_cases l <;> rfl

theorem bit_clear {n : Nat} {w : BitVec n} {i : Nat} (h : w.getLsbD i = false) : (!bit w i) = true := congrArg (!·) h

theorem bit_set {n : Nat} {w : BitVec n} {i : Nat} (h : w.getLsbD i = true) : ¬(!bit w i) = true := by simp [bit, -BitVec.getLsbD_eq_getElem, h]

/-- One level of a walk, by the entry `d` that it reads at `a`. -/
theorem walkFrom_level (m : Mem) (asid va : Nat) (write : Bool) {l : Nat} (t n : Nat) {low bits a : Nat} {d : Word} (hlow : lvlLow l = low)
    (hbits : lvlBits l = bits) (ha : a = t + 8 * (va / 2 ^ low % 2 ^ bits)) (hd : d = BitVec.ofNat 64 (ofBytes (m.read 0 a 8))) :
    (walkFrom m asid va write l t (n + 1)).1 =
      if !isMemory a then .nowhere a else if m.bad a 8 then .fail 4 else if !bit d 0 then .fail 1 else if entryBad d l then .fail 2
      else if bit d 1 then
        if write && (!bit d 3 || bit d 4) then .fail 2
        else .ok ⟨asid, va / 2 ^ low * 2 ^ low, low, nfld d 8 44 * 256, bit d 3 && !bit d 4, bit d 5, bit d 4, write⟩
      else (walkFrom m asid va write (l + 1) (nfld d 8 44 * 256) n).1 := by
  subst hlow hbits ha hd
  rw [walkFrom]
  simp only [apply_ite Prod.fst]

theorem pageWalksReadTheirEntries : PageWalksReadTheirEntries := by
  refine ⟨fun s asid va write h => ?_, fun s asid va write h => ?_, ?_⟩
  · rw [State.walkPlain]
    exact if_pos (bit_clear h)
  · rw [State.walkPlain]
    exact if_neg (bit_set h)
  · intro m asid va l t n write hl low bits a d field r
    have hr : r = _ := walkFrom_level m asid va write t n (lvlLow_eq hl) (lvlBits_eq hl) (a := a) (d := d) rfl rfl
    refine ⟨fun hm => hr.trans (if_pos (by rw [hm]; rfl)), fun hm hb => ?_, fun hm hb => ?_⟩
    · rw [hr, if_neg (by simp [hm]), if_pos hb]
    rw [if_neg (by simp [hm]), if_neg (Bool.eq_false_iff.mp hb)] at hr
    refine ⟨fun hv => hr.trans (if_pos (bit_clear hv)), fun hv hbad => ?_, fun hv hbad hleaf hw hno => ?_, fun hv hbad hleaf hw => ?_, fun hv hbad hleaf => ?_⟩
    · rw [hr, if_neg (bit_set hv), if_pos hbad]
    · have hdeny : (write && (!bit d 3 || bit d 4)) = true := by
        rw [hw]
        obtain h | h := hno
        · rw [bit_clear h]
          rfl
        · rw [show bit d 4 = true from h, Bool.or_true]
          rfl
      rw [hr, if_neg (bit_set hv), if_neg (Bool.eq_false_iff.mp hbad), show bit d 1 = true from hleaf, if_pos rfl, if_pos hdeny]
    · have hallow : ¬(write && (!bit d 3 || bit d 4)) = true := by
        cases write with
        | false => exact Bool.false_ne_true
        | true =>
          obtain ⟨hwr, hro⟩ := hw rfl
          rw [show bit d 3 = true from hwr, show bit d 4 = false from hro]
          exact Bool.false_ne_true
      rw [if_neg (bit_set hv), if_neg (Bool.eq_false_iff.mp hbad), show bit d 1 = true from hleaf, if_pos rfl, if_neg hallow] at hr
      exact ⟨_, hr, rfl, rfl, rfl, rfl, rfl, rfl⟩
    · rw [hr, if_neg (bit_set hv), if_neg (Bool.eq_false_iff.mp hbad), show bit d 1 = false from hleaf, if_neg Bool.false_ne_true]
      rfl

/-! ### Read-ahead (R201) -/

/-- The page last used lies in a working copy, and its translation in an element's cache. -/
theorem State.useFrame_frame (s : State) (g : Agen) (x : Option Xent) :
    ∃ es gs, s.useFrame g x = { s with fab := { s.fab with elems := es }, port := { s.port with agens := gs } } := by
  unfold State.useFrame
  split
  · split
    · exact ⟨_, _, rfl⟩
    · exact ⟨_, _, rfl⟩
  · exact ⟨_, _, rfl⟩

section
variable {s : State} {g : Agen} {p it : Nat} {sh : Shape} {addr ad pa key : Nat} {x : Option Xent} (hv : shVw sh = false)
  (haddr : accessAddr sh g.region it 0 = .ok addr)
  (hsp : s.spaceStep g sh p ((s.partOfElem g.e).getD 0) g.col addr addr false none = .ok ad pa key x)
  (hgood : (s.readDatum [] p key pa (shEsz sh)).2.2 = false)
include hv haddr hsp hgood

/-- A datum that the translation in hand reaches is read ahead. -/
theorem State.aheadAt_found : s.aheadAt g p it sh = (s.useFrame g x, some ⟨p, g.e, g.ctx, g.slot, g.col, it, 0, ad,
    BitVec.ofNat 64 (s.readDatum [] p key pa (shEsz sh)).1, (s.readDatum [] p key pa (shEsz sh)).2.1, x, pa, none⟩) := by
  have hview (part asid : Nat) : s.viewStep part asid sh addr none = .ok (some (s, none, addr)) := by
    rw [State.viewStep, hv]
    rfl
  unfold State.aheadAt
  dsimp only
  rw [haddr]
  dsimp only
  rw [hview]
  dsimp only
  rw [hsp]
  exact if_neg (Bool.eq_false_iff.mp hgood)

end

theorem readAheadKeepsDatums : ReadAheadKeepsDatums := by
  intro s k g r addr ad pa key x hk hr hgot hopening hvoided sh p part hcls hvw hreg hlds hcfg haddr hsp d hgood
  obtain ⟨es, gs, huse⟩ := s.useFrame_frame g x
  have hahead := State.aheadAt_found (it := g.ra) hvw haddr hsp hgood
  have hreads : (r.state == .opening || r.voided || shCls sh || g.region.isNone || !s.hasLds g || decide (spaceOf p = .config)) = false := by
    simp [hopening, hvoided, hcls, Option.isNone_eq_false_iff.mpr hreg, hlds, hcfg]
  have hexec : ∃ g' : Agen, exec (.readAhead k) s = .next { (s.useFrame g x).setAgen g' with
      port := { ((s.useFrame g x).setAgen g').port with ahead := ((s.useFrame g x).setAgen g').port.ahead ++ [⟨p, g.e, g.ctx, g.slot, g.col, g.ra, 0, ad,
        BitVec.ofNat 64 d.1, d.2.1, x, pa, none⟩] } } := by
    refine ⟨{ ((s.useFrame g x).agenOf g.e g.ctx g.slot g.col).getD g with ra := (g.ra + 1) % iterMod }, ?_⟩
    show execReadAhead k s = _
    rw [execReadAhead, hk]
    dsimp only
    rw [hr]
    dsimp only
    rw [if_neg (Bool.eq_false_iff.mp hgot)]
    refine congrArg _ ((if_neg (Bool.eq_false_iff.mp hreads)).trans ?_)
    rw [hahead]
  obtain ⟨g', hexec⟩ := hexec
  rw [huse] at hexec
  exact ⟨_, hexec, _, rfl, rfl, rfl, rfl, rfl, rfl, rfl, rfl, rfl, rfl, rfl, rfl, rfl, rfl⟩

end Sys2Proof.Machine

namespace Sys2Proof

/-- Settles O35: each node, walk level and read-ahead by its own equation. -/
theorem walksAndReadAhead : Obligations.WalksAndReadAhead := ⟨Machine.chainAndXlat, Machine.pageWalksReadTheirEntries, Machine.readAheadKeepsDatums⟩

end Sys2Proof
end

section
/-! SUPPORT. O42 and O43: how a firing's request leaves for an engine (06 R228 to R230, R232, 13 R363, 17 R433). -/

namespace Sys2Proof.Machine

open Sys2Proof.Claims

/-! ### Buffers and ways -/

theorem sameWays_setBuf (s : State) (e c b : Nat) (v : Option Buf) : SameWays s (s.setBuf e c b v) := by
  refine ⟨rfl, rfl, rfl, fun e' c' => ?_⟩
  rw [State.setBuf, State.ctx_setCtx]
  split
  · next h => rw [← h.1, ← h.2]
  · rfl

theorem sameWays_modSlot (s : State) (e c b n : Nat) (g : Slot → Slot) : SameWays s (s.modSlot e c b n g) := by
  unfold State.modSlot
  split
  · exact sameWays_setBuf ..
  · exact .refl s

/-! ### Requests leave (R230, R293) -/

theorem State.latch_ctxs (s : State) (f : Firing) (o : Ops) (bits : BitVec 8) (e : Nat) : ((s.latch f o bits).elem e).ctxs = (s.elem e).ctxs := by
  unfold State.latch
  split
  · exact s.ctxs_setElem f.e _ (by rfl) e
  · rfl

theorem State.settleHeld_ctxs (s : State) (e c n m e' : Nat) : ((s.settleHeld e c n m).elem e').ctxs = (s.elem e').ctxs := by
  unfold State.settleHeld State.spendCredit
  split
  · exact s.ctxs_setElem e _ (by rfl) e'
  · rfl

theorem State.buf_of_ctxs {s s' : State} (h : ∀ e, (s'.elem e).ctxs = (s.elem e).ctxs) (e c n : Nat) : s'.buf e c n = s.buf e c n := by
  simp only [State.buf, State.ctx, h]

section
variable (s : State) (f : Firing) (o : Ops) (pkt : BitVec 384) (target : BitVec 24) (bslot : Option (Nat × Nat)) (sb : BitVec 8)

/-- The request that a firing sends. -/
def State.sentReq : Engine :=
  ⟨s.port.next, wPort f.word, wOpc f.word, o.ty, f.e, f.slot, pkt, target, .sent, 0, bslot, [], [], [], 0, none, none, false, none,
    s.cycle + 1 + s.toPort f.e (wPort f.word), false, sb, bit o.fl 5, s.loadidAt f.e f.ctx, f.ops, Nat.max f.count 1⟩

/-- What a request that leaves changes: the requests, and the elements' latches and credits. -/
theorem State.sendReq_frame : ∃ es, s.sendReq f o pkt target bslot sb = { s with
    fab := { s.fab with elems := es }, focus := .thread 0,
    port := { s.port with engines := (s.clearStub f).port.engines ++ [s.sentReq f o pkt target bslot sb], next := s.port.next + 1 } } := by
  obtain ⟨es, h1⟩ := (s.clearStub f).latch_frame f o sb
  obtain ⟨es', h2⟩ := ((s.clearStub f).latch f o sb).settleHeld_frame f.e (tagCol f.tag) f.count 1
  refine ⟨es', ?_⟩
  rw [State.sendReq]
  dsimp only
  rw [h2, h1]
  rfl

theorem State.sendReq_buf (e c n : Nat) : (s.sendReq f o pkt target bslot sb).buf e c n = s.buf e c n :=
  State.buf_of_ctxs (s := s) (fun e' => (State.settleHeld_ctxs ..).trans (State.latch_ctxs (s.clearStub f) f o sb e')) e c n

end

/-- A request that leaves a state that has the ways, memory, threads, tokens and units of another. -/
theorem State.sendReq_requests {s t : State} (hport : t.port = s.port) (hmem : t.mem = s.mem) (hstew : t.stew = s.stew) (htok : t.fab.tokens = s.fab.tokens)
    (hunits : t.fab.units = s.fab.units) (hcycle : t.cycle = s.cycle) (f : Firing) (o : Ops) {pkt : BitVec 384} (target : BitVec 24)
    (bslot : Option (Nat × Nat)) (sb : BitVec 8) {p : Engine → Prop} (hctx : nfld pkt 270 2 = f.ctx % 4) (htag : fld pkt 0 64 = f.tag) (hp : p (t.sentReq f o pkt target bslot sb)) :
    Requests s (t.sendReq f o pkt target bslot sb) f o target sb p := by
  obtain ⟨es, h⟩ := t.sendReq_frame f o pkt target bslot sb
  have hway : t.toPort f.e (wPort f.word) = s.toPort f.e (wPort f.word) := by simp only [State.toPort, State.physOf, hmem]
  have hsince : (t.sentReq f o pkt target bslot sb).since = s.cycle + 1 + s.toPort f.e (wPort f.word) := by rw [State.sentReq, hcycle, hway]
  have hstub : (t.clearStub f).port.engines = (s.clearStub f).port.engines := by simp only [State.clearStub, hport]
  refine ⟨t.sentReq f o pkt target bslot sb, ?_⟩
  rw [h]
  exact ⟨congrArg (· ++ _) hstub, rfl, rfl, rfl, rfl, htag, rfl, rfl, rfl, rfl, rfl, hsince, hctx, rfl, rfl, hp, hmem, hstew, htok, hunits⟩

/-! ### XFER (R228 to R230, R433) -/

/-- The fields of a copy request (Table 6.10). -/
theorem xferPkt_fields (o : Ops) (f : Firing) (sb : BitVec 8) (src dst len : Nat) :
    nfld (xferPkt o f sb src dst len) 64 64 = src % 2 ^ 64 ∧ nfld (xferPkt o f sb src dst len) 128 64 = dst % 2 ^ 64 ∧
    nfld (xferPkt o f sb src dst len) 192 32 = len % 2 ^ 32 ∧ nfld (xferPkt o f sb src dst len) 224 10 = o.imm.toNat % 2 ^ 10 ∧
    nfld (xferPkt o f sb src dst len) 270 2 = f.ctx % 4 := by
  refine ⟨nfld_pack _ _ _ _ _ rfl (by simp), nfld_pack _ _ _ _ _ rfl (by simp), nfld_pack _ _ _ _ _ rfl (by simp),
    (nfld_pack _ _ _ _ (nfld o.imm 0 10) rfl (by simp)).trans ?_, nfld_pack _ _ _ _ _ rfl (by simp)⟩
  rw [nfld_low, Nat.mod_mod]

theorem State.xferNow_eq (s : State) (f : Firing) (o : Ops) (target : BitVec 24) (sb : BitVec 8) :
    s.xferNow f o target sb = (s.clearStub f).fire f o 1 (only target ⟨0, sb, .scalar, 0, none, f.tag, [fromEngine]⟩) sb := rfl

/-- A live reference argument has the token's buffer and slot. -/
theorem State.arg_live {s : State} {f : Firing} {ty : Ty} {m : BitVec 2} {hold : Bool} {t : Token} {q : Nat × Nat} (ht : f.tok m.toNat = some t)
    (hr : (s.arg f ty (.port m) hold).ref = some q) : sbDead t.sb = false := by
  rw [State.arg, ht] at hr
  dsimp only at hr
  cases hd : sbDead t.sb with
  | false => rfl
  | true =>
    rw [hd, if_pos rfl] at hr
    cases hr

theorem xferRequests : XferRequests := by
  intro o s f hf a b c len scalar poison buffer asks
  have hlen : nfld c.v 0 32 = len := nfld_low ..
  have hasks (t : State) (sb : BitVec 8) (q : Option (Nat × Nat)) {src src' dst dst' n : Nat} (hsrc' : src % 2 ^ 64 = src') (hdst' : dst % 2 ^ 64 = dst')
      (hn : n % 2 ^ 32 = len) : asks src' dst' (t.sentReq f o (xferPkt o f sb src dst n) o.t1 q sb) := by
    obtain ⟨hsrc, hdst, hl, hmode, -⟩ := xferPkt_fields o f sb src dst n
    exact ⟨hsrc.trans hsrc', hdst.trans hdst', hl.trans hn, hmode⟩
  have hctx (sb : BitVec 8) (src dst n : Nat) : nfld (xferPkt o f sb src dst n) 270 2 = f.ctx % 4 := by
    obtain ⟨-, -, -, -, hctx⟩ := xferPkt_fields o f sb src dst n
    exact hctx
  have htag (sb : BitVec 8) (src dst n : Nat) : fld (xferPkt o f sb src dst n) 0 64 = f.tag :=
    (fld_pack _ _ _ _ f.tag.toNat rfl (by simp)).trans (by simp)
  refine ⟨?_, ?_, ?_⟩
  · intro sb
    have hx : exec (.xferM2m o) s = .next _ := State.flow_node hf _
    dsimp only at hx
    rw [hlen] at hx
    refine ⟨fun hp => ⟨_, rfl, hx.trans (by rw [if_pos hp])⟩, fun hp hn => ?_, fun hd hl => ?_⟩
    · rw [if_neg (Bool.eq_false_iff.mp hp), if_pos hn] at hx
      exact hx
    · obtain ⟨hp, hn⟩ := sbPZ_sbNL_of_live hd
      rw [if_neg (Bool.eq_false_iff.mp hp), if_neg (not_or.mpr ⟨Bool.eq_false_iff.mp hn, hl⟩)] at hx
      refine ⟨_, hx, State.sendReq_requests rfl rfl rfl rfl rfl rfl f o o.t1 none sb (hctx ..) (htag ..)
        ⟨hasks s sb none (Nat.mod_eq_of_lt a.v.isLt) (Nat.mod_eq_of_lt b.v.isLt) rfl, rfl⟩⟩
  · intro sb n null
    have hx : exec (.xferM2b o) s = .next _ := State.flow_node hf _
    dsimp only at hx
    rw [hlen, show nfld o.imm 4 5 = n from rfl] at hx
    refine ⟨fun hp => ⟨_, rfl, hx.trans (by rw [if_pos hp])⟩, fun hp hn => ?_, fun hd hb => ?_, fun x hd hb => ?_⟩
    · rw [if_neg (Bool.eq_false_iff.mp hp), if_pos hn] at hx
      exact hx
    · obtain ⟨hp, hn⟩ := sbPZ_sbNL_of_live hd
      rw [if_neg (Bool.eq_false_iff.mp hp), if_neg (Bool.eq_false_iff.mp hn), hb] at hx
      exact ⟨_, rfl, hx⟩
    obtain ⟨hp, hn⟩ := sbPZ_sbNL_of_live hd
    rw [if_neg (Bool.eq_false_iff.mp hp), if_neg (Bool.eq_false_iff.mp hn), hb] at hx
    dsimp only at hx
    refine ⟨fun hsize => ⟨_, rfl, hx.trans (by rw [if_pos hsize])⟩, fun hl => ?_, fun hsize hl hfull => ?_, fun hsize hl hfull => ?_⟩
    · rw [if_neg (by omega), if_pos hl, sbOr_pair] at hx
      exact hx
    · rw [if_neg (by omega), if_neg hl, if_pos hfull] at hx
      exact hx
    · rw [if_neg (by omega), if_neg hl, if_neg (Bool.eq_false_iff.mp hfull)] at hx
      refine ⟨_, hx, State.sendReq_requests rfl rfl rfl rfl rfl rfl f o o.t1 _ sb (hctx ..) (htag ..)
        ⟨hasks (s.reserveSlot f.e f.ctx n x) sb _ (Nat.mod_eq_of_lt a.v.isLt) rfl (Nat.mod_mod ..), rfl⟩, ?_⟩
      rw [State.sendReq_buf]
      exact State.reserveSlot_buf ..
  · intro r m t q ha ht hq hfault sb
    have hlive : sbDead t.sb = false := State.arg_live ht (by rw [← ha]; exact hq)
    have hx : exec (.xferB2m o) s = .next _ := State.flow_node hf _
    dsimp only at hx
    rw [hlen, show s.arg f .x64 o.a (bit o.imm 9) = r from rfl, hfault, ha] at hx
    dsimp only at hx
    simp only [Firing.portVal_of_tok ht, hq] at hx
    refine ⟨fun hp => ⟨_, rfl, hx.trans (by rw [if_pos hp])⟩, fun hp hn => ?_, fun hd hsize => ?_, fun hd hsize hl => ?_⟩
    · rw [if_neg (Bool.eq_false_iff.mp hp)] at hx
      by_cases hnl : sbNL sb = true
      · rw [if_pos hnl] at hx
        exact hx
      · have hl := hn.resolve_left hnl
        rw [if_neg hnl, if_neg (by omega), if_pos hl] at hx
        exact hx
    · obtain ⟨hp, hn⟩ := sbPZ_sbNL_of_live hd
      rw [if_neg (Bool.eq_false_iff.mp hp), if_neg (Bool.eq_false_iff.mp hn), if_pos hsize] at hx
      exact ⟨_, rfl, hx⟩
    · obtain ⟨hp, hn⟩ := sbPZ_sbNL_of_live hd
      rw [if_neg (Bool.eq_false_iff.mp hp), if_neg (Bool.eq_false_iff.mp hn), if_neg (by omega), if_neg hl] at hx
      refine ⟨_, hx, State.sendReq_requests rfl rfl rfl rfl rfl rfl f o o.t1 _ sb (hctx ..) (htag ..)
        ⟨hasks s sb _ ((Nat.mod_eq_of_lt ?_).trans (nfld_low ..)) (Nat.mod_eq_of_lt b.v.isLt) (Nat.mod_mod ..), rfl⟩, State.sendReq_buf .., fun hopc hdir hfc => ?_⟩
      · exact Nat.lt_trans (Nat.mod_lt _ (Nat.two_pow_pos 9)) (by decide)
      · obtain ⟨es, hframe⟩ := s.sendReq_frame f o (xferPkt o f sb (nfld t.pay 0 9) b.v.toNat len) o.t1 (some (q.1, q.2)) sb
        obtain ⟨-, -, -, hmode, -⟩ := xferPkt_fields o f sb (nfld t.pay 0 9) b.v.toNat len
        have hdir2 : nfld (xferPkt o f sb (nfld t.pay 0 9) b.v.toNat len) 224 2 = 2 := by
          have hlow := congrArg (· % 4) hmode
          simp only [nfld, Nat.mod_mod_of_dvd _ (show 4 ∣ 2 ^ 10 by decide)] at hlow
          exact hlow.trans hdir
        have hctx4 := (hctx sb (nfld t.pay 0 9) b.v.toNat len).trans (Nat.mod_eq_of_lt hfc)
        show State.copying (s.sendReq f o (xferPkt o f sb (nfld t.pay 0 9) b.v.toNat len) o.t1 (some (q.1, q.2)) sb) f.e f.ctx q.1 q.2 = true
        rw [hframe, State.copying]
        simp [Engine.busy, Engine.copies, State.sentReq, hopc, hdir2, hctx4]

/-! ### WEIR (R232, R367, R368) -/

/-- The fields of a Weir request (Table 13.2). -/
theorem weirPkt_fields (o : Ops) (f : Firing) (sb : BitVec 8) (base ctl thr : Word) :
    nfld (weirPkt o f sb base ctl thr) 64 64 = base.toNat ∧ nfld (weirPkt o f sb base ctl thr) 128 64 = ctl.toNat ∧
    nfld (weirPkt o f sb base ctl thr) 192 32 = thr.toNat % 2 ^ 32 ∧ nfld (weirPkt o f sb base ctl thr) 288 32 = thr.toNat / 2 ^ 32 ∧
    nfld (weirPkt o f sb base ctl thr) 270 2 = f.ctx % 4 ∧ fld (weirPkt o f sb base ctl thr) 0 64 = f.tag := by
  have hhigh : nfld thr 32 32 = thr.toNat / 2 ^ 32 := Nat.mod_eq_of_lt (Nat.div_lt_of_lt_mul thr.isLt)
  refine ⟨(nfld_pack _ _ _ _ _ rfl (by simp)).trans (Nat.mod_eq_of_lt base.isLt), (nfld_pack _ _ _ _ _ rfl (by simp)).trans (Nat.mod_eq_of_lt ctl.isLt),
    (nfld_pack _ _ _ _ (nfld thr 0 32) rfl (by simp)).trans ?_, (nfld_pack _ _ _ _ (nfld thr 32 32) rfl (by simp)).trans ?_,
    nfld_pack _ _ _ _ _ rfl (by simp), (fld_pack _ _ _ _ f.tag.toNat rfl (by simp)).trans (by simp)⟩
  · rw [nfld_mod, nfld_low]
  · rw [nfld_mod, hhigh]

theorem weirAsks {o : Ops} {s : State} {f : Firing} (hf : s.focus = .node f) :
    let a := s.opVal .x64 o.imm o.a
    let b := s.opVal .x64 o.imm o.b
    let c := s.opVal .x64 o.imm o.c
    let sb := sbOr [a.sb, b.sb, c.sb]
    let done := hereTarget (o.imm.toNat % 128) (o.imm.toNat / 128 % 4)
    (sbPZ sb = true → ∃ n, n.code = 6 ∧ exec (.weir o) s = .next (s.faultFiring f n)) ∧
    (sbPZ sb = false → sbNL sb = true → exec (.weir o) s = .next ((s.clearStub f).fire f o 1 (only done ⟨0, sb, .scalar, 0, none, f.tag, [fromEngine]⟩) sb)) ∧
    (sbDead sb = false → Ends (.weir o) s fun s' => Requests s s' f o done sb fun g =>
      nfld g.pkt 64 64 = a.v.toNat ∧ nfld g.pkt 128 64 = b.v.toNat ∧ nfld g.pkt 192 32 = c.v.toNat % 2 ^ 32 ∧ nfld g.pkt 288 32 = c.v.toNat / 2 ^ 32) := by
  intro a b c sb done
  have hx : exec (.weir o) s = .next _ := State.flow_node hf _
  dsimp only at hx
  rw [nfld_low, show nfld o.imm 7 2 = o.imm.toNat / 128 % 4 from rfl] at hx
  refine ⟨fun hp => ⟨_, rfl, hx.trans (by rw [if_pos hp])⟩, fun hp hn => ?_, fun hd => ?_⟩
  · rw [if_neg (Bool.eq_false_iff.mp hp), if_pos hn] at hx
    exact hx
  · obtain ⟨hp, hn⟩ := sbPZ_sbNL_of_live hd
    obtain ⟨hbase, hctl, hlo, hhi, hctx, htag⟩ := weirPkt_fields o f sb a.v b.v c.v
    rw [if_neg (Bool.eq_false_iff.mp hp), if_neg (Bool.eq_false_iff.mp hn)] at hx
    exact ⟨_, hx, State.sendReq_requests rfl rfl rfl rfl rfl rfl f o done none sb hctx htag ⟨hbase, hctl, hlo, hhi⟩⟩

end Sys2Proof.Machine
end

section
/-! SUPPORT. O42: what a copy moves and how it ends (06 R229 to R231, 11 R315, 17 R433). -/

namespace Sys2Proof.Machine

open Sys2Proof.Claims

/-! ### The list of requests -/

/-- A request replaced in a state that has the requests of another. -/
theorem State.setEngine_changed {s t : State} {g h : Engine} (ht : t.port.engines = s.port.engines) (hid : h.id = g.id) :
    (t.setEngine h).port.engines = changed s g h := by
  show (t.port.engines.map fun x => if x.id == h.id then h else x) = _
  rw [ht, hid, changed]
  refine List.map_congr_left fun x _ => ?_
  by_cases hx : x.id = g.id
  · simp [hx]
  · simp [hx]

/-- The changed request stands among them. -/
theorem Request.mem_changed {s : State} {k opc : Nat} {g : Engine} (h : Request s k opc g) (q : Engine) : q ∈ changed s g q :=
  List.mem_map.mpr ⟨g, nth?_mem h.1, if_pos rfl⟩

/-! ### Translations and moves -/

/-- What an engine's translations change: the walkers' caches, and what the host is asked for. -/
def WalksOnly (s s' : State) : Prop := ∃ wc hv, s' = { s with port := { s.port with wcache := wc }, host := hv }

theorem WalksOnly.refl (s : State) : WalksOnly s s := ⟨_, _, rfl⟩

theorem WalksOnly.trans {s t u : State} (h : WalksOnly s t) (k : WalksOnly t u) : WalksOnly s u := by
  obtain ⟨_, _, rfl⟩ := h
  obtain ⟨_, _, rfl⟩ := k
  exact ⟨_, _, rfl⟩

theorem State.enginePhys_walks (s : State) (g : Engine) (view write : Bool) (va : Nat) : WalksOnly s (s.enginePhys g view write va).1 := by
  have hwalk : WalksOnly s (if spaceOf g.port = .host then (s.hostWalk (s.colour g.col).pasid va write, s)
      else s.walkPort g.port (s.colour g.col).asid va write).2 := by
    split
    · exact .refl s
    · obtain ⟨wc, h⟩ := s.walkPort_frame g.port (s.colour g.col).asid va write
      exact ⟨wc, _, h⟩
  unfold State.enginePhys
  dsimp only
  generalize (if spaceOf g.port = .host then (s.hostWalk (s.colour g.col).pasid va write, s)
      else s.walkPort g.port (s.colour g.col).asid va write) = w at hwalk ⊢
  obtain ⟨r, t⟩ := w
  split
  · exact .refl s
  split
  · exact .refl s
  cases r with
  | ok x =>
    dsimp only
    split
    · exact hwalk
    · exact hwalk
  | fail k =>
    dsimp only
    split
    · obtain ⟨hv, h⟩ := t.pageRequest_frame ((s.partOfElem g.e).getD 0) (s.colour g.col).pasid va
      exact hwalk.trans ⟨_, hv, h⟩
    · exact hwalk
  | nowhere a => exact hwalk

/-- Translating and reading the pieces of a chunk writes nothing. -/
theorem State.copyPieces_walks (s : State) (g : Engine) (view write : Bool) (l : List (Nat × Nat)) : WalksOnly s (s.copyPieces g view write l).st := by
  induction l generalizing s with
  | nil => exact .refl s
  | cons x l ih =>
    obtain ⟨va, n⟩ := x
    have hphys := s.enginePhys_walks g view write (va % 2 ^ 64)
    unfold State.copyPieces
    dsimp only
    generalize s.enginePhys g view write (va % 2 ^ 64) = w at hphys ⊢
    obtain ⟨t, r⟩ := w
    cases r with
    | error c => exact hphys
    | ok q =>
      dsimp only
      split
      · exact hphys
      · exact hphys.trans (ih t)

/-- Pieces that were all read yield their bytes. -/
theorem State.copyPieces_length (s : State) (g : Engine) (view : Bool) (l : List (Nat × Nat)) (hg : spaceOf g.port = .global)
    (h : (s.copyPieces g view false l).bad = none) : (s.copyPieces g view false l).bytes.length = (l.map fun x => x.2).sum := by
  induction l generalizing s with
  | nil => rfl
  | cons x l ih =>
    obtain ⟨va, n⟩ := x
    unfold State.copyPieces at h ⊢
    dsimp only at h ⊢
    generalize s.enginePhys g view false (va % 2 ^ 64) = w at h ⊢
    obtain ⟨t, r⟩ := w
    cases r with
    | error c => cases h
    | ok q =>
      dsimp only at h ⊢
      split at h
      · cases h
      · next hbad =>
        rw [if_neg hbad]
        dsimp only at h ⊢
        rw [if_neg Bool.false_ne_true, List.length_append, ih t h, State.spaceRead, hg]
        simp [Mem.length_read]

theorem pagePieces_sum (va n : Nat) : ((pagePieces va n).map fun x => x.2).sum = n := by
  unfold pagePieces
  dsimp only
  split
  · simp
  · simp
    omega

/-- What writes through a port change: memory, regions' counts, elements and what has been read ahead. -/
def WritesOnly (s s' : State) : Prop := ∃ m v es l, s' = { s with mem := m, cov := v, fab := { s.fab with elems := es }, port := { s.port with ahead := l } }

theorem WritesOnly.refl (s : State) : WritesOnly s s := ⟨_, _, _, _, rfl⟩

theorem WritesOnly.trans {s t u : State} (h : WritesOnly s t) (k : WritesOnly t u) : WritesOnly s u := by
  obtain ⟨_, _, _, _, rfl⟩ := h
  obtain ⟨_, _, _, _, rfl⟩ := k
  exact ⟨_, _, _, _, rfl⟩

theorem State.writePlaces_writes (s : State) (p : Nat) (bs : List Byte) (l : List (Nat × Nat × Nat)) : WritesOnly s (s.writePlaces p bs l) := by
  induction l generalizing s bs with
  | nil => exact .refl s
  | cons x l ih =>
    obtain ⟨pa, key, n⟩ := x
    unfold State.writePlaces
    dsimp only
    refine WritesOnly.trans ?_ (ih _ _)
    split
    · exact .refl s
    · obtain ⟨m, v, es, l', h, -⟩ := s.spaceWrite_frame p key pa (bs.take n) 0
      exact ⟨m, v, es, l', h⟩

/-- Bytes written to one place of global memory: they read back there, and no byte beside them changes. -/
theorem State.writePlaces_one {s : State} {p : Nat} (hg : spaceOf p = .global) {bs : List Byte} (pa key : Nat) :
    (s.writePlaces p bs [(pa, key, bs.length)]).mem.read key pa bs.length = bs ∧
    ∀ a, a < pa ∨ pa + bs.length ≤ a → (s.writePlaces p bs [(pa, key, bs.length)]).mem.read1 key a = s.mem.read1 key a := by
  unfold State.writePlaces
  dsimp only
  cases bs with
  | nil => exact ⟨rfl, fun _ _ => rfl⟩
  | cons x bs =>
    rw [List.take_length, if_neg (by simp)]
    have hread (a : Nat) := State.spaceWrite_global (s := s) hg key pa (x :: bs) 0 key a
    unfold State.writePlaces
    refine ⟨?_, fun a ha => ?_⟩
    · rw [Mem.read_congr hread, Mem.read_write]
    · rw [hread, Mem.read1_write_key, if_neg (by omega)]

/-! ### Chunks (R231, R488) -/

/-- The request after a chunk. -/
def Engine.moved (g : Engine) (cycle n : Nat) (d : List Byte) : Engine :=
  { g with cursor := g.cursor + n, data := d, state := if g.len ≤ g.cursor + n then .finished else .running, since := cycle + moveCycles n, held := 1, ops := [] }

section Chunk
variable {s : State} {g : Engine} {src dst : Nat}

/-- A chunk from memory to a slot is kept. -/
theorem State.copyStep_kept (hdir : g.dir = 1)
    (hbad : (s.copyPieces g g.sv false (pagePieces (src + g.cursor) (min 4096 (g.len - g.cursor)))).bad = none) :
    s.copyStep g src dst =
      let r := s.copyPieces g g.sv false (pagePieces (src + g.cursor) (min 4096 (g.len - g.cursor)))
      (r.st.stands g).setEngine (g.moved s.cycle (min 4096 (g.len - g.cursor)) (g.data ++ r.bytes)) := by
  have hmin : Nat.min 4096 (g.len - g.cursor) = min 4096 (g.len - g.cursor) := rfl
  unfold State.copyStep
  simp only [hdir, hmin, hbad, Option.map_none, if_true, OfNat.one_ne_ofNat, if_false, State.writePlaces]
  rfl

/-- A chunk whose pieces are all found is written. -/
theorem State.copyStep_written (hdir : g.dir = 0)
    (hbad : (s.copyPieces g g.sv false (pagePieces (src + g.cursor) (min 4096 (g.len - g.cursor)))).bad = none)
    (hdest : ((s.copyPieces g g.sv false (pagePieces (src + g.cursor) (min 4096 (g.len - g.cursor)))).st.copyPieces g g.dv true
      (pagePieces (dst + g.cursor) (min 4096 (g.len - g.cursor)))).bad = none) :
    s.copyStep g src dst =
      let r := s.copyPieces g g.sv false (pagePieces (src + g.cursor) (min 4096 (g.len - g.cursor)))
      let w := r.st.copyPieces g g.dv true (pagePieces (dst + g.cursor) (min 4096 (g.len - g.cursor)))
      ((w.st.writePlaces g.port r.bytes w.places).stands g).setEngine (g.moved s.cycle (min 4096 (g.len - g.cursor)) []) := by
  have hmin : Nat.min 4096 (g.len - g.cursor) = min 4096 (g.len - g.cursor) := rfl
  unfold State.copyStep
  simp only [hdir, hmin, hbad, hdest, Option.map_none, OfNat.zero_ne_ofNat, zero_ne_one, if_false]
  rfl

/-- A chunk of a slot whose pieces are all found is written. -/
theorem State.copyStep_fromSlot {bs : List Byte} (hdir : g.dir = 2) (hbs : s.slotChunk g (min 4096 (g.len - g.cursor)) = .ok bs)
    (hdest : (s.copyPieces g g.dv true (pagePieces (dst + g.cursor) (min 4096 (g.len - g.cursor)))).bad = none) :
    s.copyStep g src dst =
      let w := s.copyPieces g g.dv true (pagePieces (dst + g.cursor) (min 4096 (g.len - g.cursor)))
      ((w.st.writePlaces g.port bs w.places).stands g).setEngine (g.moved s.cycle (min 4096 (g.len - g.cursor)) []) := by
  have hmin : Nat.min 4096 (g.len - g.cursor) = min 4096 (g.len - g.cursor) := rfl
  unfold State.copyStep
  simp only [hdir, hmin, hbs, hdest, Option.map_none, OfNat.ofNat_ne_one, if_true, if_false]
  rfl

/-- A chunk whose source fails, after others have moved, suspends its copy; what of it had been written is in memory (R231). -/
theorem State.copyStep_fails {x : Nat × Nat} (hdir : g.dir = 0) (hcur : g.cursor ≠ 0)
    (hbad : (s.copyPieces g g.sv false (pagePieces (src + g.cursor) (min 4096 (g.len - g.cursor)))).bad = some x) :
    ∃ (t : State) (bs : List Byte) (l : List (Nat × Nat × Nat)) (f : FaultInfo), WalksOnly s t ∧
      s.copyStep g src dst = (t.free.2.writePlaces g.port bs l).failCopy g f := by
  have hmin : Nat.min 4096 (g.len - g.cursor) = min 4096 (g.len - g.cursor) := rfl
  generalize hr : s.copyPieces g g.sv false (pagePieces (src + g.cursor) (min 4096 (g.len - g.cursor))) = r at hbad
  generalize hw : r.st.copyPieces g g.dv true (pagePieces (dst + g.cursor) (min 4096 (g.len - g.cursor))) = w
  refine ⟨w.st, r.bytes.take (w.st.free.1.toNat % (r.bytes.length + 1)), w.places, g.info x.1 (r.st.recordAddr g.started x.2) 0, ?_, ?_⟩
  · rw [← hw, ← hr]
    exact (s.copyPieces_walks ..).trans (State.copyPieces_walks ..)
  · unfold State.copyStep
    simp only [hdir, hmin, hr, hw, hbad, Option.map_some, OfNat.zero_ne_ofNat, zero_ne_one, if_false, hcur, or_self]

theorem State.failCopy_moved {s : State} {g : Engine} (hcur : g.cursor ≠ 0) (f : FaultInfo) :
    s.failCopy g f = ((s.setEngine { g with state := .suspended, parked := true }).copyStops g).raiseFault f := by
  unfold State.failCopy State.suspendCopy
  dsimp only
  rw [if_neg (fun h => hcur h.1), if_neg hcur, if_neg hcur]

end Chunk

/-- Only a copy out of a slot holds its source back from expiring (R315). -/
theorem State.copyStops_of_dir {s : State} {g : Engine} (h : g.dir ≠ 2) : s.copyStops g = s := by
  unfold State.copyStops
  split
  · exact if_neg fun hc => h hc.2
  · rfl

theorem exec_copyChunk_running {s : State} {k src dst : Nat} {g : Engine} (h : Request s k 0xD0 g) (hstate : g.state = .running)
    (hbase : g.base = some (src, dst)) (hopen : s.reqOpen g = true) : exec (.copyChunk k) s = .next (s.copyStep g src dst) := by
  obtain ⟨hk, hopc, -⟩ := h
  show execCopyChunk k s = _
  rw [execCopyChunk, hk]
  dsimp only
  rw [if_neg (by simp [hopc, hopen]), hstate, hbase]

/-- What a chunk's end leaves: the request as it goes on, threads and tokens. -/
theorem State.chunkEnds {s t : State} {g : Engine} (hport : t.port.engines = s.port.engines) (hstew : t.stew = s.stew) (htok : t.fab.tokens = s.fab.tokens)
    (cycle n : Nat) (d : List Byte) : ((t.stands g).setEngine (g.moved cycle n d)).port.engines = changed s g (g.moved cycle n d) ∧
      ((t.stands g).setEngine (g.moved cycle n d)).mem = t.mem ∧ ((t.stands g).setEngine (g.moved cycle n d)).stew = s.stew ∧
      ((t.stands g).setEngine (g.moved cycle n d)).fab.tokens = s.fab.tokens := by
  obtain ⟨cs, h⟩ := t.inflDown_colours g.col (g.held - 1)
  rw [State.stands, h]
  exact ⟨State.setEngine_changed hport rfl, rfl, hstew, htok⟩

theorem copiesMoveChunks : CopiesMoveChunks := by
  intro s k src dst g hreq hstate hbase hopen n next from'
  have hex := exec_copyChunk_running hreq hstate hbase hopen
  obtain ⟨wc, hv, hfrom⟩ : WalksOnly s from'.st := s.copyPieces_walks ..
  refine ⟨fun hdir hbad => ?_, fun hdir hbad => ?_, ?_, fun c va hdir hbad hcur => ?_⟩
  · rw [State.copyStep_kept hdir hbad] at hex
    obtain ⟨heng, hmem, hstew, htok⟩ := State.chunkEnds (s := s) (t := from'.st) (g := g) (by rw [hfrom]) (by rw [hfrom]) (by rw [hfrom]) s.cycle n
      (g.data ++ from'.bytes)
    exact ⟨_, hex, heng, hmem.trans (by rw [hfrom]), hstew, htok⟩
  · intro dest hdest
    rw [State.copyStep_written hdir hbad hdest] at hex
    obtain ⟨wc', hv', hdst⟩ : WalksOnly from'.st dest.st := State.copyPieces_walks ..
    obtain ⟨m, v, es, l, hwr⟩ := dest.st.writePlaces_writes g.port from'.bytes dest.places
    obtain ⟨heng, hmem, hstew, htok⟩ := State.chunkEnds (s := s) (t := dest.st.writePlaces g.port from'.bytes dest.places) (g := g)
      (by rw [hwr, hdst, hfrom]) (by rw [hwr, hdst, hfrom]) (by rw [hwr, hdst, hfrom]) s.cycle n []
    refine ⟨_, hex, heng, hstew, htok, fun pa key hplaces hg => ?_⟩
    have hlen : from'.bytes.length = n := (s.copyPieces_length g g.sv _ hg hbad).trans (pagePieces_sum ..)
    have hsmem : dest.st.mem = s.mem := by rw [hdst, hfrom]
    obtain ⟨hread, hrest⟩ := State.writePlaces_one (s := dest.st) hg (bs := from'.bytes) pa key
    rw [hlen, ← hplaces] at hread hrest
    refine ⟨?_, fun a ha => ?_⟩
    · exact (congrArg (fun q : Mem => q.read key pa n) hmem).trans hread
    · exact (congrArg (fun q : Mem => q.read1 key a) hmem).trans ((hrest a ha).trans (by rw [hsmem]))
  · intro q b hdir hslot hbuf hexp _ hpoison dest hdest
    have hchunk : s.slotChunk g n = .ok (mgetN (s.elem g.e).pool (b.slotByte q.2 + g.cursor) n) := by
      rw [State.slotChunk, hslot, Option.getD_some, hbuf]
      dsimp only
      rw [hexp, hpoison]
      rfl
    rw [State.copyStep_fromSlot hdir hchunk hdest] at hex
    obtain ⟨wc', hv', hdst⟩ : WalksOnly s dest.st := State.copyPieces_walks ..
    obtain ⟨m, v, es, l, hwr⟩ := dest.st.writePlaces_writes g.port (mgetN (s.elem g.e).pool (b.slotByte q.2 + g.cursor) n) dest.places
    obtain ⟨heng, hmem, hstew, htok⟩ := State.chunkEnds (s := s)
      (t := dest.st.writePlaces g.port (mgetN (s.elem g.e).pool (b.slotByte q.2 + g.cursor) n) dest.places) (g := g)
      (by rw [hwr, hdst]) (by rw [hwr, hdst]) (by rw [hwr, hdst]) s.cycle n []
    refine ⟨_, hex, heng, hstew, htok, fun pa key hplaces hg => ?_⟩
    obtain ⟨hread, -⟩ := State.writePlaces_one (s := dest.st) hg (bs := mgetN (s.elem g.e).pool (b.slotByte q.2 + g.cursor) n) pa key
    rw [length_mgetN, ← hplaces] at hread
    exact (congrArg (fun x : Mem => x.read key pa n) hmem).trans hread
  · obtain ⟨t, bs, l, f, ⟨wc', hv', rfl⟩, hstep⟩ := State.copyStep_fails (dst := dst) hdir hcur hbad
    rw [hstep, State.failCopy_moved hcur, State.copyStops_of_dir (by rw [hdir]; decide)] at hex
    refine ⟨_, hex, ?_⟩
    generalize hu : State.writePlaces _ g.port bs l = u at hex
    obtain ⟨m, v, es, l', hwr⟩ : WritesOnly _ u := hu ▸ State.writePlaces_writes ..
    obtain ⟨-, hstew, hport, -⟩ := (u.setEngine { g with state := .suspended, parked := true }).raiseFault_rest f
    refine ⟨⟨{ g with state := .suspended, parked := true }, ?_, rfl, rfl, rfl, rfl⟩, ?_⟩
    · have heng := State.setEngine_changed (s := s) (t := u) (g := g) (h := { g with state := .suspended, parked := true }) (by rw [hwr]; rfl) rfl
      rw [hport, heng]
      exact Request.mem_changed hreq _
    · rw [hstew, State.setEngine_stew, hwr]
      rfl

/-! ### Completions (R230, R433) -/

/-- The second state agrees with the first in the requests, memory, threads, tokens and ways. -/
structure Aside (s s' : State) : Prop where
  engines : s'.port.engines = s.port.engines
  mem : s'.mem = s.mem
  stew : s'.stew = s.stew
  tokens : s'.fab.tokens = s.fab.tokens
  ways : SameWays s s'

theorem Aside.refl (s : State) : Aside s s := ⟨rfl, rfl, rfl, rfl, .refl s⟩

theorem Aside.trans {s t u : State} (h : Aside s t) (k : Aside t u) : Aside s u :=
  ⟨k.engines.trans h.engines, k.mem.trans h.mem, k.stew.trans h.stew, k.tokens.trans h.tokens, h.ways.trans k.ways⟩

/-- Regions' counts and what has been read ahead lie aside. -/
theorem aside_of_frame {s s' : State} (h : ∃ v l, s' = { s with cov := v, port := { s.port with ahead := l } }) :
    Aside s s' ∧ (∀ e c b, s'.buf e c b = s.buf e c b) ∧ ∀ e, s'.elem e = s.elem e := by
  obtain ⟨v, l, rfl⟩ := h
  exact ⟨⟨rfl, rfl, rfl, rfl, rfl, rfl, rfl, fun _ _ => rfl⟩, fun _ _ _ => rfl, fun _ => rfl⟩

theorem aside_setBuf (s : State) (e c b : Nat) (v : Option Buf) : Aside s (s.setBuf e c b v) := ⟨rfl, rfl, rfl, rfl, sameWays_setBuf ..⟩

theorem aside_setElem (s : State) (e : Nat) (v : Elem) (h : v.ctxs = (s.elem e).ctxs) : Aside s (s.setElem e v) :=
  ⟨rfl, rfl, rfl, rfl, sameWays_setElem s e v h⟩

theorem aside_modSlot (s : State) (e c b n : Nat) (g : Slot → Slot) : Aside s (s.modSlot e c b n g) := by
  unfold State.modSlot
  split
  · exact aside_setBuf ..
  · exact .refl s

/-- A result that leaves for a request that is gone (R230). -/
theorem Aside.sends {s t : State} {g : Engine} (h : Aside (s.dropEngine g) t) (x : Out) :
    (t.engineSend g x).port.engines = (s.port.engines.filter fun y => y.id != g.id) ∧
    (t.engineSend g x).fab.tokens = s.fab.tokens ++ sent s (some g.port) g.e g.ctx 1 [x] ∧ (t.engineSend g x).mem = s.mem ∧ (t.engineSend g x).stew = s.stew := by
  have hgone : SameWays s (s.dropEngine g) := ⟨rfl, rfl, rfl, fun _ _ => rfl⟩
  have hways : SameWays s t := hgone.trans h.ways
  rw [State.engineSend, State.sendFrom_sent, hways.sent]
  exact ⟨h.engines, congrArg (· ++ _) h.tokens, h.mem, h.stew⟩

/-- A result that leaves a port changes no element. -/
theorem State.elem_engineSend {t : State} {g : Engine} {x : Out} {e : Nat} : (t.engineSend g x).elem e = t.elem e := by
  rw [State.engineSend, State.sendFrom_sent]
  rfl

theorem State.buf_engineSend {t : State} {g : Engine} {x : Out} {e c b : Nat} : (t.engineSend g x).buf e c b = t.buf e c b := by
  simp only [State.buf, State.ctx, State.elem_engineSend]

/-- The views of a request end in the counts of their regions (R388). -/
theorem State.endViews_frame (s : State) (g : Engine) : ∃ v l, s.endViews g = { s with cov := v, port := { s.port with ahead := l } } := by
  obtain ⟨v, h⟩ := s.endStarted_frame g.started
  obtain ⟨v', h'⟩ := (s.endStarted g.started).endStarted_frame g.startedB
  exact ⟨v', s.port.ahead, by rw [State.endViews, h', h]⟩

/-- What a finished request discards (R358). -/
theorem State.discardAhead_frame (s : State) (c x e scope : Nat) : ∃ v l, s.discardAhead c x e scope = { s with cov := v, port := { s.port with ahead := l } } :=
  s.dropAhead_frame _

section Completion
variable {s : State} {k : Nat} {g : Engine}

theorem exec_xferCompletion_scalar (h : Request s k 0xD0 g) (hstate : g.state = .finished) (hsince : g.since ≤ s.cycle) (hb : g.bslot = none) :
    exec (.xferCompletion k) s = .next ((((s.dropEngine g).endViews g).discardAhead g.col g.ctx g.e 2).engineSend g
      ⟨g.target, g.sb, .scalar, BitVec.ofNat 64 g.len, none, g.tag, [fromEngine]⟩) := by
  obtain ⟨hk, hopc, -⟩ := h
  have hstops : ((s.dropEngine g).endViews g).copyStops g = (s.dropEngine g).endViews g := by rw [State.copyStops, hb]
  show execXferCompletion k s = _
  rw [execXferCompletion, hk]
  dsimp only
  rw [if_neg (by simp [hopc, hstate, hsince]), hb, hstops]

theorem exec_xferCompletion_fromSlot {b i : Nat} (h : Request s k 0xD0 g) (hstate : g.state = .finished) (hsince : g.since ≤ s.cycle)
    (hb : g.bslot = some (b, i)) (hdir : g.dir = 2) :
    exec (.xferCompletion k) s = .next (
      let s1 := (((s.dropEngine g).endViews g).ageSlot g.e g.ctx b i).discardAhead g.col g.ctx g.e 2
      (if g.ha then s1 else s1.modSlot g.e g.ctx b i Slot.freed).engineSend g
        ⟨g.target, g.sb, .scalar, BitVec.ofNat 64 g.len, none, g.tag, [fromEngine]⟩) := by
  obtain ⟨hk, hopc, -⟩ := h
  have hstops : ((s.dropEngine g).endViews g).copyStops g = ((s.dropEngine g).endViews g).ageSlot g.e g.ctx b i := by
    rw [State.copyStops, hb]
    exact if_pos ⟨hopc, hdir⟩
  show execXferCompletion k s = _
  rw [execXferCompletion, hk]
  dsimp only
  rw [if_neg (by simp [hopc, hstate, hsince]), hb, hstops]
  dsimp only
  rw [if_pos hdir]
  rfl

/-- The state in which a copy into a slot has ended. -/
def State.slotFilled (t : State) (g : Engine) (x : Buf) (b i : Nat) : State :=
  (t.setElem g.e ((t.elem g.e).poolWrite (x.slotByte i) (g.data ++ List.replicate (64 * ceilDiv g.len 64 - g.data.length) 0))).slotWritten g.e g.ctx b i g.kp
    fun q => { q with full := true, hv := false, lines := ceilDiv g.len 64 }

theorem exec_xferCompletion_toSlot {b i : Nat} {x : Buf} (h : Request s k 0xD0 g) (hstate : g.state = .finished) (hsince : g.since ≤ s.cycle)
    (hb : g.bslot = some (b, i)) (hdir : g.dir ≠ 2)
    (hbuf : (((s.dropEngine g).endViews g).discardAhead g.col g.ctx g.e 2).buf g.e g.ctx b = some x) (hfull : (x.slot i).full = true) :
    exec (.xferCompletion k) s = .next (((((s.dropEngine g).endViews g).discardAhead g.col g.ctx g.e 2).slotFilled g x b i).engineSend g
      ⟨g.target, g.sb, .ref, mkRef b i (ceilDiv g.len 64), none, g.tag, []⟩) := by
  obtain ⟨hk, hopc, -⟩ := h
  show execXferCompletion k s = _
  rw [execXferCompletion, hk]
  dsimp only
  rw [if_neg (by simp [hopc, hstate, hsince]), hb, State.copyStops_of_dir hdir]
  dsimp only
  rw [if_neg hdir, hbuf]
  dsimp only
  rw [if_neg (by simp [hfull])]
  rfl

end Completion

/-- A slot that a copy has filled holds its bytes and is valid (R230, R315). -/
theorem State.slotFilled_slot {t : State} {g : Engine} {x : Buf} {b i : Nat} (hbuf : t.buf g.e g.ctx b = some x) (hi : i < x.slots.length)
    (hlen : g.data.length = g.len) :
    Aside t (t.slotFilled g x b i) ∧
    mgetN ((t.slotFilled g x b i).elem g.e).pool (x.slotByte i) (64 * ceilDiv g.len 64) = g.data ++ List.replicate (64 * ceilDiv g.len 64 - g.len) 0 ∧
    ∃ y, (t.slotFilled g x b i).buf g.e g.ctx b = some y ∧ (y.slot i).full = true ∧ (y.slot i).data = true ∧ (y.slot i).lines = ceilDiv g.len 64 ∧
      (y.slot i).stamp = (t.elem g.e).retcnt + BitVec.ofNat 32 x.life := by
  have hbytes : (g.data ++ List.replicate (64 * ceilDiv g.len 64 - g.data.length) (0 : Byte)).length = 64 * ceilDiv g.len 64 := by
    have hle : g.len ≤ 64 * ceilDiv g.len 64 := by
      unfold ceilDiv
      omega
    rw [List.length_append, List.length_replicate, hlen]
    omega
  have hbuf' : (t.setElem g.e ((t.elem g.e).poolWrite (x.slotByte i) (g.data ++ List.replicate (64 * ceilDiv g.len 64 - g.data.length) 0))).buf g.e g.ctx b = some x :=
    (State.buf_setElem (by rfl) ..).trans hbuf
  obtain ⟨v, grant, hw⟩ := State.slotWritten_eq hbuf' i g.kp fun q => { q with full := true, hv := false, lines := ceilDiv g.len 64 }
  have hfilled : t.slotFilled g x b i = _ := hw
  refine ⟨?_, ?_, ?_⟩
  · rw [hfilled]
    exact (aside_setElem t g.e _ (by rfl)).trans ((aside_setBuf ..).trans (aside_setBuf ..))
  · rw [hfilled, State.setBuf_pool, State.setBuf_pool, State.elem_setElem_same]
    have hread := mgetN_msetN (t.elem g.e).pool (x.slotByte i) (g.data ++ List.replicate (64 * ceilDiv g.len 64 - g.data.length) 0)
    rw [hbytes] at hread
    exact hread.trans (by rw [hlen])
  · rw [hfilled, State.buf_setBuf_same]
    refine ⟨_, rfl, ?_⟩
    rw [Buf.slot_setSlot, if_pos ⟨rfl, hi⟩, State.elem_setElem_same]
    exact ⟨rfl, rfl, rfl, rfl⟩

/-- Looking at the stamp of a slot leaves FULL and DATA (R315). -/
theorem Slot.age_full_data (q : Slot) (copying : Bool) (now : BitVec 32) : (q.age copying now).full = q.full ∧ (q.age copying now).data = q.data := by
  unfold Slot.age
  split
  · exact ⟨rfl, rfl⟩
  · exact ⟨rfl, rfl⟩

theorem copiesComplete : CopiesComplete := by
  intro s k g h hstate hsince gone count
  obtain ⟨hviews, hvbuf, hvelem⟩ := aside_of_frame ((s.dropEngine g).endViews_frame g)
  refine ⟨fun hb => ?_, fun b i x hb hdir hbuf hi => ?_, ?_⟩
  · obtain ⟨hahead, -, -⟩ := aside_of_frame (((s.dropEngine g).endViews g).discardAhead_frame g.col g.ctx g.e 2)
    exact ⟨_, exec_xferCompletion_scalar h hstate hsince hb, (hviews.trans hahead).sends _⟩
  · have hcopying : ((s.dropEngine g).endViews g).copying g.e g.ctx b i = (s.dropEngine g).copying g.e g.ctx b i := by
      rw [State.copying, hviews.engines]
      rfl
    have hage : ((s.dropEngine g).endViews g).ageSlot g.e g.ctx b i = ((s.dropEngine g).endViews g).setBuf g.e g.ctx b
        (some (x.setSlot i ((x.slot i).age ((s.dropEngine g).copying g.e g.ctx b i) (s.elem g.e).retcnt))) := by
      rw [State.ageSlot, State.modSlot_of_buf ((hvbuf ..).trans hbuf), hcopying, hvelem]
      rfl
    generalize hq : (x.slot i).age ((s.dropEngine g).copying g.e g.ctx b i) (s.elem g.e).retcnt = q at hage
    obtain ⟨hfull, hdata⟩ := (x.slot i).age_full_data ((s.dropEngine g).copying g.e g.ctx b i) (s.elem g.e).retcnt
    rw [hq] at hfull hdata
    have hex := exec_xferCompletion_fromSlot h hstate hsince hb hdir
    rw [hage] at hex
    generalize hu : (((s.dropEngine g).endViews g).setBuf g.e g.ctx b (some (x.setSlot i q))) = u at hex
    have hubuf : u.buf g.e g.ctx b = some (x.setSlot i q) := hu ▸ State.buf_setBuf_same ..
    have huaside : Aside (s.dropEngine g) u := hviews.trans (hu ▸ aside_setBuf ..)
    obtain ⟨hahead, habuf, -⟩ := aside_of_frame (u.discardAhead_frame g.col g.ctx g.e 2)
    have hslot : (x.setSlot i q).slot i = q := by rw [Buf.slot_setSlot, if_pos ⟨rfl, hi⟩]
    cases hha : g.ha with
    | true =>
      rw [hha] at hex
      dsimp only at hex
      rw [if_pos rfl] at hex
      obtain ⟨heng, htok, hmem, hstew⟩ := (huaside.trans hahead).sends ⟨g.target, g.sb, .scalar, BitVec.ofNat 64 g.len, none, g.tag, [fromEngine]⟩
      refine ⟨_, hex, heng, htok, hmem, hstew, x.setSlot i q, ?_, ?_, ?_, fun _ => ?_⟩
      · rw [State.buf_engineSend]
        exact (habuf ..).trans hubuf
      · rw [hslot, hfull, Bool.true_and]
      · rw [hslot, hdata, Bool.true_and]
      · rw [hslot, ← hq]
        rfl
    | false =>
      rw [hha] at hex
      dsimp only at hex
      rw [if_neg Bool.false_ne_true] at hex
      obtain ⟨heng, htok, hmem, hstew⟩ := ((huaside.trans hahead).trans (aside_modSlot _ g.e g.ctx b i Slot.freed)).sends
        ⟨g.target, g.sb, .scalar, BitVec.ofNat 64 g.len, none, g.tag, [fromEngine]⟩
      refine ⟨_, hex, heng, htok, hmem, hstew, (x.setSlot i q).setSlot i ((x.setSlot i q).slot i).freed, ?_, ?_, ?_, fun hc => by cases hc⟩
      · rw [State.buf_engineSend, State.modSlot_of_buf ((habuf ..).trans hubuf)]
        exact State.buf_setBuf_same ..
      · rw [Buf.slot_setSlot, if_pos ⟨rfl, (Buf.length_setSlot ..).symm ▸ hi⟩]
        rfl
      · rw [Buf.slot_setSlot, if_pos ⟨rfl, (Buf.length_setSlot ..).symm ▸ hi⟩]
        rfl
  · intro b i x hb hdir hbuf hi hfull hlen lines
    obtain ⟨hahead, habuf, haelem⟩ := aside_of_frame (((s.dropEngine g).endViews g).discardAhead_frame g.col g.ctx g.e 2)
    have hbuf1 := (habuf g.e g.ctx b).trans ((hvbuf ..).trans hbuf)
    obtain ⟨hfilled, hbytes, y, hy, hyfull, hydata, hylines, hystamp⟩ := State.slotFilled_slot hbuf1 hi hlen
    obtain ⟨heng, htok, hmem, hstew⟩ := ((hviews.trans hahead).trans hfilled).sends ⟨g.target, g.sb, .ref, mkRef b i (ceilDiv g.len 64), none, g.tag, []⟩
    refine ⟨_, exec_xferCompletion_toSlot h hstate hsince hb (by rw [hdir]; decide) hbuf1 hfull, heng, hmem, hstew, htok, ?_, y, ?_, hyfull, hydata, hylines, ?_⟩
    · rw [State.elem_engineSend]
      exact hbytes
    · rw [State.buf_engineSend]
      exact hy
    · rw [hystamp, haelem, hvelem]
      rfl

end Sys2Proof.Machine

namespace Sys2Proof

/-- Settles O42: the request that leaves, the chunk that it moves, and its end, each by the form of the copy. -/
theorem blockCopies : Obligations.BlockCopies := ⟨Machine.xferRequests, Machine.copiesMoveChunks, Machine.copiesComplete⟩

end Sys2Proof
end

section
/-! SUPPORT. O43: a Weir's requests, its contexts and its scans (13 R362 to R374). -/

namespace Sys2Proof.Machine

open Sys2Proof.Claims

/-! ### The record of a fault (Table 7.8) -/

/-- A fault of a tag that no purge covers and no open round holds is recorded with its code and tag (R262). -/
theorem State.raiseFault_code {s : State} {f : FaultInfo} (hp : s.purgedAt f.e f.tag = false)
    (hr : s.roundOf (tagCol f.tag) (s.loadidAt f.e (tagCtx f.tag)) (tagIter f.tag) = none) (hc : f.code < 16) :
    ∃ q, (s.raiseFault f).fab.faults = s.fab.faults ++ [q] ∧ nfld q.rcd 192 4 = f.code ∧ q.tag = f.tag := by
  have hrecord : nfld (mkRecord f ((s.partOfElem f.e).getD 0) (s.loadidAt f.e (tagCtx f.tag))) 192 4 = f.code :=
    (nfld_pack _ _ _ _ _ rfl (by simp)).trans (Nat.mod_eq_of_lt hc)
  rw [State.raiseFault]
  simp only [hp, hr, Bool.false_eq_true, if_false]
  obtain ⟨ps, ts, js, h⟩ := s.parkRange_frame ((s.partOfElem f.e).getD 0) (tagCol f.tag) (tagIter f.tag) (tagIter f.tag) (some (s.loadidAt f.e (tagCtx f.tag)))
  rw [h]
  refine ⟨_, rfl, ?_, rfl⟩
  dsimp only
  split
  · rw [nfld_setFld_ne _ _ _ _ _ _ (by decide) (by decide)]
    exact hrecord
  · exact hrecord

/-! ### Arrival (R363) -/

/-- A request that stands counts as one token; nothing else changes. -/
theorem State.stands_frame (s : State) (g : Engine) : ∃ cs, s.stands g = { s with colours := cs } := s.inflDown_colours g.col (g.held - 1)

section
variable {s : State} {k : Nat} {g : Engine} (h : Request s k 0xD1 g) (hstate : g.state = .sent) (hsince : g.since ≤ s.cycle)
include h hstate hsince

theorem exec_weirRequestArrival_refused {x : Nat × Nat} (hr : s.resolveScan g = .error x) : exec (.weirRequestArrival k) s = .next (s.refuseScan g x.1 x.2) := by
  obtain ⟨hk, hopc, -⟩ := h
  show execWeirRequestArrival k s = _
  rw [execWeirRequestArrival, hk]
  dsimp only
  rw [if_neg (by simp [hopc, hstate, hsince]), hr]

theorem exec_weirRequestArrival_stands {s1 : State} {q : Engine} (hr : s.resolveScan g = .ok (some (s1, q))) :
    exec (.weirRequestArrival k) s = .next ((s1.stands q).setEngine q.one) := by
  obtain ⟨hk, hopc, -⟩ := h
  show execWeirRequestArrival k s = _
  rw [execWeirRequestArrival, hk]
  dsimp only
  rw [if_neg (by simp [hopc, hstate, hsince]), hr]

/-- A request that fails its checks is parked, and its fault is recorded. -/
theorem weirRequest_refused {c a : Nat} (hr : s.resolveScan g = .error (c, a)) (hc : c < 16) : Ends (.weirRequestArrival k) s fun s' =>
    (∃ q ∈ s'.port.engines, q.id = g.id ∧ q.state = .suspended ∧ q.parked = true) ∧
    (s.purgedAt g.e g.tag = false → s.roundOf (tagCol g.tag) (s.loadidAt g.e (tagCtx g.tag)) (tagIter g.tag) = none →
      ∃ q : PendFault, s'.fab.faults = s.fab.faults ++ [q] ∧ nfld q.rcd 192 4 = c) ∧ s'.mem = s.mem ∧ s'.stew = s.stew := by
  obtain ⟨cs, hstands⟩ := s.stands_frame g
  have hex := exec_weirRequestArrival_refused h hstate hsince hr
  rw [State.refuseScan, hstands] at hex
  obtain ⟨hmem, hstew, hport, -⟩ := (State.setEngine { s with colours := cs } (g.one.parkedAs false)).raiseFault_rest { g.info c a 0 with cursor := none }
  have heng := State.setEngine_changed (s := s) (t := { s with colours := cs }) (g := g) (h := g.one.parkedAs false) rfl rfl
  refine ⟨_, hex, ⟨g.one.parkedAs false, ?_, rfl, rfl, rfl⟩, fun hp hround => ?_, hmem, hstew⟩
  · rw [hport, heng]
    exact Request.mem_changed h _
  · obtain ⟨q, hq, hcode, -⟩ := State.raiseFault_code (s := State.setEngine { s with colours := cs } (g.one.parkedAs false))
      (f := { g.info c a 0 with cursor := none }) hp hround hc
    exact ⟨q, hq, hcode⟩

end

/-- The codes with which a view refuses a request (R388). -/
theorem State.engineView_code {s : State} {g : Engine} {h : Word} {len c off : Nat} (hv : s.engineView g h len = .error (c, off)) : c < 16 := by
  unfold State.engineView at hv
  split at hv
  · cases hv
    decide
  · dsimp only at hv
    split at hv
    · cases hv
      decide
    · split at hv
      · cases hv
      · cases hv

theorem State.engineView_frame {s s1 : State} {g : Engine} {h : Word} {len a : Nat} {x : Option (Nat × Nat)}
    (hv : s.engineView g h len = .ok (some (s1, x, a))) : ∃ v, s1 = { s with cov := v } := by
  unfold State.engineView at hv
  split at hv
  · cases hv
  · dsimp only at hv
    split at hv
    · cases hv
    · split at hv
      · next hs =>
        cases hv
        exact State.startAccess_frame hs
      · cases hv

/-- A request that stands takes its place among the requests. -/
theorem State.standing {s : State} {g q : Engine} (hid : q.id = g.id) (htag : q.col = g.col) : ((s.stands q).setEngine q.one).port.engines = changed s g q.one ∧
    ((s.stands q).setEngine q.one).colours = (s.inflDown (tagCol g.tag) (q.held - 1)).colours ∧ ((s.stands q).setEngine q.one).mem = s.mem ∧
    ((s.stands q).setEngine q.one).fab = s.fab := by
  obtain ⟨cs, h⟩ := s.stands_frame q
  have heng := State.setEngine_changed (s := s) (t := s.stands q) (g := g) (h := q.one) (by rw [h]) hid
  refine ⟨heng, ?_, ?_, ?_⟩
  · rw [State.setEngine_colours, State.stands, htag]
    rfl
  · rw [State.setEngine_mem, h]
  · rw [State.setEngine_fab, h]

/-! ### Contexts (R369) -/

/-- The request is the first to arrive of those at its Weir that may take a context. -/
def State.firstToTake (s : State) (g : Engine) : Bool := s.port.engines.all fun x =>
  x.id == g.id || x.port != g.port || !s.mayTake x || decide (g.since < x.since) || (g.since == x.since && decide (g.id < x.id))

theorem State.firstToTake_iff (s : State) (g : Engine) : s.firstToTake g = true ↔
    ∀ x ∈ s.port.engines, x.id ≠ g.id → x.port = g.port → s.mayTake x = true → g.since < x.since ∨ (g.since = x.since ∧ g.id < x.id) := by
  rw [State.firstToTake, List.all_eq_true]
  refine forall₂_congr fun x _ => ?_
  simp only [Bool.or_eq_true, Bool.and_eq_true, beq_iff_eq, bne_iff_ne, Bool.not_eq_true', decide_eq_true_eq]
  by_cases hid : x.id = g.id
  · simp [hid]
  by_cases hp : x.port = g.port
  · cases s.mayTake x
    · simp
    · simp [hid, hp]
  · simp [hp]

theorem exec_weirContextTake {s : State} {k : Nat} {g : Engine} (h : Request s k 0xD1 g) : exec (.weirContextTake k) s = .next (
    if s.mayTake g && decide ((s.port.engines.filter fun x => x.port == g.port && x.inContext).length < 8) && s.firstToTake g
    then s.setEngine { g with state := .running } else s) := by
  obtain ⟨hk, -, -⟩ := h
  show execWeirContextTake k s = _
  rw [execWeirContextTake, hk]
  rfl

theorem weirRequests : WeirRequests := by
  refine ⟨fun o s f hf => weirAsks hf, ?_, ?_⟩
  · intro s k g h hstate hsince base w last fails
    have hfails {c a : Nat} (hr : s.resolveScan g = .error (c, a)) (hc : c < 16) : fails c := weirRequest_refused h hstate hsince hr hc
    have hbad (hctl : g.ctlOk = false) : s.resolveScan g = .error (cConfig, base) := if_pos (by rw [hctl]; rfl)
    have hplain (hctl : g.ctlOk = true) (hvw : g.vw = false) : s.resolveScan g =
        if base % w ≠ 0 then .error (cAlign, base) else if 2 ^ 57 ≤ base ∨ 2 ^ 57 ≤ last then .error (cTranslation, base)
        else .ok (some (s, { g with state := .waiting, base := some (base, 0) })) := by
      rw [State.resolveScan]
      rw [if_neg (by simp [hctl]), if_neg (by simp [hvw])]
      rfl
    refine ⟨fun hctl => hfails (hbad hctl) (by decide), fun hctl hvw ha => hfails ((hplain hctl hvw).trans (if_pos ha)) (by decide),
      fun hctl hvw ha hfar => hfails ((hplain hctl hvw).trans ((if_neg (not_not.mpr ha)).trans (if_pos hfar))) (by decide), fun hctl hvw ha hb hl => ?_, fun c off hctl hvw hv => ?_, fun s1 x a hctl hvw hv => ?_⟩
    · have hr := hplain hctl hvw
      rw [if_neg (by simpa using ha), if_neg (by omega)] at hr
      obtain ⟨heng, hcol, hmem, hfab⟩ := State.standing (s := s) (q := { g with state := .waiting, base := some (base, 0) }) (g := g) rfl rfl
      exact ⟨_, exec_weirRequestArrival_stands h hstate hsince hr, heng, hcol, hmem, hfab⟩
    · have hr : s.resolveScan g = .error (c, off) := by
        rw [State.resolveScan, if_neg (by simp [hctl]), if_pos hvw, show s.engineView g (BitVec.ofNat 64 (nfld g.pkt 64 64)) g.span = _ from hv]
      exact hfails hr (State.engineView_code hv)
    · have hr : s.resolveScan g = .ok (some (s1, { g with state := .waiting, started := x, base := some (a, 0) })) := by
        rw [State.resolveScan, if_neg (by simp [hctl]), if_pos hvw, show s.engineView g (BitVec.ofNat 64 (nfld g.pkt 64 64)) g.span = _ from hv]
      obtain ⟨v, rfl⟩ := State.engineView_frame hv
      obtain ⟨heng, -, hmem, hfab⟩ := State.standing (s := { s with cov := v }) (q := { g with state := .waiting, started := x, base := some (a, 0) }) (g := g) rfl rfl
      exact ⟨_, exec_weirRequestArrival_stands h hstate hsince hr, heng, hmem, hfab⟩
  · intro s k g h used first
    have hfirst : s.firstToTake g = true ↔ first := s.firstToTake_iff g
    have hex := exec_weirContextTake h
    refine ⟨fun hm hu hf => ?_, fun hno => ?_⟩
    · refine hex.trans (congrArg _ ((if_pos ?_).trans ?_))
      · rw [hm, hfirst.mpr hf, show decide (_ < 8) = true from decide_eq_true hu]
        rfl
      · exact congrArg (fun l => { s with port := { s.port with engines := l } }) (State.setEngine_changed (s := s) (t := s) rfl rfl)
    · refine hex.trans (congrArg _ (if_neg fun hall => ?_))
      rw [Bool.and_eq_true, Bool.and_eq_true, decide_eq_true_eq] at hall
      obtain ⟨⟨hm, hu⟩, hf⟩ := hall
      obtain hno | hno | hno := hno
      · rw [hm] at hno
        cases hno
      · exact absurd hu (Nat.not_lt.mpr hno)
      · exact hno (hfirst.mp hf)

end Sys2Proof.Machine
end

section
/-! SUPPORT. O43, concluded: the chunks, the comparator and the results of a scan (13 R364 to R374). -/

namespace Sys2Proof.Machine

open Sys2Proof.Claims

/-! ### The comparator (R365) -/

/-- A datum's key depends on the bits of its format alone. -/
theorem rankKey_mod (f : Fmt) {n w : Nat} (h : f.bits ≤ w) : rankKey f (n % 2 ^ w) = rankKey f n := by
  have hlow : n % 2 ^ w % 2 ^ f.bits = n % 2 ^ f.bits := Nat.mod_mod_of_dvd _ (Nat.pow_dvd_pow 2 h)
  have hfield (lo len : Nat) (hle : lo + len ≤ w) : n % 2 ^ w / 2 ^ lo % 2 ^ len = n / 2 ^ lo % 2 ^ len := by
    apply Nat.eq_of_testBit_eq
    intro i
    simp only [Nat.testBit_mod_two_pow, Nat.testBit_div_two_pow]
    by_cases hi : i < len
    · simp [hi, show i + lo < w by omega]
    · simp [hi]
  have hbits : f.bits = f.eb + f.fb + 1 := rfl
  have hfrac : n % 2 ^ w % 2 ^ f.fb = n % 2 ^ f.fb := Nat.mod_mod_of_dvd _ (Nat.pow_dvd_pow 2 (by omega))
  have hexp := hfield f.fb f.eb (by omega)
  have hsign := hfield (f.eb + f.fb) 1 (by omega)
  have htop := hfield (f.bits - 1) 1 (by omega)
  rw [pow_one] at hsign htop
  unfold rankKey Fmt.read
  simp only [hlow, hfrac, hexp, hsign, htop]

/-- The key by which the comparator ranks a pair. -/
def pairKey32 (f : Fmt) (x : Word × BitVec 8) : Nat := rankKey f (x.1.toNat % 2 ^ 32)

theorem rankKey_pairVal {ty : Ty} (h : isFp ty = true) (x : Word × BitVec 8) : rankKey (fmtOf ty) (pairVal ty x.1) = pairKey32 (fmtOf ty) x := by
  have hbits : (fmtOf ty).bits = tyBits ty := by
    revert h
    cases ty <;> decide
  rw [pairVal, pairKey32, rankKey_mod _ (by rw [hbits]), rankKey_mod]
  rw [hbits]
  exact tyBits_le_of_isFp h

theorem rankPair_cons {ty : Ty} (h : isFp ty = true) (x y : Word × BitVec 8) (l : List (Word × BitVec 8)) : 
    (pairAbove (fmtOf ty) x y → rankPair ty x (y :: l) = x :: y :: l) ∧ (¬ pairAbove (fmtOf ty) x y → rankPair ty x (y :: l) = y :: rankPair ty x l) := by
  have habove : (outranks (fmtOf ty) true (pairVal ty x.1) (pairVal ty y.1) ||
      (!outranks (fmtOf ty) true (pairVal ty y.1) (pairVal ty x.1) && decide (pairIdx x.1 < pairIdx y.1))) = true ↔ pairAbove (fmtOf ty) x y := by
    have hidx (z : Word × BitVec 8) : pairIdx z.1 = z.1.toNat / 2 ^ 32 := Nat.mod_eq_of_lt (Nat.div_lt_of_lt_mul z.1.isLt)
    simp only [outranks, rankKey_pairVal h, hidx, if_true, Bool.or_eq_true, Bool.and_eq_true, Bool.not_eq_true', decide_eq_true_eq, decide_eq_false_iff_not]
    show pairKey32 (fmtOf ty) y < pairKey32 (fmtOf ty) x ∨ _ ↔ pairKey32 (fmtOf ty) y < pairKey32 (fmtOf ty) x ∨ (pairKey32 (fmtOf ty) x = pairKey32 (fmtOf ty) y ∧ _)
    omega
  exact ⟨fun ha => if_pos (habove.mpr ha), fun ha => if_neg (mt habove.mp ha)⟩

theorem rankPair_perm (ty : Ty) (x : Word × BitVec 8) (l : List (Word × BitVec 8)) : (rankPair ty x l).Perm (x :: l) := by
  induction l with
  | nil => exact .refl _
  | cons y l ih =>
    rw [rankPair]
    split
    · exact .refl _
    · exact (ih.cons y).trans (.swap x y l)

/-- Of a list in rank order, only the first k matter to the first k of the longer one. -/
theorem take_rankPair_take (ty : Ty) (x : Word × BitVec 8) (k : Nat) (l : List (Word × BitVec 8)) :
    (rankPair ty x (l.take k)).take k = (rankPair ty x l).take k := by
  induction l generalizing k with
  | nil => rw [List.take_nil]
  | cons y l ih =>
    cases k with
    | zero => rfl
    | succ k =>
      rw [List.take_succ_cons, rankPair, rankPair]
      split
      · cases k with
        | zero => rfl
        | succ k => simp [List.take_take]
      · rw [List.take_succ_cons, List.take_succ_cons, ih]

/-- All pairs of a list in rank order. -/
def rankAll (ty : Ty) (best l : List (Word × BitVec 8)) : List (Word × BitVec 8) := l.foldl (fun b x => rankPair ty x b) best

/-- The K best are the first K of all in rank order. -/
theorem keepBest_eq_take (ty : Ty) (k : Nat) (best l : List (Word × BitVec 8)) : keepBest ty k (best.take k) l = (rankAll ty best l).take k := by
  induction l generalizing best with
  | nil => rfl
  | cons x l ih => rw [keepBest, take_rankPair_take, ih, rankAll, rankAll, List.foldl_cons]

theorem rankAll_perm (ty : Ty) (best l : List (Word × BitVec 8)) : (rankAll ty best l).Perm (best ++ l) := by
  induction l generalizing best with
  | nil => simp [rankAll]
  | cons x l ih =>
    rw [rankAll, List.foldl_cons]
    refine (ih _).trans (((rankPair_perm ty x best).append_right l).trans ?_)
    exact List.perm_middle.symm

theorem pairAbove_trans {f : Fmt} {x y z : Word × BitVec 8} (hxy : pairAbove f x y) (hyz : pairAbove f y z) : pairAbove f x z := by
  simp only [pairAbove] at hxy hyz ⊢
  omega

/-- Of two pairs of different indices one stands above the other. -/
theorem pairAbove_total {f : Fmt} {x y : Word × BitVec 8} (h : x.1.toNat / 2 ^ 32 ≠ y.1.toNat / 2 ^ 32) (hn : ¬ pairAbove f x y) : pairAbove f y x := by
  simp only [pairAbove] at hn ⊢
  omega

/-- A pair put into a list in rank order stands in its rank. -/
theorem rankPair_pairwise {ty : Ty} (h : isFp ty = true) (x : Word × BitVec 8) {l : List (Word × BitVec 8)} (hl : l.Pairwise (pairAbove (fmtOf ty)))
    (hidx : ∀ y ∈ l, x.1.toNat / 2 ^ 32 ≠ y.1.toNat / 2 ^ 32) : (rankPair ty x l).Pairwise (pairAbove (fmtOf ty)) := by
  induction l with
  | nil => exact List.pairwise_singleton ..
  | cons y l ih =>
    obtain ⟨hy, hrest⟩ := List.pairwise_cons.mp hl
    obtain ⟨hfirst, hlater⟩ := rankPair_cons h x y l
    by_cases ha : pairAbove (fmtOf ty) x y
    · rw [hfirst ha]
      refine List.pairwise_cons.mpr ⟨fun z hz => ?_, hl⟩
      obtain rfl | hz := List.mem_cons.mp hz
      · exact ha
      · exact pairAbove_trans ha (hy z hz)
    · rw [hlater ha]
      refine List.pairwise_cons.mpr ⟨fun z hz => ?_, ih hrest fun z hz => hidx z (List.mem_cons_of_mem _ hz)⟩
      obtain rfl | hz := List.mem_cons.mp ((rankPair_perm ty x l).mem_iff.mp hz)
      · exact pairAbove_total (hidx y List.mem_cons_self) ha
      · exact hy z hz

theorem rankAll_pairwise {ty : Ty} (h : isFp ty = true) {best l : List (Word × BitVec 8)} (hb : best.Pairwise (pairAbove (fmtOf ty)))
    (hidx : ((best ++ l).map fun x => x.1.toNat / 2 ^ 32).Nodup) : (rankAll ty best l).Pairwise (pairAbove (fmtOf ty)) := by
  induction l generalizing best with
  | nil => exact hb
  | cons x l ih =>
    have hperm : ((x :: best ++ l).map fun x => x.1.toNat / 2 ^ 32).Nodup := (List.perm_middle.map _).nodup_iff.mp hidx
    rw [rankAll, List.foldl_cons]
    refine ih (rankPair_pairwise h x hb fun y hy => ?_) ?_
    · rw [List.cons_append, List.map_cons, List.nodup_cons] at hperm
      exact fun he => hperm.1 (List.mem_map.mpr ⟨y, List.mem_append_left l hy, he.symm⟩)
    · exact ((((rankPair_perm ty x best).append_right l).map _).nodup_iff).mpr hperm

/-- The comparator keeps the K best pairs, in rank order (R365). -/
theorem keepBest_best {ty : Ty} (k : Nat) {l : List (Word × BitVec 8)} (h : isFp ty = true) (hidx : (l.map fun x => x.1.toNat / 2 ^ 32).Nodup) :
    (keepBest ty k [] l).length = min k l.length ∧ (keepBest ty k [] l).Pairwise (pairAbove (fmtOf ty)) ∧ (∀ x ∈ keepBest ty k [] l, x ∈ l) ∧
      ∀ x ∈ l, x ∉ keepBest ty k [] l → ∀ y ∈ keepBest ty k [] l, pairAbove (fmtOf ty) y x := by
  have hperm : (rankAll ty [] l).Perm l := rankAll_perm ty [] l
  have hsorted := rankAll_pairwise (best := []) h List.Pairwise.nil hidx
  have hkeep : keepBest ty k [] l = (rankAll ty [] l).take k := by
    rw [← keepBest_eq_take, List.take_nil]
  rw [hkeep]
  generalize rankAll ty [] l = r at hperm hsorted
  refine ⟨by rw [List.length_take, hperm.length_eq], hsorted.sublist (List.take_sublist ..), fun x hx => hperm.mem_iff.mp (List.mem_of_mem_take hx), fun x hx hn y hy => ?_⟩
  rw [← List.take_append_drop k r] at hsorted hperm
  have hdrop : x ∈ r.drop k := (List.mem_append.mp (hperm.mem_iff.mpr hx)).resolve_left hn
  exact (List.pairwise_append.mp hsorted).2.2 y hy x hdrop

/-! ### Chunks (R372) -/

/-- A candidate of a scan as the statement places it. -/
def Engine.place (g : Engine) (base c : Nat) : Nat := base + c * g.stride * g.width

/-- The state with other heat counts. -/
def State.heated (s : State) (ht : Tbl (BitVec 128)) : State := { s with mem := { s.mem with heat := ht } }

section
variable (s1 : State) (g : Engine) (base pg p0 key : Nat)

/-- The pair that a candidate gives, from the page `p0` of its datum. -/
def candPair (c : Nat) : Word × BitVec 8 :=
  (mkPair c (ofBytes (s1.mem.read key (p0 + g.place base c % 65536) g.width)), tget 0 s1.mem.sbits (p0 + g.place base c % 65536) &&& 0x1F)

/-- The candidates that qualify, as pairs. -/
def candPairs (l : List Nat) : List (Word × BitVec 8) :=
  (l.filter fun c => g.qualifies (ofBytes (s1.mem.read key (p0 + g.place base c % 65536) g.width))).map (candPair s1 g base p0 key)

/-- A candidate lies in the page at hand, without an uncorrectable error. -/
def InPage (c : Nat) : Prop := g.place base c < 2 ^ 64 ∧ g.place base c / 65536 * 65536 = pg ∧ s1.mem.bad (p0 + g.place base c % 65536) g.width = false

/-- Candidates of the page in hand are read one by one, and heat it (R348, R372). -/
theorem State.scanList_page (ht : Tbl (BitVec 128)) {l : List Nat} (h : ∀ c ∈ l, InPage s1 g base pg p0 c) :
    ∃ ht', (s1.heated ht).scanList g base l (some (pg, p0, key)) = ⟨s1.heated ht', candPairs s1 g base p0 key l, none⟩ := by
  induction l generalizing ht with
  | nil => exact ⟨ht, rfl⟩
  | cons c l ih =>
    obtain ⟨hlt, hpg, hbad⟩ := h c List.mem_cons_self
    obtain ⟨ht1, hheat⟩ := (s1.heated ht).heatUp_frame g.port (p0 + g.place base c % 65536) 1 0
    obtain ⟨ht2, hrest⟩ := ih ht1 fun x hx => h x (List.mem_cons_of_mem _ hx)
    refine ⟨ht2, ?_⟩
    have hva : (base + c * g.stride * g.width) % 2 ^ 64 = g.place base c := Nat.mod_eq_of_lt hlt
    have hread : (s1.heated ht).mem.read key (p0 + g.place base c % 65536) g.width = s1.mem.read key (p0 + g.place base c % 65536) g.width :=
      Mem.read_congr fun _ => rfl
    rw [State.scanList, hva, hpg, if_pos rfl]
    refine (if_neg (Bool.eq_false_iff.mp hbad)).trans ?_
    rw [hheat, show ({ s1.heated ht with mem := { (s1.heated ht).mem with heat := ht1 } } : State) = s1.heated ht1 from rfl, hrest, hread, candPairs, candPairs,
      List.filter_cons]
    by_cases hq : g.qualifies (ofBytes (s1.mem.read key (p0 + g.place base c % 65536) g.width)) = true
    · rw [if_pos hq, if_pos hq]
      rfl
    · rw [if_neg hq, if_neg hq]

/-- The first candidate walks to its page; the others find it in hand. -/
theorem State.scanList_walk {s s1 : State} {g : Engine} {base p0 key c : Nat} {l : List Nat} (hlt : g.place base c < 2 ^ 64)
    (hw : s.enginePhys g g.vw false (g.place base c / 65536 * 65536) = (s1, .ok (p0, key))) :
    s.scanList g base (c :: l) none = s1.scanList g base (c :: l) (some (g.place base c / 65536 * 65536, p0, key)) := by
  have hva : (base + c * g.stride * g.width) % 2 ^ 64 = g.place base c := Nat.mod_eq_of_lt hlt
  rw [State.scanList, State.scanList, hva, hw, if_pos rfl]

end

theorem exec_weirChunk {s t : State} {k : Nat} {g : Engine} {b : Nat × Nat} {ps : List (Word × BitVec 8)} (h : Request s k 0xD1 g) (hstate : g.state = .running)
    (hsaved : g.saved = false) (hbase : g.base = some b) (hcur : g.cursor < g.count) (hpairs : g.keeps = 0 → g.pairs = [])
    (hscan : s.scanList g b.1 (rangeFrom g.cursor (Nat.min 1024 (g.count - g.cursor))) none = ⟨t, ps, none⟩) :
    exec (.weirChunk k) s = .next (
      let kept := if g.keeps = 0 then ps else keepBest g.ty g.keeps g.pairs ps
      t.setEngine { g with cursor := g.cursor + Nat.min 1024 (g.count - g.cursor), pairs := kept, copy := if g.keeps = 0 then [] else kept,
                           state := if g.count ≤ g.cursor + Nat.min 1024 (g.count - g.cursor) then .finished else .running }) := by
  obtain ⟨hk, hopc, -⟩ := h
  have hready : ¬(g.opc ≠ 0xD1 ∨ g.state ≠ .running ∨ g.saved = true ∨ (g.keeps = 0 ∧ (!g.pairs.isEmpty) = true) ∨ g.count ≤ g.cursor) := by
    rintro (hn | hn | hn | ⟨h0, hn⟩ | hn)
    · exact hn hopc
    · exact hn hstate
    · rw [hsaved] at hn
      cases hn
    · rw [hpairs h0] at hn
      cases hn
    · exact absurd hcur (Nat.not_lt.mpr hn)
  show execWeirChunk k s = _
  rw [execWeirChunk, hk]
  dsimp only
  rw [hbase]
  dsimp only
  rw [if_neg hready, hscan]

/-- A running scan takes its next candidates. -/
theorem weirChunk_scans {s s1 : State} {k base x p0 key : Nat} {g : Engine} (h : Request s k 0xD1 g) (hstate : g.state = .running)
    (hsaved : g.saved = false) (hbase : g.base = some (base, x)) (hcur : g.cursor < g.count) (hpairs : g.keeps = 0 → g.pairs = [])
    (hlast : g.place base (g.cursor + min 1024 (g.count - g.cursor) - 1) < 2 ^ 57)
    (hpage : ∀ c, g.cursor ≤ c → c < g.cursor + min 1024 (g.count - g.cursor) → g.place base c / 65536 = g.place base g.cursor / 65536 ∧
      s1.mem.bad (p0 + g.place base c % 65536) g.width = false)
    (hwalk : s.enginePhys g g.vw false (g.place base g.cursor / 65536 * 65536) = (s1, .ok (p0, key))) :
    Ends (.weirChunk k) s fun s' =>
      let n := min 1024 (g.count - g.cursor)
      let pairs := candPairs s1 g base p0 key (List.range' g.cursor n)
      let kept := if g.keeps = 0 then pairs else keepBest g.ty g.keeps g.pairs pairs
      s'.port.engines = changed s g { g with cursor := g.cursor + n, pairs := kept, copy := if g.keeps = 0 then [] else kept,
                                             state := if g.count ≤ g.cursor + n then .finished else .running } ∧
      s'.mem.mem = s.mem.mem ∧ s'.mem.host = s.mem.host ∧ s'.mem.peer = s.mem.peer ∧ s'.stew = s.stew ∧ s'.fab.tokens = s.fab.tokens := by
  have hplace (c : Nat) (hc : c < g.cursor + min 1024 (g.count - g.cursor)) : g.place base c < 2 ^ 64 := by
    have hmono : c * g.stride * g.width ≤ (g.cursor + min 1024 (g.count - g.cursor) - 1) * g.stride * g.width :=
      Nat.mul_le_mul_right _ (Nat.mul_le_mul_right _ (by omega))
    rw [Engine.place] at hlast ⊢
    omega
  have hin (c : Nat) (hc : c ∈ List.range' g.cursor (min 1024 (g.count - g.cursor))) : InPage s1 g base (g.place base g.cursor / 65536 * 65536) p0 c := by
    obtain ⟨hle, hlt⟩ := List.mem_range'_1.mp hc
    obtain ⟨hpg, hbad⟩ := hpage c hle hlt
    exact ⟨hplace c hlt, by rw [hpg], hbad⟩
  obtain ⟨wc, hv, rfl⟩ : WalksOnly s s1 := by
    have hwalks := s.enginePhys_walks g g.vw false (g.place base g.cursor / 65536 * 65536)
    rw [hwalk] at hwalks
    exact hwalks
  obtain ⟨ht, hscan⟩ := State.scanList_page _ g base _ p0 key s.mem.heat hin
  have hfirst : rangeFrom g.cursor (Nat.min 1024 (g.count - g.cursor)) = g.cursor :: rangeFrom (g.cursor + 1) (Nat.min 1024 (g.count - g.cursor) - 1) := by
    obtain ⟨m, hm⟩ := Nat.exists_eq_add_one_of_ne_zero (show Nat.min 1024 (g.count - g.cursor) ≠ 0 from (show min 1024 (g.count - g.cursor) ≠ 0 by omega))
    rw [hm]
    rfl
  have hall := State.scanList_walk (l := rangeFrom (g.cursor + 1) (Nat.min 1024 (g.count - g.cursor) - 1)) (hplace g.cursor (by omega)) hwalk
  rw [← hfirst] at hall
  rw [← rangeFrom_eq_range'] at hscan
  have hex := exec_weirChunk (b := (base, x)) h hstate hsaved hbase hcur hpairs (hall.trans hscan)
  rw [rangeFrom_eq_range'] at hex
  exact ⟨_, hex, State.setEngine_changed rfl rfl, rfl, rfl, rfl, rfl, rfl⟩

/-! ### Results, completion and resumption (R366, R367, R369, R374) -/

theorem sameWays_setEngine (s : State) (g : Engine) : SameWays s (s.setEngine g) := ⟨rfl, rfl, rfl, fun _ _ => rfl⟩

theorem exec_weirResultSend {s : State} {k : Nat} {g : Engine} {p : Word} {b : BitVec 8} {ps : List (Word × BitVec 8)} (h : Request s k 0xD1 g)
    (hpairs : g.pairs = (p, b) :: ps) (hctx : g.inContext = true) (hdone : 0 < g.keeps → g.state = .finished) : exec (.weirResultSend k) s = .next (
      if (s.credit (weirNum g.port) g.col).units = 0 then s.askCredit (weirNum g.port) g.col 1
      else ((s.setCredit (weirNum g.port) g.col ⟨(s.credit (weirNum g.port) g.col).units - 1, s.cycle⟩).setEngine { g with pairs := ps, sent := g.sent + 1 }).engineSend g
        ⟨hereTarget (nfld g.pkt 283 5) (nfld g.pkt 281 2), g.sb ||| b, .scalar, pairOut g.ty (pairIdx p, pairVal g.ty p), none, g.tag, []⟩) := by
  obtain ⟨hk, -, -⟩ := h
  have hready : ¬((!g.inContext) = true ∨ (0 < g.keeps ∧ g.state ≠ .finished)) := by
    rintro (hn | ⟨hn, hs⟩)
    · rw [hctx] at hn
      cases hn
    · exact hs (hdone hn)
  show execWeirResultSend k s = _
  rw [execWeirResultSend, hk]
  dsimp only
  rw [hpairs]
  dsimp only
  rw [if_neg hready]

theorem exec_weirCompletion {s : State} {k : Nat} {g : Engine} (h : Request s k 0xD1 g) (hstate : g.state = .finished) (hpairs : g.pairs = []) :
    exec (.weirCompletion k) s = .next ((((s.dropEngine g).endViews g).discardAhead g.col g.ctx g.e 2).engineSend g
      ⟨g.target, g.sb, .scalar, BitVec.ofNat 64 g.sent, none, g.tag, [fromEngine]⟩) := by
  obtain ⟨hk, hopc, -⟩ := h
  show execWeirCompletion k s = _
  rw [execWeirCompletion, hk]
  dsimp only
  rw [if_pos ⟨hopc, hstate, by rw [hpairs]; rfl⟩]

/-- A part of the bytes that a port reads are the bytes from there on. -/
theorem Mem.btake_read (m : Mem) (key a : Nat) {n off len : Nat} (h : off + len ≤ n) : btake (m.read key a n) off len = m.read key (a + off) len := by
  rw [btake, take_drop_eq_map_range 0 (by rw [Mem.length_read]; exact h)]
  conv_rhs => rw [← map_nth_range 0 (m.read key (a + off) len), Mem.length_read]
  refine List.map_congr_left fun i hi => ?_
  have hlt := List.mem_range.mp hi
  rw [Mem.nth_read _ _ _ _ (by omega), Mem.nth_read _ _ _ _ hlt, Nat.add_assoc]

theorem Mem.bnat_read (m : Mem) (key a : Nat) {n off len : Nat} (h : off + len ≤ n) : bnat (m.read key a n) off len = ofBytes (m.read key (a + off) len) :=
  congrArg ofBytes (m.btake_read key a h)

/-- A request that takes up the scan of its save record, given the packet, the cursor and the pairs that it had. -/
def Engine.resumed (g : Engine) (pkt : BitVec 384) (c : Nat) (ps : List (Word × BitVec 8)) : Engine :=
  { g with pkt := pkt, cursor := c, pairs := ps, copy := ps, saved := false }

theorem Engine.resumed_fields (g : Engine) (pkt : BitVec 384) (c : Nat) (ps : List (Word × BitVec 8)) :
    (g.resumed pkt c ps).id = g.id ∧ (g.resumed pkt c ps).saved = false ∧ (g.resumed pkt c ps).cursor = c ∧ (g.resumed pkt c ps).state = g.state ∧
    (g.resumed pkt c ps).pairs = (g.resumed pkt c ps).copy := ⟨rfl, rfl, rfl, rfl, rfl⟩

theorem exec_weirResume {s : State} {k pa key : Nat} {g : Engine} (h : Request s k 0xD1 g) (hstate : g.state = .running) (hsaved : g.saved = true)
    (hphys : s.savePhys g (s.saveAt g g.saveIdx) false = .ok (pa, key)) (hbad : s.mem.bad pa (48 + 8 * g.keeps) = false) :
    ∃ pkt ps, exec (.weirResume k) s = .next (s.setEngine (g.resumed pkt (bnat (s.mem.read key pa 560) 40 4) ps)) := by
  obtain ⟨hk, hopc, -⟩ := h
  have hgo : ¬(g.opc ≠ 0xD1 ∨ g.state ≠ .running ∨ (!g.saved) = true) := by simp [hopc, hstate, hsaved]
  show ∃ pkt ps, execWeirResume k s = _
  simp only [execWeirResume, hk, if_neg hgo, hphys, hbad, if_neg Bool.false_ne_true]
  exact ⟨_, _, rfl⟩

theorem weirScans : WeirScans := by
  refine ⟨?_, fun ty k l h hidx => keepBest_best k h hidx, ?_, ?_, ?_⟩
  · intro s s1 k base x p0 key g h hstate hsaved hbase hcur hpairs w n place value bits pairs hlast hpage hwalk
    exact weirChunk_scans h hstate hsaved hbase hcur hpairs hlast hpage hwalk
  · intro s k g p b ps h hpairs hctx hdone c w x
    have hex := exec_weirResultSend h hpairs hctx hdone
    refine ⟨fun hunits => ?_, fun hunits => ?_⟩
    · rw [if_neg (show ¬(s.credit (weirNum g.port) g.col).units = 0 from Nat.pos_iff_ne_zero.mp hunits)] at hex
      have hways : SameWays s (s.setCredit (weirNum g.port) g.col ⟨(s.credit (weirNum g.port) g.col).units - 1, s.cycle⟩) := sameWays_setElem s _ _ (by rfl)
      have hways' := hways.trans (sameWays_setEngine _ { g with pairs := ps, sent := g.sent + 1 })
      have hidx : pairIdx p = p.toNat / 2 ^ 32 := Nat.mod_eq_of_lt (Nat.div_lt_of_lt_mul p.isLt)
      refine ⟨_, hex, ?_⟩
      rw [State.engineSend, State.sendFrom_sent, hways'.sent, hidx]
      refine ⟨State.setEngine_changed rfl rfl, rfl, ?_, rfl, rfl, rfl⟩
      show ((s.setCredit w c _).elem w).credits = _
      rw [State.setCredit, State.elem_setElem_same]
      rfl
    · rw [if_pos (show (s.credit (weirNum g.port) g.col).units = 0 from hunits)] at hex
      exact hex
  · intro s k g h hstate hpairs
    obtain ⟨hviews, -, -⟩ := aside_of_frame ((s.dropEngine g).endViews_frame g)
    obtain ⟨hahead, -, -⟩ := aside_of_frame (((s.dropEngine g).endViews g).discardAhead_frame g.col g.ctx g.e 2)
    obtain ⟨heng, htok, hmem, hstew⟩ := (hviews.trans hahead).sends ⟨g.target, g.sb, .scalar, BitVec.ofNat 64 g.sent, none, g.tag, [fromEngine]⟩
    exact ⟨_, exec_weirCompletion h hstate hpairs, heng, hmem, hstew, htok⟩
  · intro s k pa key g h hstate hsaved hphys hbad
    obtain ⟨pkt, ps, hex⟩ := exec_weirResume h hstate hsaved hphys hbad
    obtain ⟨hid, hsav, hcur, hst, hcopy⟩ := g.resumed_fields pkt (bnat (s.mem.read key pa 560) 40 4) ps
    exact ⟨_, hex, g.resumed pkt (bnat (s.mem.read key pa 560) 40 4) ps, State.setEngine_changed rfl hid, hsav,
      hcur.trans (Mem.bnat_read _ _ _ (by omega)), hst.trans hstate, hcopy, rfl, rfl, rfl⟩

end Sys2Proof.Machine

namespace Sys2Proof

/-- Settles O43: the request by its checks, the context by the order of arrival, the scan candidate by candidate, and the comparator as the first K of a list
in rank order. -/
theorem weirSelects : Obligations.WeirSelects := ⟨Machine.weirRequests, Machine.weirScans⟩

end Sys2Proof
end

section
/-! SUPPORT. View instructions at their element (06 R221 to R225), and what their Trimmer does with them (14 R382 to R390). -/

namespace Sys2Proof.Machine

open Sys2Proof.Claims

/-! ### At the element -/

section
variable (s : State) (f : Firing) (o : Ops) (k : AKind) (x y : Val) (ch : Opnd) (region : Nat)

/-- The access that a view node hands to the Trimmer of a region's die. -/
def viewAccess : Access :=
  let sb := sbOr [x.sb, y.sb]
  ⟨s.port.next, k, 128 + (if regionDie region < 4 then regionDie region else 0), f.e, f.ctx, f.slot, f.word, f.tag, sb, x.v, y.v, 0,
    (chainTok f o ch).map fun t => t.sb, (match chainTok f o ch with | some t => t.hist | none => []), 0x7F, none, none, s.cycle + 1, false, false, f.ops,
    Nat.max f.count (outCount (nodeOuts f sb (chainTok f o ch))), s.loadidAt f.e f.ctx⟩

theorem State.viewNode_eq : s.viewNode f o k x y ch region =
    let outs := nodeOuts f (sbOr [x.sb, y.sb]) (chainTok f o ch)
    if sbDead (sbOr [x.sb, y.sb]) then s.fire f o 1 outs (sbOr [x.sb, y.sb])
    else
      let s1 := s.settleHeld f.e (tagCol f.tag) f.count (outCount outs)
      { s1 with port := { s1.port with accesses := s1.port.accesses ++ [viewAccess s f o k x y ch region], next := s1.port.next + 1 }, focus := .thread 0 } := by
  have hhist : ((chainTok f o ch).map fun t => chainOut f.tag t.sb (match chainTok f o ch with | some t => t.hist | none => [])) =
      (chainTok f o ch).map fun t => chainOut f.tag t.sb t.hist := by cases chainTok f o ch <;> rfl
  unfold State.viewNode viewAccess nodeOuts
  rw [← hhist]
  rfl

end

theorem chainTok_none (f : Firing) (o : Ops) : chainTok f o .none = none := by
  unfold chainTok
  split <;> rfl

/-- The view nodes, each with its kind, operands, chain and region (Table 6.3). -/
theorem exec_viewNode {o : Ops} {s : State} {f : Firing} (hf : s.focus = .node f) {i : Instr} {kind : AKind} {x y : Val} {chain : Option Token} {region : Nat}
    (h : (i, kind, x, y, chain, region) ∈ ([
      (.viewmk o, .viewmk, s.opVal .u32 o.imm o.a, s.opVal .x64 o.imm o.b, none, (s.opVal .u32 o.imm o.a).v.toNat % 2 ^ 32),
      (.viewdup o, .viewdup, s.opVal .x64 o.imm o.a, s.opVal .x64 o.imm o.b, none, (s.opVal .x64 o.imm o.a).v.toNat / 65536 % 65536),
      (.narrow o, .narrow, s.opVal .x64 o.imm o.a, s.opVal .x64 o.imm o.b, chainTok f o o.c, (s.opVal .x64 o.imm o.a).v.toNat / 65536 % 65536),
      (.viewq o, .viewq, s.opVal .x64 o.imm o.a, ⟨0, 0⟩, chainTok f o o.b, (s.opVal .x64 o.imm o.a).v.toNat / 65536 % 65536),
      (.viewdrop o, .viewdrop, s.opVal .x64 o.imm o.a, ⟨0, 0⟩, chainTok f o o.b, (s.opVal .x64 o.imm o.a).v.toNat / 65536 % 65536)]
      : List (Instr × AKind × Val × Val × Option Token × Nat))) :
    ∃ ch, exec i s = .next (s.viewNode f o kind x y ch region) ∧ chain = chainTok f o ch := by
  simp only [List.mem_cons, List.not_mem_nil, or_false, Prod.mk.injEq] at h
  rcases h with ⟨rfl, rfl, rfl, rfl, rfl, rfl⟩ | ⟨rfl, rfl, rfl, rfl, rfl, rfl⟩ | ⟨rfl, rfl, rfl, rfl, rfl, rfl⟩ | ⟨rfl, rfl, rfl, rfl, rfl, rfl⟩ |
    ⟨rfl, rfl, rfl, rfl, rfl, rfl⟩
  · refine ⟨.none, ?_, (chainTok_none f o).symm⟩
    rw [← nfld_low]
    exact State.flow_node hf _
  · exact ⟨.none, State.flow_node hf _, (chainTok_none f o).symm⟩
  · exact ⟨_, State.flow_node hf _, rfl⟩
  · exact ⟨_, State.flow_node hf _, rfl⟩
  · exact ⟨_, State.flow_node hf _, rfl⟩

theorem viewNodesReachTheirTrimmer : ViewNodesReachTheirTrimmer := by
  intro o s f hf none' ch a b ofHandle i kind x y chain region hmem sb outs
  obtain ⟨c, hex, hchain⟩ := exec_viewNode hf hmem
  have hsb : sb = sbOr [x.sb, y.sb] := (sbOr_pair ..).symm
  have houts : outs = nodeOuts f (sbOr [x.sb, y.sb]) (chainTok f o c) := by rw [← hchain, ← hsb]; rfl
  rw [State.viewNode_eq] at hex
  dsimp only at hex
  rw [← houts, ← hsb] at hex
  refine ⟨fun hd => by rw [hex, if_pos hd], fun hd => ⟨_, hex, viewAccess s f o kind x y c region, ?_⟩⟩
  obtain ⟨es, hs⟩ := s.settleHeld_frame f.e (tagCol f.tag) f.count (outCount outs)
  rw [if_neg (Bool.eq_false_iff.mp hd), hs, hchain, houts, hsb]
  exact ⟨rfl, rfl, rfl, rfl, rfl, rfl, rfl, rfl, rfl, rfl, rfl, rfl, rfl, rfl, rfl, rfl, rfl, rfl, rfl, rfl⟩


/-! ### Pages, view entries and handles -/

theorem pagesOf_nodup (lo hi : Nat) : (pagesOf lo hi).Nodup := by
  show (rangeFrom _ _).Nodup
  rw [rangeFrom_eq_range']
  exact List.nodup_range'

theorem State.page_setPage (s : State) (r p q : Nat) (x : PageRec) : (s.setPage r p x).page r q = if p = q then x else s.page r q := by
  show tget _ (tset _ _ _ _) _ = _
  rw [tget_tset]
  by_cases h : p = q
  · rw [if_pos h, if_pos (by rw [h])]
  · rw [if_neg h, if_neg (show ¬ pageKey r p = pageKey r q from fun hk => h (Nat.add_left_cancel hk))]
    rfl

/-- Covering pages changes the records of pages alone (R386). -/
theorem State.countUp_frame (s : State) (r : Nat) (ps : List Nat) : ∃ t, s.countUp r ps = { s with cov := { s.cov with pages := t } } := by
  induction ps generalizing s with
  | nil => exact ⟨_, rfl⟩
  | cons p ps ih =>
    obtain ⟨t, h⟩ := ih (s.setPage r p { s.page r p with count := (s.page r p).count + 1 })
    exact ⟨t, h⟩

theorem State.countUp_count (s : State) (r : Nat) {ps : List Nat} (hnd : ps.Nodup) (q : Nat) :
    ((s.countUp r ps).page r q).count = (s.page r q).count + if q ∈ ps then 1 else 0 := by
  induction ps generalizing s with
  | nil => rfl
  | cons p ps ih =>
    obtain ⟨hp, hps⟩ := List.nodup_cons.mp hnd
    rw [State.countUp, ih _ hps, State.page_setPage]
    by_cases h : p = q
    · simp [← h, hp]
    · simp [h, Ne.symm h]

theorem State.writeLeaf_frame (s : State) (asid va : Nat) (w : Word) : ∃ m, s.writeLeaf asid va w = { s with mem := m } := by
  unfold State.writeLeaf
  dsimp only
  split
  · exact ⟨_, rfl⟩
  · exact ⟨_, rfl⟩

/-- Giving pages their frames leaves regions, views, tokens and threads, and what covers the pages (R381). -/
theorem State.allocPages_frame (s : State) (r : Nat) (ps : List Nat) : ∃ ms pt t, s.allocPages r ps =
    { s with mem := ms, parts := pt, cov := { s.cov with pages := t } } ∧ ∀ q, ((s.allocPages r ps).page r q).count = (s.page r q).count := by
  induction ps generalizing s with
  | nil => exact ⟨_, _, _, rfl, fun _ => rfl⟩
  | cons p ps ih =>
    unfold State.allocPages
    dsimp only
    split
    · exact ih s
    · split
      · exact ih s
      · next fr rest _ =>
        obtain ⟨m, hm⟩ := ((s.setPart (s.region r).part { s.part (s.region r).part with frames := rest }).setMem
          ((s.setPart (s.region r).part { s.part (s.region r).part with frames := rest }).mem.zeroFrame (s.region r).keyslot fr)).writeLeaf_frame
          (s.region r).asid ((s.region r).va p) (coveredLeaf fr)
        rw [hm]
        obtain ⟨ms, pt, t, heq, hcount⟩ := ih (State.setPage { s with mem := m, parts := (s.setPart (s.region r).part { s.part (s.region r).part with frames := rest }).parts }
          r p { s.page r p with alloc := true, frame := fr })
        refine ⟨ms, pt, t, heq, fun q => (hcount q).trans ?_⟩
        rw [State.page_setPage]
        split
        · next hq => rw [← hq]
        · rfl

section
variable (s : State) (part r i gen : Nat)

theorem State.handle_hIndex : hIndex (s.handle part r i gen) = i % 2 ^ 20 := by
  unfold hIndex State.handle
  rw [nfld_setFld_ne _ _ _ _ _ _ (by omega) (by omega)]
  exact nfld_pack 64 _ 44 20 i rfl (by simp)

theorem State.handle_hGen : hGen (s.handle part r i gen) = gen % 4096 := by
  unfold hGen State.handle
  rw [nfld_setFld_ne _ _ _ _ _ _ (by omega) (by omega)]
  exact nfld_pack 64 _ 32 12 gen rfl (by simp)

theorem State.handle_hRegion : hRegion (s.handle part r i gen) = r % 65536 := by
  unfold hRegion State.handle
  rw [nfld_setFld_ne _ _ _ _ _ _ (by omega) (by omega)]
  exact nfld_pack 64 _ 16 16 r rfl (by simp)

end

theorem State.view_setView (s : State) (k : Nat) (v : View) : (s.setView k v).view k = v := tget_tset_same ..

theorem State.page_setRegion (s : State) (r p q : Nat) (v : Region) : (s.setRegion r v).page p q = s.page p q := rfl

theorem State.page_setView (s : State) (k p q : Nat) (v : View) : (s.setView k v).page p q = s.page p q := rfl

/-- The entry of a view that is made over an extent; an empty one has the extent [0, 0) (R222, R223). -/
def View.over (v : View) (r lo hi : Nat) : View := { v with v := true, region := r, lo := if lo < hi then lo else 0, hi := if lo < hi then hi else 0 }

/-- What makes a view entry: its pages are covered, its region has one view more, and its handle names it (R383, R384, R387). -/
theorem State.newView_eq (s : State) (r i lo hi : Nat) :
    s.newView r i lo hi =
      (let v := s.view (viewKey r i)
       let s1 := (s.setView (viewKey r i) (v.over r lo hi)).countUp r (pagesOf lo hi)
       let s2 := s1.setRegion r { s1.region r with views := (s1.region r).views + 1 }
       (s2, s2.handle (s2.region r).part r i v.gen)) := by
  have hext : (if lo < hi then (lo, hi) else (0, 0)) = (if lo < hi then lo else 0, if lo < hi then hi else 0) := by split <;> rfl
  unfold State.newView View.over
  dsimp only
  rw [hext]

section
variable (s : State) (r i lo hi : Nat)

theorem State.newView_view : (s.newView r i lo hi).1.view (viewKey r i) = (s.view (viewKey r i)).over r lo hi := by
  obtain ⟨t, ht⟩ := (s.setView (viewKey r i) ((s.view (viewKey r i)).over r lo hi)).countUp_frame r (pagesOf lo hi)
  rw [State.newView_eq]
  dsimp only
  rw [ht]
  exact State.view_setView ..

theorem State.newView_views : ((s.newView r i lo hi).1.region r).views = (s.region r).views + 1 := by
  obtain ⟨t, ht⟩ := (s.setView (viewKey r i) ((s.view (viewKey r i)).over r lo hi)).countUp_frame r (pagesOf lo hi)
  rw [State.newView_eq]
  dsimp only
  rw [ht]
  exact congrArg Region.views (tget_tset_same ..)

theorem State.newView_count {p : Nat} (h : p ∈ pagesOf lo hi) : ((s.newView r i lo hi).1.page r p).count = (s.page r p).count + 1 := by
  rw [State.newView_eq]
  dsimp only
  rw [State.page_setRegion, State.countUp_count _ _ (pagesOf_nodup lo hi), State.page_setView, if_pos h]

theorem State.newView_rest : (s.newView r i lo hi).1.mem = s.mem ∧ (s.newView r i lo hi).1.fab = s.fab ∧ (s.newView r i lo hi).1.stew = s.stew := by
  obtain ⟨t, ht⟩ := (s.setView (viewKey r i) ((s.view (viewKey r i)).over r lo hi)).countUp_frame r (pagesOf lo hi)
  rw [State.newView_eq]
  dsimp only
  rw [ht]
  exact ⟨rfl, rfl, rfl⟩

/-- The handle of a new view names its entry, with the generation that the entry has. -/
theorem State.newView_handle : hIndex (s.newView r i lo hi).2 = i % 2 ^ 20 ∧ hGen (s.newView r i lo hi).2 = (s.view (viewKey r i)).gen % 4096 ∧
    hRegion (s.newView r i lo hi).2 = r % 65536 := by
  rw [State.newView_eq]
  exact ⟨State.handle_hIndex .., State.handle_hGen .., State.handle_hRegion ..⟩

end

/-! ### What a change comes to -/

/-- A root view needs a region that lives, of its address space, and an extent within it (R222, R387). -/
theorem State.viewMake_bad {s : State} {asid r lo hi : Nat}
    (h : ¬(r < 65536 ∧ (s.region r).v = true ∧ (s.region r).dying = false ∧ (s.region r).asid = asid ∧ lo < hi ∧ hi ≤ 1024 * (s.region r).npage)) :
    s.viewMake asid r lo hi = .fault cProtection := by
  unfold State.viewMake
  dsimp only
  rw [if_pos]
  by_contra hn
  simp only [not_or, not_le, not_lt, Bool.not_eq_true, Bool.not_eq_false', ne_eq, not_not] at hn
  obtain ⟨hr, hv, hd, ha, hlh, hp⟩ := hn
  exact h ⟨hr, hv, hd, ha, hlh, by omega⟩

section
variable {s : State} {asid r lo hi : Nat}
  (h : r < 65536 ∧ (s.region r).v = true ∧ (s.region r).dying = false ∧ (s.region r).asid = asid ∧ lo < hi ∧ hi ≤ 1024 * (s.region r).npage)
include h

/-- With them no check of the region refuses it. -/
theorem viewMake_admits :
    ¬(65536 ≤ r ∨ (!(s.region r).v) = true ∨ (s.region r).dying = true ∨ (s.region r).asid ≠ asid ∨ hi ≤ lo ∨ (s.region r).npage * 1024 < hi) := by
  obtain ⟨hr, hv, hd, ha, hlh, hp⟩ := h
  simp only [hv, hd, ha, Bool.not_true, Bool.false_eq_true, ne_eq, not_true, false_or]
  omega

theorem State.viewMake_waits (hp : ∃ p ∈ pagesOf lo hi, (s.page r p).pend = true) : s.viewMake asid r lo hi = .wait := by
  unfold State.viewMake
  dsimp only
  rw [if_neg (viewMake_admits h), if_pos (List.any_eq_true.mpr hp)]

section
variable (hp : ∀ p ∈ pagesOf lo hi, (s.page r p).pend = false)
include hp

theorem State.viewMake_full (hi' : s.freeView r = none) : s.viewMake asid r lo hi = .fault cConfig := by
  unfold State.viewMake
  dsimp only
  rw [if_neg (viewMake_admits h), if_neg (Bool.eq_false_iff.mp (List.any_eq_false.mpr fun p hm => Bool.eq_false_iff.mp (hp p hm))), hi']

theorem State.viewMake_done {i : Nat} (hc : ∀ p ∈ pagesOf lo hi, (s.page r p).count ≠ 65535) (hi' : s.freeView r = some i) : s.viewMake asid r lo hi =
    if (s.part (s.region r).part).frames.length < ((pagesOf lo hi).filter fun p => !(s.page r p).alloc).length then .fault cConfig
    else .done ((s.allocPages r (pagesOf lo hi)).newView r i lo hi).1 ((s.allocPages r (pagesOf lo hi)).newView r i lo hi).2 := by
  have hcount : s.countFull r (pagesOf lo hi) = false := List.any_eq_false.mpr fun p hm => by simpa using hc p hm
  unfold State.viewMake
  dsimp only
  rw [if_neg (viewMake_admits h), if_neg (Bool.eq_false_iff.mp (List.any_eq_false.mpr fun p hm => Bool.eq_false_iff.mp (hp p hm))), hi']
  dsimp only
  rw [hcount, if_neg Bool.false_ne_true]

end
end

theorem View.admits_iff {v : View} {lo hi : Nat} : v.admits lo hi = true ↔ v.lo < v.hi ∧ (lo = hi ∨ (lo < hi ∧ v.lo ≤ lo ∧ hi ≤ v.hi)) := by
  simp [View.admits, and_assoc]

/-! ### The Trimmer's turn -/

/-- The Trimmer of a die performs this instruction next: the one that it has taken, or else the oldest whose round is open (R390). -/
def TrimmerTurn (s : State) (d : Nat) (a : Access) : Prop :=
  lfind (fun a => a.at_ == 128 + d && a.held) s.port.accesses = some a ∨
    ((∀ x ∈ s.port.accesses, x.at_ = 128 + d → x.held = false) ∧
      lfind (fun a => a.at_ == 128 + d && decide (a.since ≤ s.cycle) && s.accessOpen a) s.port.accesses = some a)

/-- The instructions that the Trimmer of a die holds, or may take. -/
def State.trimmerMine (s : State) (d : Nat) : List Access :=
  s.port.accesses.filter fun a => a.at_ == 128 + d && (a.held || (decide (a.since ≤ s.cycle) && s.accessOpen a))

theorem TrimmerTurn.picked {s : State} {d : Nat} {a : Access} (h : TrimmerTurn s d a) :
    lfind (fun a => a.held) (s.trimmerMine d) = some a ∨ (lfind (fun a => a.held) (s.trimmerMine d) = none ∧ (s.trimmerMine d).head? = some a) := by
  have hheld : lfind (fun a => a.held) (s.trimmerMine d) = lfind (fun a => a.at_ == 128 + d && a.held) s.port.accesses := by
    rw [lfind_eq_find?, lfind_eq_find?, State.trimmerMine, List.find?_filter]
    congr 1
    funext x
    cases x.held <;> simp [Bool.beq_eq_decide_eq]
  obtain ht | ⟨hn, ho⟩ := h
  · exact .inl (hheld.trans ht)
  · refine .inr ⟨hheld.trans (lfind_eq_none.mpr fun x hx => ?_), ?_⟩
    · by_cases hat : x.at_ = 128 + d
      · rw [hn x hx hat, Bool.and_false]
      · rw [beq_false_of_ne hat, Bool.false_and]
    · have hsame : s.trimmerMine d = s.port.accesses.filter fun a => a.at_ == 128 + d && decide (a.since ≤ s.cycle) && s.accessOpen a := by
        refine List.filter_congr fun x hx => ?_
        by_cases hat : x.at_ = 128 + d
        · rw [hn x hx hat, Bool.false_or, Bool.and_assoc]
        · rw [beq_false_of_ne hat, Bool.false_and, Bool.false_and, Bool.false_and]
      rw [hsame, List.head?_filter, ← lfind_eq_find?]
      exact ho

/-- What the Trimmer does with the outcome of a change (R389, R390). -/
def State.afterChange (s : State) (a : Access) : Change → State
  | .wait => s.setAccess { a with held := true }
  | .fault c => s.failAccess a c a.dat.toNat false
  | .done s1 v => s1.reply a ⟨0, a.sb, .scalar, v, none, a.tag, []⟩ a.hist

theorem exec_trimmerChange {s : State} {d : Nat} {a : Access} (h : TrimmerTurn s d a) :
    exec (.trimmerChange d) s = .next (s.afterChange a (s.viewChange a)) := by
  show execTrimmerChange d s = _
  unfold execTrimmerChange
  dsimp only
  obtain hp | ⟨hn, hp⟩ := h.picked
  · rw [State.trimmerMine] at hp
    rw [hp]
    dsimp only
    cases s.viewChange a <;> rfl
  · rw [State.trimmerMine] at hn hp
    rw [hn]
    dsimp only
    rw [hp]
    dsimp only
    cases s.viewChange a <;> rfl

theorem extLo_eq (w : Word) : extLo w = w.toNat % 2 ^ 32 := nfld_low ..

theorem extHi_eq (w : Word) : extHi w = w.toNat / 2 ^ 32 := Nat.mod_eq_of_lt (Nat.div_lt_of_lt_mul w.isLt)

theorem State.viewChange_viewmk {s : State} {a : Access} (hk : a.kind = .viewmk) :
    s.viewChange a = s.viewMake (s.colour (tagCol a.tag)).asid (a.idx.toNat % 2 ^ 32) (a.dat.toNat % 2 ^ 32) (a.dat.toNat / 2 ^ 32) := by
  unfold State.viewChange
  dsimp only
  rw [hk, nfld_low, extHi_eq, extLo_eq]

section
variable {s : State} {a : Access}

/-- A view instruction whose handle names nothing good fails (R227). -/
theorem State.viewChange_none (hk : a.kind ≠ .viewmk) (hv : s.viewOf ((s.partOfElem a.e).getD 0) (s.colour (tagCol a.tag)).asid a.idx = none) :
    s.viewChange a = .fault cProtection := by
  unfold State.viewChange
  dsimp only
  rw [hv]
  split
  · next hkind => exact absurd hkind hk
  · rfl

variable {k : Nat} (hv : s.viewOf ((s.partOfElem a.e).getD 0) (s.colour (tagCol a.tag)).asid a.idx = some k)
include hv

theorem State.viewChange_viewdup (hk : a.kind = .viewdup) : s.viewChange a = s.viewDup k (a.dat.toNat % 2 ^ 32) (a.dat.toNat / 2 ^ 32) := by
  unfold State.viewChange
  dsimp only
  rw [hk, hv, extHi_eq, extLo_eq]

theorem State.viewChange_narrow (hk : a.kind = .narrow) : s.viewChange a =
    if (s.view k).admits (a.dat.toNat % 2 ^ 32) (a.dat.toNat / 2 ^ 32) then s.viewCut k (a.dat.toNat % 2 ^ 32) (a.dat.toNat / 2 ^ 32) a.idx
    else .fault cWidening := by
  unfold State.viewChange
  dsimp only
  rw [hk, hv, extHi_eq, extLo_eq]

theorem State.viewChange_viewq (hk : a.kind = .viewq) :
    s.viewChange a = .done s (BitVec.ofNat 64 ((s.view k).hi % 2 ^ 32 * 2 ^ 32 + (s.view k).lo % 2 ^ 32)) := by
  unfold State.viewChange
  dsimp only
  rw [hk, hv]
  simp [pack, packNat]

theorem State.viewChange_viewdrop (hk : a.kind = .viewdrop) : s.viewChange a = s.viewCut k 0 0 0 := by
  unfold State.viewChange
  dsimp only
  rw [hk, hv]

end

theorem State.viewDup_bad {s : State} {k lo hi : Nat} (h : (s.view k).admits lo hi = false) : s.viewDup k lo hi = .fault cWidening := by
  unfold State.viewDup
  dsimp only
  rw [h]
  rfl

theorem State.viewDup_done {s : State} {k lo hi i : Nat} (h : (s.view k).admits lo hi = true) (hi' : s.freeView (s.view k).region = some i)
    (hc : ∀ p ∈ pagesOf lo hi, (s.page (s.view k).region p).count ≠ 65535) :
    s.viewDup k lo hi = .done (s.newView (s.view k).region i lo hi).1 (s.newView (s.view k).region i lo hi).2 := by
  have hcount : s.countFull (s.view k).region (pagesOf lo hi) = false := List.any_eq_false.mpr fun p hm => by simpa using hc p hm
  unfold State.viewDup
  dsimp only
  rw [h, hi']
  dsimp only
  rw [hcount]
  rfl

section
variable {s : State} {k lo hi : Nat} (res : Word)

theorem State.viewCut_waits (h : s.uncover (s.view k).region ((pagesOf (s.view k).lo (s.view k).hi).filter fun p => !(pagesOf lo hi).contains p) = none) :
    s.viewCut k lo hi res = .wait := by
  unfold State.viewCut
  dsimp only
  rw [h]

theorem State.viewCut_done {s1 : State}
    (h : s.uncover (s.view k).region ((pagesOf (s.view k).lo (s.view k).hi).filter fun p => !(pagesOf lo hi).contains p) = some s1) :
    s.viewCut k lo hi res = .done (s1.setView k { s.view k with lo := if lo < hi then lo else 0, hi := if lo < hi then hi else 0 }) res := by
  have hext : (if lo < hi then (lo, hi) else (0, 0)) = (if lo < hi then lo else 0, if lo < hi then hi else 0) := by split <;> rfl
  unfold State.viewCut
  dsimp only
  rw [h, hext]

end

/-- A dropped view covers no page any more. -/
theorem pagesOf_dropped (l : List Nat) : (l.filter fun p => !(pagesOf 0 0).contains p) = l := List.filter_eq_self.mpr fun _ _ => rfl

theorem trimmersChangeViews : TrimmersChangeViews := by
  intro s d a hturn waits part asid lo hi fails answers
  have hex := exec_trimmerChange (show TrimmerTurn s d a from hturn)
  have hwait (hc : s.viewChange a = .wait) : waits := by rw [hc] at hex; exact hex
  have hfail {code : Nat} (hc : s.viewChange a = .fault code) : fails code := by rw [hc] at hex; exact hex
  have hdone {s1 : State} {v : Word} (hc : s.viewChange a = .done s1 v) : answers s1 v := by rw [hc] at hex; exact hex
  refine ⟨?_, fun hk _ hv => hfail (State.viewChange_none hk hv), ?_⟩
  · intro hk r g ps good
    have hmk : s.viewChange a = s.viewMake asid r lo hi := State.viewChange_viewmk hk
    refine ⟨fun hb => hfail (hmk.trans (State.viewMake_bad hb)), fun hg hp => hwait (hmk.trans (State.viewMake_waits hg hp)),
      fun hg hp hn => hfail (hmk.trans (State.viewMake_full hg hp hn)), fun i hg hp hi' => ?_⟩
    have hmade := hmk.trans (State.viewMake_done hg (fun p hm => (hp p hm).1) (fun p hm => (hp p hm).2) hi')
    refine ⟨fun hl => hfail (hmade.trans (if_pos hl)), fun hl => ⟨_, _, hdone (hmade.trans (if_neg (Nat.not_lt.mpr hl))), ?_⟩⟩
    obtain ⟨hr, -, -, -, hlh, -⟩ := hg
    obtain ⟨ms, pt, t, halloc, hcount⟩ := s.allocPages_frame r ps
    have hview : (s.allocPages r ps).view (viewKey r i) = s.view (viewKey r i) := by rw [halloc]; rfl
    have hregion : (s.allocPages r ps).region r = s.region r := by rw [halloc]; rfl
    obtain ⟨hidx, hgen, hreg⟩ := (s.allocPages r ps).newView_handle r i lo hi
    obtain ⟨-, hfab, hstew⟩ := (s.allocPages r ps).newView_rest r i lo hi
    refine ⟨hidx, by rw [hgen, hview], hreg.trans (Nat.mod_eq_of_lt hr), ?_, ?_, fun p hp => ?_, ?_, ?_⟩
    · rw [State.newView_view, hview, View.over, if_pos hlh, if_pos hlh]
    · rw [State.newView_views, hregion]
    · rw [State.newView_count _ _ _ _ _ hp, hcount]
    · rw [hfab, halloc]
    · rw [hstew, halloc]
  · intro k hv v within
    have hin : within ↔ v.admits lo hi = true := View.admits_iff.symm
    refine ⟨fun hk => hdone (State.viewChange_viewq hv hk), ?_, fun i hk hw hi' hp => ?_, fun s1 hk hw hu => ?_, fun s1 hk hu => ?_, fun hk hw hu => ?_, fun hk hu => ?_⟩
    · rintro (hk | hk) hn
      · exact hfail ((State.viewChange_viewdup hv hk).trans (State.viewDup_bad (Bool.eq_false_iff.mpr (mt hin.mpr hn))))
      · exact hfail ((State.viewChange_narrow hv hk).trans (if_neg (mt hin.mpr hn)))
    · refine ⟨_, _, hdone ((State.viewChange_viewdup hv hk).trans (State.viewDup_done (hin.mp hw) hi' hp)), ?_⟩
      obtain ⟨hidx, -, hreg⟩ := s.newView_handle v.region i lo hi
      obtain ⟨hmem, hfab, -⟩ := s.newView_rest v.region i lo hi
      refine ⟨hidx, hreg, ?_, hmem, by rw [hfab]⟩
      dsimp only
      rw [State.newView_view]
      refine ⟨rfl, rfl, fun hlt => ⟨if_pos hlt, if_pos hlt⟩, fun heq => ⟨if_neg (by omega), if_neg (by omega)⟩⟩
    · exact hdone ((State.viewChange_narrow hv hk).trans ((if_pos (hin.mp hw)).trans (State.viewCut_done _ hu)))
    · exact hdone ((State.viewChange_viewdrop hv hk).trans (State.viewCut_done 0 ((congrArg (s.uncover v.region) (pagesOf_dropped _)).trans hu)))
    · exact hwait ((State.viewChange_narrow hv hk).trans ((if_pos (hin.mp hw)).trans (State.viewCut_waits _ hu)))
    · exact hwait ((State.viewChange_viewdrop hv hk).trans (State.viewCut_waits 0 ((congrArg (s.uncover v.region) (pagesOf_dropped _)).trans hu)))

end Sys2Proof.Machine
end

section
/-! SUPPORT. Pages that are freed and shoot-downs (06 R210, 07 R254, 11 R336, 14 R381, R389, R395). -/

namespace Sys2Proof.Machine

open Sys2Proof.Claims

/-! ### A page whose epochs have drained (R389) -/

theorem State.writeLeaf_read {s : State} {asid va a : Nat} (w : Word) (h : leafAddr s.mem va 0 (nfld (tget 0 s.mem.asids asid) 14 38 * 16384) 5 = some a) :
    (s.writeLeaf asid va w).mem.read 0 a 8 = bvBytes w 8 := by
  have hlen : (bvBytes w 8).length = 8 := length_bvBytes w 8
  unfold State.writeLeaf
  dsimp only
  rw [h]
  have hread := s.mem.read_write 0 a (bvBytes w 8)
  rw [hlen] at hread
  exact hread

theorem exec_pageFree {s : State} {r p : Nat} (hp : (s.page r p).pend = true) (hd : (s.region r).drained (s.page r p).epoch = true)
    (hn : ∀ f ∈ s.cov.freeing, ¬(f.2.2.1 = r ∧ f.2.2.2 = p)) : exec (.pageFree r p) s = .next (
      let g := s.region r
      let s1 := s.writeLeaf g.asid (g.va p) 0
      let s2 : State := { s1 with cov := { s1.cov with freeing := s1.cov.freeing ++ [(g.part, (s.page r p).frame, r, p)] } }
      s2.shoot none g.part 0 g.asid (g.va p)) := by
  have hfree : (s.cov.freeing.any fun f => f.2.2.1 == r && f.2.2.2 == p) = false := List.any_eq_false.mpr fun f hf => by simpa using hn f hf
  show execPageFree r p s = _
  unfold execPageFree
  dsimp only
  rw [hp, hd, hfree]
  rfl

theorem pageFree_frees {s : State} {r p : Nat} (hp : (s.page r p).pend = true) (hd : (s.region r).drained (s.page r p).epoch = true)
    (hn : ∀ f ∈ s.cov.freeing, ¬(f.2.2.1 = r ∧ f.2.2.2 = p)) : Ends (.pageFree r p) s fun s' =>
      s'.cov.freeing = s.cov.freeing ++ [((s.region r).part, (s.page r p).frame, r, p)] ∧
      (∃ h : Shoot, s'.port.shoots = s.port.shoots ++ [h] ∧ h.thread = none ∧ h.part = (s.region r).part ∧ h.kind = 0 ∧ h.asid = (s.region r).asid ∧
        h.va = (s.region r).vbase + 65536 * p ∧ h.open_ = []) ∧
      (∀ a, leafAddr s.mem ((s.region r).vbase + 65536 * p) 0 (nfld (tget 0 s.mem.asids (s.region r).asid) 14 38 * 16384) 5 = some a →
        s'.mem.read 0 a 8 = List.replicate 8 0) ∧ s'.stew = s.stew ∧ s'.fab.tokens = s.fab.tokens := by
  have hread {a : Nat} := s.writeLeaf_read (asid := (s.region r).asid) (va := (s.region r).va p) (a := a) 0
  obtain ⟨m, hm⟩ := s.writeLeaf_frame (s.region r).asid ((s.region r).va p) 0
  have hex := exec_pageFree hp hd hn
  dsimp only at hex
  rw [hm] at hread hex
  exact ⟨_, hex, rfl, ⟨_, rfl, rfl, rfl, rfl, rfl, rfl, rfl⟩, fun a ha => hread ha, rfl, rfl⟩

/-! ### A shoot-down reaches what it names, one after another (R210, R336) -/

theorem State.foldl_endStarted_frame (s : State) (l : List Ahead) : ∃ v, l.foldl (fun (s : State) a => s.endStarted a.started) s = { s with cov := v } := by
  induction l generalizing s with
  | nil => exact ⟨_, rfl⟩
  | cons a l ih =>
    obtain ⟨v, hv⟩ := s.endStarted_frame a.started
    obtain ⟨w, hw⟩ := ih (s.endStarted a.started)
    rw [List.foldl_cons, hw, hv]
    exact ⟨_, rfl⟩

/-- A port drops the translations that a shoot-down removes: from its accesses, and by marking what its store buffer holds. -/
theorem State.shootAt_drops (s : State) (h : Shoot) (p : Nat) :
    (s.shootAt h p).mem = s.mem ∧ (s.shootAt h p).stew = s.stew ∧ (s.shootAt h p).fab = s.fab ∧ (s.shootAt h p).port.shoots = s.port.shoots ∧
    (s.shootAt h p).port.accesses.length = s.port.accesses.length ∧
    (∀ st ∈ s.port.stores, st.port = p → st.written = false → (∃ y, st.frame = some y ∧ s.shootHits h y = true) →
      { st with marked := true } ∈ (s.shootAt h p).port.stores) ∧
    ∀ a ∈ s.port.accesses, a.at_ = p → (∃ y, a.frame = some y ∧ s.shootHits h y = true) → { a with frame := none } ∈ (s.shootAt h p).port.accesses := by
  unfold State.shootAt
  dsimp only
  generalize hs1 : List.foldl (fun (s : State) (a : Ahead) => s.endStarted a.started) s _ = s1
  obtain ⟨v, rfl⟩ : ∃ v, s1 = { s with cov := v } := hs1 ▸ s.foldl_endStarted_frame _
  refine ⟨rfl, rfl, rfl, rfl, List.length_map .., ?_, ?_⟩
  · rintro st hst hport hw ⟨y, hy, hhit⟩
    refine List.mem_map.mpr ⟨st, hst, ?_⟩
    simp [hport, hw, hy, hhit]
  · rintro a ha hat ⟨y, hy, hhit⟩
    refine List.mem_map.mpr ⟨a, ha, ?_⟩
    simp [hat, hy, hhit]

theorem exec_shootdownArrival {s : State} {k x : Nat} {h : Shoot} {rest : List Nat} (hk : nth? s.port.shoots k = some h) (ht : h.todo = x :: rest) :
    exec (.shootdownArrival k) s = .next (
      (if x < shootPort then s.shootElem h x else if x < shootWalker then s.shootAt h (x - shootPort) else s.shootWalk h (x - shootWalker)).putShoot k
        { h with todo := rest, open_ := h.open_ ++ [x] }) := by
  show execShootdownArrival k s = _
  unfold execShootdownArrival
  rw [hk]
  dsimp only
  rw [ht]

theorem shootdownArrival_reaches {s : State} {k x : Nat} {h : Shoot} {rest : List Nat} (hk : nth? s.port.shoots k = some h) (ht : h.todo = x :: rest) :
    Ends (.shootdownArrival k) s fun s' =>
      s'.port.shoots = setNth s.port.shoots k { h with todo := rest, open_ := h.open_ ++ [x] } ∧ s'.mem = s.mem ∧ s'.stew = s.stew ∧
      s'.fab.tokens = s.fab.tokens ∧
      (x < shootPort → (s'.elem x).xlat = (s.elem x).xlat.filter (fun y => !s.shootHits h y) ∧ ∀ e, e ≠ x → s'.elem e = s.elem e) ∧
      (shootWalker ≤ x → s'.fab.elems = s.fab.elems ∧
        s'.port.wcache = s.port.wcache.filter fun w => !(w.port == x - shootWalker && s.shootAsid h w.asid)) ∧
      (shootPort ≤ x → x < shootWalker → s'.fab.elems = s.fab.elems ∧ s'.port.accesses.length = s.port.accesses.length ∧
        (∀ st ∈ s.port.stores, st.port = x - shootPort → st.written = false → (∃ y, st.frame = some y ∧ s.shootHits h y = true) → { st with marked := true } ∈ s'.port.stores) ∧
        ∀ a ∈ s.port.accesses, a.at_ = x - shootPort → (∃ y, a.frame = some y ∧ s.shootHits h y = true) → { a with frame := none } ∈ s'.port.accesses) := by
  refine ⟨_, exec_shootdownArrival hk ht, ?_⟩
  have hpw : shootPort < shootWalker := by decide
  by_cases hx : x < shootPort
  · rw [if_pos hx]
    refine ⟨rfl, rfl, rfl, rfl, fun _ => ⟨?_, fun e he => ?_⟩, fun hw => absurd hx (by omega), fun hp => absurd hx (by omega)⟩
    · exact congrArg Elem.xlat (State.elem_setElem_same ..)
    · show (s.setElem x _).elem e = _
      rw [State.elem_setElem, if_neg (Ne.symm he)]
  · rw [if_neg hx]
    by_cases hw : x < shootWalker
    · rw [if_pos hw]
      obtain ⟨hmem, hstew, hfab, hshoots, hlen, hst, hacc⟩ := s.shootAt_drops h (x - shootPort)
      refine ⟨?_, hmem, hstew, by rw [State.putShoot_fab, hfab], fun h => absurd h hx, fun h => absurd hw (by omega), fun _ _ => ⟨by rw [State.putShoot_fab, hfab], hlen, hst, hacc⟩⟩
      rw [State.putShoot_port, hshoots]
    · rw [if_neg hw]
      exact ⟨rfl, rfl, rfl, rfl, fun h => absurd h hx, fun _ => ⟨rfl, rfl⟩, fun _ h => absurd h hw⟩

/-! ### The last acknowledgement (R210, R381, R389) -/

theorem exec_shootdownAck {s : State} {k x : Nat} {h : Shoot} {rest : List Nat} (hk : nth? s.port.shoots k = some h) (ho : h.open_ = x :: rest) :
    exec (.shootdownAck k) s = .next (if s.shootQuiet h x then s.shootEnd k { h with open_ := rest } else s) := by
  show execShootdownAck k s = _
  unfold execShootdownAck
  rw [hk]
  dsimp only
  rw [ho]

theorem State.shootEnd_more {s : State} {k : Nat} {h : Shoot} (hm : h.todo ≠ [] ∨ h.open_ ≠ []) : s.shootEnd k h = s.putShoot k h := by
  unfold State.shootEnd
  rw [if_neg]
  simpa [imp_iff_not_or] using hm

section
variable {s : State} {k : Nat} {h : Shoot} (ht : h.todo = []) (ho : h.open_ = [])
include ht ho

theorem State.shootEnd_thread {t : Nat} (hth : h.thread = some t) :
    s.shootEnd k h = State.sysDone { s with port := { s.port with shoots := dropNth s.port.shoots k } } t none 0 := by
  unfold State.shootEnd
  rw [ht, ho, hth]
  rfl

theorem State.shootEnd_free (hth : h.thread = none) : s.shootEnd k h = State.freeDone { s with port := { s.port with shoots := dropNth s.port.shoots k } } h := by
  unfold State.shootEnd
  rw [ht, ho, hth]
  rfl

end

theorem State.region_setRegion (s : State) (r : Nat) (v : Region) : (s.setRegion r v).region r = v := tget_tset_same ..

/-- Epochs that have drained pass, and nothing else of the region changes. -/
theorem State.advanceOld_regions (s : State) (r n : Nat) : ∃ rs, s.advanceOld r n = { s with cov := { s.cov with regions := rs } } ∧
    ((s.advanceOld r n).region r).dying = (s.region r).dying := by
  induction n generalizing s with
  | zero => exact ⟨_, rfl, rfl⟩
  | succ n ih =>
    unfold State.advanceOld
    dsimp only
    split
    · obtain ⟨rs, heq, hd⟩ := ih (s.setRegion r { s.region r with eold := ((s.region r).eold + 1) % 4 })
      exact ⟨rs, heq, hd.trans (by rw [State.region_setRegion])⟩
    · exact ⟨_, rfl, rfl⟩

theorem State.uncoverDying_alive {s : State} {r : Nat} (h : (s.region r).dying = false) : s.uncoverDying r = s := by
  unfold State.uncoverDying
  dsimp only
  rw [h, Bool.and_false]
  rfl

theorem State.endRegion_alive {s : State} {r : Nat} (h : (s.region r).dying = false) : s.endRegion r = s := by
  unfold State.endRegion
  dsimp only
  rw [h, Bool.and_false]
  rfl

/-- The frame of the page whose shoot-down is complete returns to its partition's pool (R381). -/
theorem State.freeDone_returns {s : State} {h : Shoot} {p fr r pg : Nat} (hf : s.cov.freeing = [(p, fr, r, pg)]) (hp : h.part = p)
    (ha : (s.region r).asid = h.asid) (hva : (s.region r).vbase + 65536 * pg = h.va) (hd : (s.region r).dying = false) :
    let s' := s.freeDone h
    s'.cov.freeing = [] ∧ (s'.part p).frames = (s.part p).frames ++ [fr] ∧ (s'.page r pg).alloc = false ∧ (s'.page r pg).pend = false ∧
      s'.mem = s.mem ∧ s'.stew = s.stew := by
  have hfind : lfind (fun f : Nat × Nat × Nat × Nat => f.1 == h.part && (s.region f.2.2.1).asid == h.asid && (s.region f.2.2.1).va f.2.2.2 == h.va)
      s.cov.freeing = some (p, fr, r, pg) := by
    rw [hf, lfind, hp, ha, Region.va, hva]
    simp
  have hnone : (s.cov.freeing.filter fun f => !(f.2.2.1 == r && f.2.2.2 == pg)) = [] := by
    rw [hf]
    simp
  unfold State.freeDone
  dsimp only
  rw [hfind]
  dsimp only
  rw [hnone]
  generalize hs2 : State.setPage _ r pg _ = s2
  have hd2 : (s2.region r).dying = false := by rw [← hs2]; exact hd
  obtain ⟨rs, heq, hdy⟩ := s2.advanceOld_regions r 3
  rw [State.uncoverDying_alive (hdy.trans hd2), State.endRegion_alive (hdy.trans hd2), heq, ← hs2]
  refine ⟨rfl, ?_, ?_, ?_, rfl, rfl⟩
  · exact congrArg Part.frames (tget_tset_same ..)
  · exact congrArg PageRec.alloc (tget_tset_same ..)
  · exact congrArg PageRec.pend (tget_tset_same ..)

theorem pagesAreFreed : PagesAreFreed := by
  refine ⟨fun s r p hp hd hn => pageFree_frees hp hd hn, fun s k x h rest hk ht => shootdownArrival_reaches hk ht, fun s k x h rest hk ho => ?_⟩
  have hex := exec_shootdownAck hk ho
  refine ⟨fun hq => ?_, fun hq hm => ?_, fun t hq ht hr hth => ?_, fun p fr r pg hq ht hr hth hf hp ha hva hd => ?_⟩
  · rw [hex, hq]
    rfl
  · rw [hex, if_pos hq, State.shootEnd_more hm]
    rfl
  · rw [if_pos hq, State.shootEnd_thread (h := { h with open_ := rest }) ht hr hth] at hex
    exact ⟨_, hex, rfl, rfl, rfl, rfl⟩
  · rw [if_pos hq, State.shootEnd_free (h := { h with open_ := rest }) ht hr hth] at hex
    exact ⟨_, hex, State.freeDone_returns hf hp ha hva hd⟩

end Sys2Proof.Machine

namespace Sys2Proof

/-- Settles O41: the way to the Trimmer as for an access node, each change by its checks, and frees and shoot-downs step by step. -/
theorem viewsAndPages : Obligations.ViewsAndPages :=
  ⟨Machine.viewNodesReachTheirTrimmer, Machine.trimmersChangeViews, Machine.pagesAreFreed⟩

end Sys2Proof
end

section
/-! SUPPORT. LSEND and LRECV (06 R235, 18 R453). -/

namespace Sys2Proof.Machine

open Sys2Proof.Claims

/-! ### Slots that are released, and packets -/

theorem State.modSlot_frame (s : State) (e c b n : Nat) (g : Slot → Slot) : ∃ es, s.modSlot e c b n g = { s with fab := { s.fab with elems := es } } := by
  unfold State.modSlot
  split
  · exact ⟨_, rfl⟩
  · exact ⟨_, rfl⟩

/-- Releasing slots changes the elements alone. -/
theorem State.releaseAll_frame (s : State) (e c : Nat) (l : List (Nat × Nat)) : ∃ es, s.releaseAll e c l = { s with fab := { s.fab with elems := es } } := by
  induction l generalizing s with
  | nil => exact ⟨_, rfl⟩
  | cons q l ih =>
    obtain ⟨es, h⟩ := s.modSlot_frame e c q.1 q.2 Slot.freed
    obtain ⟨es', h'⟩ := ih (s.modSlot e c q.1 q.2 Slot.freed)
    refine ⟨es', ?_⟩
    show (s.modSlot e c q.1 q.2 Slot.freed).releaseAll e c l = _
    rw [h', h]

theorem sameWays_releaseAll (s : State) (e c : Nat) (l : List (Nat × Nat)) : SameWays s (s.releaseAll e c l) := by
  induction l generalizing s with
  | nil => exact .refl s
  | cons q l ih => exact (sameWays_modSlot s e c q.1 q.2 Slot.freed).trans (ih _)

section
variable (src chan kind : Nat) (sb : BitVec 8) (tag : Word)

/-- The fields of a link token's head (Table 6.12). -/
theorem linkHead_fields : fld (linkHead src chan kind sb tag) 0 64 = tagClean tag ∧ nfld (linkHead src chan kind sb tag) 64 8 = sb.toNat ∧
    nfld (linkHead src chan kind sb tag) 72 2 = kind % 4 ∧ nfld (linkHead src chan kind sb tag) 74 8 = chan % 256 ∧
    nfld (linkHead src chan kind sb tag) 82 4 = src % 16 := by
  refine ⟨?_, ?_, ?_, ?_, ?_⟩
  · exact (fld_pack _ _ 0 64 (tagClean tag).toNat rfl (by simp)).trans (BitVec.ofNat_toNat ..)
  · exact (nfld_pack _ _ 64 8 sb.toNat rfl (by simp)).trans (Nat.mod_eq_of_lt sb.isLt)
  · exact nfld_pack _ _ _ _ _ rfl (by simp)
  · exact nfld_pack _ _ _ _ _ rfl (by simp)
  · exact nfld_pack _ _ _ _ _ rfl (by simp)

end

/-- A field of a vector of which another field is written. -/
theorem fld_setFld_ne {n : Nat} (w : BitVec n) (lo len v lo' len' : Nat) (h : lo + len ≤ n) (hd : lo' + len' ≤ lo ∨ lo + len ≤ lo') :
    fld (setFld w lo len v) lo' len' = fld w lo' len' := by
  refine BitVec.eq_of_toNat_eq ?_
  rw [fld_toNat, fld_toNat, nfld_setFld_ne _ _ _ _ _ _ h hd]

theorem fld_setFld {n : Nat} (w : BitVec n) (lo len v : Nat) (h : lo + len ≤ n) : fld (setFld w lo len v) lo len = BitVec.ofNat len v :=
  fld_eq_of_nfld _ _ _ _ (nfld_setFld w lo len v h)

/-- The packet of a slot has the shape and the elements of its tile, and the tag of the token. -/
theorem slotPacket_fields (a : Arg) (tag : Word) : hTag (slotPacket a tag).hdr = tagClean tag ∧ hNrow (slotPacket a tag).hdr = hNrow a.slot.hdr ∧
    hNcol (slotPacket a tag).hdr = hNcol a.slot.hdr ∧ hFmt (slotPacket a tag).hdr = hFmt a.slot.hdr ∧
    (slotPacket a tag).body.length = 64 * fmtBeats (hFmt a.slot.hdr) (hNrow a.slot.hdr) (hNcol a.slot.hdr) := by
  have hkeep {lo len : Nat} (h1 : 72 ≤ lo) (h2 : lo + len ≤ 90) : nfld (slotPacket a tag).hdr lo len = nfld a.slot.hdr lo len := by
    unfold slotPacket
    dsimp only
    rw [nfld_setFld_ne _ _ _ _ _ _ (by omega) (by omega), nfld_setFld_ne _ _ _ _ _ _ (by omega) (by omega), nfld_setFld_ne _ _ _ _ _ _ (by omega) (by omega)]
  refine ⟨?_, hkeep (by omega) (by omega), hkeep (by omega) (by omega), hkeep (by omega) (by omega), (tileBody_spec ..).1⟩
  unfold hTag slotPacket
  dsimp only
  rw [fld_setFld_ne _ _ _ _ _ _ (by omega) (by omega), fld_setFld_ne _ _ _ _ _ _ (by omega) (by omega), fld_setFld _ _ _ _ (by omega)]
  exact BitVec.ofNat_toNat ..

theorem nullPacket_hSb (sb : BitVec 8) (tag : Word) : hSb (nullPacket sb tag).hdr = sb := by
  have hdr : (nullPacket sb tag).hdr = pack 256 [(64, 8, sb.toNat), (0, 64, (tagClean tag).toNat)] := by
    simp [nullPacket, pack, packNat, Nat.add_comm]
  rw [hSb, hdr]
  exact (fld_pack _ _ 64 8 sb.toNat rfl (by simp)).trans (BitVec.ofNat_toNat ..)

/-! ### LSEND -/

section
variable (s : State) (f : Firing) (o : Ops) (a : Arg) (pkt : Option TilePkt)

/-- The packet that LSEND hands over. -/
def lsendPacket : LinkPkt :=
  let p := (s.partOfElem f.e).getD 0
  let sb := a.sb &&& 0x7F
  ⟨wPort f.word, s.peerOf p (nfld o.imm 8 4), nfld o.imm 0 8, 0, linkHead (s.ownEntry p) (nfld o.imm 0 8) (if o.ty == .tile then 2 else 0) sb f.tag,
    if sbDead sb then 0 else f.p0.pay, pkt, p, only o.t1 ⟨0, sb, .scalar, 0, none, f.tag, [fromEngine]⟩, f.e, f.ctx, s.loadidAt f.e f.ctx, true, f.ops,
    releases [a], s.cycle + 1 + s.toPort f.e (wPort f.word)⟩

/-- LSEND's packet joins the queue of its link port. -/
def State.lsendGoes : State :=
  let s1 := (s.latch f o (a.sb &&& 0x7F)).settleHeld f.e (tagCol f.tag) f.count 1
  { s1 with port := { s1.port with linkOut := s1.port.linkOut ++ [lsendPacket s f o a pkt] }, focus := .thread 0 }

theorem State.lsendGoes_frame : ∃ es, s.lsendGoes f o a pkt = { s with
    fab := { s.fab with elems := es }, port := { s.port with linkOut := s.port.linkOut ++ [lsendPacket s f o a pkt] }, focus := .thread 0 } := by
  obtain ⟨es, h1⟩ := s.latch_frame f o (a.sb &&& 0x7F)
  obtain ⟨es', h2⟩ := (s.latch f o (a.sb &&& 0x7F)).settleHeld_frame f.e (tagCol f.tag) f.count 1
  refine ⟨es', ?_⟩
  unfold State.lsendGoes
  dsimp only
  rw [h2, h1]

end

section
variable {o : Ops} {s : State} {f : Firing} (hf : s.focus = .node f)
include hf

/-- LSEND of a token that is no tile. -/
theorem exec_lsend_scalar (ht : o.ty ≠ .tile) : exec (.lsend o) s = .next (
    if sbPZ (f.p0.sb &&& 0x7F) then s.faultFiring f { f.info cPoison (f.p0.sb &&& 0x7F) with pnum := wPort f.word }
    else s.lsendGoes f o (scalarArg ⟨f.p0.pay, f.p0.sb⟩) none) := by
  have htile : (o.ty == Ty.tile) = false := beq_false_of_ne ht
  rw [show exec (.lsend o) s = execLsend o s from rfl, execLsend, State.flow_node hf]
  unfold State.lsendGoes lsendPacket
  dsimp only
  rw [htile]
  rfl

section
variable (ht : o.ty = .tile) {a : Arg} (ha : s.arg f .tile o.a (bit o.imm 12) = a)
include ht ha

theorem exec_lsend_refused {i : FaultInfo} (hi : s.argFault f a = some i) : exec (.lsend o) s = .next (s.faultFiring f i) := by
  rw [show exec (.lsend o) s = execLsend o s from rfl, execLsend, State.flow_node hf]
  dsimp only
  rw [if_pos (beq_iff_eq.mpr ht), ha, hi]

/-- LSEND of a tile whose slot has passed its checks. -/
theorem exec_lsend_tile {sb : BitVec 8} (hs : a.sb &&& 0x7F = sb) (hn : s.argFault f a = none) : exec (.lsend o) s = .next (
    if sbPZ sb then s.faultFiring f { f.info cPoison sb with pnum := wPort f.word }
    else if sbNL sb then s.lsendGoes f o a (some (nullPacket sb f.tag))
    else if !a.slot.hv then s.faultFiring f (f.info cBuffer sb)
    else s.lsendGoes f o a (some (slotPacket a f.tag))) := by
  have htile : (o.ty == Ty.tile) = true := beq_iff_eq.mpr ht
  subst hs
  rw [show exec (.lsend o) s = execLsend o s from rfl, execLsend, State.flow_node hf]
  unfold State.lsendGoes lsendPacket
  dsimp only
  rw [htile, if_pos rfl, ha, hn]
  rfl

end
end

theorem lsendHandsOver : LsendHandsOver := by
  intro o s f d hfires p chan peer goes
  obtain ⟨hf, hd⟩ := hfires
  have hgo {sb : BitVec 8} {kind : Nat} {q : LinkPkt → Prop} {a : Arg} {pkt : Option TilePkt} (hsb : a.sb &&& 0x7F = sb)
      (hkind : (if o.ty == .tile then 2 else 0) = kind) (hex : exec (.lsend o) s = .next (s.lsendGoes f o a pkt)) (hq : q (lsendPacket s f o a pkt)) : goes sb kind q := by
    obtain ⟨es, hs⟩ := s.lsendGoes_frame f o a pkt
    subst hsb hkind
    obtain ⟨htag, hsb, hkind, hchan, hsrc⟩ := linkHead_fields (s.ownEntry p) (nfld o.imm 0 8) (if o.ty == .tile then 2 else 0) (a.sb &&& 0x7F) f.tag
    refine ⟨_, hex, lsendPacket s f o a pkt, ?_⟩
    rw [hs]
    refine ⟨rfl, rfl, rfl, nfld_low .., rfl, rfl, rfl, htag, hsb, ?_, ?_, hsrc, rfl, rfl, hq, rfl, rfl, rfl, rfl⟩
    · refine hkind.trans (Nat.mod_eq_of_lt ?_)
      split <;> decide
    · refine hchan.trans ?_
      rw [nfld_low]
      exact Nat.mod_mod ..
  refine ⟨fun ht => ?_, fun ht => ?_⟩
  · intro sb
    have hex := exec_lsend_scalar hf ht
    rw [Firing.p0_of_tok hd] at hex
    refine ⟨fun hp => ⟨_, rfl, hex.trans (by rw [if_pos hp])⟩, fun hp => ?_⟩
    rw [if_neg (Bool.eq_false_iff.mp hp)] at hex
    refine hgo (a := scalarArg ⟨d.pay, d.sb⟩) rfl (by rw [beq_false_of_ne ht]; rfl) hex ⟨?_, rfl⟩
    show (if sbDead sb then 0 else f.p0.pay) = _
    rw [sbDead_eq_sbNL hp, Firing.p0_of_tok hd]
  · intro a sb
    have hex (ha : s.argFault f a = none) := exec_lsend_tile hf ht (a := a) (sb := sb) rfl rfl ha
    have htile : (if o.ty == .tile then 2 else 0) = 2 := by rw [ht]; rfl
    refine ⟨fun i hi => exec_lsend_refused hf ht rfl hi, fun ha hp => ⟨_, rfl, (hex ha).trans (by rw [if_pos hp])⟩, fun ha hp hn => ?_, fun ha hl hv => ?_,
      fun ha hl hv => ?_⟩
    · have hx := hex ha
      rw [if_neg (Bool.eq_false_iff.mp hp), if_pos hn] at hx
      exact hgo rfl htile hx ⟨_, rfl, rfl, nullPacket_hSb ..⟩
    · obtain ⟨hp, hn⟩ := sbPZ_sbNL_of_live hl
      refine ⟨f.info cBuffer sb, rfl, (hex ha).trans ?_⟩
      rw [if_neg (Bool.eq_false_iff.mp hp), if_neg (Bool.eq_false_iff.mp hn), if_pos (by rw [hv]; rfl)]
    · obtain ⟨hp, hn⟩ := sbPZ_sbNL_of_live hl
      obtain ⟨htag, hrow, hcol, hfmt, hlen⟩ := slotPacket_fields a f.tag
      have hx := hex ha
      rw [if_neg (Bool.eq_false_iff.mp hp), if_neg (Bool.eq_false_iff.mp hn), if_neg (by rw [hv]; exact Bool.false_ne_true)] at hx
      exact hgo rfl htile hx ⟨rfl, _, rfl, htag, hrow, hcol, hfmt, hlen⟩

end Sys2Proof.Machine
end

section
/-! SUPPORT. LRECV (06 R235, 18 R453). -/

namespace Sys2Proof.Machine

open Sys2Proof.Claims

/-- A packet is taken: it no longer waits, and its peer and channel go on to the next sequence number. -/
def State.recvTaken (s : State) (p : LinkIn) : State :=
  { s with port := { s.port with linkIn := s.port.linkIn.erase p, rxSeq := tset 0 s.port.rxSeq (seqKey p.src p.chan) ((p.seq + 1) % 2 ^ 32) } }

/-- What a packet that has been taken leaves: the order of its peer and channel moves on, and memory and threads are as before. -/
def Took (s s' : State) (p : LinkIn) : Prop :=
  s'.port.linkIn = s.port.linkIn.erase p ∧ tget 0 s'.port.rxSeq (seqKey p.src p.chan) = (p.seq + 1) % 2 ^ 32 ∧ s'.mem = s.mem ∧ s'.stew = s.stew

/-- Elements, colours, units, tokens and faults have no part in it. -/
theorem took_of_frame {s s' : State} {p : LinkIn} (h : ∃ v cs fo, s' = { s.recvTaken p with fab := v, colours := cs, focus := fo }) : Took s s' p := by
  obtain ⟨v, cs, fo, rfl⟩ := h
  exact ⟨rfl, tget_tset_same .., rfl, rfl⟩

/-- The token of a packet of another kind, which stands parked (log entry 65). -/
def recvToken (s : State) (f : Firing) (p : LinkIn) : Token :=
  ⟨f.tag, fld p.head 64 8 &&& 0x7F, if nfld p.head 72 2 = 2 then .tile else .scalar, p.pay, p.pkt, .node f.e f.slot 0, .cand s.cycle, true, 0, s.loadidAt f.e f.ctx, []⟩

/-! ### What LRECV does with the packet that is next -/

section
variable {o : Ops} {s : State} {f : Firing} {p : LinkIn} (hf : s.focus = .node f) (hp : s.recvNext f.word = some p)
include hf hp

theorem exec_lrecv_unbound (hb : s.colBound f.e f.ctx (tagCol f.tag) = false) : exec (.lrecv o) s = .next
    { (s.recvTaken p).setLink (p.port - 80) { s.link (p.port - 80) with drops := (s.link (p.port - 80)).drops + 1 } with focus := .thread 0 } := by
  rw [show exec (.lrecv o) s = execLrecv o s from rfl, execLrecv, State.flow_node hf]
  dsimp only
  rw [hp]
  dsimp only
  rw [hb]
  rfl

section
variable (hb : s.colBound f.e f.ctx (tagCol f.tag) = true)
include hb

theorem exec_lrecv_otherKind (hk : (nfld p.head 72 2 == 2) ≠ (o.ty == .tile)) : exec (.lrecv o) s = .next
    (State.raiseFault { ((s.recvTaken p).spendCredit f.e (tagCol f.tag) 1).addToken (recvToken s f p) with focus := .thread 0 } (f.info cConfig (fld p.head 64 8 &&& 0x7F))) := by
  rw [show exec (.lrecv o) s = execLrecv o s from rfl, execLrecv, State.flow_node hf]
  dsimp only
  rw [hp]
  dsimp only
  rw [hb, if_neg (by decide), if_pos (bne_iff_ne.mpr hk)]
  rfl

theorem exec_lrecv_scalar (hk : (nfld p.head 72 2 == 2) = false) (ht : o.ty ≠ .tile) : exec (.lrecv o) s = .next
    ((s.recvTaken p).fire f o 1 (both o ⟨0, fld p.head 64 8 &&& 0x7F, .scalar, if sbDead (fld p.head 64 8 &&& 0x7F) then 0 else p.pay, none, f.tag, []⟩)
      (fld p.head 64 8 &&& 0x7F)) := by
  have hty : (o.ty == Ty.tile) = false := beq_false_of_ne ht
  rw [show exec (.lrecv o) s = execLrecv o s from rfl, execLrecv, State.flow_node hf]
  dsimp only
  rw [hp]
  dsimp only
  rw [hb, hk, hty, if_neg (by decide), if_neg (by decide), if_pos (by decide), outBoth_eq_both]
  rfl

section
variable (hk : (nfld p.head 72 2 == 2) = true) (ht : o.ty = .tile) {q : TilePkt} (hq : p.pkt = some q)
include hk ht hq

/-- A tile is refused, passed as a null one, or written into the slot that its header names. -/
theorem exec_lrecv_tile :
    let bad := State.raiseFault { s.recvTaken p with focus := .thread 0 } { f.info cBuffer (fld p.head 64 8 &&& 0x7F) with addr := q.addr, acc := 1 }
    let fires : State → Word → State := fun t pay =>
      t.fire f o 1 (both o ⟨0, hSb q.hdr &&& 0x7F, .ref, pay, none, f.tag, []⟩) (fld p.head 64 8 &&& 0x7F)
    (tileOk q = false → exec (.lrecv o) s = .next bad) ∧
    (tileOk q = true → sbDead (hSb q.hdr) = true → exec (.lrecv o) s = .next (fires (s.recvTaken p) 0)) ∧
    (tileOk q = true → sbDead (hSb q.hdr) = false → (s.recvTaken p).tileWrite f.e f.ctx q = none → exec (.lrecv o) s = .next bad) ∧
    ∀ s2 pay, tileOk q = true → sbDead (hSb q.hdr) = false → (s.recvTaken p).tileWrite f.e f.ctx q = some (s2, pay) → exec (.lrecv o) s = .next (fires s2 pay) := by
  have hty : (o.ty == Ty.tile) = true := beq_iff_eq.mpr ht
  intro bad fires
  rw [show exec (.lrecv o) s = execLrecv o s from rfl, execLrecv, State.flow_node hf]
  dsimp only
  rw [hp]
  dsimp only
  rw [hb, hk, hty, hq, if_neg (by decide), if_neg (by decide), if_neg (by decide), Option.getD_some]
  refine ⟨fun h => by rw [h]; rfl, fun h hd => by rw [h, hd, if_neg (by decide), if_pos rfl, outBoth_eq_both]; rfl, fun h hd hw => ?_, fun s2 pay h hd hw => ?_⟩
  · unfold State.recvTaken at hw
    rw [h, hd, if_neg (by decide), if_neg (by decide), hw]
    rfl
  · unfold State.recvTaken at hw
    rw [h, hd, if_neg (by decide), if_neg (by decide), hw]
    dsimp only
    rw [outBoth_eq_both]
    rfl

end
end
end

/-! ### Where a tile is written (R188, R235) -/

section
variable {s : State} {e c : Nat} {q : TilePkt}

theorem State.tileWrite_none (h : s.buf e c (hDbuf q.hdr) = none ∨
    ∃ b, s.buf e c (hDbuf q.hdr) = some b ∧ (b.depth ≤ hDslot q.hdr ∨ (b.slot (hDslot q.hdr)).full = true ∨ b.size < hBeats q.hdr)) : s.tileWrite e c q = none := by
  unfold State.tileWrite
  dsimp only
  obtain hb | ⟨b, hb, hfull⟩ := h
  · rw [hb]
  · rw [hb]
    exact if_pos hfull

theorem State.tileWrite_some {b : Buf} (hb : s.buf e c (hDbuf q.hdr) = some b) (hd : hDslot q.hdr < b.depth) (hf : (b.slot (hDslot q.hdr)).full = false)
    (hs : hBeats q.hdr ≤ b.size) : ∃ es, s.tileWrite e c q = some ({ s with fab := { s.fab with elems := es } }, mkRef (hDbuf q.hdr) (hDslot q.hdr) (hBeats q.hdr)) ∧
      (State.elem { s with fab := { s.fab with elems := es } } e).pool = msetN (s.elem e).pool (b.slotByte (hDslot q.hdr)) q.body := by
  have hfits : ¬(b.depth ≤ hDslot q.hdr ∨ (b.slot (hDslot q.hdr)).full = true ∨ b.size < hBeats q.hdr) := by
    rw [hf]
    simp only [Bool.false_eq_true, false_or]
    omega
  have hbuf : (s.setElem e ((s.elem e).poolWrite (b.slotByte (hDslot q.hdr)) q.body)).buf e c (hDbuf q.hdr) = some b := by
    rw [State.buf_of_ctxs fun e' => s.ctxs_setElem e _ (by rfl) e']
    exact hb
  obtain ⟨v, grant, hw⟩ := State.slotWritten_eq hbuf (hDslot q.hdr) false
    fun r => { r with full := true, hv := true, hdr := q.hdr, scale := q.scale, lines := hBeats q.hdr }
  unfold State.tileWrite
  dsimp only
  rw [hb]
  dsimp only
  rw [if_neg hfits, hw]
  refine ⟨_, rfl, ?_⟩
  show (State.elem (State.setBuf (State.setBuf _ _ _ _ _) _ _ _ _) e).pool = _
  rw [State.setBuf_pool, State.setBuf_pool, State.elem_setElem_same]
  rfl

end

/-! ### The cases together -/

/-- A fault for the activation of a firing, raised once its packet is taken. -/
theorem State.recvTaken_faulted {s u : State} {p : LinkIn} {f : Firing} {i : FaultInfo} (hu : ∃ es ts, u = { s.recvTaken p with
      focus := .thread 0, fab := { s.fab with elems := es, tokens := ts } }) (he : i.e = f.e) (ht : i.tag = f.tag) {c : Nat} (hcode : i.code = c) (hc : c < 16) :
    Took s (u.raiseFault i) p ∧ (u.raiseFault i).fab.units = s.fab.units ∧
    (s.purgedAt f.e f.tag = false → s.roundOf (tagCol f.tag) (s.loadidAt f.e (tagCtx f.tag)) (tagIter f.tag) = none →
      ∃ q : PendFault, (u.raiseFault i).fab.faults = s.fab.faults ++ [q] ∧ nfld q.rcd 192 4 = c ∧ q.tag = f.tag) := by
  obtain ⟨es, ts, rfl⟩ := hu
  refine ⟨?_, ?_, fun hp hr => ?_⟩
  · obtain ⟨toks, js, ps, fs, h⟩ := State.raiseFault_frame { s.recvTaken p with focus := .thread 0, fab := { s.fab with elems := es, tokens := ts } } i
    rw [h]
    exact took_of_frame ⟨_, _, _, rfl⟩
  · obtain ⟨-, -, -, hunits, -⟩ := State.raiseFault_rest { s.recvTaken p with focus := .thread 0, fab := { s.fab with elems := es, tokens := ts } } i
    exact hunits
  · rw [← ht, ← he] at hp hr
    rw [← ht, ← hcode]
    exact State.raiseFault_code (s := { s.recvTaken p with focus := .thread 0, fab := { s.fab with elems := es, tokens := ts } }) hp hr (hcode ▸ hc)

/-- Parked tokens stay where they are when a fault is raised (R262). -/
theorem State.raiseFault_parked {s : State} {t : Token} (h : t ∈ s.fab.tokens) (hp : t.parked = true) (i : FaultInfo) : t ∈ (s.raiseFault i).fab.tokens := by
  have hpark (a b c d : Nat) (l : Option Word) : t ∈ (s.parkRange a b c d l).fab.tokens := by
    refine List.mem_map.mpr ⟨t, h, ?_⟩
    rw [hp, Bool.not_true, Bool.and_false, if_neg Bool.false_ne_true]
  unfold State.raiseFault
  dsimp only
  split
  · exact h
  · split
    · split
      · exact hpark ((s.partOfElem i.e).getD 0) (tagCol i.tag) (tagIter i.tag) (tagIter i.tag) (some (s.loadidAt i.e (tagCtx i.tag)))
      · split
        · exact h
        · exact h
    · exact hpark ((s.partOfElem i.e).getD 0) (tagCol i.tag) (tagIter i.tag) (tagIter i.tag) (some (s.loadidAt i.e (tagCtx i.tag)))

/-- A firing of a node whose packet has been taken. -/
theorem State.recvTaken_fires {s t : State} {p : LinkIn} (ht : ∃ es, t = { s.recvTaken p with fab := { s.fab with elems := es } }) (f : Firing) (o : Ops)
    (outs : List Out) (bits : BitVec 8) : Took s (t.fire f o 1 outs bits) p ∧ (t.fire f o 1 outs bits).fab.tokens = s.fab.tokens ∧
      (t.fire f o 1 outs bits).fab.units = issued s f 1 outs := by
  have hunits := t.fire_units f o 1 outs bits
  obtain ⟨es, cs, us, h⟩ := t.fire_frame f o 1 outs bits
  obtain ⟨es', rfl⟩ := ht
  rw [h] at hunits ⊢
  exact ⟨took_of_frame ⟨_, _, _, rfl⟩, rfl, hunits⟩

theorem lrecvTakesTheNext : LrecvTakesTheNext := by
  intro o s f p hf hp hport key sb tile bound taken
  have hkind (b : Bool) (h : tile ↔ b = true) : (nfld p.head 72 2 == 2) = b := by
    cases b with
    | true => exact beq_iff_eq.mpr (h.mpr rfl)
    | false => exact beq_false_of_ne fun ht => Bool.false_ne_true (h.mp ht)
  refine ⟨fun hb => ⟨_, exec_lrecv_unbound hf hp hb, ⟨rfl, tget_tset_same .., rfl, rfl⟩, rfl, rfl, ?_⟩, ?_⟩
  · exact congrArg Link.drops (tget_tset_same ..)
  · intro faulted
    refine ⟨fun hb hk => ?_, fun hb hk ht => ?_, fun q hb hk ht hq hok => ?_, fun q hb hk ht hq hok hd => ?_, fun q hb hk ht hq hok hd hbuf => ?_,
      fun q b hb hk ht hq hok hd hbuf hslot hfull hsize => ?_⟩
    · obtain ⟨htook, hunits, hfault⟩ := State.recvTaken_faulted (s := s) (p := p) (f := f) (i := f.info cConfig sb) (c := 7)
        (u := { ((s.recvTaken p).spendCredit f.e (tagCol f.tag) 1).addToken (recvToken s f p) with focus := .thread 0 }) ⟨_, _, rfl⟩ rfl rfl rfl (by decide)
      refine ⟨_, exec_lrecv_otherKind hf hp hb ?_, ⟨htook, hunits, hfault⟩, ?_, recvToken s f p, ?_, rfl, rfl, rfl, rfl, rfl, rfl⟩
      · exact fun he => hk ((iff_of_eq (by rw [← he]; simp [tile])).trans beq_iff_eq)
      · show ((State.raiseFault _ _).elem f.e).credits = _
        obtain ⟨-, -, -, -, helems⟩ := State.raiseFault_rest { ((s.recvTaken p).spendCredit f.e (tagCol f.tag) 1).addToken (recvToken s f p) with focus := .thread 0 }
          (f.info cConfig sb)
        unfold State.elem
        rw [helems]
        exact congrArg Elem.credits (State.elem_setElem_same ..)
      · exact State.raiseFault_parked (List.mem_append_right _ (List.mem_singleton_self _)) rfl _
    · have hex := exec_lrecv_scalar hf hp hb (hkind false (by simpa using hk)) ht
      obtain ⟨htook, htok, hunits⟩ := State.recvTaken_fires (s := s) (p := p) ⟨_, rfl⟩ f o (both o ⟨0, sb, .scalar, if sbDead sb then 0 else p.pay, none, f.tag, []⟩) sb
      exact ⟨_, hex, htook, htok, hunits⟩
    · obtain ⟨hbad, -, -, -⟩ := exec_lrecv_tile hf hp hb (hkind true (by simpa using hk)) ht hq
      exact ⟨_, hbad hok, State.recvTaken_faulted ⟨_, _, rfl⟩ rfl rfl rfl (by decide)⟩
    · obtain ⟨-, hdead, -, -⟩ := exec_lrecv_tile hf hp hb (hkind true (by simpa using hk)) ht hq
      exact ⟨_, hdead hok hd, State.recvTaken_fires ⟨_, rfl⟩ ..⟩
    · obtain ⟨-, -, hbad, -⟩ := exec_lrecv_tile hf hp hb (hkind true (by simpa using hk)) ht hq
      exact ⟨_, hbad hok hd (State.tileWrite_none (s := s.recvTaken p) hbuf), State.recvTaken_faulted ⟨_, _, rfl⟩ rfl rfl rfl (by decide)⟩
    · obtain ⟨-, -, -, hgood⟩ := exec_lrecv_tile hf hp hb (hkind true (by simpa using hk)) ht hq
      obtain ⟨es, hw, hpool⟩ := State.tileWrite_some (s := s.recvTaken p) hbuf hslot hfull hsize
      obtain ⟨htook, htok, hunits⟩ := State.recvTaken_fires (s := s) (p := p) ⟨es, rfl⟩ f o
        (both o ⟨0, hSb q.hdr &&& 0x7F, .ref, mkRef (hDbuf q.hdr) (hDslot q.hdr) (hBeats q.hdr), none, f.tag, []⟩) sb
      exact ⟨_, hgood _ _ hok hd hw, htook, htok, (State.fire_pool ..).trans hpool, hunits⟩

end Sys2Proof.Machine
end

section
/-! SUPPORT. The links (18 R452 to R454): training, arrivals, packets that a link accepts, and peers that are given up. -/

namespace Sys2Proof.Machine

open Sys2Proof.Claims

/-! ### Training and loss (R452, R454) -/

theorem exec_linkTraining (l v : Nat) (peer : BitVec 32) (s : State) : exec (.linkTraining l v peer) s = .next (if 12 ≤ l ∨ v = 0 ∨ s.mgmt.boot < 6 then s
    else (s.setLink l { s.link l with trained := true, version := Nat.min v 3, peer := peer, stopped := [] }).moveHeld) := rfl

/-- The link that holds a packet once spray sets have changed (R454). -/
def State.moved (s : State) (x : LinkPkt) : LinkPkt :=
  match s.sprayed x.part x.peer with
  | m :: ms => if (m :: ms).contains (x.port - 80) then x else { x with port := 80 + m }
  | [] => x

theorem State.moveHeld_eq (s : State) : s.moveHeld = { s with port := { s.port with linkOut := s.port.linkOut.map s.moved } } := rfl

theorem State.moved_stays {s : State} {x : LinkPkt} (h : s.sprayed x.part x.peer = [] ∨ x.port - 80 ∈ s.sprayed x.part x.peer) : s.moved x = x := by
  unfold State.moved
  split
  · next m ms hs =>
    rw [hs] at h
    rw [if_pos (List.contains_iff_mem.mpr (h.resolve_left (List.cons_ne_nil m ms)))]
  · rfl

theorem State.moved_goes {s : State} {x : LinkPkt} (hn : s.sprayed x.part x.peer ≠ []) (h : x.port - 80 ∉ s.sprayed x.part x.peer) :
    ∃ j ∈ s.sprayed x.part x.peer, s.moved x = { x with port := 80 + j } := by
  unfold State.moved
  split
  · next m ms hs =>
    rw [hs] at h ⊢
    exact ⟨m, List.mem_cons_self, if_neg fun hc => h (List.contains_iff_mem.mp hc)⟩
  · next hs => exact absurd hs hn

theorem nth?_map {α β : Type} (f : α → β) (l : List α) (n : Nat) : nth? (l.map f) n = (nth? l n).map f := by
  induction l generalizing n with
  | nil => rfl
  | cons x l ih => cases n with
    | zero => rfl
    | succ n => exact ih n

theorem moveHeld_moves (s : State) : s.moveHeld.port.linkOut.length = s.port.linkOut.length ∧
    s.moveHeld = { s with port := { s.port with linkOut := s.moveHeld.port.linkOut } } ∧
    ∀ n x, nth? s.port.linkOut n = some x →
      ((s.sprayed x.part x.peer = [] ∨ x.port - 80 ∈ s.sprayed x.part x.peer) → nth? s.moveHeld.port.linkOut n = some x) ∧
      (s.sprayed x.part x.peer ≠ [] → x.port - 80 ∉ s.sprayed x.part x.peer →
        ∃ j ∈ s.sprayed x.part x.peer, nth? s.moveHeld.port.linkOut n = some { x with port := 80 + j }) := by
  rw [State.moveHeld_eq]
  refine ⟨List.length_map .., rfl, fun n x hx => ?_⟩
  have hn : nth? (s.port.linkOut.map s.moved) n = some (s.moved x) := by rw [nth?_map, hx]; rfl
  refine ⟨fun h => hn.trans (by rw [State.moved_stays h]), fun hne h => ?_⟩
  obtain ⟨j, hj, hm⟩ := State.moved_goes hne h
  exact ⟨j, hj, hn.trans (by rw [hm])⟩

/-! ### Arrivals and acknowledgements (R453) -/

section
variable {s : State} {l seq : Nat} {head : BitVec 128} {payload : List Byte} (hl : l < 12) (ht : (s.link l).trained = true) (hs : seq < 2 ^ 32)
include hl ht hs

theorem exec_linkPacketArrival : exec (.linkPacketArrival l seq head payload) s = .next (
    let peer := (s.link l).peer.toNat
    let chan := nfld head 74 8
    let p : LinkIn := ⟨80 + l, peer, chan, seq, head, BitVec.ofNat 64 (bnat payload 0 8), if nfld head 72 2 = 2 then some (packetOf payload) else none⟩
    if 2 ^ 31 ≤ (seq + 2 ^ 32 - tget 0 s.port.rxSeq (seqKey peer chan)) % 2 ^ 32 ∨ ∃ p ∈ s.port.linkIn, p.src = peer ∧ p.chan = chan ∧ p.seq = seq then s
    else { s with port := { s.port with linkIn := s.port.linkIn ++ [p] } }) := by
  show execLinkPacketArrival l seq head payload s = _
  unfold execLinkPacketArrival
  dsimp only
  have hs' : ¬ 4294967296 ≤ seq := by omega
  refine congrArg Host.Outcome.next (if_congr ?_ rfl rfl)
  simp [ht, Nat.not_le.mpr hl, hs', and_assoc]

end

theorem exec_linkAcknowledgement {s : State} {l seq i : Nat}
    (h : findIdx? (fun x : LinkPkt => !x.counted && x.peer == (s.link l).peer && x.chan == seq / 2 ^ 32 && x.seq == seq % 2 ^ 32) s.port.linkOut 0 = some i)
    (ht : (s.link l).trained = true) : exec (.linkAcknowledgement l seq) s = .next { s with port := { s.port with linkOut := dropNth s.port.linkOut i } } := by
  show execLinkAcknowledgement l seq s = _
  unfold execLinkAcknowledgement
  rw [h]
  exact congrArg Host.Outcome.next (if_pos ht)

/-! ### Packets leave (R235, R453) -/

/-- What a packet that leaves its queue sends: its done token, with NL where the packet is discarded. -/
def LinkPkt.outs (x : LinkPkt) (null : Bool) : List Out := if null then x.done.map fun d => { d with sb := sbOr [d.sb, sbNull] } else x.done

theorem State.inflDown_of_colours {s t : State} (h : t.colours = s.colours) (c n : Nat) : t.inflDown c n = { t with colours := (s.inflDown c n).colours } := by
  unfold State.inflDown
  split
  · rw [← h]
  · simp only [State.setColour, State.colour, h]

/-- A packet that leaves its queue releases its slots, counts no longer and sends its done token. -/
theorem State.linkDone_counted (s : State) {x : LinkPkt} (null : Bool) (hc : x.counted = true) : ∃ es, s.linkDone x null = { s with
    colours := (s.inflDown (tagCol x.tag) (1 - outCount x.done)).colours,
    fab := { s.fab with elems := es, tokens := s.fab.tokens ++ sent s (some x.port) x.e x.ctx 1 (x.outs null) } } := by
  obtain ⟨es, hrel⟩ := s.releaseAll_frame x.e x.ctx x.release
  have hways : SameWays s ((s.releaseAll x.e x.ctx x.release).inflDown (tagCol x.tag) (1 - outCount x.done)) := by
    obtain ⟨cs, h⟩ := (s.releaseAll x.e x.ctx x.release).inflDown_colours (tagCol x.tag) (1 - outCount x.done)
    rw [h]
    exact (sameWays_releaseAll s x.e x.ctx x.release).trans ⟨rfl, rfl, rfl, fun _ _ => rfl⟩
  refine ⟨es, ?_⟩
  unfold State.linkDone
  rw [hc, if_neg (by decide)]
  dsimp only
  rw [State.sendFrom_sent, hways.sent, State.inflDown_of_colours (s := s) (by rw [hrel]), hrel]
  rfl

theorem State.linkDone_uncounted (s : State) {x : LinkPkt} (null : Bool) (hc : x.counted = false) : s.linkDone x null = s := by
  unfold State.linkDone
  rw [hc]
  rfl

theorem State.canAccept_iff {s : State} {x : LinkPkt} : s.canAccept x = true ↔ x.counted = true ∧ x.since ≤ s.cycle ∧
    (∃ l ∈ s.sprayed x.part x.peer, (if x.pkt.isSome then 1 else 0) ∉ (s.link l).stopped) ∧ s.iterOpen (tagCol x.tag) x.load (tagIter x.tag) = true ∧
      ∀ r, s.heldRound (tagCol x.tag) x.load (tagIter x.tag) = some r → r.voided = false := by
  unfold State.canAccept LinkPkt.cls
  dsimp only
  cases s.heldRound (tagCol x.tag) x.load (tagIter x.tag) with
  | none => simp [and_assoc]
  | some r => simp [and_assoc]

section
variable {s : State} {i : Nat} {x : LinkPkt} (hx : nth? s.port.linkOut i = some x)
include hx

theorem State.acceptLink_accepts (h : s.canAccept x = true) :
    let n := tget 0 s.port.txSeq (seqKey x.peer.toNat x.chan)
    let s' := s.acceptLink i
    s'.port.linkOut = setNth s.port.linkOut i { x with seq := n, counted := false, done := [], ops := [], release := [] } ∧
      s'.port.txSeq = tset 0 s.port.txSeq (seqKey x.peer.toNat x.chan) ((n + 1) % 2 ^ 32) ∧
      s'.fab.tokens = s.fab.tokens ++ sent s (some x.port) x.e x.ctx 1 x.done ∧
      s'.colours = (s.inflDown (tagCol x.tag) (1 - outCount x.done)).colours ∧ s'.mem = s.mem ∧ s'.stew = s.stew := by
  obtain ⟨hc, -⟩ := State.canAccept_iff.mp h
  dsimp only
  unfold State.acceptLink State.numbered
  rw [hx]
  dsimp only
  rw [h, if_neg (by decide)]
  generalize hu : State.mk .. = u
  obtain ⟨es, heq⟩ := u.linkDone_counted false hc
  have hways : SameWays s u := hu ▸ ⟨rfl, rfl, rfl, fun _ _ => rfl⟩
  rw [hways.sent, State.inflDown_of_colours (s := s) (by rw [← hu])] at heq
  rw [heq, ← hu]
  exact ⟨rfl, rfl, rfl, rfl, rfl, rfl⟩

end

/-! ### Collectives that fail (R456) -/

/-- A collective of this chip that fails: its null reference is sent, and an event names it. -/
theorem State.collFail_own (s : State) (k : Nat) {g : Coll} (hf : g.fwd = false) : let s' := s.collFail k g
    ∃ ev : Event, s'.port = { s.port with colls := dropNth s.port.colls k } ∧ fld ev 60 4 = 5#4 ∧ nfld ev 44 16 = g.grp % 65536 ∧ fld ev 64 64 = tagClean g.tag ∧
      (s'.part g.part).events ++ (s'.part g.part).held = (s.part g.part).events ++ (s.part g.part).held ++ [ev] ∧
      s'.fab.tokens = s.fab.tokens ++ sent s (some g.port) g.e g.ctx 1 [⟨g.target, (g.sb ||| 0x40) &&& 0x7F, .ref, 0, none, g.tag, []⟩] ∧
      s'.mem = s.mem ∧ s'.stew = s.stew := by
  intro s'
  obtain ⟨u, hu⟩ : ∃ u, State.modSlot { s with port := { s.port with colls := dropNth s.port.colls k } } g.e g.ctx g.dbuf g.dslot (fun q => { q with full := false }) = u := ⟨_, rfl⟩
  obtain ⟨es, hframe⟩ := State.modSlot_frame { s with port := { s.port with colls := dropNth s.port.colls k } } g.e g.ctx g.dbuf g.dslot fun q => { q with full := false }
  have hways : SameWays s u := by
    rw [← hu]
    exact SameWays.trans (t := { s with port := { s.port with colls := dropNth s.port.colls k } }) ⟨rfl, rfl, rfl, fun _ _ => rfl⟩ (sameWays_modSlot ..)
  obtain ⟨t, ht⟩ : ∃ t, u.sendFrom (some g.port) g.e g.ctx 1 [⟨g.target, sbOr [g.sb, sbNull], .ref, 0, none, g.tag, []⟩] = t := ⟨_, rfl⟩
  have htokens : t.fab.tokens = s.fab.tokens ++ sent s (some g.port) g.e g.ctx 1 [⟨g.target, (g.sb ||| 0x40) &&& 0x7F, .ref, 0, none, g.tag, []⟩] := by
    rw [← ht, State.sendFrom_sent, hways.sent, sbOr_pair, ← hu, hframe]
    rfl
  have hrest : t.port = { s.port with colls := dropNth s.port.colls k } ∧ t.parts = s.parts ∧ t.mem = s.mem ∧ t.stew = s.stew := by
    rw [← ht, State.sendFrom_sent, ← hu, hframe]
    exact ⟨rfl, rfl, rfl, rfl⟩
  obtain ⟨hport, hparts, hmem, hstew⟩ := hrest
  obtain ⟨m, hs'⟩ : ∃ m, s' = t.sendEvent g.part (mkEvent 5 g.grp g.sb (tagCtx g.tag) (tagCol g.tag) g.e 0 (tagClean g.tag).toNat m 0) := by
    show ∃ m, State.collFail s k g = _
    unfold State.collFail
    dsimp only
    rw [hf, if_neg (by decide), hu, ht]
    exact ⟨_, rfl⟩
  obtain ⟨v, hv⟩ := t.sendEvent_frame g.part (mkEvent 5 g.grp g.sb (tagCtx g.tag) (tagCol g.tag) g.e 0 (tagClean g.tag).toNat m 0)
  have hall := t.sendEvent_all g.part (mkEvent 5 g.grp g.sb (tagCtx g.tag) (tagCol g.tag) g.e 0 (tagClean g.tag).toNat m 0)
  refine ⟨mkEvent 5 g.grp g.sb (tagCtx g.tag) (tagCol g.tag) g.e 0 (tagClean g.tag).toNat m 0, ?_, ?_, ?_, ?_, ?_, ?_, ?_, ?_⟩
  · rw [hs', hv]
    exact hport
  · exact fld_pack _ _ 60 4 5 rfl (by simp)
  · exact nfld_pack _ _ 44 16 g.grp rfl (by simp)
  · exact (fld_pack _ _ 64 64 (tagClean g.tag).toNat rfl (by simp)).trans (BitVec.ofNat_toNat ..)
  · rw [hs', hall]
    unfold State.part
    rw [hparts]
  · rw [hs', hv]
    exact htokens
  · rw [hs', hv]
    exact hmem
  · rw [hs', hv]
    exact hstew

theorem State.collFail_forward (s : State) (k : Nat) {g : Coll} (hf : g.fwd = true) : s.collFail k g = { s with port := { s.port with colls := dropNth s.port.colls k } } := by
  unfold State.collFail
  dsimp only
  rw [hf, if_pos rfl]

/-! ### Peers that are given up (R454) -/

theorem State.sprayGone_iff {s : State} {p : Nat} {peer : BitVec 32} :
    s.sprayGone p peer = true ↔ s.sprayed p peer = [] ∧ 130000 ≤ s.cycle - s.emptySince p peer := by
  unfold State.sprayGone usCycles
  simp

theorem State.lostPeer_iff {s : State} {g : Coll} : (∃ q, s.lostPeer g = some q) ↔ ∃ m, m < 16 ∧ peerIn g.topo m ≠ 0 ∧ g.waitsOn (peerIn g.topo m) = true ∧
    s.sprayed g.part (peerIn g.topo m) = [] ∧ 130000 ≤ s.cycle - s.emptySince g.part (peerIn g.topo m) := by
  unfold State.lostPeer
  rw [lfind_eq_find?, ← Option.isSome_iff_exists, List.find?_isSome, rangeFrom_eq_range']
  constructor
  · rintro ⟨q, hq, hp⟩
    obtain ⟨m, hm, rfl⟩ := List.mem_map.mp hq
    simp only [Bool.and_eq_true, bne_iff_ne, State.sprayGone_iff] at hp
    obtain ⟨⟨hne, hw⟩, hgone⟩ := hp
    exact ⟨m, by simpa using (List.mem_range'_1.mp hm).2, hne, hw, hgone⟩
  · rintro ⟨m, hm, hne, hw, hgone⟩
    refine ⟨_, List.mem_map.mpr ⟨m, List.mem_range'_1.mpr ⟨Nat.zero_le m, by omega⟩, rfl⟩, ?_⟩
    simp only [Bool.and_eq_true, bne_iff_ne, State.sprayGone_iff]
    exact ⟨⟨hne, hw⟩, hgone⟩

section
variable {s : State} {g : Coll} (hl : s.port.linkOut = []) (hg : s.port.colls = [g])
include hl hg

theorem exec_spraySetTimeout_coll : exec (.spraySetTimeout 0) s = .next (match s.lostPeer g with | some q => s.dropPeer g.part q | none => s) := by
  show execSpraySetTimeout 0 s = _
  unfold execSpraySetTimeout
  rw [hl, hg]
  rfl

/-- A collective that is the only one, and waits on the peer that is given up, fails. -/
theorem State.dropPeer_coll {q : BitVec 32} (hw : g.waitsOn q = true) : s.dropPeer g.part q = s.collFail 0 g := by
  have hsame : ({ s with port := { s.port with linkOut := [] } } : State) = s := by rw [← hl]
  unfold State.dropPeer
  dsimp only
  rw [hl, List.filter_nil, List.filter_nil, List.foldl_nil, hsame, hg]
  show State.collsFail s g.part q 0 1 = _
  unfold State.collsFail
  rw [hg]
  show (if _ then _ else _) = _
  rw [if_pos ⟨rfl, hw⟩]
  rfl

end

section
variable {s : State} {n : Nat} {x : LinkPkt} (hx : nth? s.port.linkOut n = some x)
include hx

theorem exec_spraySetTimeout_packet : exec (.spraySetTimeout n) s = .next (if s.sprayGone x.part x.peer then s.dropPeer x.part x.peer else s) := by
  show execSpraySetTimeout n s = _
  unfold execSpraySetTimeout
  rw [hx]

end

/-- A packet that is discarded: it is counted at its link, and its done token, if it is still to be sent, is null (R454). -/
theorem State.discarded (s : State) (x : LinkPkt) {u : State} (hu : u = State.linkDone (State.setLink s (x.port - 80)
      { s.link (x.port - 80) with drops := (s.link (x.port - 80)).drops + 1 }) x true) :
    u.port = (s.setLink (x.port - 80) { s.link (x.port - 80) with drops := (s.link (x.port - 80)).drops + 1 }).port ∧ u.mem = s.mem ∧ u.stew = s.stew ∧
      u.fab.tokens = s.fab.tokens ++ (if x.counted then sent s (some x.port) x.e x.ctx 1 (x.outs true) else []) := by
  have hways : SameWays s (s.setLink (x.port - 80) { s.link (x.port - 80) with drops := (s.link (x.port - 80)).drops + 1 }) := ⟨rfl, rfl, rfl, fun _ _ => rfl⟩
  cases hc : x.counted with
  | true =>
    obtain ⟨es, heq⟩ := (s.setLink (x.port - 80) { s.link (x.port - 80) with drops := (s.link (x.port - 80)).drops + 1 }).linkDone_counted true hc
    rw [hways.sent] at heq
    rw [hu, heq, if_pos rfl]
    exact ⟨rfl, rfl, rfl, rfl⟩
  | false =>
    rw [hu, State.linkDone_uncounted _ true hc, if_neg (by decide), List.append_nil]
    exact ⟨rfl, rfl, rfl, rfl⟩

/-- The only packet is discarded with its peer (R454). -/
theorem State.dropPeer_packet {s : State} {x : LinkPkt} (hl : s.port.linkOut = [x]) (hc : s.port.colls = []) : let u := s.dropPeer x.part x.peer
    u.port.linkOut = [] ∧ (u.link (x.port - 80)).drops = (s.link (x.port - 80)).drops + 1 ∧ u.mem = s.mem ∧ u.stew = s.stew ∧
      u.fab.tokens = s.fab.tokens ++ (if x.counted then sent s (some x.port) x.e x.ctx 1 (x.outs true) else []) := by
  have hways : SameWays s { s with port := { s.port with linkOut := [] } } := ⟨rfl, rfl, rfl, fun _ _ => rfl⟩
  obtain ⟨t, ht⟩ : ∃ t, t = State.linkDone (State.setLink { s with port := { s.port with linkOut := [] } } (x.port - 80)
      { s.link (x.port - 80) with drops := (s.link (x.port - 80)).drops + 1 }) x true := ⟨_, rfl⟩
  obtain ⟨hport, hmem, hstew, htok⟩ := State.discarded { s with port := { s.port with linkOut := [] } } x ht
  have hdrop : s.dropPeer x.part x.peer = t := by
    have hhit : (x.part == x.part && x.peer == x.peer) = true := by simp
    unfold State.dropPeer
    dsimp only
    rw [hl, List.filter_cons, List.filter_cons, hhit, if_neg (by decide), if_pos rfl, List.filter_nil, List.filter_nil, List.foldl_cons, List.foldl_nil]
    have hcolls : t.port.colls = [] := by rw [hport]; exact hc
    have hfail : t.collsFail x.part x.peer 0 t.port.colls.length = t := by rw [hcolls]; rfl
    rw [ht] at hfail ⊢
    exact hfail
  intro u
  rw [show u = t from hdrop, State.link, hport, hmem, hstew, htok, hways.sent]
  exact ⟨rfl, congrArg Link.drops (tget_tset_same ..), rfl, rfl, rfl⟩

theorem linksCarryPackets : LinksCarryPackets := by
  refine ⟨fun s l v peer => ⟨fun hl hv hb => ?_, fun h => ?_⟩, fun s l => rfl, moveHeld_moves, fun s l seq head payload hl ht hs => ?_, fun s i x hx => ?_,
    fun s l seq i h ht => exec_linkAcknowledgement h ht, fun s g hl hg => ?_, fun s n x hx => ?_⟩
  · rw [exec_linkTraining, if_neg (by omega)]
  · rw [exec_linkTraining, if_pos h]
  · intro peer chan ahead twice
    have hex := exec_linkPacketArrival (head := head) (payload := payload) hl ht hs
    refine ⟨fun h => hex.trans (congrArg _ (if_pos h)), fun ho hn => ⟨_, hex.trans (congrArg _ (if_neg ?_)), _, rfl, rfl, rfl, rfl, rfl, rfl, rfl⟩⟩
    rintro (h | h)
    · exact absurd h (Nat.not_le.mpr ho)
    · exact hn h
  · intro tag c n open_
    refine ⟨fun hc hs ho => State.acceptLink_accepts hx (State.canAccept_iff.mpr ⟨hc, hs, ho⟩), fun h => State.acceptLink_waits hx ?_⟩
    refine Bool.eq_false_iff.mpr fun ha => ?_
    obtain ⟨hc, hs, ho⟩ := State.canAccept_iff.mp ha
    obtain h | h | h := h
    · rw [hc] at h
      cases h
    · omega
    · exact h ho
  · intro gone
    have hgone : gone ↔ ∃ q, s.lostPeer g = some q := State.lostPeer_iff.symm
    have hex := exec_spraySetTimeout_coll hl hg
    refine ⟨fun hn => ?_, fun h hf => ?_⟩
    · have hnone : s.lostPeer g = none := Option.eq_none_iff_forall_not_mem.mpr fun q hq => hn (hgone.mpr ⟨q, hq⟩)
      rw [hnone] at hex
      exact hex
    · obtain ⟨q, hq⟩ := hgone.mp h
      have hfound := lfind_true hq
      simp only [Bool.and_eq_true] at hfound
      obtain ⟨⟨-, hw⟩, -⟩ := hfound
      rw [hq] at hex
      dsimp only at hex
      rw [State.dropPeer_coll hl hg hw] at hex
      obtain ⟨ev, hport, htype, -, -, hall, htok, hmem, hstew⟩ := s.collFail_own 0 hf
      exact ⟨_, hex, by rw [hport, hg]; rfl, hmem, hstew, htok, ev, htype, hall⟩
  · have hex := exec_spraySetTimeout_packet hx
    refine ⟨fun h => hex.trans (congrArg _ (if_neg ?_)), fun hs hc hl hcolls hport => ?_⟩
    · rintro hgone
      obtain ⟨hs, hc⟩ := State.sprayGone_iff.mp hgone
      obtain h | h := h
      · exact h hs
      · omega
    · rw [if_pos (State.sprayGone_iff.mpr ⟨hs, hc⟩)] at hex
      have houts : x.outs true = x.done.map fun d => { d with sb := (d.sb ||| 0x40) &&& 0x7F } := by
        unfold LinkPkt.outs
        rw [if_pos rfl]
        exact List.map_congr_left fun d _ => by rw [sbOr_pair]; rfl
      obtain ⟨hout, hdrops, hmem, hstew, htok⟩ := State.dropPeer_packet hl hcolls
      exact ⟨_, hex, hout, hdrops, hmem, hstew, houts ▸ htok⟩

end Sys2Proof.Machine
end

section
/-! SUPPORT. Collectives (06 R234, 18 R455, R456), and O44. -/

namespace Sys2Proof.Machine

open Sys2Proof.Claims

/-! ### COLL joins its group (R234) -/

theorem collFmt_iff {n : Nat} : collFmt n = true ↔ n < 3 ∨ n = 5 := by
  simp only [collFmt, Bool.or_eq_true, beq_iff_eq]
  omega

/-- The low half of a group's word. -/
theorem fld_low_half (g : Word) : fld g 0 16 = g.setWidth 16 := by
  refine BitVec.eq_of_toNat_eq ?_
  rw [fld_toNat, nfld_low, BitVec.toNat_setWidth]

section
variable (s : State) (f : Firing) (o : Ops) (a : Arg) (b : Buf)

/-- The collective that COLL starts. -/
def collStart : Coll :=
  let p := (s.partOfElem f.e).getD 0
  let g := tget 0 (s.part p).groups (nfld o.imm 8 8)
  ⟨p, nfld o.imm 8 8, f.e, f.ctx, f.slot, wPort f.word, f.tag, a.sb, nfld o.imm 6 2, bit o.fl 8, bit o.fl 5, nfld o.imm 0 5, b.widx, o.t1,
    s.loadidAt f.e f.ctx, s.ownEntry p, slotPacket a f.tag, [], fld g 0 16, nfld g 17 16, s.cycle + 1 + s.toPort f.e (wPort f.word), (s.part p).topo, false⟩

/-- Its slot is reserved and it joins the collectives in flight. -/
def State.collJoins : State :=
  let s1 := (((s.reserveSlot f.e f.ctx (nfld o.imm 0 5) b).latch f o a.sb).settle f.e (tagCol f.tag) f.count 1).releaseAll f.e f.ctx (releases [a])
  { s1 with port := { s1.port with colls := s1.port.colls ++ [collStart s f o a b] }, focus := .thread 0 }

theorem State.collJoins_frame : ∃ es cs, s.collJoins f o a b = { s with
    colours := cs, fab := { s.fab with elems := es }, port := { s.port with colls := s.port.colls ++ [collStart s f o a b] }, focus := .thread 0 } := by
  obtain ⟨es1, h1⟩ := (s.reserveSlot f.e f.ctx (nfld o.imm 0 5) b).latch_frame f o a.sb
  obtain ⟨es2, cs, h2⟩ := ((s.reserveSlot f.e f.ctx (nfld o.imm 0 5) b).latch f o a.sb).settle_frame f.e (tagCol f.tag) f.count 1
  obtain ⟨es3, h3⟩ := (((s.reserveSlot f.e f.ctx (nfld o.imm 0 5) b).latch f o a.sb).settle f.e (tagCol f.tag) f.count 1).releaseAll_frame f.e f.ctx (releases [a])
  refine ⟨es3, cs, ?_⟩
  unfold State.collJoins
  dsimp only
  rw [h3, h2, h1]
  rfl

end

/-- What COLL does: the checks of its operand, its group and its tile, and what its buffer has room for. -/
theorem exec_coll {o : Ops} {s : State} {f : Firing} (hf : s.focus = .node f) {a : Arg} (ha : s.arg f .tile o.a (bit o.imm 5) = a) (hn : s.argFault f a = none) : ∃ u,
    exec (.coll o) s = .next (
      if sbPZ a.sb then s.faultFiring f { f.info cPoison a.sb with pnum := wPort f.word }
      else if sbNL a.sb then s.fire f o 1 (only o.t1 ⟨0, a.sb, .ref, 0, none, f.tag, []⟩) a.sb
      else if !bit (tget 0 (s.part ((s.partOfElem f.e).getD 0)).groups (nfld o.imm 8 8)) 16 then s.faultFiring f (f.info cConfig a.sb)
      else if !a.slot.hv ∨ !collFmt (hFmt a.slot.hdr) then s.faultFiring f (f.info cBuffer a.sb)
      else u) ∧
    (s.buf f.e f.ctx (nfld o.imm 0 5) = none → u = s.faultFiring f (f.info cBuffer a.sb)) ∧
    ∀ b, s.buf f.e f.ctx (nfld o.imm 0 5) = some b → u =
      if b.size < fmtBeats (hFmt a.slot.hdr) (hNrow a.slot.hdr) (hNcol a.slot.hdr) then s.faultFiring f (f.info cBuffer a.sb)
      else if (b.slot b.widx).full then s.unfire f
      else s.collJoins f o a b := by
  rw [show exec (.coll o) s = execColl o s from rfl, execColl, State.flow_node hf]
  dsimp only
  rw [ha, hn]
  cases hb : s.buf f.e f.ctx (nfld o.imm 0 5) with
  | none => exact ⟨_, rfl, fun _ => rfl, fun b h => by cases h⟩
  | some b => 
    refine ⟨_, rfl, fun h => (Option.some_ne_none b h).elim, fun b' h => ?_⟩
    obtain rfl := Option.some.inj h
    rfl

theorem collJoinsItsGroup : CollJoinsItsGroup := by
  intro o s f hf a p g n ha fits buffer hn
  have hgrp : nfld o.imm 8 8 = o.imm.toNat / 256 := Nat.mod_eq_of_lt (Nat.div_lt_of_lt_mul o.imm.isLt)
  have hbuf : nfld o.imm 0 5 = n := nfld_zero_five o.imm
  obtain ⟨u, hex, hnone, hsome⟩ := exec_coll (a := a) hf rfl hn
  rw [hgrp] at hex
  rw [hbuf] at hnone hsome
  have hfits : fits ↔ ¬((!a.slot.hv) = true ∨ (!collFmt (hFmt a.slot.hdr)) = true) := by
    rw [not_or, Bool.not_eq_true', Bool.not_eq_true', Bool.not_eq_false, Bool.not_eq_false, collFmt_iff]
  have hlive (hd : sbDead a.sb = false) : exec (.coll o) s = .next (if !bit g 16 then s.faultFiring f (f.info cConfig a.sb)
      else if !a.slot.hv ∨ !collFmt (hFmt a.slot.hdr) then s.faultFiring f (f.info cBuffer a.sb) else u) := by
    obtain ⟨hp, hl⟩ := sbPZ_sbNL_of_live hd
    rw [hex, if_neg (Bool.eq_false_iff.mp hp), if_neg (Bool.eq_false_iff.mp hl)]
  have hvalid (hd : sbDead a.sb = false) (hg : g.getLsbD 16 = true) : exec (.coll o) s =
      .next (if !a.slot.hv ∨ !collFmt (hFmt a.slot.hdr) then s.faultFiring f (f.info cBuffer a.sb) else u) := by
    rw [hlive hd, if_neg (by rw [bit, hg]; decide)]
  refine ⟨fun hp => ⟨_, rfl, hex.trans (by rw [if_pos hp])⟩, fun hp hl => by rw [hex, if_neg (Bool.eq_false_iff.mp hp), if_pos hl],
    fun hd hg => ⟨f.info cConfig a.sb, rfl, ?_⟩, fun hd hg h => ⟨f.info cBuffer a.sb, rfl, ?_⟩, fun b hd hg hfit hb => ?_⟩
  · rw [hlive hd, if_pos (by rw [bit, hg]; rfl)]
  · rw [hvalid hd hg]
    split
    · rfl
    · next hgood => rw [hnone (h.resolve_left fun hbad => hbad (hfits.mpr hgood))]
  · have hu := hvalid hd hg
    rw [if_neg (hfits.mp hfit), hsome b hb] at hu
    refine ⟨fun hs => ⟨f.info cBuffer a.sb, rfl, hu.trans (by rw [if_pos hs])⟩, fun hs hfull => by rw [hu, if_neg (Nat.not_lt.mpr hs), if_pos hfull], fun hs hfull => ?_⟩
    rw [if_neg (Nat.not_lt.mpr hs), if_neg (Bool.eq_false_iff.mp hfull)] at hu
    obtain ⟨es, cs, hframe⟩ := s.collJoins_frame f o a b
    obtain ⟨-, hrow, hcol, hfmt, -⟩ := slotPacket_fields a f.tag
    refine ⟨_, hu, collStart s f o a b, ?_⟩
    rw [hframe]
    refine ⟨rfl, rfl, hgrp, rfl, rfl, rfl, rfl, hbuf, rfl, rfl, ?_, rfl, rfl, rfl, rfl, hrow, hcol, hfmt, rfl, rfl, rfl, rfl⟩
    show fld (tget 0 (s.part p).groups (nfld o.imm 8 8)) 0 16 = _
    rw [hgrp]
    exact fld_low_half g

end Sys2Proof.Machine
end

section
/-! SUPPORT. O44: how contributions combine and a collective ends (06 R234, 18 R455, R456). -/

namespace Sys2Proof.Machine

open Sys2Proof.Claims

/-! ### Packets of collectives -/

/-- A packet of a collective joins the queue of its link, which has accepted it. -/
theorem State.linkSend_frame (s : State) (p port : Nat) (peer : BitVec 32) (chan : Nat) (head : BitVec 128) (pkt : TilePkt) (e ctx : Nat) : ∃ ts x,
    s.linkSend p port peer chan head pkt e ctx = { s with port := { s.port with txSeq := ts, linkOut := s.port.linkOut ++ [x] } } ∧
      x.port = port ∧ x.peer = peer ∧ x.counted = false := ⟨_, _, rfl, rfl, rfl, rfl⟩

/-- The result goes down to the children, in the order of their entries. -/
def State.collDown (s : State) (g : Coll) (t : TilePkt) (cs : List Nat) : State :=
  cs.foldl (fun (s : State) c => s.linkSend g.part (linkTo g.topo c) (peerIn g.topo c) 256 (linkHead g.own 0 2 g.sb g.tag) t g.e g.ctx) s

theorem State.collDown_frame (s : State) (g : Coll) (t : TilePkt) (cs : List Nat) : ∃ ts ys,
    s.collDown g t cs = { s with port := { s.port with txSeq := ts, linkOut := s.port.linkOut ++ ys } } ∧
      ys.map (fun y => (y.port, y.peer)) = cs.map fun c => (linkTo g.topo c, peerIn g.topo c) := by
  induction cs generalizing s with
  | nil => exact ⟨s.port.txSeq, [], by rw [List.append_nil]; rfl, rfl⟩
  | cons c cs ih =>
    obtain ⟨ts, x, hone, hport, hpeer, -⟩ := s.linkSend_frame g.part (linkTo g.topo c) (peerIn g.topo c) 256 (linkHead g.own 0 2 g.sb g.tag) t g.e g.ctx
    obtain ⟨ts', ys, hrest, hys⟩ := ih (s.linkSend g.part (linkTo g.topo c) (peerIn g.topo c) 256 (linkHead g.own 0 2 g.sb g.tag) t g.e g.ctx)
    refine ⟨ts', x :: ys, ?_, ?_⟩
    · show (s.linkSend _ _ _ _ _ _ _ _).collDown g t cs = _
      rw [hrest, hone]
      show State.mk .. = State.mk ..
      rw [List.append_assoc]
      rfl
    · rw [List.map_cons, List.map_cons, hys, hport, hpeer]

/-! ### The end of a collective -/

section
variable (s : State) (k : Nat) (g : Coll) (vals : List Nat) (bits : BitVec 8)

/-- The result's elements, and the bits that its conversion raises. -/
def Coll.result : List (Nat × BitVec 8) := vals.map fun v => if hFmt g.tile.hdr = 5 then (v, (0 : BitVec 8)) else fpConv fmtF32 (fmtOf (fmtTy (hFmt g.tile.hdr))) 0 g.sat v
def Coll.resultSb : BitVec 8 := sbOr [g.bits, (g.result vals).foldl (fun b r => b ||| r.2) bits]
def Coll.resultData : List Byte := packLanes (fmtBits (hFmt g.tile.hdr)) ((g.result vals).map fun r => r.1)

/-- The collective is gone and its result is on its way to the children. -/
def State.collSent : State := State.collDown { s with port := { s.port with colls := dropNth s.port.colls k } } g
  ⟨setFld g.tile.hdr 64 8 (g.resultSb vals bits).toNat, 0, g.resultData vals⟩ (g.awaited.filter fun c => c != g.own)

/-- A firing with XL shows its bits (R283). -/
def State.collShown (t : State) (sb : BitVec 8) : State :=
  match t.slotWord g.e g.ctx g.slot with
  | some w => if bit w 26 then t.setElem g.e ((t.elem g.e).capture t.cycle g.tag g.slot sb) else t
  | none => t

/-- The result written into its slot, with the header of this chip's tile. -/
def State.collWritten (t : State) (b : Buf) : State :=
  (t.setElem g.e ((t.elem g.e).poolWrite (b.slotByte g.dslot) (g.resultData vals))).slotWritten g.e g.ctx g.dbuf g.dslot g.kp
    fun q => { q with full := true, hv := true, hdr := g.tile.hdr, scale := 0, lines := ceilDiv (g.resultData vals).length 64 }

theorem State.collEnd_forward (hf : g.fwd = true) : s.collEnd k g vals bits = s.collSent k g vals bits := if_pos hf

section
variable {s k g vals bits}
variable (hf : g.fwd = false)
include hf

theorem State.collEnd_lost (hb : (s.collSent k g vals bits).buf g.e g.ctx g.dbuf = none) : s.collEnd k g vals bits =
    ((s.collSent k g vals bits).inflDown (tagCol g.tag) 1).raiseFault { faultInfo0 with code := cBuffer, reason := 0xD2, slot := g.slot, e := g.e, tag := g.tag, sb := g.sb } := by
  unfold State.collEnd
  dsimp only
  rw [hf, if_neg (by decide)]
  split
  · rfl
  · next b h => exact absurd (h.symm.trans hb) (Option.some_ne_none b)

theorem State.collEnd_slot {b : Buf} (hb : (s.collSent k g vals bits).buf g.e g.ctx g.dbuf = some b) : s.collEnd k g vals bits =
    (((s.collSent k g vals bits).collWritten g vals b).collShown g (g.resultSb vals bits)).sendFrom (some g.port) g.e g.ctx 1
      [⟨g.target, g.resultSb vals bits, .ref, mkRef g.dbuf g.dslot (ceilDiv (g.resultData vals).length 64), none, g.tag, []⟩] := by
  unfold State.collEnd
  dsimp only
  rw [hf, if_neg (by decide)]
  split
  · next h => exact absurd (hb.symm.trans h) (Option.some_ne_none b)
  · next c h =>
    obtain rfl : c = b := Option.some.inj (h.symm.trans hb)
    rfl

end

theorem State.collShown_frame (t : State) (sb : BitVec 8) : ∃ es, t.collShown g sb = { t with fab := { t.fab with elems := es } } := by
  unfold State.collShown
  split
  · split
    · exact ⟨_, rfl⟩
    · exact ⟨_, rfl⟩
  · exact ⟨_, rfl⟩

theorem State.collShown_elem (t : State) (sb : BitVec 8) (e : Nat) : ((t.collShown g sb).elem e).ctxs = (t.elem e).ctxs ∧ ((t.collShown g sb).elem e).pool = (t.elem e).pool := by
  have hcap : ((t.setElem g.e ((t.elem g.e).capture t.cycle g.tag g.slot sb)).elem e).ctxs = (t.elem e).ctxs ∧
      ((t.setElem g.e ((t.elem g.e).capture t.cycle g.tag g.slot sb)).elem e).pool = (t.elem e).pool := by
    rw [State.elem_setElem]
    split
    · next he => rw [← he]; exact ⟨rfl, rfl⟩
    · exact ⟨rfl, rfl⟩
  unfold State.collShown
  split
  · split
    · exact hcap
    · exact ⟨rfl, rfl⟩
  · exact ⟨rfl, rfl⟩

theorem State.slotWritten_frame (t : State) (e c n i : Nat) (kp : Bool) (w : Slot → Slot) : ∃ es, t.slotWritten e c n i kp w = { t with fab := { t.fab with elems := es } } := by
  unfold State.slotWritten
  split
  · exact ⟨_, rfl⟩
  · exact ⟨_, rfl⟩

theorem State.collWritten_frame (t : State) (b : Buf) : ∃ es, t.collWritten g vals b = { t with fab := { t.fab with elems := es } } := by
  obtain ⟨es, h⟩ := (t.setElem g.e ((t.elem g.e).poolWrite (b.slotByte g.dslot) (g.resultData vals))).slotWritten_frame g.e g.ctx g.dbuf g.dslot g.kp
    fun q => { q with full := true, hv := true, hdr := g.tile.hdr, scale := 0, lines := ceilDiv (g.resultData vals).length 64 }
  exact ⟨es, h⟩

/-- The ports that the result leaves by, and the collectives that remain. -/
theorem State.collEnd_port : ∃ ts ys, (s.collEnd k g vals bits).port = { s.port with colls := dropNth s.port.colls k, txSeq := ts, linkOut := s.port.linkOut ++ ys } ∧
    ys.map (fun y => (y.port, y.peer)) = (g.awaited.filter fun c => c != g.own).map fun c => (linkTo g.topo c, peerIn g.topo c) := by
  obtain ⟨ts, ys, hsent, hys⟩ := State.collDown_frame { s with port := { s.port with colls := dropNth s.port.colls k } } g
    ⟨setFld g.tile.hdr 64 8 (g.resultSb vals bits).toNat, 0, g.resultData vals⟩ (g.awaited.filter fun c => c != g.own)
  have hport : (s.collSent k g vals bits).port = { s.port with colls := dropNth s.port.colls k, txSeq := ts, linkOut := s.port.linkOut ++ ys } := by
    rw [State.collSent, hsent]
  refine ⟨ts, ys, ?_, hys⟩
  rw [← hport]
  cases hf : g.fwd with
  | true => rw [State.collEnd_forward s k g vals bits hf]
  | false =>
    cases hb : (s.collSent k g vals bits).buf g.e g.ctx g.dbuf with
    | none =>
      obtain ⟨cs, hdown⟩ := (s.collSent k g vals bits).inflDown_colours (tagCol g.tag) 1
      obtain ⟨-, -, hp, -, -⟩ := State.raiseFault_rest ((s.collSent k g vals bits).inflDown (tagCol g.tag) 1)
        { faultInfo0 with code := cBuffer, reason := 0xD2, slot := g.slot, e := g.e, tag := g.tag, sb := g.sb }
      rw [State.collEnd_lost hf hb, hp, hdown]
    | some b =>
      obtain ⟨es, hw⟩ := State.collWritten_frame g vals (s.collSent k g vals bits) b
      obtain ⟨es', hsh⟩ := State.collShown_frame g ((s.collSent k g vals bits).collWritten g vals b) (g.resultSb vals bits)
      rw [State.collEnd_slot hf hb, State.sendFrom_sent, hsh, hw]
      rfl

end

/-! ### The slot of an integer result -/

section
variable {g : Coll} (hi : hFmt g.tile.hdr = 5) (vals : List Nat) (bits : BitVec 8)
include hi

theorem Coll.result_int : g.result vals = vals.map fun v => (v, 0) := by
  unfold Coll.result
  exact List.map_congr_left fun v _ => if_pos hi

theorem Coll.resultData_int : g.resultData vals = packLanes 32 vals := by
  unfold Coll.resultData
  rw [Coll.result_int hi, hi, List.map_map]
  exact congrArg (packLanes 32) (List.map_id vals)

theorem Coll.resultSb_int : g.resultSb vals bits = (g.bits ||| bits) &&& 0x7F := by
  have hfold : (vals.map fun v => (v, (0 : BitVec 8))).foldl (fun b r => b ||| r.2) bits = bits := by
    rw [List.foldl_map]
    simp
  rw [Coll.resultSb, Coll.result_int hi, hfold, sbOr_pair]

end

theorem State.collWritten_slot {t : State} {g : Coll} {b : Buf} (vals : List Nat) (hb : t.buf g.e g.ctx g.dbuf = some b) (hi : g.dslot < b.slots.length) :
    SameWays t (t.collWritten g vals b) ∧
    ((t.collWritten g vals b).elem g.e).pool = msetN (t.elem g.e).pool (b.slotByte g.dslot) (g.resultData vals) ∧
    ∃ b', (t.collWritten g vals b).buf g.e g.ctx g.dbuf = some b' ∧ (b'.slot g.dslot).full = true ∧ (b'.slot g.dslot).hv = true ∧
      (b'.slot g.dslot).hdr = g.tile.hdr := by
  have hbuf : (t.setElem g.e ((t.elem g.e).poolWrite (b.slotByte g.dslot) (g.resultData vals))).buf g.e g.ctx g.dbuf = some b :=
    (State.buf_setElem (by rfl) ..).trans hb
  obtain ⟨v, grant, hw⟩ := State.slotWritten_eq hbuf g.dslot g.kp
    fun q => { q with full := true, hv := true, hdr := g.tile.hdr, scale := 0, lines := ceilDiv (g.resultData vals).length 64 }
  unfold State.collWritten
  rw [hw]
  refine ⟨?_, ?_, _, State.buf_setBuf_same .., ?_⟩
  · exact (sameWays_setElem t g.e _ (by rfl)).trans ((sameWays_setBuf ..).trans (sameWays_setBuf ..))
  · rw [State.setBuf_pool, State.setBuf_pool, State.elem_setElem_same]
    rfl
  · rw [Buf.slot_setSlot, if_pos ⟨rfl, hi⟩]
    exact ⟨rfl, rfl, rfl⟩

/-- An integer result in its slot, and its reference on its way. -/
theorem State.collEnd_int {s : State} {g : Coll} {b : Buf} (k : Nat) (vals : List Nat) (bits : BitVec 8) (hf : g.fwd = false)
    (hb : s.buf g.e g.ctx g.dbuf = some b) (hi : g.dslot < b.slots.length) (hfmt : hFmt g.tile.hdr = 5) :
    let s' := s.collEnd k g vals bits
    let data := packLanes 32 vals
    s'.port.colls = dropNth s.port.colls k ∧ mgetN (s'.elem g.e).pool (b.slotByte g.dslot) data.length = data ∧ s'.mem = s.mem ∧
    (∃ b', s'.buf g.e g.ctx g.dbuf = some b' ∧ (b'.slot g.dslot).full = true ∧ (b'.slot g.dslot).hv = true ∧ (b'.slot g.dslot).hdr = g.tile.hdr) ∧
    s'.fab.tokens = s.fab.tokens ++ sent s (some g.port) g.e g.ctx 1
      [⟨g.target, (g.bits ||| bits) &&& 0x7F, .ref, mkRef g.dbuf g.dslot ((data.length + 63) / 64), none, g.tag, []⟩] := by
  intro s' data
  obtain ⟨ts, ys, hport, -⟩ := s.collEnd_port k g vals bits
  obtain ⟨ts', ys', hsent, -⟩ := State.collDown_frame { s with port := { s.port with colls := dropNth s.port.colls k } } g
    ⟨setFld g.tile.hdr 64 8 (g.resultSb vals bits).toNat, 0, g.resultData vals⟩ (g.awaited.filter fun c => c != g.own)
  obtain ⟨u, hu⟩ : ∃ u, s.collSent k g vals bits = u := ⟨_, rfl⟩
  have hsame : u = { s with port := u.port } := by rw [← hu, State.collSent, hsent]
  have hub : u.buf g.e g.ctx g.dbuf = some b := by rw [hsame]; exact hb
  obtain ⟨hways, hpool, b', hb', hslot⟩ := State.collWritten_slot vals hub hi
  obtain ⟨es, hw⟩ := u.collWritten_frame g vals b
  obtain ⟨es', hsh⟩ := (u.collWritten g vals b).collShown_frame g (g.resultSb vals bits)
  have helem (e : Nat) := (u.collWritten g vals b).collShown_elem g (g.resultSb vals bits) e
  obtain ⟨t, ht⟩ : ∃ t, (u.collWritten g vals b).collShown g (g.resultSb vals bits) = t := ⟨_, rfl⟩
  rw [ht] at hsh
  simp only [ht] at helem
  have hwt : SameWays (u.collWritten g vals b) t := sameWays_of_ctxs (by rw [hsh]) (by rw [hsh]) (by rw [hsh]) fun e => (helem e).1
  have hsu : SameWays s u := by rw [hsame]; exact ⟨rfl, rfl, rfl, fun _ _ => rfl⟩
  have hend : s' = t.setTokens (t.fab.tokens ++ sent s (some g.port) g.e g.ctx 1
      [⟨g.target, (g.bits ||| bits) &&& 0x7F, .ref, mkRef g.dbuf g.dslot ((data.length + 63) / 64), none, g.tag, []⟩]) := by
    show s.collEnd k g vals bits = _
    rw [State.collEnd_slot hf (hu ▸ hub), hu, ht, State.sendFrom_sent, ((hsu.trans hways).trans hwt).sent, Coll.resultSb_int hfmt, Coll.resultData_int hfmt]
    rfl
  obtain ⟨hctxs, htpool⟩ := helem g.e
  refine ⟨by rw [show s'.port = _ from hport], ?_, ?_, ⟨b', ?_, hslot⟩, ?_⟩
  · rw [hend]
    show mgetN (t.elem g.e).pool _ _ = _
    rw [htpool, hpool, Coll.resultData_int hfmt]
    exact mgetN_msetN ..
  · rw [hend, hsh, hw, hsame]
    rfl
  · rw [hend]
    exact (State.buf_of_ctxs (fun e => (helem e).1) g.e g.ctx g.dbuf).trans hb'
  · rw [hend, hsh, hw, hsame]
    rfl

end Sys2Proof.Machine
end

section
/-! SUPPORT. O44: contributions that reach a collective, and collectives that fail (18 R455, R456). -/

namespace Sys2Proof.Machine

open Sys2Proof.Claims

/-! ### What has been gathered (R456) -/

section
variable {s : State} {k : Nat} {g : Coll}

theorem State.collGathered_waits (h : ∃ m ∈ g.awaited, tget none g.got m = none) : s.collGathered k g = s := by
  obtain ⟨m, hm, hn⟩ := h
  unfold State.collGathered
  rw [if_pos]
  rw [Bool.not_eq_true']
  exact List.all_eq_false.mpr ⟨m, hm, by rw [hn]; decide⟩

section
variable (h : ∀ m ∈ g.awaited, (tget none g.got m).isSome = true)
include h

theorem State.collGathered_root (ho : g.own = 0) : s.collGathered k g = s.collEnd k g g.combined.1 g.combined.2 := by
  unfold State.collGathered
  rw [if_neg (by rw [List.all_eq_true.mpr h]; decide)]
  exact if_pos ho

theorem State.collGathered_sends (ho : g.own ≠ 0) : ∃ ts x,
    s.collGathered k g = { s with port := { s.port with txSeq := ts, linkOut := s.port.linkOut ++ [x] } } ∧
      x.port = 80 + nfld (tget 0 g.topo g.parent) 4 4 ∧ x.peer = peerIn g.topo g.parent ∧ x.counted = false := by
  unfold State.collGathered
  rw [if_neg (by rw [List.all_eq_true.mpr h]; decide)]
  dsimp only
  rw [if_neg ho]
  exact State.linkSend_frame ..

end
end

/-! ### A contribution reaches a collective of this chip -/

section
variable {s : State} {k : Nat} {g : Coll} (hg : nth? s.port.colls k = some g)
include hg

section
variable {c : Nat} {hdr : BitVec 256} {body : List Byte} (hc : c % 16 ≠ g.own)
include hc

theorem exec_collContribution_ignored (h : g.fits hdr body = false ∨ ¬ tget 0 s.port.rxSeq (seqKey (peerIn g.topo (c % 16)).toNat 256) = c / 16) :
    exec (.collContribution k c hdr body) s = .next s := by
  show execCollContribution k c hdr body s = _
  unfold execCollContribution
  rw [hg]
  dsimp only
  rw [if_neg hc, if_pos]
  simpa [State.collTurn] using h

variable (hfit : g.fits hdr body = true) (hturn : tget 0 s.port.rxSeq (seqKey (peerIn g.topo (c % 16)).toNat 256) = c / 16)
include hfit hturn

theorem exec_collContribution_child (hm : c % 16 ∈ g.awaited) (hn : tget none g.got (c % 16) = none) : exec (.collContribution k c hdr body) s = .next (
    let h := { g with got := tset none g.got (c % 16) (some ⟨hdr, 0, body⟩) }
    ((s.collTaken g.topo (c % 16)).putColl k h).collGathered k h) := by
  show execCollContribution k c hdr body s = _
  unfold execCollContribution
  rw [hg]
  dsimp only
  rw [if_neg hc, if_neg (by simp [State.collTurn, hfit, hturn]), if_pos (List.contains_iff_mem.mpr hm), hn]
  rfl

theorem exec_collContribution_parent (hm : c % 16 ∉ g.awaited) (hp : c % 16 = g.parent) (hall : ∀ m ∈ g.awaited, (tget none g.got m).isSome = true) :
    exec (.collContribution k c hdr body) s = .next ((s.collTaken g.topo (c % 16)).collEnd k g (tileValues ⟨hdr, 0, body⟩) (hSb hdr &&& 0x1F)) := by
  show execCollContribution k c hdr body s = _
  unfold execCollContribution
  rw [hg]
  dsimp only
  rw [if_neg hc, if_neg (by simp [State.collTurn, hfit, hturn]), if_neg fun h => hm (List.contains_iff_mem.mp h), if_pos ⟨hp, List.all_eq_true.mpr hall⟩]

end

theorem exec_collContribution_own (hdr : BitVec 256) (body : List Byte) (ho : g.own < 16) (hf : g.fwd = false) (hn : tget none g.got g.own = none)
    (hs : g.since ≤ s.cycle) (hopen : s.iterOpen (tagCol g.tag) g.load (tagIter g.tag) = true) : exec (.collContribution k g.own hdr body) s = .next (
      let h := { g with got := tset none g.got g.own (some g.tile), since := s.cycle }
      (s.putColl k h).collGathered k h) := by
  have hmod : g.own % 16 = g.own := Nat.mod_eq_of_lt ho
  show execCollContribution k g.own hdr body s = _
  unfold execCollContribution
  rw [hg]
  dsimp only
  rw [hmod, if_pos rfl, if_neg (by simp [hf, hn, hopen, Nat.not_lt.mpr hs])]

theorem exec_collTimeout : exec (.collTimeout k) s = .next (
    if ((tget none g.got g.own).isSome || g.fwd) && decide (1300 * g.tmo ≤ s.cycle - g.since) then s.collFail k g else s) := by
  show execCollTimeout k s = _
  unfold execCollTimeout
  rw [hg]
  rfl

end

/-! ### A contribution reaches a chip that only forwards (log entry 66) -/

/-- The collective that a chip which is no member takes part in. -/
def collForwarding (s : State) (p grp n : Nat) (t : TilePkt) : Coll :=
  let g := tget 0 (s.part p).groups grp
  ⟨p, grp, 0, 0, 0, 0, tagClean (fld t.hdr 0 64), 0, 0, false, false, 0, 0, 0, 0, s.ownEntry p, t, tset none [] n (some t), fld g 0 16, nfld g 17 16, s.cycle,
    (s.part p).topo, true⟩

/-- It takes the contribution. -/
def ForwardTakes (s : State) (p grp n seq : Nat) (t : TilePkt) : Prop :=
  let x := collForwarding s p grp n t
  pV (s.part p).desc = true ∧ (tget 0 (s.part p).groups grp).getLsbD 16 = true ∧ bit x.members x.own = false ∧ n ∈ x.awaited ∧
    (∀ y ∈ s.port.colls, y.part = p → y.grp = grp → y.fits t.hdr t.body = false) ∧ s.collTurn x.topo n seq = true

section
variable {s : State} {p grp n seq : Nat} {t : TilePkt}

theorem State.collForward_eq : s.collForward p grp n seq t =
    (let x := collForwarding s p grp n t
     let s1 := s.collTaken x.topo n
     if !pV (s.part p).desc ∨ !bit (tget 0 (s.part p).groups grp) 16 ∨ bit x.members x.own ∨ !x.awaited.contains n ∨
         (s.port.colls.any fun y => y.part == p && y.grp == grp && y.fits t.hdr t.body) ∨ !s.collTurn x.topo n seq then s
     else State.collGathered { s1 with port := { s1.port with colls := s1.port.colls ++ [x] } } s1.port.colls.length x) := rfl

theorem forwardTakes_iff : ForwardTakes s p grp n seq t ↔ ¬(
    let x := collForwarding s p grp n t
    (!pV (s.part p).desc) = true ∨ (!bit (tget 0 (s.part p).groups grp) 16) = true ∨ bit x.members x.own = true ∨ (!x.awaited.contains n) = true ∨
      (s.port.colls.any fun y => y.part == p && y.grp == grp && y.fits t.hdr t.body) = true ∨ (!s.collTurn x.topo n seq) = true) := by
  unfold ForwardTakes bit
  simp [and_assoc]

theorem State.collForward_stays (h : ¬ ForwardTakes s p grp n seq t) : s.collForward p grp n seq t = s := by
  rw [State.collForward_eq]
  exact if_pos (not_not.mp (mt forwardTakes_iff.mpr h))

theorem State.collForward_takes (h : ForwardTakes s p grp n seq t) : ∃ rs i, s.collForward p grp n seq t =
    State.collGathered { s with port := { s.port with rxSeq := rs, colls := s.port.colls ++ [collForwarding s p grp n t] } } i (collForwarding s p grp n t) := by
  rw [State.collForward_eq]
  exact ⟨_, _, if_neg (forwardTakes_iff.mp h)⟩

theorem collForwarding_got (m : Nat) : (tget none (collForwarding s p grp n t).got m).isSome = true ↔ m = n := by
  show (tget none (tset none [] n (some t)) m).isSome = true ↔ _
  rw [tget_tset]
  split
  · next h => simp [h]
  · next h => simpa [tget] using Ne.symm h

end

/-- A chip that only forwards waits for the rest of its subtree, and then sends what it has gathered to its parent. -/
theorem collForward_goes {s : State} {p grp n seq : Nat} {t : TilePkt} (h : ForwardTakes s p grp n seq t) (ho : (collForwarding s p grp n t).own ≠ 0) :
    let x := collForwarding s p grp n t
    let s' := s.collForward p grp n seq t
    s'.port.colls = s.port.colls ++ [x] ∧ s'.mem = s.mem ∧ s'.fab = s.fab ∧
      ((∃ m ∈ x.awaited, m ≠ n) → s'.port.linkOut = s.port.linkOut) ∧
      ((∀ m ∈ x.awaited, m = n) → ∃ y : LinkPkt, s'.port.linkOut = s.port.linkOut ++ [y] ∧ y.port = 80 + nfld (tget 0 x.topo x.parent) 4 4 ∧
        y.peer = peerIn x.topo x.parent ∧ y.counted = false) := by
  intro x s'
  obtain ⟨rs, i, hs'⟩ := State.collForward_takes h
  by_cases hall : ∀ m ∈ x.awaited, m = n
  · obtain ⟨ts, y, hsent, hport, hpeer, hcount⟩ := State.collGathered_sends (k := i)
      (s := { s with port := { s.port with rxSeq := rs, colls := s.port.colls ++ [x] } }) (fun m hm => (collForwarding_got m).mpr (hall m hm)) ho
    rw [show s' = _ from hs'.trans hsent]
    exact ⟨rfl, rfl, rfl, fun ⟨m, hm, hne⟩ => absurd (hall m hm) hne, fun _ => ⟨y, rfl, hport, hpeer, hcount⟩⟩
  · have hwait : ∃ m ∈ x.awaited, tget none x.got m = none := by
      push Not at hall
      obtain ⟨m, hm, hne⟩ := hall
      exact ⟨m, hm, Option.not_isSome_iff_eq_none.mp (mt (collForwarding_got m).mp hne)⟩
    rw [show s' = _ from hs'.trans (State.collGathered_waits hwait)]
    exact ⟨rfl, rfl, rfl, fun _ => rfl, fun h => absurd h hall⟩

/-- A child's contribution is the one that the chip now has of that entry. -/
theorem gathered_iff {g : Coll} {n : Nat} {t : TilePkt} : (∀ m ∈ g.awaited, (tget none (tset none g.got n (some t)) m).isSome = true) ↔
    ∀ m ∈ g.awaited, m ≠ n → (tget none g.got m).isSome = true := by
  refine forall₂_congr fun m _ => ?_
  rw [tget_tset]
  split
  · next h => simp [h]
  · next h => simp [Ne.symm h]

theorem collectivesCombine : CollectivesCombine := by
  refine ⟨fun s k c hdr body hk => ?_, fun s k g hg => ⟨fun c hdr body => ?_, fun hdr body ho hf hn hs hopen hw => ?_, fun vals bits => ?_,
    fun b vals bits hf hb hi hfmt => State.collEnd_int k vals bits hf hb hi hfmt, fun hf hgot ht => ?_, fun hf ht => ?_, fun h => ?_⟩⟩
  · intro j p grp n g t x takes
    have hex : exec (.collContribution k c hdr body) s = .next (s.collForward p grp n (c / 16) t) := by
      show execCollContribution k c hdr body s = _
      unfold execCollContribution
      rw [hk]
    refine ⟨fun h => hex.trans (congrArg _ (State.collForward_stays h)), fun h ho => ⟨_, hex, collForward_goes h ho⟩⟩
  · intro n hn turn s1 all
    refine ⟨exec_collContribution_ignored hg hn, fun hfit hturn hm hnone => ?_, fun hfit hturn hm hp hall => exec_collContribution_parent hg hn hfit hturn hm hp hall⟩
    intro h
    have hex := exec_collContribution_child hg hn hfit hturn hm hnone
    have hall : all ↔ ∀ m ∈ h.awaited, (tget none h.got m).isSome = true := (gathered_iff (g := g)).symm
    refine ⟨fun hna => hex.trans (congrArg _ (State.collGathered_waits ?_)), fun ha ho => hex.trans (congrArg _ (State.collGathered_root (hall.mp ha) ho)), fun ha ho => ?_⟩
    · obtain ⟨m, hm⟩ := not_forall.mp (mt hall.mpr hna)
      obtain ⟨hm, hnot⟩ := Classical.not_imp.mp hm
      exact ⟨m, hm, Option.not_isSome_iff_eq_none.mp hnot⟩
    · obtain ⟨ts, x, hsent, hport, hpeer, hcount⟩ := State.collGathered_sends (s := s1.putColl k h) (k := k) (hall.mp ha) ho
      refine ⟨_, hex, x, ?_⟩
      rw [show (((s.collTaken g.topo (c % 16)).putColl k h).collGathered k h) = _ from hsent]
      exact ⟨rfl, hport, hpeer, hcount, rfl, rfl, rfl⟩
  · obtain ⟨m, hm, hne, hnone⟩ := hw
    exact (exec_collContribution_own hg hdr body ho hf hn hs hopen).trans (congrArg _ (State.collGathered_waits ⟨m, hm, (tget_tset_ne _ _ _ _ (Ne.symm hne)).trans hnone⟩))
  · obtain ⟨ts, ys, hport, hys⟩ := s.collEnd_port k g vals bits
    exact ⟨ys, by rw [hport], hys⟩
  · obtain ⟨ev, hport, htype, hcode, htag, hall, htok, hmem, hstew⟩ := s.collFail_own k hf
    refine ⟨_, (exec_collTimeout hg).trans (congrArg _ (if_pos (by simp [hgot, ht]))), ev, by rw [hport], htype, hcode, htag, hall, htok, hmem, hstew⟩
  · rw [exec_collTimeout hg, if_pos (by simp [hf, ht]), State.collFail_forward s k hf]
  · rw [exec_collTimeout hg, if_neg]
    obtain ⟨hf, hn⟩ | h := h
    · simp [hf, hn]
    · simp [Nat.not_le.mpr h]

end Sys2Proof.Machine

namespace Sys2Proof

/-- Settles O44: what each packet and contribution does by its checks, the fields of the packets sent, and what a collective that ends or fails leaves. -/
theorem linksAndCollectives : Obligations.LinksAndCollectives :=
  ⟨Machine.lsendHandsOver, Machine.lrecvTakesTheNext, Machine.linksCarryPackets, Machine.collJoinsItsGroup, Machine.collectivesCombine⟩

end Sys2Proof
end
